-- ==== Sys2Proof/Word.lean ====
section
/-!
DEFINITION. The word types of the Kravo T1 and the indices of its units (R7, R12, R16, R58).
-/
namespace Sys2Proof

/-- A byte of scratchpad, DRAM or payload. -/
abbrev Byte := BitVec 8

/-- A 64-bit register, status word or address. -/
abbrev W64 := BitVec 64

/-- Tile index of R12; also the index of the channel above the tile (R14). -/
abbrev TileId := Fin 576

/-- Port P00 to P41 (R16). -/
abbrev PortId := Fin 42

/-- Die 0 to 3 (R12). -/
abbrev DieId := Fin 4

/-- A map from numbers to values that lists only the entries that differ from a default. -/
abbrev Sp (α : Type) := List (Nat × α)

end Sys2Proof
end

