-- ==== Sys2Proof/Machine/Sp.lean ====
section
/-!
DEFINITION. Sparse maps: lists of (key, value) with strictly rising keys that hold no entry equal to the
default. Memories, counters and unit tables are all held so; equal contents are equal data.
-/
namespace Sys2Proof.Machine

variable {α : Type}

/-- The value at key `k`; an unlisted key holds the default `d`. -/
def Sp.get (d : α) : Sp α → Nat → α
  | [], _ => d
  | (j, v) :: m, k => if j = k then v else Sp.get d m k

/-- Remove key `k`, with every entry of it. -/
def Sp.drop : Sp α → Nat → Sp α
  | [], _ => []
  | (j, v) :: m, k => if j = k then Sp.drop m k else (j, v) :: Sp.drop m k

/-- Insert `v` at `k`, replacing what stands there. -/
def Sp.ins : Sp α → Nat → α → Sp α
  | [], k, v => [(k, v)]
  | (j, u) :: m, k, v =>
    if j < k then (j, u) :: Sp.ins m k v else if j = k then (k, v) :: m else (k, v) :: (j, u) :: m

/-- Write `v` at `k`; writing the default removes the entry. -/
def Sp.put [DecidableEq α] (d : α) (m : Sp α) (k : Nat) (v : α) : Sp α :=
  if v = d then Sp.drop m k else Sp.ins m k v

/-- All keys are above `lo`, rise strictly, and no value is the default. -/
def Sp.wfFrom [DecidableEq α] (d : α) : Nat → Sp α → Bool
  | _, [] => true
  | lo, (j, v) :: m => decide (lo ≤ j) && !decide (v = d) && Sp.wfFrom d (j + 1) m

/-- The canonical form of a sparse map. -/
def Sp.wf [DecidableEq α] (d : α) (m : Sp α) : Bool := Sp.wfFrom d 0 m

/-- Memory: bytes by address; an unlisted byte reads 0 (DESIGN CHOICE, log 4). -/
abbrev Mem := Sp Byte

/-- One byte of a memory. -/
def Mem.get (m : Mem) (a : Nat) : Byte := Sp.get 0#8 m a

/-- Write one byte of a memory. -/
def Mem.set (m : Mem) (a : Nat) (b : Byte) : Mem := Sp.put 0#8 m a b

/-- The canonical form of a memory. -/
def Mem.wf (m : Mem) : Bool := Sp.wf 0#8 m

/-- `n` consecutive bytes from `a`. -/
def Mem.bytes (m : Mem) (a : Nat) : Nat → List Byte
  | 0 => []
  | n + 1 => Mem.get m a :: Mem.bytes m (a + 1) n

/-- Write consecutive bytes from `a`. -/
def Mem.setBytes (m : Mem) (a : Nat) : List Byte → Mem
  | [] => m
  | b :: bs => Mem.setBytes (Mem.set m a b) (a + 1) bs

/-- A little-endian number of the given bytes (R4). -/
def leNat : List Byte → Nat
  | [] => 0
  | b :: bs => b.toNat + 256 * leNat bs

/-- The `n` little-endian bytes of a number (R4). -/
def leBytes : Nat → Nat → List Byte
  | 0, _ => []
  | n + 1, x => BitVec.ofNat 8 x :: leBytes n (x / 256)

/-- Bits [lo+len-1 : lo] of a number. -/
def fld (w lo len : Nat) : Nat := (w >>> lo) % 2 ^ len

/-- Bit `i` of a number. -/
def flag (w i : Nat) : Bool := Nat.testBit w i

/-- A two's complement reading of the low `len` bits. -/
def sgn (len w : Nat) : Int := if w % 2 ^ len < 2 ^ (len - 1) then (w % 2 ^ len : Nat) else (w % 2 ^ len : Nat) - (2 ^ len : Nat)

/-- The `len`-bit two's complement code of an integer. -/
def twos (len : Nat) (x : Int) : Nat := (x % (2 ^ len : Nat)).toNat

/-- `b` as 0 or 1. -/
def bit (b : Bool) : Nat := if b then 1 else 0

/-- Is `b`'s width-`w` modular value later than or equal to `a` (R275, R489)? -/
def reached (w a b : Nat) : Bool := decide ((a + 2 ^ w - b % 2 ^ w) % 2 ^ w < 2 ^ (w - 1))

/-- Remove the first element that satisfies `p`. -/
def eraseFirst (p : α → Bool) : List α → List α
  | [] => []
  | x :: xs => if p x then xs else x :: eraseFirst p xs

/-- Replace the first element that satisfies `p` by `f` of it. -/
def updFirst (p : α → Bool) (f : α → α) : List α → List α
  | [] => []
  | x :: xs => if p x then f x :: xs else x :: updFirst p f xs

/-- Element `i` of a list, or a default. -/
def nth (d : α) : List α → Nat → α
  | [], _ => d
  | x :: _, 0 => x
  | _ :: xs, n + 1 => nth d xs n

/-- The list with element `i` replaced. -/
def setNth (v : α) : List α → Nat → List α
  | [], _ => []
  | _ :: xs, 0 => v :: xs
  | x :: xs, n + 1 => x :: setNth v xs n

/-- The sum of a list of numbers. -/
def sumNat : List Nat → Nat
  | [] => 0
  | x :: xs => x + sumNat xs

/-- Cut a list into pieces of `n` (at most `fuel` pieces). -/
def chunks (n : Nat) : Nat → List α → List (List α)
  | 0, _ => []
  | _ + 1, [] => []
  | f + 1, xs => xs.take n :: chunks n f (xs.drop n)

/-- One of two values: the second where `i`. -/
def pget (x : α × α) (i : Bool) : α := if i then x.2 else x.1

/-- The pair with one value replaced. -/
def pset (x : α × α) (i : Bool) (v : α) : α × α := if i then (x.1, v) else (v, x.2)

/-- Ceiling of a quotient. -/
def cdiv (a b : Nat) : Nat := (a + b - 1) / b

/-- Round up to a multiple. -/
def upTo (a b : Nat) : Nat := cdiv a b * b

/-- Put a number into a rising list. -/
def insertNat (x : Nat) : List Nat → List Nat
  | [] => [x]
  | y :: ys => if x ≤ y then x :: y :: ys else y :: insertNat x ys

/-- A list of numbers in rising order. -/
def sortNat (xs : List Nat) : List Nat := xs.foldr insertNat []

/-- How many elements satisfy a test. -/
def countIf {α : Type} (p : α → Bool) (xs : List α) : Nat := (xs.filter p).length

end Sys2Proof.Machine
end

