-- ==== Sys2Proof/Machine/Cipher.lean ====
section
/-!
DEFINITION. The published functions that the spec names and that the model computes: AES-128 (FIPS 197) for the
random streams of R54, SHA-512 (FIPS 180-4) for the digests of R405 and R421, and CRC-32.
-/
namespace Sys2Proof.Machine

/-- The S-box of FIPS 197: byte x at bits [8x+7:8x]. -/
def aesSbox : Nat := 0x16bb54b00f2d99416842e6bf0d89a18cdf2855cee9871e9b948ed9691198f8e19e1dc186b95735610ef6034866b53e708a8bbd4b1f74dde8c6b4a61c2e2578ba08ae7a65eaf4566ca94ed58d6d37c8e779e4959162acd3c25c2406490a3a32e0db0b5ede14b8ee4688902a22dc4f816073195d643d7ea7c41744975fec130ccdd2f3ff1021dab6bcf5389d928f40a351a89f3c507f02f94585334d43fbaaefd0cf584c4a39becb6a5bb1fc20ed00d153842fe329b3d63b52a05a6e1b1a2c830975b227ebe28012079a059618c323c7041531d871f1e5a534ccf73f362693fdb7c072a49cafa2d4adf04759fa7dc982ca76abd7fe2b670130c56f6bf27b777c63

/-- One byte through the S-box. -/
def aesSub (x : Nat) : Nat := fld aesSbox (8 * x) 8

/-- Doubling in the field of AES. -/
def aesDbl (x : Nat) : Nat := if x < 128 then 2 * x else (2 * x - 256) ^^^ 27

/-- Byte-wise exclusive or of two lists. -/
def xorL (a b : List Nat) : List Nat := List.zipWith (fun x y => x ^^^ y) a b

/-- One column through MixColumns. -/
def aesMixCol : List Nat → List Nat
  | [a, b, c, d] =>
    [aesDbl a ^^^ (aesDbl b ^^^ b) ^^^ c ^^^ d, a ^^^ aesDbl b ^^^ (aesDbl c ^^^ c) ^^^ d,
     a ^^^ b ^^^ aesDbl c ^^^ (aesDbl d ^^^ d), (aesDbl a ^^^ a) ^^^ b ^^^ c ^^^ aesDbl d]
  | x => x

/-- ShiftRows on the 16 bytes in column order. -/
def aesShift (s : List Nat) : List Nat :=
  [0, 5, 10, 15, 4, 9, 14, 3, 8, 13, 2, 7, 12, 1, 6, 11].map (nth 0 s)

/-- MixColumns on the 16 bytes. -/
def aesMix (s : List Nat) : List Nat := (chunks 4 4 s).flatMap aesMixCol

/-- The next round key from the last and the round constant. -/
def aesNextKey (k : List Nat) (rc : Nat) : List Nat :=
  let t := [aesSub (nth 0 k 13) ^^^ rc, aesSub (nth 0 k 14), aesSub (nth 0 k 15), aesSub (nth 0 k 12)]
  let a := xorL (k.take 4) t
  let b := xorL ((k.drop 4).take 4) a
  let c := xorL ((k.drop 8).take 4) b
  let d := xorL ((k.drop 12).take 4) c
  a ++ b ++ c ++ d

/-- Rounds 1 to 9 and the last from state `s` under round key `k`. -/
def aesRounds : Nat → List Nat → List Nat → Nat → List Nat
  | 0, s, k, rc => xorL (aesShift (s.map aesSub)) (aesNextKey k rc)
  | n + 1, s, k, rc =>
    let k' := aesNextKey k rc
    aesRounds n (xorL (aesMix (aesShift (s.map aesSub))) k') k' (aesDbl rc)

/-- The little-endian bytes of a number, as naturals. -/
def natBytes : Nat → Nat → List Nat
  | 0, _ => []
  | n + 1, x => x % 256 :: natBytes n (x / 256)

/-- The number of little-endian bytes. -/
def bytesNat : List Nat → Nat
  | [] => 0
  | b :: bs => b + 256 * bytesNat bs

/-- B(K, x) of R54: AES-128 under `key` of `x`, both written little-endian. -/
def aesBlock (key x : Nat) : Nat :=
  let k := natBytes 16 key
  bytesNat (aesRounds 9 (xorL (natBytes 16 x) k) k 1)

/-- Draw C of the stream with key K: 16 bits of its block (R54). -/
def streamDraw (k c : Nat) : Nat := fld (aesBlock k (c / 8)) (16 * (c % 8)) 16

/-- The addressed output of the job stream at counter (n, b, k) (R54). -/
def streamAt (key n b k : Nat) : Nat := aesBlock key (k % 2 ^ 16 + b % 2 ^ 16 * 2 ^ 16 + n % 2 ^ 64 * 2 ^ 32 + 2 ^ 127)

/-- The round constants of SHA-512: constant t at bits [64t+63:64t]. -/
def shaK : Nat := 0x6c44198c4a4758175fcb6fab3ad6faec597f299cfc657e2a4cc5d4becb3e42b6431d67c49c100d4c3c9ebe0a15c9bebc32caab7b40c7249328db77f523047d841b710b35131c471b113f9804bef90dae0a637dc5a2c898a606f067aa72176fbaf57d4f7fee6ed178eada7dd6cde0eb1ed186b8c721c0c207ca273eceea26619cc67178f2e372532bbef9a3f7b2c67915a4506cebde82bde990befffa23631e288cc702081a6439ec84c87814a1f0ab7278a5636f43172f60748f82ee5defb2fc682e6ff3d6b2b8a35b9cca4f7763e3734ed8aa4ae3418acb391c0cb3c5c95a6334b0bcb5e19b48a82748774cdf8eeb991e376c085141ab5319a4c116b8d2d0c8106aa07032bbd1b8f40e35855771202ad69906245565a910d192e819d6ef5218c76c51a30654be30c24b8b70d0f89791a81a664bbc423001a2bfe8a14cf1036492722c851482353b81c2c92e47edaee6766a0abb3c77b2a8650a73548baf63de53380d139d95b3df4d2c6dfc5ac42aed2e1b21385c26c92627b70a8546d22ffc142929670a0e6e7006ca6351e003826fd5a79147930aa725c6e00bf33da88fc2bf597fc7beef0ee4b00327c898fb213fa831c66d2db43210983e5152ee66dfab76f988da831153b55cb0a9dcbd41fbd44a7484aa6ea6e4832de92c6f592b0275240ca1cc77ac9c650fc19dc68b8cd5b5efbe4786384f25e3e49b69c19ef14ad2c19bf174cf6926949bdc06a725c7123580deb1fe3b1696b172be5d74f27b896f550c7dc3d5ffb4e2243185be4ee4b28c12835b0145706fbed807aa98a3030242ab1c5ed5da6d8118923f82a4af194f9b59f111f1b605d0193956c25bf348b538e9b5dba58189dbbcb5c0fbcfec4d3b2f7137449123ef65cd428a2f98d728ae22

/-- The initial hash value of SHA-512. -/
def shaH0 : Nat := 0x5be0cd19137e21791f83d9abfb41bd6b9b05688c2b3e6c1f510e527fade682d1a54ff53a5f1d36f13c6ef372fe94f82bbb67ae8584caa73b6a09e667f3bcc908

/-- Rotation right of a 64-bit word. -/
def rotr (n x : Nat) : Nat := (x >>> n) ||| (x % 2 ^ n) <<< (64 - n)

/-- The message schedule, the last 16 words first to last, extended `n` times. -/
def shaSchedule : Nat → List Nat → List Nat
  | 0, w => w
  | n + 1, w =>
    let j := w.length
    let a := nth 0 w (j - 15)
    let b := nth 0 w (j - 2)
    let s0 := rotr 1 a ^^^ rotr 8 a ^^^ a >>> 7
    let s1 := rotr 19 b ^^^ rotr 61 b ^^^ b >>> 6
    shaSchedule n (w ++ [(nth 0 w (j - 16) + s0 + nth 0 w (j - 7) + s1) % 2 ^ 64])

/-- One round of SHA-512 on the eight working words. -/
def shaRound (s : List Nat) (k w : Nat) : List Nat :=
  match s with
  | [a, b, c, d, e, f, g, h] =>
    let s1 := rotr 14 e ^^^ rotr 18 e ^^^ rotr 41 e
    let ch := (e &&& f) ^^^ ((2 ^ 64 - 1 - e) &&& g)
    let t1 := h + s1 + ch + k + w
    let s0 := rotr 28 a ^^^ rotr 34 a ^^^ rotr 39 a
    let mj := (a &&& b) ^^^ (a &&& c) ^^^ (b &&& c)
    [(t1 + s0 + mj) % 2 ^ 64, a, b, c, (d + t1) % 2 ^ 64, e, f, g]
  | x => x

/-- The rounds from `i` over the schedule. -/
def shaRounds : List Nat → Nat → List Nat → List Nat
  | [], _, s => s
  | w :: ws, i, s => shaRounds ws (i + 1) (shaRound s (fld shaK (64 * i) 64) w)

/-- The big-endian number of some bytes. -/
def beNat (bs : List Byte) : Nat := bs.foldl (fun a b => a * 256 + b.toNat) 0

/-- The compression of one 128-byte block. -/
def shaBlock (h : List Nat) (blk : List Byte) : List Nat :=
  let w := shaSchedule 64 ((chunks 8 16 blk).map beNat)
  List.zipWith (fun x y => (x + y) % 2 ^ 64) h (shaRounds w 0 h)

/-- The big-endian bytes of a number, `n` of them. -/
def beBytes (n x : Nat) : List Byte := (leBytes n x).reverse

/-- SHA-512 of a message, 64 bytes. -/
def sha512 (m : List Byte) : List Byte :=
  let l := m.length
  let pad := (111 + 128 - l % 128) % 128
  let all := m ++ [0x80#8] ++ List.replicate pad 0#8 ++ beBytes 16 (8 * l)
  let h0 := (List.range 8).map (fun i => fld shaH0 (64 * i) 64)
  ((chunks 128 (all.length / 128) all).foldl shaBlock h0).flatMap (beBytes 8)

/-- One bit of the reflected CRC-32. -/
def crcBit : Nat → Nat → Nat
  | 0, c => c
  | n + 1, c => crcBit n (if c % 2 = 1 then (c / 2) ^^^ 0xEDB88320 else c / 2)

/-- CRC-32 of some bytes (IEEE 802.3). -/
def crc32 (m : List Byte) : Nat := (m.foldl (fun c b => crcBit 8 (c ^^^ b.toNat)) 0xFFFFFFFF) ^^^ 0xFFFFFFFF

end Sys2Proof.Machine
end

