-- ==== Sys2Proof/Config.lean ====
section
/-!
DEFINITION. What the spec leaves to the implementation or leaves open: constants and functions without a body, so
that no proof can lean on a value of them (log 1).
-/
namespace Sys2Proof.Config

/-- From which operand on a function of R143 gives more than a signed result code, of those within the bounds of R141: function
code, result format code, dividend of DIV, result code. Free (log 10). -/
opaque sfnThreshold : Nat → Nat → Nat → Int → Int

/-- Which of the codes within the bounds is given where R143 asks no order (SIN, COS, SMAX_APPLY, NORM_APPLY): function code,
result format code, operand codes. Free (log 10). -/
opaque sfnFree : Nat → Nat → Nat → Nat → Nat

/-- Does a task of a kernel read a layer's working weights (R28, R29): job, kernel, task index, layer? Its program decides, and
no field of a package says so: free (log 29). -/
opaque readsLayer : Nat → Nat → Nat → Nat → Bool

/-- Is a COUNT reduction of a pass of an update kernel the one that counts the elements left unchanged (R311): kernel, offset of
the word in its program, number of the reduction? Free (log 80). -/
opaque countsUnchanged : Nat → Nat → Nat → Bool

/-- A fresh free value; the argument is the state's counter (log 3). -/
opaque freeValue : Nat → BitVec 512

/-- What an uncorrectable beat reads as to a controller that takes it though it is poisoned: of the beat and a seed (log
124). -/
opaque poisoned : Nat → Nat → BitVec 8

/-- Is S * 2^(-1/H) of R333 taken as the larger of its two FP32 neighbours: of the score and H (log 11)? -/
opaque decayUp : BitVec 32 → Nat → Bool

/-- 4 KiB blocks, less one, of another member's tensor in a parity group: job, TENSOR_ID, device (R329, R340). No block of this
device says how many: free (log 33). -/
opaque memberBlocks : Nat → Nat → Nat → Nat

/-- Is the group equation of Ed25519 checked with the cofactor? RFC 8032 allows both (R396, log 13). -/
opaque ed25519Cofactored : Bool

/-- PHY latency of a port in ns (R239); the spec gives no value (log 14). -/
opaque phyLatency : Nat

/-- The module's serial number (R396). Fixed at manufacture (log 14). -/
opaque serial : BitVec 128

/-- Certificate 2, 3 or 4 of the module's chain, in DER, as written into the flash at manufacture (R397, R421, log 14). -/
opaque certificate : Nat → List Byte

/-- The 256-bit seed in the one-time fuses (R396, log 14). -/
opaque fuseSeed : BitVec 256

/-- How the key vault derives the private device identity key and the private device agreement key from the seed: the spec
does not say (R396, log 14). -/
opaque dikFrom : BitVec 256 → BitVec 256
@[inherit_doc dikFrom] opaque dkaFrom : BitVec 256 → BitVec 256

/-- The private device identity key. -/
def dikSecret : BitVec 256 := dikFrom fuseSeed

/-- The private device agreement key. -/
def dkaSecret : BitVec 256 := dkaFrom fuseSeed

/-- The digest of the boot ROM, M0 (R405), fixed at manufacture (log 14). -/
opaque romDigest : BitVec 512

/-- The public key of the maker's image signatures, fixed at manufacture (R422, log 14). -/
opaque imageKey : BitVec 256

/-- What the initial credit of a buffer class exceeds the largest frame by, in 64-byte units: class, buffer class. The spec
gives no size (log 12). -/
opaque creditBeyond : Bool → Nat → Nat

/-- The initial credit of a buffer class at the receiver, in 64-byte units (R254): a frame of the largest size, 1,058 bytes of
Vesper and 4,194 of Noon (R243), and what the class holds beyond it (DEDUCED, log 12). -/
def initialCredit (vesper : Bool) (hops : Nat) : Nat := (if vesper then 17 else 66) + creditBeyond vesper hops

/-- The row of a channel that holds a beat (R198); the spec gives no row size (log 15). -/
opaque rowOf : Nat → Nat

/-- The public key of the recovery key in mask ROM (R442, log 14). -/
opaque recoveryKey : BitVec 256

end Sys2Proof.Config
end

