-- ==== Sys2Proof/Machine/Num.lean ====
section
/-!
DEFINITION. The number formats of Table 02-1 and Table 02-2: exact values, decoding, one-step rounding and
encoding (R30 to R37, R52), and exact arithmetic on values (R36).
-/
namespace Sys2Proof.Machine

/-- A value: NaN, an infinity, or the dyadic number (-1)^neg * m * 2^e. -/
inductive FV where
  /-- Not a number. -/
  | nan
  /-- An infinity. -/
  | inf (neg : Bool)
  /-- A finite value; m = 0 is a zero of that sign. -/
  | fin (neg : Bool) (m : Nat) (e : Int)
  deriving DecidableEq, Repr

/-- How a format uses its largest exponent (Table 02-2). -/
inductive Special where
  /-- Exponent all ones: infinity and NaN. -/
  | ieee
  /-- Only exponent and fraction all ones: NaN; no infinity. -/
  | nanOnly
  /-- Neither infinity nor NaN. -/
  | finite
  deriving DecidableEq, Repr

/-- A floating layout of Table 02-2. -/
structure FF where
  /-- Exponent bits. -/
  eb : Nat
  /-- Fraction bits. -/
  mb : Nat
  /-- Bias. -/
  bias : Int
  /-- Use of the largest exponent. -/
  special : Special
  deriving DecidableEq, Repr

/-- FP64, FP32, BF16, FP16, E4M3, E5M2, E3M2, E2M3, E2M1, X35 and UE5M3 of Table 02-2. -/
def FF.fp64 : FF := ⟨11, 52, 1023, .ieee⟩
@[inherit_doc FF.fp64] def FF.fp32 : FF := ⟨8, 23, 127, .ieee⟩
@[inherit_doc FF.fp64] def FF.bf16 : FF := ⟨8, 7, 127, .ieee⟩
@[inherit_doc FF.fp64] def FF.fp16 : FF := ⟨5, 10, 15, .ieee⟩
@[inherit_doc FF.fp64] def FF.e4m3 : FF := ⟨4, 3, 7, .nanOnly⟩
@[inherit_doc FF.fp64] def FF.e5m2 : FF := ⟨5, 2, 15, .ieee⟩
@[inherit_doc FF.fp64] def FF.e3m2 : FF := ⟨3, 2, 3, .finite⟩
@[inherit_doc FF.fp64] def FF.e2m3 : FF := ⟨2, 3, 1, .finite⟩
@[inherit_doc FF.fp64] def FF.e2m1 : FF := ⟨2, 1, 1, .finite⟩
@[inherit_doc FF.fp64] def FF.x35 : FF := ⟨11, 23, 1023, .ieee⟩
@[inherit_doc FF.fp64] def FF.ue5m3 : FF := ⟨5, 3, 15, .nanOnly⟩

/-- The floating layout of a format code (Table 02-1); the scale formats and integers have none. -/
def ffOf : Nat → Option FF
  | 0 => some .fp64 | 1 => some .fp32 | 2 => some .bf16 | 3 => some .fp16 | 4 => some .e4m3
  | 5 => some .e5m2 | 6 => some .e3m2 | 7 => some .e2m3 | 8 => some .e2m1 | 15 => some .x35
  | _ => none

/-- Element width in memory of a format code (Table 02-1; X35 in its container, R32). -/
def fmtBits : Nat → Nat
  | 0 => 64 | 1 => 32 | 2 => 16 | 3 => 16 | 4 => 8 | 5 => 8 | 6 => 6 | 7 => 6 | 8 => 4 | 9 => 32
  | 10 => 16 | 11 => 8 | 12 => 4 | 13 => 8 | 14 => 8 | _ => 64

/-- Is the code a two's complement format? -/
def isInt (c : Nat) : Bool := decide (9 ≤ c ∧ c ≤ 12)

/-- Is the code a floating format of Table 02-4 (X35 and the scale formats apart)? -/
def isFloat (c : Nat) : Bool := decide (c ≤ 8)

/-- Is the code one of FP64, FP32, BF16 and FP16? -/
def isStd (c : Nat) : Bool := decide (c ≤ 3)

/-- Is the code a block scale format? -/
def isScaleFmt (c : Nat) : Bool := c == 13 || c == 14

/-- May the format be block-scaled (R38)? -/
def isMx (c : Nat) : Bool := decide (4 ≤ c ∧ c ≤ 8) || c == 11

/-- A finite value, with zero in its one form. -/
def FV.mk (neg : Bool) (m : Nat) (e : Int) : FV := if m = 0 then .fin neg 0 0 else .fin neg m e

/-- +0. -/
def FV.zero : FV := .fin false 0 0

/-- Is it a zero of either sign? -/
def FV.isZero : FV → Bool
  | .fin _ m _ => m == 0
  | _ => false

/-- The value of an integer. -/
def FV.ofInt (x : Int) : FV := FV.mk (decide (x < 0)) x.natAbs 0

/-- Largest magnitude code of a layout (Table 02-2). -/
def FF.maxCode (f : FF) : Nat :=
  match f.special with
  | .ieee => (2 ^ f.eb - 1) * 2 ^ f.mb - 1
  | .nanOnly => 2 ^ (f.eb + f.mb) - 2
  | .finite => 2 ^ (f.eb + f.mb) - 1

/-- The value of a magnitude code at or below the largest (R33). -/
def FF.magVal (f : FF) (neg : Bool) (c : Nat) : FV :=
  let ex := c / 2 ^ f.mb
  let fr := c % 2 ^ f.mb
  if ex = 0 then FV.mk neg fr (1 - f.bias - f.mb) else FV.mk neg (2 ^ f.mb + fr) ((ex : Int) - f.bias - f.mb)

/-- Decode a code (R33); the sign is the bit above exponent and fraction. -/
def FF.dec (f : FF) (w : Nat) : FV :=
  let neg := flag w (f.eb + f.mb)
  let c := w % 2 ^ (f.eb + f.mb)
  if c ≤ f.maxCode then f.magVal neg c
  else if f.special = .ieee ∧ c = f.maxCode + 1 then .inf neg else .nan

/-- Canonical NaN (Table 02-2). -/
def FF.nanCode (f : FF) : Nat :=
  match f.special with
  | .ieee => (2 ^ f.eb - 1) * 2 ^ f.mb + 2 ^ (f.mb - 1)
  | .nanOnly => 2 ^ (f.eb + f.mb) - 1
  | .finite => 0

/-- Rounding of a magnitude: to nearest, ties to even, or stochastic with the drawn 16 bits (R52). -/
inductive Rnd where
  /-- Nearest, ties to even. -/
  | rne
  /-- Stochastic with the draw `r`. -/
  | stoch (r : Nat)
  deriving DecidableEq, Repr

/-- Does the quotient with remainder `rem` over `den`, of integer part `lo`, round up? -/
def Rnd.up (r : Rnd) (lo rem den : Nat) : Bool :=
  match r with
  | .rne => decide (2 * rem > den ∨ (2 * rem = den ∧ lo % 2 = 1))
  | .stoch x => decide (rem * 65536 > x * den)

/-- p * 2^k / q as a pair of naturals. -/
def scalePair (p q : Nat) (k : Int) : Nat × Nat :=
  if 0 ≤ k then (p * 2 ^ k.toNat, q) else (p, q * 2 ^ (-k).toNat)

/-- p / q * 2^e rounded to an integer. -/
def roundInt (r : Rnd) (p q : Nat) (e : Int) : Nat :=
  let nd := scalePair p q e
  let lo := nd.1 / nd.2
  if r.up lo (nd.1 % nd.2) nd.2 then lo + 1 else lo

/-- floor(log2 (p / q)) for positive p and q. -/
def ilog2 (p q : Nat) : Int :=
  let l : Int := (Nat.log2 p : Int) - (Nat.log2 q : Int)
  let nd := scalePair p q (-l)
  if nd.1 < nd.2 then l - 1 else l

/-- The magnitude code that p / q * 2^e rounds to on the format's grid, continued above its largest value. -/
def FF.roundCode (f : FF) (r : Rnd) (p q : Nat) (e : Int) : Nat :=
  if p = 0 then 0 else
  let emin : Int := 1 - f.bias
  let ex := max (ilog2 p q + e) emin
  let m := roundInt r p q (e - (ex - f.mb))
  (ex - emin).toNat * 2 ^ f.mb + m

/-- A magnitude code with its sign bit. -/
def FF.pack (f : FF) (neg : Bool) (c : Nat) : Nat := bit neg * 2 ^ (f.eb + f.mb) + c

/-- The code of an infinity (formats with infinity). -/
def FF.infCode (f : FF) (neg : Bool) : Nat := f.pack neg (f.maxCode + 1)

/-- Arithmetic rounding: nearest-even, overflow to infinity, canonical NaN (R36, R37). -/
def FF.enc (f : FF) (v : FV) : Nat :=
  match v with
  | .nan => f.nanCode
  | .inf n => f.infCode n
  | .fin n m e =>
    let c := f.roundCode .rne m 1 e
    if c ≤ f.maxCode then f.pack n c else f.infCode n

/-- A value rounded into a format's arithmetic (R36). -/
def FF.rnd (f : FF) (v : FV) : FV := f.dec (f.enc v)

/-- Arithmetic rounding of the quotient (-1)^neg * p / q * 2^e (R36). -/
def FF.rndQuot (f : FF) (neg : Bool) (p q : Nat) (e : Int) : FV :=
  let c := f.roundCode .rne p q e
  if c ≤ f.maxCode then f.magVal neg c else .inf neg

/-- Exact negation. -/
def FV.neg : FV → FV
  | .nan => .nan
  | .inf n => .inf (!n)
  | .fin n m e => .fin (!n) m e

/-- Exact magnitude. -/
def FV.abs : FV → FV
  | .nan => .nan
  | .inf _ => .inf false
  | .fin _ m e => .fin false m e

/-- The signed mantissa of a finite value aligned to exponent `k` at or below its own. -/
def alignTo (k : Int) (n : Bool) (m : Nat) (e : Int) : Int :=
  let x : Int := (m * 2 ^ (e - k).toNat : Nat)
  if n then -x else x

/-- The exact sum (R36): a zero sum is +0 unless both operands are -0. -/
def FV.add : FV → FV → FV
  | .nan, _ => .nan
  | _, .nan => .nan
  | .inf a, .inf b => if a = b then .inf a else .nan
  | .inf a, _ => .inf a
  | _, .inf b => .inf b
  | .fin n1 m1 e1, .fin n2 m2 e2 =>
    if m1 = 0 ∧ m2 = 0 then .fin (n1 && n2) 0 0
    else if m1 = 0 then .fin n2 m2 e2
    else if m2 = 0 then .fin n1 m1 e1
    else
      let k := min e1 e2
      let x := alignTo k n1 m1 e1 + alignTo k n2 m2 e2
      FV.mk (decide (x < 0)) x.natAbs k

/-- The exact product (R36). -/
def FV.mul : FV → FV → FV
  | .nan, _ => .nan
  | _, .nan => .nan
  | .inf a, .inf b => .inf (a != b)
  | .inf a, .fin n m _ => if m = 0 then .nan else .inf (a != n)
  | .fin n m _, .inf b => if m = 0 then .nan else .inf (n != b)
  | .fin n1 m1 e1, .fin n2 m2 e2 => FV.mk (n1 != n2) (m1 * m2) (e1 + e2)

/-- Order of two values that are not NaN: is the first below the second (the zeros are equal)? -/
def FV.lt : FV → FV → Bool
  | .nan, _ => false
  | _, .nan => false
  | .inf a, .inf b => a && !b
  | .inf a, _ => a
  | _, .inf b => !b
  | .fin n1 m1 e1, .fin n2 m2 e2 =>
    let k := min e1 e2
    decide (alignTo k n1 m1 e1 < alignTo k n2 m2 e2)

/-- Numeric equality; NaN equals nothing, the zeros are equal. -/
def FV.eqv (a b : FV) : Bool :=
  match a, b with
  | .nan, _ => false
  | _, .nan => false
  | _, _ => !a.lt b && !b.lt a

/-- Sum rounded once into a format. -/
def FF.add (f : FF) (a b : FV) : FV := f.rnd (a.add b)

/-- Product rounded once into a format. -/
def FF.mul (f : FF) (a b : FV) : FV := f.rnd (a.mul b)

/-- a * b + c with one rounding (R49). -/
def FF.fma (f : FF) (a b c : FV) : FV := f.rnd ((a.mul b).add c)

/-- Quotient rounded once into a format (R36). -/
def FF.div (f : FF) : FV → FV → FV
  | .nan, _ => .nan
  | _, .nan => .nan
  | .inf _, .inf _ => .nan
  | .inf a, .fin n _ _ => .inf (a != n)
  | .fin n _ _, .inf b => .fin (n != b) 0 0
  | .fin n1 m1 e1, .fin n2 m2 e2 =>
    if m2 = 0 then (if m1 = 0 then .nan else .inf (n1 != n2))
    else if m1 = 0 then .fin (n1 != n2) 0 0
    else f.rndQuot (n1 != n2) m1 m2 (e1 - e2)

/-- The value of a finite dyadic as a rational; others give 0. -/
def FV.toRat : FV → Rat
  | .fin n m e =>
    let nd := scalePair m 1 e
    let q : Rat := (nd.1 : Rat) / (nd.2 : Rat)
    if n then -q else q
  | _ => 0

/-- A rational rounded into a format (R36). -/
def FF.ofRat (f : FF) (q : Rat) : FV := f.rndQuot (decide (q < 0)) q.num.natAbs q.den 0

/-- The FP32 value of a pattern. -/
def f32 (w : Nat) : FV := FF.fp32.dec w

/-- The FP32 pattern of a value (R36). -/
def toF32 (v : FV) : Nat := FF.fp32.enc v

/-- The FP32 sum of two patterns (R36, R46, R211). -/
def addF32 (a b : Nat) : Nat := toF32 ((f32 a).add (f32 b))

/-- The value of an element code of a format: integers exactly, X35 from its container (R32, R34). -/
def decVal (c w : Nat) : FV :=
  match ffOf c with
  | some f => f.dec w
  | none =>
    if c = 13 then (if w % 256 = 255 then .nan else .fin false 1 ((w % 256 : Nat) - 127))
    else if c = 14 then
      (if w % 256 = 255 then .nan else FF.ue5m3.magVal false (w % 256))
    else FV.ofInt (sgn (fmtBits c) w)

/-- The canonical code of a value that the format represents exactly. -/
def encVal (c : Nat) (v : FV) : Nat :=
  match ffOf c with
  | some f => f.enc v
  | none =>
    match v with
    | .fin n m e => twos (fmtBits c) (let x : Int := (roundInt .rne m 1 e : Nat); if n then -x else x)
    | _ => 0

/-- Element `i` of a stream of `w`-bit elements from byte `a` (R31). -/
def readElem (m : Mem) (a w i : Nat) : Nat :=
  let o := w * i
  let raw := leNat (Mem.bytes m (a + o / 8) ((o % 8 + w + 7) / 8))
  raw / 2 ^ (o % 8) % 2 ^ w

/-- Write element `i` of a stream of `w`-bit elements from byte `a`; the other bits of its bytes keep (R31). -/
def writeElem (m : Mem) (a w i x : Nat) : Mem :=
  let o := w * i
  let b := a + o / 8
  let n := (o % 8 + w + 7) / 8
  let raw := leNat (Mem.bytes m b n)
  let old := raw / 2 ^ (o % 8) % 2 ^ w
  Mem.setBytes m b (leBytes n (raw - old * 2 ^ (o % 8) + (x % 2 ^ w) * 2 ^ (o % 8)))

/-- The bytes that `n` elements of `w` bits occupy. -/
def elemBytes (w n : Nat) : Nat := (w * n + 7) / 8

end Sys2Proof.Machine
end

