-- ==== Sys2Proof/Machine/Convert.lean ====
section
/-!
DEFINITION. Conversions between formats and block scaling (R38 to R42, R50 to R53, Tables 02-4 and 02-6).
-/
namespace Sys2Proof.Machine

/-- The counts that one operation gathers for the counters of Table 02-5, before the cap of R55. -/
structure Tally where
  /-- CVT_SAT. -/
  sat : Nat := 0
  /-- CVT_NAN. -/
  nan : Nat := 0
  /-- INT_SAT. -/
  int : Nat := 0
  /-- SCALE_NAN. -/
  scaleNan : Nat := 0
  /-- SCALE_CLAMP. -/
  scaleClamp : Nat := 0
  deriving DecidableEq, Repr

/-- The counts of two parts of one operation. -/
def Tally.plus (a b : Tally) : Tally :=
  ⟨a.sat + b.sat, a.nan + b.nan, a.int + b.int, a.scaleNan + b.scaleNan, a.scaleClamp + b.scaleClamp⟩

/-- The fault of a conversion pair, if any (R50, Tables 02-4 and 02-6); `rnd`: RND = 1 is named. -/
def cvtFault (src tgt : Nat) (rnd : Bool) : Option Nat :=
  if isScaleFmt tgt then some 0x3102
  else
    let ok :=
      (src == tgt) ||
      (isFloat src && isFloat tgt) ||
      (isStd src && (tgt == 15 || isInt tgt)) ||
      (src == 15 && (tgt == 0 || tgt == 1)) ||
      (isInt src && (isStd tgt || isInt tgt)) ||
      (isScaleFmt src && (tgt == 0 || tgt == 1))
    let st := isFloat src && (tgt == 2 || tgt == 3 || tgt == 5)
    if !ok then some 0x3104 else if rnd && !st then some 0x3104 else none

/-- The largest finite code of a floating target with a sign. -/
def FF.maxOf (f : FF) (neg : Bool) : Nat := f.pack neg f.maxCode

/-- Does Table 02-4 give the target no infinity of its own (E4M3, E3M2, E2M3, E2M1)? -/
def noInf (tgt : Nat) : Bool := tgt == 4 || tgt == 6 || tgt == 7 || tgt == 8

/-- Does the target saturate in both modes (E3M2, E2M3, E2M1)? -/
def narrow (tgt : Nat) : Bool := tgt == 6 || tgt == 7 || tgt == 8

/-- One conversion of a legal pair into an unscaled target (Table 02-4, R51): the code and the counts. -/
def convert (src tgt : Nat) (v : FV) (r : Rnd) (ovf : Bool) : Nat × Tally :=
  match ffOf tgt with
  | none =>
    let w := fmtBits tgt
    match v with
    | .nan => (0, ⟨0, 1, 0, 0, 0⟩)
    | .inf n => (if n then 2 ^ (w - 1) else 2 ^ (w - 1) - 1, ⟨0, 1, 0, 0, 0⟩)
    | .fin n m e =>
      let q := roundInt .rne m 1 e
      if n then
        if q > 2 ^ (w - 1) then (2 ^ (w - 1), ⟨1, 0, 0, 0, 0⟩) else (twos w (-(q : Int)), ⟨0, 0, 0, 0, 0⟩)
      else if q > 2 ^ (w - 1) - 1 then (2 ^ (w - 1) - 1, ⟨1, 0, 0, 0, 0⟩) else (q, ⟨0, 0, 0, 0, 0⟩)
  | some f =>
    match v with
    | .nan => if narrow tgt then (0, ⟨0, 1, 0, 0, 0⟩) else (f.nanCode, ⟨0, 0, 0, 0, 0⟩)
    | .inf n =>
      if noInf tgt && src != tgt then
        if !ovf then (f.maxOf n, ⟨0, 1, 0, 0, 0⟩)
        else if narrow tgt then (0, ⟨0, 1, 0, 0, 0⟩) else (f.nanCode, ⟨0, 1, 0, 0, 0⟩)
      else (f.infCode n, ⟨0, 0, 0, 0, 0⟩)
    | .fin n m e =>
      let c := f.roundCode r m 1 e
      if c ≤ f.maxCode then (f.pack n c, ⟨0, 0, 0, 0, 0⟩)
      else if tgt = 15 then (f.infCode n, ⟨0, 0, 0, 0, 0⟩)
      else if narrow tgt || !ovf then (f.maxOf n, ⟨1, 0, 0, 0, 0⟩)
      else if tgt = 4 then (f.nanCode, ⟨0, 0, 0, 0, 0⟩)
      else (f.infCode n, ⟨0, 0, 0, 0, 0⟩)

/-- The scale format that a 2-bit code of the parameter blocks names: 1 E8M0, 2 UE5M3 (R174). -/
def scaleFmtOf (k : Nat) : Nat := if k = 1 then 13 else 14

/-- The value of a block-scaled element (R38, R41, R42); `sf` is the scale format code. -/
def scaledVal (elem sf scale code : Nat) : FV :=
  match decVal sf scale with
  | .nan => .nan
  | .inf _ => .nan
  | .fin _ sm se =>
    if sm = 0 then .zero
    else match decVal elem code with
      | .fin n m e => FV.mk n (m * sm) (e + se - (if elem = 11 then 6 else 0))
      | x => x

/-- M of R40 as m * 2^e. -/
def elemMax (elem : Nat) : Nat × Int :=
  match elem with
  | 4 => (448, 0) | 5 => (57344, 0) | 6 => (28, 0) | 7 => (15, -1) | 8 => (6, 0) | _ => (127, -6)

/-- emax of R40. -/
def elemEmax (elem : Nat) : Int :=
  match elem with
  | 4 => 8 | 5 => 15 | 6 => 4 | 7 => 2 | 8 => 2 | _ => 0

/-- The larger magnitude of two finite values; anything else takes no part. -/
def maxMag (a : Nat × Int) (v : FV) : Nat × Int :=
  match v with
  | .fin _ m e => if (FV.fin false a.1 a.2).lt (.fin false m e) then (m, e) else a
  | _ => a

/-- The scale of a block from its largest finite magnitude (R40): the code, and whether it was clamped. -/
def chooseScale (elem sf : Nat) (a : Nat × Int) : Nat × Bool :=
  if a.1 = 0 then (0, false)
  else if sf = 14 then
    let mx := elemMax elem
    -- the smallest scale s with s * M >= amax: compare s against amax / M through s * M
    let rec go : Nat → Nat → Nat
      | 0, _ => 255
      | n + 1, c =>
        if ((FF.ue5m3.magVal false c).mul (.fin false mx.1 mx.2)).lt (.fin false a.1 a.2) then go n (c + 1) else c
    let c := go 255 0
    if c = 255 then (254, true) else (c, false)
  else
    let k := ilog2 a.1 1 + a.2 - elemEmax elem
    if k < -127 then (0, true) else if k > 127 then (254, true) else ((k + 127).toNat, false)

/-- One element of a scaled block: the source over the scale, rounded once, saturated to M (R40, R42). -/
def scaledElem (elem sf scale : Nat) (v : FV) : Nat × Tally :=
  let sat (n : Bool) : Nat :=
    match ffOf elem with
    | some f => f.maxOf n
    | none => if n then 129 else 127
  match v with
  | .nan => (0, ⟨0, 0, 0, 0, 0⟩)
  | .inf n =>
    if elem = 5 then (FF.e5m2.infCode n, ⟨0, 0, 0, 0, 0⟩) else (sat n, ⟨0, 1, 0, 0, 0⟩)
  | .fin n m e =>
    match decVal sf scale with
    | .fin _ sm se =>
      if sm = 0 then (0, ⟨0, 0, 0, 0, 0⟩)
      else
        match ffOf elem with
        | some f =>
          let c := f.roundCode .rne m sm (e - se)
          if c ≤ f.maxCode then (f.pack n c, ⟨0, 0, 0, 0, 0⟩) else (sat n, ⟨1, 0, 0, 0, 0⟩)
        | none =>
          let q := roundInt .rne m sm (e - se + 6)
          if q ≤ 127 then (twos 8 (if n then -(q : Int) else q), ⟨0, 0, 0, 0, 0⟩) else (sat n, ⟨1, 0, 0, 0, 0⟩)
    | _ => (0, ⟨0, 0, 0, 0, 0⟩)

/-- Does Table 02-4 treat the value as a NaN for this target and OVF (R41)? -/
def asNan (elem : Nat) (ovf : Bool) : FV → Bool
  | .nan => true
  | .inf _ => noInf elem && ovf
  | .fin _ _ _ => false

/-- One block written with its scale (R40, R41): scale code, element codes, counts. -/
def scaleBlock (elem sf : Nat) (ovf : Bool) (vs : List FV) : Nat × List Nat × Tally :=
  if vs.any (asNan elem ovf) then
    (255, vs.map (fun _ => 0), ⟨0, (vs.filter (asNan elem ovf)).length, 0, 1, 0⟩)
  else
    let sc := chooseScale elem sf (vs.foldl maxMag (0, 0))
    let es := vs.map (scaledElem elem sf sc.1)
    (sc.1, es.map (·.1), es.foldl (fun t x => t.plus x.2) ⟨0, 0, 0, 0, bit sc.2⟩)

/-- A scaled format's fault (R38, Table 02-6): scale code 0 none, 1 E8M0, 2 UE5M3; block 16 or 32. -/
def scaledFault (elem scale block : Nat) : Option Nat :=
  if isScaleFmt elem then some 0x3102
  else if scale = 0 then none
  else if scale > 2 || !isMx elem || !(block == 16 || block == 32) then some 0x3103
  else none

/-- The fault of a format that is only read: E8M0 and UE5M3 may stand there unscaled, since R50 converts them to FP32 and
FP64 (DEDUCED, log 108). -/
def sourceFault (elem scale block : Nat) : Option Nat :=
  if scale = 0 ∧ isScaleFmt elem then none else scaledFault elem scale block

/-- Elements converted in order into an unscaled target (R50 to R52): the codes, the counts and the stream's
counter after the draws; `key` and `c` are the tile's stream. -/
def convElems (src tgt : Nat) (rnd ovf : Bool) (key : Nat) : Nat → List FV → List Nat × Tally × Nat
  | c, [] => ([], {}, c)
  | c, v :: vs =>
    let x := convert src tgt v (if rnd then .stoch (streamDraw key c) else .rne) ovf
    let r := convElems src tgt rnd ovf key (if rnd then (c + 1) % 2 ^ 128 else c) vs
    (x.1 :: r.1, x.2.plus r.2.1, r.2.2)

/-- Elements written in blocks with their scales (R40, R41, R53): element codes, scale codes, counts. -/
def convBlocks (elem sf : Nat) (ovf : Bool) : List (List FV) → List Nat × List Nat × Tally
  | [] => ([], [], {})
  | b :: bs =>
    let x := scaleBlock elem sf ovf b
    let r := convBlocks elem sf ovf bs
    (x.2.1 ++ r.1, x.1 :: r.2.1, x.2.2.plus r.2.2)

/-- Write consecutive elements of `w` bits from element `i` at byte `a`. -/
def writeElems (a w : Nat) : Mem → Nat → List Nat → Mem
  | m, _, [] => m
  | m, i, x :: xs => writeElems a w (writeElem m a w i x) (i + 1) xs

/-- RND and OVF codes of R170 against a default: `none` is the reserved code 3. -/
def modeOf (dflt : Bool) : Nat → Option Bool
  | 0 => some dflt
  | 1 => some false
  | 2 => some true
  | _ => none

end Sys2Proof.Machine
end

