-- ==== Sys2Proof/Machine/Matrix.lean ====
section
/-!
DEFINITION. The matrix arrays of a tile: squares, accumulator banks, matrix operations and accumulator moves
(R43 to R47, R83 to R102, R174, R175). Each function is pure: it takes the scratchpad and the banks and answers
the new ones, or the code of the fault that R102 puts first.
-/
namespace Sys2Proof.Machine

/-- One past the last scratchpad offset (R58). -/
def scratchSize : Nat := 0x600000

/-- May a task of the class address `n` bytes from `a` under Table 03-2 (R59)? -/
def areaOk (v : Bool) (a n : Nat) : Bool :=
  n == 0 || decide (a + n ≤ 0x560000) || (v && decide (0x5A0000 ≤ a))

/-- The tag of a half (R95): type 0 FP32, 1 INT32, 2 FP64; SPLIT code 0 one, 1 two, 2 four. -/
structure Tag where
  /-- Accumulator type. -/
  ty : BitVec 2
  /-- SPLIT code. -/
  split : BitVec 2
  deriving DecidableEq, Repr

/-- A latch set of an array (R87): Kw elements of B for each unit, decoded with their block scales, and where it was
loaded from. -/
structure LatchSet where
  /-- Scratchpad address of the square it was loaded from. -/
  base : BitVec 24
  /-- Axis. -/
  axis : Bool
  /-- Contraction offset. -/
  off : BitVec 21
  /-- The elements, unit by unit. -/
  elems : List FV
  deriving DecidableEq, Repr

/-- The two latch sets of an array, and which of them feeds the units (R87). -/
structure Latches where
  /-- Set 0. -/
  set0 : LatchSet
  /-- Set 1. -/
  set1 : LatchSet
  /-- Set 1 is the current one. -/
  cur : Bool
  deriving DecidableEq, Repr

/-- The set that feeds the units. -/
def Latches.now (x : Latches) : LatchSet := if x.cur then x.set1 else x.set0

/-- Load the other set and switch to it (R87). -/
def Latches.load (x : Latches) (l : LatchSet) : Latches :=
  if x.cur then { x with set0 := l, cur := false } else { x with set1 := l, cur := true }

/-- The current set replaced, as a reload after a suspension does (R99). -/
def Latches.reload (x : Latches) (l : LatchSet) : Latches := if x.cur then { x with set1 := l } else { x with set0 := l }

/-- Latches that nothing has loaded yet (DESIGN CHOICE, log 4). -/
def Latches.start : Latches := ⟨⟨0, false, 0, []⟩, ⟨0, false, 0, []⟩, false⟩

/-- The banks of a tile (R94), their tags, INT_SAT flags and latch sets. Bank a is at bytes 65,536 a. -/
structure MatState where
  /-- The four banks as bytes. -/
  acc : Mem
  /-- Tag of the lower half. -/
  tagLo : Tag
  /-- Tag of the upper half. -/
  tagHi : Tag
  /-- Sticky INT_SAT flags of arrays 0 to 3 (R98). -/
  intSat : BitVec 4
  /-- Latch sets of the arrays; an unlisted array has loaded none. -/
  latch : Sp Latches
  deriving DecidableEq, Repr

/-- Every half +0 with tag FP32, SPLIT 1; flags clear (R95); no latch set loaded (DESIGN CHOICE, log 4). -/
def MatState.start : MatState := ⟨[], ⟨0, 0⟩, ⟨0, 0⟩, 0, []⟩

/-- One operand of a matrix operation (R85, R86, R174). -/
structure MatOperand where
  /-- Format code. -/
  fmt : Nat
  /-- Scale code 0 to 2. -/
  scale : Nat
  /-- Block size. -/
  block : Nat
  /-- Square rows run along K. -/
  kFirst : Bool
  /-- First square. -/
  base : Nat
  /-- SCALE_BASE. -/
  sbase : Nat
  /-- Stride along K. -/
  sk : Nat
  /-- Stride along M or N. -/
  sd : Nat
  deriving DecidableEq, Repr

/-- A checked matrix operation. -/
structure MatOp where
  /-- Streamed operand. -/
  a : MatOperand
  /-- Latched operand. -/
  b : MatOperand
  /-- Rows. -/
  m : Nat
  /-- Columns. -/
  n : Nat
  /-- Contraction length. -/
  k : Nat
  /-- SPLIT. -/
  split : Nat
  /-- Kw of the rate class. -/
  kw : Nat
  /-- Accumulator type code of a tag. -/
  ty : Nat
  /-- ROW_BASE. -/
  rowBase : Nat
  /-- ACC_INIT. -/
  init : Bool
  /-- LATCH_AXIS. -/
  laxis : Bool
  deriving DecidableEq, Repr

/-- Element-square size in bytes (R85). -/
def MatOperand.se (o : MatOperand) : Nat := 512 * fmtBits o.fmt

/-- Scale-square size in bytes (R86). -/
def MatOperand.ss (o : MatOperand) : Nat := 4096 / o.block

/-- Kw and accumulator type of an operand pair (Tables 02-3 and 04-1); `none`: the pair is not in the table. -/
def pairClass (x y : Nat) : Option (Nat × Nat) :=
  let nf (c : Nat) : Bool := decide (4 ≤ c ∧ c ≤ 7)
  if nf x && nf y then some (32, 0)
  else if (nf x && y == 8) || (x == 8 && nf y) then some (32, 0)
  else if x == 8 && y == 8 then some (64, 0)
  else if (x == 11 && y == 11) || (x == 11 && y == 12) || (x == 12 && y == 11) then some (32, 1)
  else if x == 12 && y == 12 then some (64, 1)
  else if (x == 2 && y == 2) || (x == 3 && y == 3) then some (16, 0)
  else if x == 10 && y == 10 then some (16, 1)
  else if x == 1 && y == 1 then some (16, 0)
  else if x == 9 && y == 9 then some (16, 1)
  else if x == 0 && y == 0 then some (8, 2)
  else none

/-- Rows of a half for an accumulator type (R94). -/
def halfRows (ty : Nat) : Nat := if ty = 2 then 64 else 128

/-- Bytes of an accumulator element. -/
def accWidth (ty : Nat) : Nat := if ty = 2 then 8 else 4

/-- The squares and scale squares an operand reaches: (offset, bytes), over `nk` by `nd` squares. -/
def MatOperand.spans (o : MatOperand) (nk nd : Nat) : List (Nat × Nat) :=
  (List.range nk).flatMap fun kq => (List.range nd).flatMap fun dq =>
    let x := kq * o.sk + dq * o.sd
    (o.base + x, o.se) :: (if o.scale = 0 then [] else [(o.sbase + x * o.ss / o.se, o.ss)])

/-- Alignment and scale placement of R85 and R86. -/
def MatOperand.aligned (o : MatOperand) (nk nd : Nat) : Bool :=
  o.base % 128 == 0 && o.sk % 128 == 0 && o.sd % 128 == 0 &&
  (o.scale == 0 ||
    (o.sbase % 128 == 0 && (nk ≤ 1 || o.sk * o.ss % (8 * o.se) == 0) && (nd ≤ 1 || o.sd * o.ss % (8 * o.se) == 0)))

/-- Does a span touch, inside the scratchpad, an area the class may not address (R59)? -/
def spanBad (v : Bool) (x : Nat × Nat) : Bool :=
  decide (x.1 < scratchSize) && !areaOk v x.1 (min x.2 (scratchSize - x.1))

/-- Does a span run past the scratchpad? -/
def spanPast (x : Nat × Nat) : Bool := decide (x.1 + x.2 > scratchSize)

/-- The checks of a MATMUL parameter block in the order of R186, R102 (F-3301 apart): `ws` are its six words,
`sreg` and `lreg` the register values of R174. The order of F-3102, F-3103 and F-3101 among themselves, and of F-3302
before F-3204, is the model's (DESIGN CHOICE, log 106). -/
def matPrepare (v : Bool) (ws : List Nat) (sreg lreg : Nat) : Except Nat MatOp :=
  let w0 := nth 0 ws 0; let w1 := nth 0 ws 1; let w2 := nth 0 ws 2; let w3 := nth 0 ws 3; let w4 := nth 0 ws 4
  let res := fld w0 56 8 + fld w1 48 16 + fld w2 48 16 + fld w3 48 16 + fld w4 48 16 + nth 0 ws 5
  if res ≠ 0 ∨ fld w0 36 2 = 3 ∨ fld w0 50 2 = 3 ∨ fld w0 53 2 = 3 then .error 0x3602 else
  let sum (x r : Nat) : Nat := (x + r) % 2 ^ 64
  let a : MatOperand := ⟨fld w0 42 4, fld w0 50 2, if flag w0 52 then 32 else 16, flag w0 38,
    sum (fld w1 0 24) sreg, if fld w0 50 2 = 0 then 0 else sum (fld w4 0 24) sreg, fld w2 0 24, fld w2 24 24⟩
  let b : MatOperand := ⟨fld w0 46 4, fld w0 53 2, if flag w0 55 then 32 else 16, !flag w0 39,
    sum (fld w1 24 24) lreg, if fld w0 53 2 = 0 then 0 else sum (fld w4 24 24) lreg, fld w3 0 24, fld w3 24 24⟩
  if a.base ≥ scratchSize ∨ b.base ≥ scratchSize ∨ a.sbase ≥ scratchSize ∨ b.sbase ≥ scratchSize then .error 0x3603 else
  let notOp (c : Nat) : Bool := c == 15 || isScaleFmt c
  if notOp a.fmt || notOp b.fmt then .error 0x3102 else
  match scaledFault a.fmt a.scale a.block, scaledFault b.fmt b.scale b.block, pairClass a.fmt b.fmt with
  | some c, _, _ => .error c
  | _, some c, _ => .error c
  | _, _, none => .error 0x3101
  | none, none, some (kw, ty0) =>
    let ty := if ty0 = 1 ∧ (a.scale ≠ 0 ∨ b.scale ≠ 0) then 0 else ty0
    let m := fld w0 0 8 + 1
    let n := fld w0 8 8 + 1
    let k := fld w0 16 20 + 1
    let split := 2 ^ fld w0 36 2
    let h := halfRows ty
    if flag w0 40 ∧ m > h then .error 0x3302 else
    let nk := cdiv k 64
    let sp := a.spans nk (cdiv m 64) ++ b.spans nk (cdiv n 64)
    if sp.any (spanBad v) then .error 0x3204
    else if sp.any spanPast || !a.aligned nk (cdiv m 64) || !b.aligned nk (cdiv n 64) then .error 0x3303
    else if n > 256 / split ∨ (ty = 2 ∧ m > 128) then .error 0x3304
    else .ok ⟨a, b, m, n, k, split, kw, ty, if flag w0 40 then h else 0, flag w0 41, flag w0 39⟩

/-- Does the operation occupy the lower half? -/
def MatOp.lo (o : MatOp) : Bool := o.rowBase == 0

/-- Does the operation occupy the upper half? -/
def MatOp.hi (o : MatOp) : Bool := decide (o.rowBase + o.m > halfRows o.ty)

/-- The tag the operation writes. -/
def MatOp.tag (o : MatOp) : Tag := ⟨BitVec.ofNat 2 o.ty, BitVec.ofNat 2 (o.split / 2)⟩

/-- Does the operation meet F-3301 against the standing tags (R95, R102)? -/
def matTagFault (o : MatOp) (s : MatState) : Bool :=
  !o.init && ((o.lo && s.tagLo != o.tag) || (o.hi && s.tagHi != o.tag))

/-- Element (d, k) of an operand within the square at `sq`: d along M or N; positions at or beyond K are zero (R85, R86,
R88, R92). -/
def MatOperand.elemIn (o : MatOperand) (kLen : Nat) (sp : Mem) (sq d k : Nat) : FV :=
  if k ≥ kLen then .zero else
  let i := if o.kFirst then k % 64 else d % 64
  let j := if o.kFirst then d % 64 else k % 64
  let code := readElem sp sq (fmtBits o.fmt) (64 * i + j)
  if o.scale = 0 then decVal o.fmt code
  else scaledVal o.fmt (scaleFmtOf o.scale)
    (Mem.get sp (o.sbase + (sq - o.base) * o.ss / o.se + i * (64 / o.block) + j / o.block)).toNat code

/-- The square that holds element (d, k). -/
def MatOperand.square (o : MatOperand) (d k : Nat) : Nat := o.base + (k / 64 * o.sk + d / 64 * o.sd)

/-- Element (d, k) of an operand. -/
def MatOperand.elem (o : MatOperand) (kLen : Nat) (sp : Mem) (d k : Nat) : FV := o.elemIn kLen sp (o.square d k) d k

/-- Byte address of bank `a`, row `r`, unit `j` for a type (R94). -/
def accAddr (ty a r j : Nat) : Nat := 65536 * a + (64 * r + j) * accWidth ty

/-- An accumulator code. -/
def accGet (acc : Mem) (ty a r j : Nat) : Nat := leNat (Mem.bytes acc (accAddr ty a r j) (accWidth ty))

/-- Write an accumulator code. -/
def accSet (acc : Mem) (ty a r j x : Nat) : Mem := Mem.setBytes acc (accAddr ty a r j) (leBytes (accWidth ty) x)

/-- The format code of an accumulator type. -/
def accFmt (ty : Nat) : Nat := if ty = 0 then 1 else if ty = 1 then 9 else 0

/-- The floating format of an accumulator type. -/
def accFF (ty : Nat) : FF := if ty = 2 then .fp64 else .fp32

/-- The fixed binary tree of R46 over `2^n` rounded products. -/
def treeSum (f : FF) : Nat → List FV → FV
  | 0, xs => xs.headD .zero
  | n + 1, xs => f.add (treeSum f n (xs.take (2 ^ n))) (treeSum f n (xs.drop (2 ^ n)))

/-- An integer saturated to INT32 (R47), and whether it was. -/
def satI32 (x : Int) : Int × Bool :=
  if x > 2147483647 then (2147483647, true) else if x < -2147483648 then (-2147483648, true) else (x, false)

/-- The integer of a finite value. -/
def FV.toInt : FV → Int
  | .fin n m e => let x : Int := (roundInt .rne m 1 e : Nat); if n then -x else x
  | _ => 0

/-- One accumulation of a unit (R45 to R47): the new code and whether it saturated. -/
def unitStep (ty kw old : Nat) (xs ys : List FV) : Nat × Bool :=
  if ty = 1 then
    let s := (List.zipWith (fun x y => x.toInt * y.toInt) xs ys).foldl (· + ·) 0
    let r := satI32 (sgn 32 old + s)
    (twos 32 r.1, r.2)
  else
    let f := accFF ty
    let ps := List.zipWith f.mul xs ys
    (f.enc (f.add (f.dec old) (treeSum f (Nat.log2 kw) ps)), false)

/-- The slice of the contraction that array `a` takes in pass `p` (R91): its first element. -/
def MatOp.slice (o : MatOp) (p a : Nat) : Nat := (p * o.split + a % o.split) * o.kw

/-- The columns below N of array `a`'s group, as unit numbers (R90 to R92). -/
def MatOp.units (o : MatOp) (a : Nat) : List Nat := List.range (min 64 (o.n - 64 * (a / o.split)))

/-- The latch set of array `a` as read from the square at `sq`: its units' elements from contraction offset `k0` on. -/
def MatOp.latchOf (o : MatOp) (sp : Mem) (a sq k0 : Nat) : LatchSet :=
  ⟨BitVec.ofNat 24 sq, o.laxis, BitVec.ofNat 21 k0,
    (o.units a).flatMap fun j => (List.range o.kw).map fun q => o.b.elemIn o.k sp sq (64 * (a / o.split) + j) (k0 + q)⟩

/-- Every array loads the set of pass `p` and switches to it (R87). -/
def latchLoad (o : MatOp) (sp : Mem) (p : Nat) (m : Sp Latches) : Sp Latches :=
  (List.range 4).foldl (fun m a =>
    Sp.put Latches.start m a ((Sp.get Latches.start m a).load
      (o.latchOf sp a (o.b.square (64 * (a / o.split)) (o.slice p a)) (o.slice p a)))) m

/-- Every array reloads its current set from the address, axis and offset it recorded (R99). -/
def latchReload (o : MatOp) (sp : Mem) (m : Sp Latches) : Sp Latches :=
  (List.range 4).foldl (fun m a =>
    let l := (Sp.get Latches.start m a)
    Sp.put Latches.start m a (l.reload (o.latchOf sp a l.now.base.toNat l.now.off.toNat))) m

/-- Elements of the accumulators that have saturated, each once and at most four (R55), with one more. -/
def satAdd (xs : List Nat) (x : Nat) : List Nat := if xs.contains x || decide (4 ≤ xs.length) then xs else xs ++ [x]

/-- Array `i` of column `c`'s group on row `r` in pass `p` (R90, R91). -/
def matCell (o : MatOp) (sp : Mem) (p r c i : Nat) (s : MatState × List Nat) : MatState × List Nat :=
  let a := c / 64 * o.split + i
  let ks := List.range o.kw
  let xs := ks.map fun k => o.a.elem o.k sp r (o.slice p a + k)
  let ys := ((Sp.get Latches.start s.1.latch a).now.elems.drop (c % 64 * o.kw)).take o.kw
  let at' := accAddr o.ty a (o.rowBase + r) (c % 64)
  let u := unitStep o.ty o.kw (accGet s.1.acc o.ty a (o.rowBase + r) (c % 64)) xs ys
  ({ s.1 with
      acc := accSet s.1.acc o.ty a (o.rowBase + r) (c % 64) u.1
      intSat := if u.2 then s.1.intSat ||| BitVec.ofNat 4 (2 ^ a) else s.1.intSat },
    if u.2 then satAdd s.2 at' else s.2)

/-- Zero the operation's rows in every bank and column (R95). -/
def matInit (o : MatOp) (s : MatState) : MatState :=
  { s with
    acc := (List.range 4).foldl (fun m a =>
      Mem.setBytes m (accAddr o.ty a o.rowBase 0) (List.replicate (o.m * 64 * accWidth o.ty) 0#8)) s.acc
    tagLo := if o.lo then o.tag else s.tagLo
    tagHi := if o.hi then o.tag else s.tagHi }

/-- Streamed rows of the whole operation, pass by pass (R92). -/
def MatOp.rows (o : MatOp) : Nat := cdiv o.k (o.split * o.kw) * o.m

/-- Streamed row `q` of the operation: the first row of a pass switches the latch sets (R87, R90). -/
def matRow (o : MatOp) (sp : Mem) (x : MatState × List Nat) (q : Nat) : MatState × List Nat :=
  let p := q / o.m
  let y := if q % o.m = 0 then ({ x.1 with latch := latchLoad o sp p x.1.latch }, x.2) else x
  (List.range o.n).foldl (fun x c => (List.range o.split).foldl (fun x i => matCell o sp p (q % o.m) c i x) x) y

/-- `n` streamed rows from row `q` on: the banks after them, and the elements that saturated (R92, R47). -/
def matRows (o : MatOp) (sp : Mem) (q n : Nat) (x : MatState × List Nat) : MatState × List Nat :=
  (List.range n).foldl (fun x k => matRow o sp x (q + k)) x

/-- The half of a row under the standing tags (R94, R97): each half has the rows of its own type. Where rows 64 to 127
belong to both halves, the lower half FP32 or INT32 and the upper FP64, they are read as the lower half's (DESIGN CHOICE,
log 58). -/
def rowTag (s : MatState) (r : Nat) : Option Tag :=
  let hi := halfRows s.tagHi.ty.toNat
  if r < halfRows s.tagLo.ty.toNat then some s.tagLo
  else if hi ≤ r ∧ r < 2 * hi then some s.tagHi else none

/-- Is a read of `cols` columns from row `r` within R97? -/
def rowReadable (s : MatState) (cols r : Nat) : Bool :=
  match rowTag s r with
  | none => false
  | some t => decide (cols ≤ 256 / 2 ^ t.split.toNat)

/-- The value of column `c` of row `r` summed under R91; the second part is the array whose flag is set. -/
def accValue (s : MatState) (r c : Nat) : FV × Option Nat :=
  match rowTag s r with
  | none => (.zero, none)
  | some t =>
    let ty := t.ty.toNat
    let sp := 2 ^ t.split.toNat
    let a0 := c / 64 * sp
    let get (i : Nat) : Nat := accGet s.acc ty (a0 + i) r (c % 64)
    if ty = 1 then
      let g (i : Nat) : Int := sgn 32 (get i)
      let r2 := satI32 (g 0 + g 1)
      let x : Int × Bool :=
        if sp = 1 then (g 0, false)
        else if sp = 2 then r2
        else
          let r3 := satI32 (g 2 + g 3)
          let r4 := satI32 (r2.1 + r3.1)
          (r4.1, r2.2 || r3.2 || r4.2)
      (FV.ofInt x.1, if x.2 then some a0 else none)
    else
      let f := accFF ty
      let g (i : Nat) : FV := f.dec (get i)
      (if sp = 1 then g 0 else if sp = 2 then f.add (g 0) (g 1)
        else f.add (f.add (g 0) (g 1)) (f.add (g 2) (g 3)), none)

/-- Read columns of a row: the values, the flags after the read, and the saturating sums met. -/
def accRow (s : MatState) (r cols : Nat) : List FV × BitVec 4 × Nat :=
  let xs := (List.range cols).map (accValue s r)
  (xs.map (·.1),
   xs.foldl (fun f x => match x.2 with | some a => f ||| BitVec.ofNat 4 (2 ^ a) | none => f) s.intSat,
   (xs.filter (fun x => x.2.isSome)).length)

/-- A checked accumulator move (Table 07-7). -/
structure AccMove where
  /-- ROW_FIRST. -/
  row : Nat
  /-- ROWS. -/
  rows : Nat
  /-- COLS. -/
  cols : Nat
  /-- Target format. -/
  fmt : Nat
  /-- RND. -/
  rnd : Bool
  /-- OVF. -/
  ovf : Bool
  /-- DST. -/
  dst : Nat
  /-- DST_STRIDE. -/
  stride : Nat
  /-- SCALE_FORMAT. -/
  scale : Nat
  /-- BLOCK. -/
  block : Nat
  /-- SCALE_BASE. -/
  sbase : Nat
  deriving DecidableEq, Repr

/-- Bytes of one destination row. -/
def AccMove.rowBytes (o : AccMove) : Nat := elemBytes (fmtBits o.fmt) o.cols

/-- The spans the move writes. -/
def AccMove.spans (o : AccMove) : List (Nat × Nat) :=
  (List.range o.rows).flatMap fun i =>
    (o.dst + i * o.stride, o.rowBytes) ::
      (if o.scale = 0 then [] else [(o.sbase + i * (o.cols / o.block), o.cols / o.block)])

/-- The checks of an ACC_MOVE (R170, R175, R97, R102) against the tags; `x` is S(XREG). F-3302 stands before F-3204
(DESIGN CHOICE, log 106). -/
def accMovePrepare (v : Bool) (w x : Nat) (s : MatState) : Except Nat AccMove :=
  match modeOf false (fld w 28 2), modeOf false (fld w 30 2) with
  | some rnd, some ovf =>
    if fld w 107 3 ≠ 0 ∨ fld w 80 2 = 3 then .error 0x3602 else
    let o : AccMove := ⟨fld w 0 8, fld w 8 8 + 1, fld w 16 8 + 1, fld w 24 4, rnd, ovf, (fld w 32 24 + x) % 2 ^ 64,
      fld w 56 24, fld w 80 2, if flag w 82 then 32 else 16, if fld w 80 2 = 0 then 0 else (fld w 83 24 + x) % 2 ^ 64⟩
    if o.dst ≥ scratchSize ∨ o.sbase ≥ scratchSize then .error 0x3603 else
    let rows := (List.range o.rows).map (· + o.row)
    let srcs := rows.filterMap fun r => (rowTag s r).map fun t => accFmt t.ty.toNat
    match scaledFault o.fmt o.scale o.block with
    | some c => .error c
    | none =>
      if o.scale ≠ 0 ∧ o.cols % o.block ≠ 0 then .error 0x3103 else
      match srcs.filterMap fun c => cvtFault c o.fmt (rnd && o.scale == 0) with
      | c :: _ => .error c
      | [] =>
        if !rows.all (rowReadable s o.cols) then .error 0x3302
        else if o.spans.any (spanBad v) then .error 0x3204
        else if o.spans.any spanPast || o.dst % 16 != 0 || o.stride % 16 != 0 || decide (o.stride < o.rowBytes) then
          .error 0x3303
        else .ok o
  | _, _ => .error 0x3602

/-- One row of an accumulator move: scratchpad, flags, stream counter and counts. -/
def accMoveRow (o : AccMove) (key : Nat) (x : Mem × MatState × Nat × Tally) (i : Nat) : Mem × MatState × Nat × Tally :=
  let rd := accRow x.2.1 (o.row + i) o.cols
  let ms := { x.2.1 with intSat := rd.2.1 }
  let w := fmtBits o.fmt
  let t0 : Tally := { x.2.2.2 with int := x.2.2.2.int + rd.2.2 }
  if o.scale = 0 then
    let src := match rowTag ms (o.row + i) with | some t => accFmt t.ty.toNat | none => 1
    let c := convElems src o.fmt o.rnd o.ovf key x.2.2.1 rd.1
    (writeElems (o.dst + i * o.stride) w x.1 0 c.1, ms, c.2.2, t0.plus c.2.1)
  else
    let c := convBlocks o.fmt (scaleFmtOf o.scale) o.ovf (chunks o.block (o.cols / o.block) rd.1)
    (writeElems (o.sbase + i * (o.cols / o.block)) 8 (writeElems (o.dst + i * o.stride) w x.1 0 c.1) 0 c.2.1,
      ms, x.2.2.1, t0.plus c.2.2)

/-- `n` rows of an accumulator move from row `i` on (R97, R175). -/
def accMoveRows (o : AccMove) (key c : Nat) (sp : Mem) (s : MatState) (i n : Nat) : Mem × MatState × Nat × Tally :=
  (List.range n).foldl (fun x k => accMoveRow o key x (i + k)) (sp, s, c, {})

/-- The word that ACC_STATUS returns (R176). -/
def accStatusWord (s : MatState) : Nat :=
  s.intSat.toNat + s.tagLo.ty.toNat * 2 ^ 4 + s.tagLo.split.toNat * 2 ^ 6 + s.tagHi.ty.toNat * 2 ^ 8
    + s.tagHi.split.toNat * 2 ^ 10

end Sys2Proof.Machine
end

