-- ==== Sys2Proof/Machine/Sfn.lean ====
section
/-!
DEFINITION. The built-in special functions (R138 to R144): exact and special results, and for every other argument
a free value held to the bound of Table 06-3 and to the seam clamp of R143. The enclosures are integer arithmetic.
-/
namespace Sys2Proof.Machine

/-- An enclosure: the value lies in [lo, hi] * 2^e. -/
structure Encl where
  /-- Lower end. -/
  lo : Int
  /-- Upper end. -/
  hi : Int
  /-- Exponent. -/
  e : Int
  deriving DecidableEq, Repr

/-- floor(ln 2 * 2^1536). -/
def ln2Const : Nat := 0xb17217f7d1cf79abc9e3b39803f2f6af40f343267298b62d8a0d175b8baafa2be7b876206debac98559552fb4afa1b10ed2eae35c138214427573b291169b8253e96ca16224ae8c51acbda11317c387eb9ea9bc3b136603b256fa0ec7657f74b72ce87b19d6548caf5dfa6bd38303248655fa1872f20e3a2da2d97c50f3fd5c607f4ca11fb5bfb90610d30f88fe551a2ee569d6dfc1efa157d2e23de1400b39617460775db8990e5c943e732b479cd33cccc4e659393514c4c1a1e0bd1d6095d

/-- floor(pi / 2 * 2^1536). -/
def halfPiConst : Nat := 0x1921fb54442d18469898cc51701b839a252049c1114cf98e804177d4c76273644a29410f31c6809bbdf2a33679a748636605614dbe4be286e9fc26adadaa3848bc90b6aecc4bcfd8de89885d34c6fdad617feb96de80d6fdbdc70d7f6b5133f4b5d3e4822f8963fcc9250cca3d9c8b67b8400f97142c77e0b31b4906c38aba734d22c7f51fa499ebf06caba47b9475b2c38c5e6ac410aa5773daa520ee12d2cdace186a9c95793009e2e8d811943042f86520bc8c5c6d9c77c73cee58301d0c07

/-- floor(2 / sqrt pi * 2^400). -/
def erfConst : Nat := 0x120dd750429b6d11ae3a914fed7fd8688281341d7587cea2e7342b06199cc416180eb39f0b24e1e2281806c12d98f35d77a3e

/-- ln 2 at scale 2^q, rounded down; q is at most 1,536. -/
def ln2At (q : Nat) : Nat := ln2Const >>> (1536 - q)

/-- 2^k as an integer. -/
def pw (k : Int) : Int := ((2 ^ k.toNat : Nat) : Int)

/-- Exponent of the leading bit of m * 2^e. -/
def lead (m : Nat) (e : Int) : Int := (Nat.log2 m : Int) + e

/-- floor(m * 2^e * 2^q). -/
def fixAt (q m : Nat) (e : Int) : Nat := roundInt (.stoch 65536) m 1 (e + q)

/-- Working scale for an argument m * 2^e: 208 bits beyond its leading bit. -/
def workBits (m : Nat) (e : Int) : Nat := 208 + min 1200 (-(lead m e)).toNat

/-- Terms of the exponential series at scale 2^q from term `t` of index `k`. -/
def expSum (q r : Nat) : Nat → Nat → Nat → Nat → Nat
  | 0, _, _, acc => acc
  | n + 1, k, t, acc =>
    let t' := ((t * r) >>> q) / k
    expSum q r n (k + 1) t' (acc + t')

/-- Terms that the series need at scale 2^q. -/
def expTerms (q : Nat) : Nat := q / 4 + 24

/-- exp of r * 2^-q for 0 <= r <= 2^q, rounded down within 3 (terms) + 3 units. -/
def expLow (q r : Nat) : Nat := expSum q r (expTerms q) 1 (2 ^ q) (2 ^ q)

/-- Enclosure of exp over [rlo, rhi] * 2^-q, near [0, 1], times 2^n. -/
def expOn (q : Nat) (rlo rhi : Int) (n : Int) : Encl :=
  let lo : Int := if rlo < 0 then (2 ^ q : Nat) + rlo else (expLow q rlo.toNat : Nat)
  let hi : Int := (expLow q rhi.toNat + 3 * expTerms q + 3 : Nat)
  ⟨lo, hi, n - q⟩

/-- Enclosure of e^a, a = (-1)^neg * m * 2^e. -/
def expEncl (neg : Bool) (m : Nat) (e : Int) : Encl :=
  if lead m e ≥ 12 then (if neg then ⟨0, 1, -8000⟩ else ⟨1, 1, 8000⟩)
  else
    let q := workBits m e + 16
    let x : Int := (fixAt q m e : Nat)
    let alo : Int := if neg then -x - 1 else x
    let l : Int := (ln2At q : Nat)
    let n := alo / l
    expOn q (alo - n * l - n.natAbs) (alo + 2 - n * l + n.natAbs) n

/-- Enclosure of 2^t, t = (-1)^neg * m * 2^e. -/
def exp2Encl (neg : Bool) (m : Nat) (e : Int) : Encl :=
  if lead m e ≥ 13 then (if neg then ⟨0, 1, -8000⟩ else ⟨1, 1, 8000⟩)
  else
    let q := workBits m e + 16
    let nd := scalePair m 1 (e + q)
    let exact := nd.1 % nd.2 == 0
    let x : Int := (nd.1 / nd.2 : Nat)
    let t : Int := if neg then (if exact then -x else -x - 1) else x
    let n := t / (2 ^ q : Nat)
    let f := (t - n * (2 ^ q : Nat)).toNat
    let l := ln2At q
    if f = 0 ∧ exact then ⟨1, 1, n⟩
    else expOn q (((f * l) >>> q : Nat) : Int) ((((f + 2) * (l + 1)) >>> q) + 1 : Nat) n

/-- An enclosure plus an integer. -/
def Encl.plus (x : Encl) (one : Int) : Encl :=
  if x.e ≤ 0 then ⟨x.lo + one * pw (-x.e), x.hi + one * pw (-x.e), x.e⟩
  else ⟨x.lo * pw x.e + one, x.hi * pw x.e + one, 0⟩

/-- Terms z^(2k+1) / (2k+1) of the area hyperbolic tangent. -/
def atanhSum (q z2 : Nat) : Nat → Nat → Nat → Nat → Nat
  | 0, _, _, acc => acc
  | n + 1, k, p, acc => let p' := (p * z2) >>> q; atanhSum q z2 n (k + 2) p' (acc + p' / k)

/-- ln of m / d for 3/4 <= m / d < 3/2: (negative, lower end of the magnitude, width, scale). -/
def logSmall (m d : Nat) : Bool × Nat × Nat × Nat :=
  let num := if m < d then d - m else m - d
  if num = 0 then (false, 0, 0, 208)
  else
    let q := 224 + min 1200 (Nat.log2 d - Nat.log2 num)
    let z := num * 2 ^ q / (m + d)
    let n := q / 4 + 8
    (decide (m < d), 2 * atanhSum q ((z * z) >>> q) n 3 z z, 8 * n + 8, q)

/-- Enclosure of ln(m * 2^e), or of log2 when `two`. -/
def logEncl (two : Bool) (m : Nat) (e : Int) : Encl :=
  let l := Nat.log2 m
  let big := decide (2 * m ≥ 3 * 2 ^ l)
  let d := if big then 2 ^ (l + 1) else 2 ^ l
  let k : Int := (l : Int) + e + (if big then 1 else 0)
  let s := logSmall m d
  let q := s.2.2.2
  let mag := s.2.1
  let w := s.2.2.1
  let lo : Int := if s.1 then -((mag + w : Nat) : Int) else (mag : Nat)
  let hi : Int := if s.1 then -(mag : Int) else ((mag + w : Nat) : Int)
  let ln2 : Int := (ln2At q : Nat)
  if two then
    let c : Int := k * (2 ^ q : Nat)
    let dv (x : Int) : Int := x * (2 ^ q : Nat) / ln2
    ⟨c + dv lo - 2, c + dv hi + 2, -q⟩
  else ⟨lo + k * ln2 - k.natAbs, hi + k * ln2 + k.natAbs, -q⟩

/-- Alternating series of sine or cosine from term `t` of index `k` at scale 2^q. -/
def trigSum (q x2 : Nat) : Nat → Nat → Int → Int → Int
  | 0, _, _, acc => acc
  | n + 1, k, t, acc =>
    let t' : Int := -(t * (x2 : Int) / (2 ^ q : Nat) / (k * (k + 1) : Nat))
    trigSum q x2 n (k + 2) t' (acc + t')

/-- Enclosure of sin a, or cos a when `co` (R139: reduced by an exact quotient). -/
def sinEncl (co neg : Bool) (m : Nat) (e : Int) : Encl :=
  let q := 208 + min 1200 (-(lead m e)).toNat
  let q2 := min 1536 (q + (lead m e + 2).toNat + 8)
  let hp := halfPiConst >>> (1536 - q2)
  let a := fixAt q2 m e
  let k := (2 * a + hp) / (2 * hp)
  let r0 : Int := ((a : Int) - (k * hp : Nat)) / (2 ^ (q2 - q) : Nat)
  let quad := (if co then k + 1 else k) % 4
  let x2 := (r0.natAbs * r0.natAbs) >>> q
  let s : Int := trigSum q x2 (q / 6 + 16) 2 (r0.natAbs : Nat) (r0.natAbs : Nat)
  let c : Int := trigSum q x2 (q / 6 + 16) 1 (2 ^ q : Nat) (2 ^ q : Nat)
  let sr := if r0 < 0 then -s else s
  let v := if quad = 0 then sr else if quad = 1 then c else if quad = 2 then -sr else -c
  let v' := if neg && !co then -v else v
  ⟨v' - (8 * q : Nat), v' + (8 * q : Nat), -q⟩

/-- Terms (-1)^n x^(2n) / (n! (2n + 1)). -/
def erfSum (q x2 : Nat) : Nat → Nat → Int → Int → Int
  | 0, _, _, acc => acc
  | n + 1, k, t, acc =>
    let t' : Int := -(t * (x2 : Int) / (2 ^ q : Nat) / (k : Nat))
    erfSum q x2 n (k + 1) t' (acc + t' / ((2 * k + 1 : Nat) : Int))

/-- Enclosure of erf of m * 2^e below 4. -/
def erfEncl (m : Nat) (e : Int) : Encl :=
  let q : Nat := 320
  let x := roundInt (.stoch 65536) (m * m) 1 (2 * e + q)
  let s := erfSum q x 160 1 (2 ^ q : Nat) (2 ^ q : Nat)
  ⟨(m : Int) * (s - 2 ^ 40) * (erfConst : Nat), (m : Int) * (s + 2 ^ 40) * ((erfConst + 1 : Nat) : Int), e - q - 400⟩

/-- Integer square root by binary digits. -/
def isqrtGo (n : Nat) : Nat → Nat → Nat
  | 0, r => r
  | i + 1, r => isqrtGo n i (if (r + 2 ^ i) * (r + 2 ^ i) ≤ n then r + 2 ^ i else r)

/-- floor of the square root. -/
def isqrt (n : Nat) : Nat := isqrtGo n (Nat.log2 n / 2 + 2) 0

/-- Enclosure of sqrt(p / q * 2^e). -/
def sqrtEncl (p q : Nat) (e : Int) : Encl :=
  let n := p * 2 ^ (if e % 2 = 0 then 600 else 601)
  let x := n / q
  let r := isqrt x
  ⟨r, if r * r = x ∧ n % q = 0 then (r : Nat) else (r + 1 : Nat), e / 2 - 300⟩

/-- Enclosure of p / q * 2^e. -/
def quotEncl (p q : Nat) (e : Int) : Encl :=
  let x : Nat := p * 2 ^ 300 / q
  ⟨x, if p * 2 ^ 300 % q = 0 then (x : Nat) else (x + 1 : Nat), e - 300⟩

/-- x / (x + c) over an enclosure of a positive x of nonpositive exponent. -/
def ratioEncl (x : Encl) (c : Nat) : Encl :=
  let one := c * 2 ^ (-x.e).toNat
  let g (y : Int) : Nat := y.toNat * 2 ^ 2400 / (y.toNat + one)
  ⟨g x.lo, (g x.hi + 1 : Nat), -2400⟩

/-- An enclosure negated when `n`. -/
def Encl.signed (n : Bool) (x : Encl) : Encl := if n then ⟨-x.hi, -x.lo, x.e⟩ else x

/-- ln(1 + y) over an enclosure of a nonnegative y. -/
def log1pOf (y : Encl) : Encl :=
  let z := y.plus 1
  let a := logEncl false z.lo.toNat z.e
  let b := logEncl false z.hi.toNat z.e
  let k := min a.e b.e
  ⟨max 0 (a.lo * pw (a.e - k)), b.hi * pw (b.e - k), k⟩

/-- The signed code of x * 2^e rounded down (or up) on a format's grid: a negative value has a negative code. -/
def floorCode (f : FF) (up : Bool) (x : Int) (e : Int) : Int :=
  if 0 ≤ x then (f.roundCode (.stoch (if up then 0 else 65536)) x.natAbs 1 e : Nat)
  else -((f.roundCode (.stoch (if up then 65536 else 0)) x.natAbs 1 e : Nat) : Int)

/-- The signed code of the nearest value, ties to even, of x * 2^e. -/
def nearCode (f : FF) (x : Int) (e : Int) : Int :=
  if 0 ≤ x then (f.roundCode .rne x.natAbs 1 e : Nat) else -((f.roundCode .rne x.natAbs 1 e : Nat) : Int)

/-- The value of a signed code; `neg` signs a zero. -/
def ofSigned (f : FF) (neg : Bool) (c : Int) : FV :=
  if c = 0 then .fin neg 0 0
  else if c.natAbs ≤ f.maxCode then f.magVal (decide (c < 0)) c.natAbs else .inf (decide (c < 0))

/-- Which of the codes that the bounds allow: the least that the predicate takes, else the greatest (log 10). -/
abbrev Choice := Int → Bool

/-- The choice of a function of R143, `key` rising with its result: it takes a code when the operand lies below that code's
threshold, so that the result never falls as the key rises. -/
def risingChoice (threshold : Int → Int) (key : Int) : Choice := fun y => decide (key < threshold y)

/-- A range of codes around an enclosed value: where that rounds to a finite one, no code beyond the largest finite, as an infinity
is within no number of ULP of it (R141). -/
def capped (f : FF) (x : Encl) (r : Int × Int) : Int × Int :=
  if nearCode f (max x.lo.natAbs x.hi.natAbs : Nat) x.e ≤ f.maxCode then (max r.1 (-(f.maxCode : Int)), min r.2 f.maxCode) else r

/-- The signed codes within `u` grid spacings (at least 2^-26 when `abs26`) of an enclosed value. Just above a power of
two the codes below the last that the power's own lower neighbours allow are left out: R143 forbids them (log 10). -/
def codesNear (f : FF) (u : Nat) (abs26 : Bool) (x : Encl) : Int × Int :=
  let mag := max x.lo.natAbs x.hi.natAbs
  let top : Int := if mag = 0 then 1 - f.bias else max (ilog2 mag 1 + x.e) (1 - f.bias)
  let ge : Int := top - f.mb
  let k := min x.e (min (ge - 1) (-26))
  let b : Int := u * pw (ge - k)
  let s : Int := pw (x.e - k)
  let lo := x.lo * s
  let hi := x.hi * s
  if abs26 then
    let b' := max b (pw (-26 - k))
    (floorCode f true (lo - b') k, floorCode f false (hi + b') k)
  else
    let p : Int := if top = 1 - f.bias then 0 else pw (top - k)
    let near (low : Int) : Int := if p = 0 then low - b else max (low - b) (min low p - b / 2)
    if 0 < x.lo then (floorCode f true (near lo) k, floorCode f false (hi + b) k)
    else if x.hi < 0 then (floorCode f true (lo - b) k, floorCode f false (-(near (-hi))) k)
    else (floorCode f true (lo - b) k, floorCode f false (hi + b) k)

/-- The signed codes that R141 allows a result: those near the enclosed value, and in range where it is. -/
def within (f : FF) (u : Nat) (abs26 : Bool) (x : Encl) : Int × Int := capped f x (codesNear f u abs26 x)

/-- The least of the next `n` codes from `a` that the choice takes, else the last. -/
def leastFrom (choice : Choice) : Nat → Int → Int
  | 0, a => a
  | n + 1, a => if choice a then a else leastFrom choice n (a + 1)

/-- A free choice among the signed codes lo to hi, clamped into cl to ch (R143). -/
def freeIn (choice : Choice) (lo hi cl ch : Int) : Int :=
  let a := max lo cl
  let b := min hi ch
  if b ≤ a then (if lo > ch then ch else if hi < cl then cl else a) else leastFrom choice (b - a).toNat a

/-- V(s) of R143 as a signed code, from an enclosure of f(s). -/
def seamCode (f : FF) (x : Encl) : Int := nearCode f x.lo x.e

/-- Beyond every code. -/
def wide : Int := 2 ^ 80

/-- The clamp between V at two seams, in increasing order of V. -/
def seams (f : FF) (lo hi : Encl) : Int × Int := (seamCode f lo, seamCode f hi)

/-- Index of the 2^-b grid cell that holds m * 2^e. -/
def cell (b : Nat) (m : Nat) (e : Int) : Nat := roundInt (.stoch 65536) m 1 (e + b)

/-- Seams of the exponential path around cell j: 2^(j/32), less one when asked (R139). -/
def expSeams (f : FF) (j : Int) (minusOne : Bool) : Int × Int :=
  let v (i : Int) : Encl :=
    let x : Encl := if i = 0 then ⟨1, 1, 0⟩ else exp2Encl (decide (i < 0)) i.natAbs (-5)
    if minusOne then x.plus (-1) else x
  seams f (v j) (v (j + 1))

/-- floor(32 a / ln 2), the cell of t = a log2 e. -/
def expCell (neg : Bool) (m : Nat) (e : Int) : Int :=
  let x : Int := (fixAt 300 m e : Nat)
  (32 * (if neg then -x - 1 else x)) / (ln2At 300 : Nat)

/-- Seams of the logarithm around the argument m * 2^e (R139): 0.75 + 3 j / 256 times 2^n. -/
def logSeams (m : Nat) (e : Int) : (Nat × Int) × (Nat × Int) :=
  let l := Nat.log2 m
  let d := if 2 * m ≥ 3 * 2 ^ l then l + 1 else l
  let j := (m * 256 - 192 * 2 ^ d) / (3 * 2 ^ d)
  ((192 + 3 * j, (d : Int) + e - 8), (195 + 3 * j, (d : Int) + e - 8))

/-- Seams of the square roots around the argument: 4^n (1 + 3 j / 64) (R139). -/
def sqrtSeams (m : Nat) (e : Int) : (Nat × Int) × (Nat × Int) :=
  let l := lead m e
  let n2 := l - l % 2
  let nd := scalePair m 1 (e - n2 + 6)
  let j := (nd.1 - 64 * nd.2) / (3 * nd.2)
  ((64 + 3 * j, n2 - 6), (67 + 3 * j, n2 - 6))

/-- Is m * 2^e at least n / d? -/
def geFrac (m : Nat) (e : Int) (n d : Nat) : Bool :=
  let x := scalePair m 1 e
  decide (x.1 * d ≥ n * x.2)

/-- Is m * 2^e at most n / d? -/
def leFrac (m : Nat) (e : Int) (n d : Nat) : Bool :=
  let x := scalePair m 1 e
  decide (x.1 * d ≤ n * x.2)

/-- Is m a power of two? -/
def isPow2 (m : Nat) : Bool := m == 2 ^ Nat.log2 m

/-- The result of one evaluation within bounds: format, bound, zero's sign, enclosure, clamp. -/
def pick (f : FF) (choice : Choice) (u : Nat) (zneg : Bool) (x : Encl) (cl : Int × Int) : FV :=
  let r := within f u false x
  ofSigned f zneg (freeIn choice r.1 r.2 cl.1 cl.2)

/-- Any of the codes of a range within a clamp, by a free number. -/
def anyOf (f : FF) (free : Nat) (zneg : Bool) (r cl : Int × Int) : FV :=
  let lo := max r.1 cl.1
  ofSigned f zneg (max cl.1 (min cl.2 (lo + (free % ((min r.2 cl.2 - lo).toNat + 1) : Nat))))

/-- A value within its bound where R143 asks no order (SIN, COS, NORM_APPLY). -/
def pickAny (f : FF) (free u : Nat) (abs26 zneg : Bool) (x : Encl) (cl : Int × Int) : FV := anyOf f free zneg (within f u abs26 x) cl

/-- The signed code of 1. -/
def oneCode (f : FF) : Int := nearCode f 1 0

/-- A value within its bound for an increasing function given by an enclosure, with seams on the 2^-b grid. -/
def pickGrid (f : FF) (choice : Choice) (u b : Nat) (enc : Bool → Nat → Int → Encl) (neg : Bool) (m : Nat) (e : Int) : FV :=
  let j := cell b m e
  let c := if neg then seams f (enc true (j + 1) (-b)) (enc true j (-b)) else seams f (enc false j (-b)) (enc false (j + 1) (-b))
  pick f choice u neg (enc neg m e) c

/-- The value 1. -/
def FV.one : FV := .fin false 1 0

/-- EXP and EXP_X35 at a finite non-zero argument (Table 06-3). Where the table states neither a bound nor a limit (88.72283 < a <=
88.72284 and -103.98 < a <= -103.97, likewise for EXP_X35) the model keeps 1 ULP, and EXP in an X35 stage takes the limits of
EXP_X35 (log 138). -/
def sfnExp (f : FF) (x35 : Bool) (choice : Choice) (neg : Bool) (m : Nat) (e : Int) : FV :=
  if !neg && !(if x35 then leFrac m e 7097828 10000 else leFrac m e 8872284 100000) then .inf false
  else if neg && (if x35 then geFrac m e 72504 100 else geFrac m e 10398 100) then .zero
  else pick f choice 1 false (expEncl neg m e) (expSeams f (expCell neg m e) false)

/-- EXP2: exact at an integer (R144). -/
def sfnExp2 (f : FF) (choice : Choice) (neg : Bool) (m : Nat) (e : Int) : FV :=
  if lead m e ≥ 13 then (if neg then .zero else .inf false)
  else
    let x := exp2Encl neg m e
    if x.lo = x.hi then f.rnd (.fin false 1 x.e)
    else
      let q : Int := (cell 5 m e : Nat)
      let whole := decide ((scalePair m 1 (e + 5)).1 % (scalePair m 1 (e + 5)).2 = 0)
      pick f choice 1 false x (expSeams f (if neg then (if whole then -q else -q - 1) else q) false)

/-- EXPM1. -/
def sfnExpm1 (f : FF) (choice : Choice) (neg : Bool) (m : Nat) (e : Int) : FV :=
  let enc (n : Bool) (i : Nat) (ie : Int) : Encl := if i = 0 then ⟨0, 0, 0⟩ else (expEncl n i ie).plus (-1)
  if !geFrac m e 1 4 then pickGrid f choice 2 5 enc neg m e
  else
    let s := expSeams f (expCell neg m e) true
    let q := seamCode f (enc neg 1 (-2))
    pick f choice 2 neg (enc neg m e) (if neg then (s.1, min s.2 q) else (max s.1 q, s.2))

/-- The results that stand exact beside an argument of LOG or LOG2 (R144): those of LOG2 at the powers of two around it, and of LOG
at 1. No other result passes them (R143). -/
def logExact (f : FF) (two : Bool) (l : Int) : Int × Int :=
  if two then (nearCode f l 0, nearCode f (l + 1) 0) else if 0 ≤ l then (0, wide) else (-wide, 0)

/-- LOG and LOG2 (`two`). -/
def sfnLog (f : FF) (two : Bool) (choice : Choice) (neg : Bool) (m : Nat) (e : Int) : FV :=
  if neg then .nan
  else if isPow2 m && decide (lead m e = 0) then .zero
  else if two && isPow2 m then f.rnd (FV.ofInt (lead m e))
  else
    let s := logSeams m e
    let c := seams f (logEncl two s.1.1 s.1.2) (logEncl two s.2.1 s.2.2)
    let x := logExact f two (lead m e)
    pick f choice (if geFrac m e 15 16 && leFrac m e 17 16 then 2 else 1) (!geFrac m e 1 1) (logEncl two m e) (max c.1 x.1, min c.2 x.2)

/-- 1 + (-1)^neg * m * 2^e as a dyadic, for a sum above zero. -/
def onePlus (neg : Bool) (m : Nat) (e : Int) : Nat × Int :=
  if e ≥ 0 then (1 + m * 2 ^ e.toNat, 0)
  else (if neg then 2 ^ (-e).toNat - m else 2 ^ (-e).toNat + m, e)

/-- LOG1P. -/
def sfnLog1p (f : FF) (choice : Choice) (neg : Bool) (m : Nat) (e : Int) : FV :=
  if neg && geFrac m e 1 1 then (if isPow2 m && decide (lead m e = 0) then .inf true else .nan)
  else
    let enc (n : Bool) (i : Nat) (ie : Int) : Encl :=
      if i = 0 then ⟨0, 0, 0⟩ else logEncl false (onePlus n i ie).1 (onePlus n i ie).2
    if !geFrac m e 1 4 then pickGrid f choice 2 5 enc neg m e
    else
      let s := logSeams (onePlus neg m e).1 (onePlus neg m e).2
      let c := seams f (logEncl false s.1.1 s.1.2) (logEncl false s.2.1 s.2.2)
      let q := seamCode f (enc neg 1 (-2))
      pick f choice 2 neg (enc neg m e) (if neg then (c.1, min c.2 q) else (max c.1 q, c.2))

/-- RECIP: exact at a power of two, decreasing on each sign. -/
def sfnRecip (f : FF) (choice : Choice) (neg : Bool) (m : Nat) (e : Int) : FV :=
  if isPow2 m then f.rnd (.fin neg 1 (-(lead m e)))
  else
    let l := Nat.log2 m
    let j := m * 64 / 2 ^ l - 64
    let v (i : Nat) : Encl := (quotEncl 1 (64 + i) (6 - lead m e)).signed neg
    pick f choice 1 neg ((quotEncl 1 m (-e)).signed neg) (if neg then seams f (v j) (v (j + 1)) else seams f (v (j + 1)) (v j))

/-- RSQRT and SQRT. -/
def sfnSqrt (f : FF) (recip : Bool) (choice : Choice) (neg : Bool) (m : Nat) (e : Int) : FV :=
  if neg then .nan
  else if isPow2 m && decide (lead m e % 2 = 0) then f.rnd (.fin false 1 (if recip then -(lead m e / 2) else lead m e / 2))
  else
    let s := sqrtSeams m e
    if recip then pick f choice 1 false (sqrtEncl 1 m (-e)) (seams f (sqrtEncl 1 s.2.1 (-s.2.2)) (sqrtEncl 1 s.1.1 (-s.1.2)))
    else pick f choice 1 false (sqrtEncl m 1 e) (seams f (sqrtEncl s.1.1 1 s.1.2) (sqrtEncl s.2.1 1 s.2.2))

/-- LOGISTIC: 1 from 17.33 on. -/
def sfnLogistic (f : FF) (choice : Choice) (neg : Bool) (m : Nat) (e : Int) : FV :=
  if !neg && geFrac m e 1733 100 then .one
  else
    let enc (n : Bool) (i : Nat) (ie : Int) : Encl := if i = 0 then ⟨1, 1, -1⟩ else ratioEncl (expEncl n i ie) 1
    if !geFrac m e 2 1 then pickGrid f choice 2 4 enc neg m e
    else pick f choice 2 false (enc neg m e)
      (if neg then (0, seamCode f (enc true 2 0)) else (seamCode f (enc false 2 0), oneCode f))

/-- TANH: the argument below 2^-12, ±1 from 9.011 on. -/
def sfnTanh (f : FF) (choice : Choice) (neg : Bool) (m : Nat) (e : Int) : FV :=
  if !geFrac m e 1 4096 then f.rnd (.fin neg m e)
  else if geFrac m e 9011 1000 then .fin neg 1 0
  else
    let th (i : Nat) (ie : Int) : Encl := ratioEncl ((expEncl false i (ie + 1)).plus (-1)) 2
    let j := cell 5 m e
    let c : Int × Int :=
      if geFrac m e 1 1 then (seamCode f (th 1 0), oneCode f)
      else (if j = 0 then seamCode f (th 1 (-12)) else seamCode f (th j (-5)), seamCode f (th (j + 1) (-5)))
    pick f choice 2 neg ((th m e).signed neg) (if neg then (-c.2, -c.1) else c)

/-- ln(1 + 2^(j/32)), SOFTPLUS at a seam of the EXP path; from a large j on it is j ln 2 / 32. -/
def softplusAt (j : Int) : Encl :=
  if 32 * 145 ≤ j then ⟨j * (ln2At 200 : Nat), j * ((ln2At 200 : Nat) + 1) + 1, -205⟩
  else log1pOf (if j = 0 then ⟨1, 1, 0⟩ else exp2Encl (decide (j < 0)) j.natAbs (-5))

/-- SOFTPLUS at an argument, enclosed. From 100 on it exceeds the argument by e^-a, less than any spacing of a grid and more than
0: a value just above the argument stands for it. -/
def softplusEncl (neg : Bool) (m : Nat) (e : Int) : Encl :=
  if !neg && geFrac m e 100 1 then ⟨(fixAt 200 m e + 1 : Nat), (fixAt 200 m e + 2 ^ 57 : Nat), -200⟩ else log1pOf (expEncl neg m e)

/-- SOFTPLUS: clamped at plus and minus 16 and at the seams of the paths that Table 06-2 names: EXP in every one, LOG1P of e^a
between them. -/
def sfnSoftplus (f : FF) (choice : Choice) (neg : Bool) (m : Nat) (e : Int) : FV :=
  let enc := softplusEncl
  let j := expCell neg m e
  let x : Int × Int := (seamCode f (softplusAt j), seamCode f (softplusAt (j + 1)))
  let c : Int × Int :=
    if geFrac m e 16 1 then
      (if neg then (x.1, min x.2 (seamCode f (enc true 1 4))) else (max x.1 (seamCode f (enc false 1 4)), x.2))
    else
      let y := expEncl neg m e
      let l : Int × Int :=
        if neg && !geFrac y.lo.toNat y.e 1 4 then
          let i := cell 5 y.lo.toNat y.e
          (if i = 0 then 0 else seamCode f (logEncl false (32 + i) (-5)), seamCode f (logEncl false (33 + i) (-5)))
        else
          let z := y.plus 1
          let s := logSeams z.lo.toNat z.e
          let q := seamCode f (logEncl false 5 (-2))
          (max q (seamCode f (logEncl false s.1.1 s.1.2)), seamCode f (logEncl false s.2.1 s.2.2))
      (max (seamCode f (enc true 1 4)) (max x.1 l.1), min (seamCode f (enc false 1 4)) (min x.2 l.2))
  pick f choice 2 false (enc neg m e) c

/-- ERF: ±1 from 3.92 on. -/
def sfnErf (f : FF) (choice : Choice) (neg : Bool) (m : Nat) (e : Int) : FV :=
  if geFrac m e 392 100 then .fin neg 1 0
  else
    let j := cell 4 m e
    let v (i : Nat) : Int := if i = 0 then 0 else if i ≥ 63 then oneCode f else seamCode f (erfEncl i (-4))
    pick f choice 2 neg ((erfEncl m e).signed neg) (if neg then (-(v (j + 1)), -(v j)) else (v j, v (j + 1)))

/-- One built-in function of one operand at a finite, non-zero argument (R139 to R144). -/
def sfnFinite (fn : Nat) (f : FF) (x35 : Bool) (choice : Choice) (free : Nat) (neg : Bool) (m : Nat) (e : Int) : FV :=
  match fn with
  | 0 => sfnExp f x35 choice neg m e
  | 1 => sfnExp2 f choice neg m e
  | 2 => sfnExp f x35 choice neg m e
  | 3 => sfnExpm1 f choice neg m e
  | 4 => sfnLog f false choice neg m e
  | 5 => sfnLog f true choice neg m e
  | 6 => sfnLog1p f choice neg m e
  | 7 => sfnRecip f choice neg m e
  | 8 => sfnSqrt f true choice neg m e
  | 9 => sfnSqrt f false choice neg m e
  | 11 => sfnLogistic f choice neg m e
  | 12 => sfnTanh f choice neg m e
  | 13 => sfnSoftplus f choice neg m e
  | 14 => sfnErf f choice neg m e
  | 15 => pickAny f free 2 true neg (sinEncl false neg m e) (-(oneCode f), oneCode f)
  | 16 => pickAny f free 2 true false (sinEncl true neg m e) (-(oneCode f), oneCode f)
  | _ => .nan

/-- A built-in function of one operand on every value (Table 06-4, R142, R144). `x35`: the result is X35. -/
def sfnOne (fn : Nat) (f : FF) (x35 : Bool) (choice : Choice) (free : Nat) (a : FV) : FV :=
  match a with
  | .nan => .nan
  | .inf neg =>
    match fn with
    | 0 | 1 | 2 | 13 => if neg then .zero else .inf false
    | 3 => if neg then .fin true 1 0 else .inf false
    | 4 | 5 | 6 | 9 => if neg then .nan else .inf false
    | 7 => .fin neg 0 0
    | 8 => if neg then .nan else .zero
    | 11 => if neg then .zero else .one
    | 12 | 14 => .fin neg 1 0
    | _ => .nan
  | .fin neg 0 _ =>
    match fn with
    | 0 | 1 | 2 | 16 => .one
    | 3 | 6 | 9 | 12 | 14 | 15 => .fin neg 0 0
    | 4 | 5 => .inf true
    | 7 | 8 => .inf neg
    | 11 => .fin false 1 (-1)
    | 13 => ofSigned f false (nearCode f (logEncl false 2 0).lo (logEncl false 2 0).e)
    | _ => .nan
  | .fin neg m e => sfnFinite fn f x35 choice free neg m e

/-- DIV within its bound (R139, Table 06-3, Table 06-4), clamped between the quotients at the seams of the divisor. -/
def sfnDiv (f : FF) (choice : Choice) (a b : FV) : FV :=
  match a, b with
  | .fin n1 m1 e1, .fin n2 m2 e2 =>
    if m1 = 0 ∨ m2 = 0 then f.div a b
    else
      let n := n1 != n2
      let j := m2 * 64 / 2 ^ Nat.log2 m2 - 64
      let v (i : Nat) : Encl := (quotEncl m1 (64 + i) (e1 + 6 - lead m2 e2)).signed n
      pick f choice 2 n ((quotEncl m1 m2 (e1 - e2)).signed n) (if n then seams f (v j) (v (j + 1)) else seams f (v (j + 1)) (v j))
  | _, _ => f.div a b

/-- The signed code of a finite operand in a format that holds it. -/
def signedKey (f : FF) : FV → Int
  | .fin n m e => nearCode f (if n then -(m : Int) else m) e
  | _ => 0

/-- The free choice of a built-in function of one operand (R143): RECIP and RSQRT fall. -/
def sfnChoice (fn fmt : Nat) (f : FF) (a : FV) : Choice :=
  risingChoice (Config.sfnThreshold fn fmt 0) (if fn = 7 ∨ fn = 8 then -(signedKey f a) else signedKey f a)

/-- The free choice of DIV: over the divisor at each dividend, the quotient falling for a positive one. -/
def divChoice (fmt : Nat) (f : FF) (a b : FV) : Choice :=
  risingChoice (Config.sfnThreshold 10 fmt (f.enc a)) (if a.lt .zero then signedKey f b else -(signedKey f b))

/-- A built-in function of one operand with its free choice. -/
def sfnVal (fn fmt : Nat) (f : FF) (a : FV) : FV := sfnOne fn f (fmt != 1) (sfnChoice fn fmt f a) (Config.sfnFree fn fmt (f.enc a) 0) a

/-- e^a in X35, as every EXP_X35 stage gives it. -/
def expX35 (a : FV) : FV := sfnVal 2 15 .x35 a

/-- The 30-bit-significand format inside an evaluator (R140). -/
def FF.inner : FF := ⟨11, 29, 1023, .ieee⟩

end Sys2Proof.Machine
end

