-- ==== Sys2Proof/Machine/Vector.lean ====
section
/-!
DEFINITION. Stage operations, scans, carry records, reductions and row statistics of the vector engine (R113 to R132,
R147 to R154), as pure functions on exact values.
-/
namespace Sys2Proof.Machine

/-- A value with the format code it stands in. -/
abbrev TV := Nat × FV

/-- The layout in which a floating vector format computes. -/
def vff (c : Nat) : FF := (ffOf c).getD .fp32

/-- Smaller and larger under R115: NaN wins, and -0 is below +0. -/
def FV.minmax (mx : Bool) (a b : FV) : FV :=
  match a, b with
  | .nan, _ => .nan
  | _, .nan => .nan
  | _, _ =>
    let sa := match a with | .fin n 0 _ => n | _ => false
    let below := a.lt b || (!b.lt a && sa)
    if below != mx then a else b

/-- An integer result of an INT32 stage: wrapped, or saturated when asked (R49, R113). -/
def i32 (sat : Bool) (x : Int) : FV := FV.ofInt (if sat then (satI32 x).1 else sgn 32 (twos 32 x))

/-- An operand converted to the reading stage's format (R49): nearest-even, overflow as in arithmetic. -/
def operand (x : TV) (tgt : Nat) : FV × Tally :=
  if x.1 = tgt then (x.2, {})
  else
    let c := convert x.1 tgt x.2 .rne true
    (decVal tgt c.1, c.2)

/-- A predicate selector (R172) on four predicates. -/
def psel (pr : BitVec 4) (s : Nat) : Bool :=
  if s < 8 then true else (pr.getLsbD (s % 4)) != flag s 2

/-- Is the selector well formed (R172)? -/
def pselOk (s : Nat) : Bool := s == 0 || decide (8 ≤ s)

/-- A predicate set. -/
def setPred (pr : BitVec 4) (i : Nat) (b : Bool) : BitVec 4 :=
  if b then pr ||| BitVec.ofNat 4 (2 ^ i) else pr &&& ~~~ (BitVec.ofNat 4 (2 ^ i))

/-- CMP conditions of Table 07-13 (R115). -/
def cmpOp (c : Nat) (a b : FV) : Bool :=
  let un := a == .nan || b == .nan
  match c with
  | 0 => a.eqv b
  | 1 => !a.eqv b
  | 2 => a.lt b
  | 3 => a.lt b || a.eqv b
  | 4 => b.lt a
  | 5 => b.lt a || a.eqv b
  | _ => un

/-- CLASS of Table 07-13 in a format. -/
def classOp (f : FF) (c : Nat) (a : FV) : Bool :=
  match c, a with
  | 0, .nan => true
  | 1, .inf _ => true
  | 2, .fin _ _ _ => true
  | 3, .fin _ m _ => m == 0
  | 4, .fin _ m e => m != 0 && decide (lead m e < 1 - f.bias)
  | 5, .inf n => n
  | 5, .fin n _ _ => n
  | _, _ => false

/-- A value stage on converted operands (Table 05-3), SFN and CVT apart: operation code, format, X. -/
def valueOp (op fmt x : Nat) (a b c : FV) : FV :=
  let f := vff fmt
  let int := fmt == 9
  let sat := flag x 0
  let ua : Nat := twos 32 a.toInt
  let ub : Nat := twos 32 b.toInt
  let sh := ub % 32
  match op with
  | 1 => f.fma a b c
  | 2 => i32 sat (a.toInt * b.toInt + c.toInt)
  | 3 => if int then i32 sat (a.toInt + b.toInt) else f.add a b
  | 4 => if int then i32 sat (a.toInt - b.toInt) else f.add a b.neg
  | 5 => if int then i32 sat (a.toInt * b.toInt) else f.mul a b
  | 6 => a.minmax false b
  | 7 => a.minmax true b
  | 9 => FV.ofInt (sgn 32 (ua &&& ub))
  | 10 => FV.ofInt (sgn 32 (ua ||| ub))
  | 11 => FV.ofInt (sgn 32 (ua ^^^ ub))
  | 12 => FV.ofInt (sgn 32 (ua <<< sh))
  | 13 => FV.ofInt (sgn 32 (ua >>> sh))
  | 14 => FV.ofInt (a.toInt / (2 ^ sh : Nat))
  | 15 => if int then i32 sat a.toInt.natAbs else a.abs
  | 16 => if int then i32 sat (-a.toInt) else a.neg
  | _ => a

/-- The identity of a scan operation (Table 05-6): A and B. -/
def scanIdent (op fmt : Nat) : FV × FV :=
  let int := fmt == 9
  (if op = 4 then .one else .zero,
   match op with
   | 1 => .one
   | 2 => if int then FV.ofInt (-2147483648) else .inf true
   | 3 => if int then FV.ofInt 2147483647 else .inf false
   | _ => .zero)

/-- e2 ∘ e1 of Table 05-6, one rounding in FORMAT; an excluded element (none) leaves the other exact (R128). A scan other than
RECURRENCE has no A component: it is +0, and so is what SCAN_A then supplies (DESIGN CHOICE, log 107). -/
def scanComp (op fmt : Nat) (e2 e1 : Option (FV × FV)) : Option (FV × FV) :=
  match e2, e1 with
  | none, x => x
  | x, none => x
  | some (a2, b2), some (a1, b1) =>
    let f := vff fmt
    let int := fmt == 9
    some (match op with
      | 0 => (.zero, if int then i32 false (b1.toInt + b2.toInt) else f.add b1 b2)
      | 1 => (.zero, f.mul b1 b2)
      | 2 => (.zero, b1.minmax true b2)
      | 3 => (.zero, b1.minmax false b2)
      | _ => (f.mul a2 a1, f.fma a2 b1 b2))

/-- One element that enters a scan: index, pair when included. -/
abbrev ScanItem := Nat × Option (FV × FV)

/-- The running state of a scan: the carry of every channel, the segment of the running carry, and whether any
element was included. -/
structure ScanState where
  /-- Channels (1 in ALONG mode, 128 in LANEWISE mode). -/
  ch : List (FV × FV)
  /-- Segment that the carry belongs to. -/
  seg : Nat
  /-- An element was included, or the carry-in was not empty. -/
  nonEmpty : Bool
  deriving DecidableEq, Repr

/-- One level of R126 on a batch: lane l takes v(l) ∘ v(l - d) inside its sequence. -/
def scanLevel (op fmt d : Nat) (segs : List Nat) (vs : List (Option (FV × FV))) : List (Option (FV × FV)) :=
  (List.range vs.length).map fun l =>
    if d ≤ l ∧ nth 0 segs l = nth 0 segs (l - d) then scanComp op fmt (nth none vs l) (nth none vs (l - d))
    else nth none vs l

/-- A batch of a scan ALONG (R126, R128): the SCAN pair of each element and the new state. -/
def scanAlong (op fmt seg : Nat) (inclusive : Bool) (st : ScanState) (xs : List ScanItem) : List (FV × FV) × ScanState :=
  let ident := scanIdent op fmt
  let segs := xs.map fun x => if seg = 0 then 0 else x.1 / seg
  let vs := [1, 2, 4, 8, 16, 32, 64].foldl (fun v d => scanLevel op fmt d segs v) (xs.map (·.2))
  let carry := st.ch.headD ident
  let start (l : Nat) : FV × FV := if nth 0 segs l = st.seg then carry else ident
  let res := (List.range xs.length).map fun l => (scanComp op fmt (nth none vs l) (some (start l))).getD ident
  let out := (List.range xs.length).map fun l =>
    if inclusive then nth ident res l
    else if 0 < l ∧ nth 0 segs (l - 1) = nth 0 segs l then nth ident res (l - 1)
    else start l
  (out, ⟨[res.getLastD carry], segs.getLastD st.seg, st.nonEmpty || xs.any (·.2.isSome)⟩)

/-- A batch of a LANEWISE scan (R127): each lane steps once for its element. -/
def scanLanes (op fmt : Nat) (inclusive : Bool) : ScanState → List ScanItem → List (FV × FV) × ScanState
  | st, [] => ([], st)
  | st, (i, v) :: xs =>
    let ident := scanIdent op fmt
    let before := nth ident st.ch (i % 128)
    let after := (scanComp op fmt v (some before)).getD ident
    let r := scanLanes op fmt inclusive ⟨setNth after st.ch (i % 128), st.seg, st.nonEmpty || v.isSome⟩ xs
    ((if inclusive then after else before) :: r.1, r.2)

/-- A carry record as read or written (Table 05-7). -/
structure Carry where
  /-- OP. -/
  op : Nat
  /-- FORMAT. -/
  fmt : Nat
  /-- MODE: LANEWISE. -/
  lanes : Bool
  /-- NONFINITE. -/
  nonfinite : Bool
  /-- EMPTY. -/
  isEmpty : Bool
  /-- A reserved bit is not zero. -/
  reserved : Bool
  /-- TAG. -/
  tag : Nat
  /-- Channels. -/
  ch : List (FV × FV)
  deriving DecidableEq, Repr

/-- Bytes of a record by its MODE (R129). -/
def carryLen (lanes : Bool) : Nat := if lanes then 2064 else 32

/-- A component of a carry record. -/
def carryVal (fmt w : Nat) : FV := if fmt = 9 then FV.ofInt (sgn 32 w) else decVal fmt w

/-- Read a carry record (R129). -/
def Carry.ofBytes (bs : List Byte) : Carry :=
  let w0 := leNat (bs.take 8)
  let w1 := leNat ((bs.drop 8).take 8)
  let fmt := fld w0 4 4
  let ch := (chunks 16 128 (bs.drop 16)).map fun b =>
    (if fld w0 0 4 = 4 then carryVal fmt (leNat (b.take 8)) else FV.zero, carryVal fmt (leNat (b.drop 8)))
  ⟨fld w0 0 4, fmt, flag w0 8, flag w0 9, flag w0 10, fld w0 11 53 != 0 || fld w1 32 32 != 0, fld w1 0 32, ch⟩

/-- A component of a carry record as written: INT32 sign-extended (Table 05-7). -/
def carryCode (fmt : Nat) (v : FV) : Nat := if fmt = 9 then twos 64 v.toInt else encVal fmt v

/-- Write a carry record (R129). -/
def Carry.toBytes (c : Carry) : List Byte :=
  leBytes 8 (c.op + c.fmt * 16 + bit c.lanes * 256 + bit c.nonfinite * 512 + bit c.isEmpty * 1024) ++ leBytes 8 c.tag ++
    c.ch.flatMap fun x => leBytes 8 (if c.op = 4 then carryCode c.fmt x.1 else 0) ++ leBytes 8 (carryCode c.fmt x.2)

/-- Does an operation exist in a scan format (Table 05-6)? -/
def scanFmtOk (op fmt : Nat) : Bool :=
  (fmt == 15 || fmt == 0 || (fmt == 9 && op != 1 && op != 4)) && decide (op ≤ 4)

/-- The check of a carry record against what the reader expects (R130). -/
def Carry.fits (c : Carry) (op fmt : Nat) (lanes : Bool) (tag : Nat) : Bool :=
  c.op == op && c.fmt == fmt && c.lanes == lanes && !c.reserved && c.tag == tag

/-- CARRY_COMPOSE (R132): Z = Y ∘ X per channel, or `none` for F-3403. -/
def carryCompose (x y : Carry) (tag : Nat) : Option Carry :=
  if !scanFmtOk x.op x.fmt || !x.fits x.op x.fmt x.lanes tag || !y.fits x.op x.fmt x.lanes tag then none
  else
    let n := if x.lanes then 128 else 1
    let ident := scanIdent x.op x.fmt
    let get (c : Carry) (i : Nat) : FV × FV := if c.isEmpty then ident else nth ident c.ch i
    some { x with
      nonfinite := x.nonfinite || y.nonfinite
      isEmpty := x.isEmpty && y.isEmpty
      ch := (List.range n).map fun i => (scanComp x.op x.fmt (some (get y i)) (some (get x i))).getD ident }

/-- Is a value NaN or infinite? -/
def FV.nonFinite : FV → Bool
  | .fin _ _ _ => false
  | _ => true

/-- One element as a reduction sees it: index, included, value. -/
abbrev RedItem := Nat × Bool × FV

/-- A lane of an element (R103). -/
def laneOf (packed : Bool) (i : Nat) : Nat := if packed then i % 256 / 2 else i % 128

/-- The 128 lane partials of a floating reduction: each lane folds its elements in order (R122). -/
def laneFold (packed : Bool) (f : FV → FV → FV) (z : FV) (xs : List (Nat × FV)) : List FV :=
  (List.range 128).map fun l => (xs.filter fun x => laneOf packed x.1 == l).foldl (fun a x => f a x.2) z

/-- The fixed tree of R46 over 2^n values with any combination. -/
def treeFold (f : FV → FV → FV) : Nat → List FV → FV
  | 0, xs => xs.headD .zero
  | n + 1, xs => f (treeFold f n (xs.take (2 ^ n))) (treeFold f n (xs.drop (2 ^ n)))

/-- The VALUE word of a reduction (Table 05-5). -/
def redCode (fmt : Nat) (v : FV) : Nat := if fmt = 9 then twos 64 v.toInt else encVal fmt v

/-- Better extreme for ARGMAX or ARGMIN (R124): -0 is below +0. -/
def argBetter (mx : Bool) (a b : FV) : Bool :=
  let sa := match a with | .fin n 0 _ => n | _ => false
  let sb := match b with | .fin n 0 _ => n | _ => false
  let lt (x y : FV) (sx sy : Bool) : Bool := x.lt y || (!y.lt x && sx && !sy && x.isZero && y.isZero)
  if mx then lt b a sb sa else lt a b sa sb

/-- The 16-byte result record of one segment (R120 to R124, Table 05-4, Table 05-5); `base` is its first index. -/
def redRecord (op fmt : Nat) (packed : Bool) (base : Nat) (items : List RedItem) : List Byte :=
  let inc := (items.filter (·.2.1)).map fun x => (x.1, x.2.2)
  let vals := inc.map (·.2)
  let int := fmt == 9
  let f := vff fmt
  let nan := vals.any (· == .nan)
  let inf := vals.any fun v => match v with | .inf _ => true | _ => false
  let ext (mx : Bool) : FV :=
    if int then FV.ofInt (if mx then -2147483648 else 2147483647) else .inf mx
  let arg (mx : Bool) : FV × Nat :=
    match inc.find? (·.2 == .nan) with
    | some x => (.nan, x.1 - base)
    | none =>
      match inc with
      | [] => (ext mx, 0xFFFFFFFF)
      | x :: xs => let r := xs.foldl (fun a y => if argBetter mx y.2 a.2 then y else a) x; (r.2, r.1 - base)
  let codes := vals.map fun v => twos 32 v.toInt
  let r : Nat × Nat :=
    match op with
    | 0 => if int then (twos 64 (vals.foldl (fun a v => a + v.toInt) 0), 0)
           else (if inc.isEmpty then 0 else redCode fmt (treeFold f.add 7 (laneFold packed f.add (.fin true 0 0) inc)), 0)
    | 1 => (redCode fmt (treeFold f.mul 7 (laneFold packed f.mul .one inc)), 0)
    | 2 => (redCode fmt (vals.foldl (FV.minmax true) (ext true)), 0)
    | 3 => (redCode fmt (vals.foldl (FV.minmax false) (ext false)), 0)
    | 4 => (redCode fmt (arg true).1, (arg true).2)
    | 5 => (redCode fmt (arg false).1, (arg false).2)
    | 6 => (vals.length, 0)
    | 7 => (codes.foldl (· &&& ·) 0xFFFFFFFF, 0)
    | 8 => (codes.foldl (· ||| ·) 0, 0)
    | _ => (codes.foldl (· ^^^ ·) 0, 0)
  leBytes 8 r.1 ++ leBytes 8 (r.2 + bit inc.isEmpty * 2 ^ 32 + bit nan * 2 ^ 33 + bit inf * 2 ^ 34)

/-- A row-statistics record (Table 06-5). -/
structure RowStat where
  /-- V0. -/
  v0 : FV
  /-- V1. -/
  v1 : FV
  /-- INCLUDED. -/
  n : Nat
  /-- INF_COUNT. -/
  infs : Nat
  /-- KIND. -/
  kind : Nat
  /-- NAN_SEEN. -/
  nan : Bool
  /-- INF_SEEN. -/
  inf : Bool
  /-- A reserved bit is not zero. -/
  reserved : Bool
  /-- TAG. -/
  tag : Nat
  /-- EMPTY as the record states it. -/
  isEmpty : Bool
  deriving DecidableEq, Repr

/-- Read a row-statistics record. -/
def RowStat.ofBytes (bs : List Byte) : RowStat :=
  let w (i : Nat) : Nat := leNat ((bs.drop (8 * i)).take 8)
  ⟨FF.x35.dec (w 0 % 2 ^ 35), FF.x35.dec (w 1 % 2 ^ 35), fld (w 2) 0 32, fld (w 2) 32 32, fld (w 3) 0 4, flag (w 3) 4,
    flag (w 3) 5, fld (w 3) 7 25 != 0, fld (w 3) 32 32, flag (w 3) 6⟩

/-- Write a row-statistics record. -/
def RowStat.toBytes (r : RowStat) : List Byte :=
  leBytes 8 (FF.x35.enc r.v0) ++ leBytes 8 (FF.x35.enc r.v1) ++ leBytes 8 (r.n % 2 ^ 32 + r.infs % 2 ^ 32 * 2 ^ 32) ++
    leBytes 8 (r.kind + bit r.nan * 16 + bit r.inf * 32 + bit r.isEmpty * 64 + r.tag % 2 ^ 32 * 2 ^ 32)

/-- The value of a count. -/
def FV.ofNat (n : Nat) : FV := FV.mk false n 0

/-- Two MOMENTS records combined (R149): each operation rounds in X35, left to right. -/
def momCombine (x y : RowStat) : RowStat :=
  let f := FF.x35
  let nx := FV.ofNat x.n
  let ny := FV.ofNat y.n
  let n := x.n + y.n
  let nf := FV.ofNat n
  let d := f.add y.v0 x.v0.neg
  let v0 := f.add x.v0 (f.div (f.mul d ny) nf)
  let v1 := f.add (f.add x.v1 y.v1) (f.div (f.mul (f.mul (f.mul d d) nx) ny) nf)
  let bad := x.v0 == .nan || x.v1 == .nan || y.v0 == .nan || y.v1 == .nan
  { x with v0 := if bad then .nan else v0, v1 := if bad then .nan else v1, n := n % 2 ^ 32, infs := 0,
           nan := x.nan || y.nan, inf := x.inf || y.inf, isEmpty := false }

/-- Two row-statistics records combined (R149); an EMPTY record is the identity. -/
def rowCombine (x y : RowStat) : RowStat :=
  if x.isEmpty then y else if y.isEmpty then x
  else if x.kind = 1 then
    { x with v0 := FF.x35.add x.v0 y.v0, n := (x.n + y.n) % 2 ^ 32, infs := (x.infs + y.infs) % 2 ^ 32,
             nan := x.nan || y.nan, inf := x.inf || y.inf, isEmpty := false }
  else momCombine x y

/-- One element enters a lane's moments (R153): each line rounds once in X35. -/
def momStep (s : RowStat) (v : FV) : RowStat :=
  match v with
  | .fin _ _ _ =>
    let f := FF.x35
    let n := s.n + 1
    let d := f.add v s.v0.neg
    let m := match s.v0, d with
      | .fin _ _ _, .fin _ _ _ => f.ofRat (s.v0.toRat + d.toRat / (n : Rat))
      | _, _ => f.add s.v0 (f.div d (FV.ofNat n))
    let m2 := f.rnd (s.v1.add (d.mul (v.add m.neg)))
    { s with v0 := m, v1 := m2, n := n, isEmpty := false }
  | .nan => { s with v0 := .nan, v1 := .nan, n := s.n + 1, nan := true, isEmpty := false }
  | .inf _ => { s with v0 := .nan, v1 := .nan, n := s.n + 1, inf := true, isEmpty := false }

/-- The tree of R46 over row-statistics states. -/
def rowTree : Nat → List RowStat → RowStat → RowStat
  | 0, xs, z => xs.headD z
  | n + 1, xs, z => rowCombine (rowTree n (xs.take (2 ^ n)) z) (rowTree n (xs.drop (2 ^ n)) z)

/-- The 32-byte row-statistics record of one segment (R147, R148, R153). -/
def rowRecord (op tag : Nat) (items : List RedItem) : List Byte :=
  let inc := (items.filter (·.2.1)).map fun x => (x.1, x.2.2)
  let vals := inc.map (·.2)
  let z : RowStat := ⟨.zero, .zero, 0, 0, if op = 10 then 1 else 2, false, false, false, tag, true⟩
  if op = 10 then
    let fins := inc.filter fun x => !x.2.nonFinite
    let infs := (vals.filter fun v => match v with | .inf n => !n | _ => false).length
    let sum := treeFold FF.x35.add 7 (laneFold false FF.x35.add (.fin true 0 0) fins)
    ({ z with v0 := if fins.isEmpty then .zero else sum, n := vals.length, infs := infs, nan := vals.any (· == .nan),
              inf := vals.any (fun v => match v with | .inf _ => true | _ => false), isEmpty := vals.isEmpty } : RowStat).toBytes
  else
    let lanes := (List.range 128).map fun l =>
      (inc.filter fun x => x.1 % 128 == l).foldl (fun s x => momStep s x.2) z
    (rowTree 7 lanes z).toBytes

/-- A coefficient record (Table 06-6). -/
structure Coef where
  /-- C0. -/
  c0 : FV
  /-- C1 as its 32 bits. -/
  c1 : Nat
  /-- MODE. -/
  mode : Nat
  /-- KIND. -/
  kind : Nat
  /-- A reserved bit is not zero. -/
  reserved : Bool
  deriving DecidableEq, Repr

/-- Read a coefficient record. -/
def Coef.ofBytes (bs : List Byte) : Coef :=
  let w0 := leNat (bs.take 8)
  let w1 := leNat (bs.drop 8)
  ⟨FF.x35.dec (w0 % 2 ^ 35), fld w1 0 32, fld w1 32 3, fld w1 36 4, fld w1 40 24 != 0⟩

/-- Write a coefficient record; ROW_EMPTY is set exactly for MODE EMPTY. -/
def Coef.toBytes (c : Coef) : List Byte :=
  leBytes 8 (FF.x35.enc c.c0) ++
    leBytes 8 (c.c1 % 2 ^ 32 + c.mode * 2 ^ 32 + bit (c.mode == 3) * 2 ^ 35 + c.kind * 2 ^ 36)

/-- RSQRT of an X35 argument to FP32 (R150). -/
def rsqrt32 (arg : FV) : FV := sfnOne 8 FF.fp32 false (risingChoice (Config.sfnThreshold 8 1 0) (-(signedKey FF.x35 arg))) 0 arg

/-- ROWSTAT_FINALISE of one record (R150); the reciprocals are free within 1 ULP (log 10). -/
def rowFinalise (r : RowStat) (rms : Bool) (eps : Nat) : Coef :=
  let f := FF.x35
  if r.kind = 1 then
    if r.nan then ⟨.zero, 0, 2, 1, false⟩
    else if r.n = 0 then ⟨.zero, 0, 3, 1, false⟩
    else if r.infs > 0 then ⟨.zero, r.infs, 1, 1, false⟩
    else if r.v0.isZero then ⟨.zero, 0, 4, 1, false⟩
    else ⟨sfnVal 7 15 f r.v0, 0, 0, 1, false⟩
  else
    if r.nan || r.inf then ⟨.zero, 0, 2, 2, false⟩
    else if r.n = 0 then ⟨.zero, 0, 3, 2, false⟩
    else
      let var := f.div r.v1 (FV.ofNat r.n)
      let var := if rms then f.add var (f.mul r.v0 r.v0) else var
      let arg := f.add var (f32 eps)
      let c1 := if arg == .zero then .inf false else rsqrt32 arg
      ⟨if rms then .zero else r.v0, toF32 c1, 0, 2, false⟩

/-- Does EXP_X35 of a value give +infinity? Between the two limits of Table 06-3 the evaluation itself says so. -/
def expOver (x : FV) : Bool :=
  match x with
  | .inf n => !n
  | .fin n m e => !n && !(leFrac m e 7097827 10000) && (!(leFrac m e 7097828 10000) || expX35 x == .inf false)
  | .nan => false

/-- The quotients exp(x) / sum that C0 = cm * 2^ce stands for, where C0 lies within 1 ULP of 1 / sum (R150). -/
def smaxQuot (ex : Encl) (cm : Nat) (ce : Int) : Encl :=
  let f := FF.x35
  let l := Nat.log2 cm
  let ge : Int := max (lead cm ce) (1 - f.bias) - f.mb
  let k := min ce ge
  let c : Int := cm * pw (ce - k)
  let g : Int := pw (ge - k)
  let up : Int := if c + 2 * g ≥ pw ((l : Int) + ce - k + 1) then 2 * g else g
  ⟨ex.lo * max 0 (c - g), ex.hi * (c + up), ex.e + k⟩

/-- The codes of SMAX_APPLY: those within 2 ULP of exp(x) / sum for every sum that C0 may stand for; where no code is, the one
nearest to exp(x) C0 (log 139). -/
def smaxCodes (f : FF) (q : Encl) (near : Int) : Int × Int :=
  let lo := (within f 2 false ⟨q.hi, q.hi, q.e⟩).1
  let hi := (within f 2 false ⟨q.lo, q.lo, q.e⟩).2
  if lo ≤ hi then (lo, hi) else (near, near)

/-- SMAX_APPLY (R152): within 2 ULP of exp(x) / sum, between +0 and 1. -/
def smaxApply (f : FF) (fmt : Nat) (c : Coef) (x : FV) : FV :=
  match c.mode with
  | 0 =>
    match x with
    | .nan => .nan
    | .inf n => if n then .zero else .one
    | .fin n m e =>
      if expOver x then .one
      else
        let ex : Encl := if m = 0 then ⟨1, 1, 0⟩ else expEncl n m e
        match c.c0 with
        | .fin false cm ce =>
          if cm = 0 then .zero
          else
            anyOf f (Config.sfnFree 17 fmt (f.enc x) (FF.x35.enc c.c0)) false
              (smaxCodes f (smaxQuot ex cm ce) (nearCode f (ex.lo * cm) (ex.e + ce))) (0, oneCode f)
        | .inf false => ofSigned f false (Config.sfnFree 17 fmt (f.enc x) (FF.x35.enc c.c0) % ((oneCode f).toNat + 1) : Nat)
        | .nan => .nan
        | _ => .zero
  | 1 =>
    -- INF: 1/C1 where x or its exponential is +infinity, +0 elsewhere
    if expOver x then f.rndQuot false 1 (max 1 c.c1) 0 else .zero
  | 2 => .nan
  | _ => match x with | .nan => .nan | _ => .zero

/-- NORM_APPLY (R154): free within 1 ULP of (x - C0) C1. Under EMPTY a NaN input gives NaN, as R142 has it of every function (log
140). -/
def normApply (f : FF) (fmt : Nat) (c : Coef) (x : FV) : FV :=
  match c.mode with
  | 0 =>
    match (x.add c.c0.neg).mul (f32 c.c1) with
    | .fin n m e =>
      if m = 0 then .fin n 0 0
      else pickAny f (Config.sfnFree 18 fmt (f.enc x) (FF.x35.enc c.c0 * 2 ^ 32 + c.c1)) 1 false n ((quotEncl m 1 e).signed n) (-wide, wide)
    | v => v
  | 2 => .nan
  | _ => match x with | .nan => .nan | _ => .zero

end Sys2Proof.Machine
end

