-- ==== Sys2Proof/Machine/Instar.lean ====
section
/-!
DEFINITION. Instar micro-programs: images, their check and their evaluation (R155 to R157).
-/
namespace Sys2Proof.Machine

/-- An Instar image as read (R155). -/
structure Instar where
  /-- Step words. -/
  steps : List Nat
  /-- SEGMENT_BITS. -/
  segBits : Nat
  /-- DEGREE. -/
  degree : Nat
  /-- MONOTONE. -/
  monotone : Nat
  /-- OPERANDS: two. -/
  two : Bool
  /-- OUT_X35. -/
  outX35 : Bool
  /-- Constants, FP32 codes. -/
  consts : List Nat
  /-- Coefficients, FP32 codes, segment by segment. -/
  coefs : List Nat
  /-- Seam values, FP32 codes. -/
  seams : List Nat
  /-- SEG_LO, FP32 code. -/
  lo : Nat
  /-- SEG_HI, FP32 code. -/
  hi : Nat
  /-- IMAGE_ID. -/
  ident : Nat
  deriving DecidableEq, Repr

/-- Length of an image by its header's first word (R155). -/
def instarLen (w0 : Nat) : Nat :=
  let n := 2 ^ fld w0 13 4
  32 + upTo (4 * fld w0 8 5) 16 + 4 * fld w0 24 7 + 4 * n * (fld w0 17 3 + 1) + (if fld w0 20 2 = 0 then 0 else 4 * (n + 1))

/-- Consecutive 32-bit words. -/
def words32 (bs : List Byte) (n : Nat) : List Nat := (chunks 4 n bs).map leNat

/-- The parts of an image. -/
def Instar.ofBytes (bs : List Byte) : Instar :=
  let w0 := leNat (bs.take 8)
  let w1 := leNat ((bs.drop 8).take 8)
  let n := 2 ^ fld w0 13 4
  let st := upTo (4 * fld w0 8 5) 16
  let b1 := bs.drop (32 + st)
  let b2 := b1.drop (4 * fld w0 24 7)
  let nc := n * (fld w0 17 3 + 1)
  ⟨words32 (bs.drop 32) (fld w0 8 5), fld w0 13 4, fld w0 17 3, fld w0 20 2, flag w0 22, flag w0 23,
    words32 b1 (fld w0 24 7), words32 b2 nc, if fld w0 20 2 = 0 then [] else words32 (b2.drop (4 * nc)) (n + 1),
    fld w1 0 32, fld w1 32 32, fld (leNat ((bs.drop 16).take 8)) 0 32⟩

/-- Step units of an operation, and whether IMM is in range for it (Table 06-8); `none`: undefined. A step that uses no IMM has
0 as its whole range (log 141). -/
def instarUnits (nConst : Nat) (w : Nat) : Option Nat :=
  let op := fld w 26 6
  let imm := fld w 0 17
  let c := decide (imm < nConst)
  let z := imm == 0
  match op with
  | 0x01 => if c then some 1 else none
  | 0x02 => if z then some 1 else none
  | 0x03 => if z then some 1 else none
  | 0x04 => if z then some 1 else none
  | 0x05 => if z then some 1 else none
  | 0x06 => if z then some 1 else none
  | 0x07 => if z then some 1 else none
  | 0x08 => if c then some 1 else none
  | 0x09 => if c then some 1 else none
  | 0x0A => if c then some 1 else none
  | 0x0B => if z then some 1 else none
  | 0x0C => if imm ≤ 1 then some 1 else none
  | 0x0D => if z then some 1 else none
  | 0x0E => if c then some 1 else none
  | 0x0F => if imm ≤ 1 then some 1 else none
  | 0x10 => if imm ≤ 16 ∧ imm ≠ 10 then some 4 else none
  | 0x3F => if z then some 1 else none
  | _ => none

/-- Sum of the step units, or `none` when a step is undefined, has its IMM out of range, or uses HORNER before SEG. -/
def instarCost (nConst : Nat) : Bool → List Nat → Option Nat
  | _, [] => some 0
  | seg, w :: ws =>
    if fld w 26 6 = 4 ∧ !seg then none
    else match instarUnits nConst w, instarCost nConst (seg || fld w 26 6 == 3) ws with
      | some a, some b => some (a + b)
      | _, _ => none

/-- Do neighbours run in the direction (R157)? -/
def seamsOrdered (down : Bool) : List Nat → Bool
  | a :: b :: r => !(if down then (f32 a).lt (f32 b) else (f32 b).lt (f32 a)) && seamsOrdered down (b :: r)
  | _ => true

/-- Is an FP32 code finite? -/
def finite32 (c : Nat) : Bool := !(f32 c).nonFinite

/-- The loader's check of R157. -/
def instarOk (bs : List Byte) : Bool :=
  let w0 := leNat (bs.take 8)
  let im := Instar.ofBytes bs
  fld w0 0 8 == 1 && decide (1 ≤ fld w0 8 5) && decide (im.segBits ≤ 8) && decide (im.monotone ≤ 2) &&
  decide (fld w0 24 7 ≤ 64) && fld w0 31 33 == 0 && fld (leNat ((bs.drop 16).take 8)) 32 32 == 0 &&
  leNat ((bs.drop 24).take 8) == 0 && finite32 im.lo && finite32 im.hi && (f32 im.lo).lt (f32 im.hi) &&
  decide (instarLen w0 ≤ 12288) && bs.length == instarLen w0 &&
  (match instarCost im.consts.length false im.steps with | some u => decide (u ≤ 32) | none => false) &&
  (im.steps.getLastD 0) / 2 ^ 26 == 0x3F && (im.steps.filter fun w => fld w 26 6 == 0x3F).length == 1 &&
  im.consts.all finite32 && im.coefs.all finite32 &&
  (im.monotone == 0 || ((im.seams.all fun c => f32 c != .nan) && seamsOrdered (im.monotone == 2) im.seams))

/-- Registers of an evaluation (R156): v0 to v7, E, the segment of the last SEG. -/
structure InstarRegs where
  /-- v0 to v7. -/
  v : List FV
  /-- E. -/
  e : Int
  /-- Segment j; none before a SEG. -/
  j : Option Nat
  deriving DecidableEq, Repr

/-- floor of a finite value. -/
def FV.floor : FV → Int
  | .fin n m e => let nd := scalePair m 1 e; (if n then -(nd.1 : Int) else nd.1) / (nd.2 : Int)
  | _ => 0

/-- A value times 2^k exactly. -/
def FV.shift (k : Int) : FV → FV
  | .fin n m e => FV.mk n m (e + k)
  | x => x

/-- Polynomial of segment coefficients, highest degree first, one rounding for each multiply and add. -/
def horner (f : FF) (x : FV) : List FV → FV
  | [] => .zero
  | c :: cs => cs.foldl (fun a b => f.rnd ((a.mul x).add b)) c

/-- One step other than RESULT (Table 06-8); each rounds once in the internal format. `a` is operand a. Table 06-8 does not say, and
log 142 does, what MANT gives for a zero, an infinity or a NaN (the operand, with E kept), SPLIT for a product that is not finite
(NaN, with E kept), which segment a NaN selects (0, with NaN), and on which grid a BUILTIN step keeps its bound (the internal one). -/
def instarStep (im : Instar) (a : FV) (r : InstarRegs) (w : Nat) : InstarRegs :=
  let f := FF.inner
  let sa := nth .zero r.v (fld w 20 3)
  let sb := nth .zero r.v (fld w 17 3)
  let imm := fld w 0 17
  let c := f32 (nth 0 im.consts imm)
  let set (x : FV) : InstarRegs := { r with v := setNth x r.v (fld w 23 3) }
  match fld w 26 6 with
  | 0x01 =>
    let p := sa.mul c
    match p with
    | .fin _ _ _ => { set (f.rnd (p.add (FV.ofInt (-p.floor)))) with e := p.floor }
    | _ => set .nan
  | 0x02 =>
    match sa with
    | .fin _ m e => if m = 0 then set sa else { set (sa.shift (-(lead m e))) with e := lead m e }
    | _ => set sa
  | 0x03 =>
    match sa with
    | .fin _ _ _ =>
      let lo := (f32 im.lo).toRat
      let wd := ((f32 im.hi).toRat - lo) / ((2 ^ im.segBits : Nat) : Rat)
      let k := ((sa.toRat - lo) / wd).floor
      let j := min (max k 0).toNat (2 ^ im.segBits - 1)
      { set (f.ofRat (sa.toRat - (lo + wd * (j : Rat)))) with j := some j }
    | .inf n => { set sa with j := some (if n then 0 else 2 ^ im.segBits - 1) }
    | .nan => { set .nan with j := some 0 }
  | 0x04 =>
    let j := r.j.getD 0
    set (horner f sa ((((im.coefs.drop (j * (im.degree + 1))).take (im.degree + 1)).map f32).reverse))
  | 0x05 => set (f.add sa sb)
  | 0x06 => set (f.add sa sb.neg)
  | 0x07 => set (f.mul sa sb)
  | 0x08 => set (f.mul sa c)
  | 0x09 => set (f.fma sa sb c)
  | 0x0A => set c
  | 0x0B => set (f.rnd (sa.shift r.e))
  | 0x0C => set (if imm = 1 then sa.neg else sa.abs)
  | 0x0D => set (match a, sa with
      | .fin n _ _, .fin _ m e => .fin n m e
      | .inf n, .fin _ m e => .fin n m e
      | .fin n _ _, .inf _ => .inf n
      | .inf n, .inf _ => .inf n
      | _, _ => .nan)
  | 0x0E => set (if a.lt c then sa else sb)
  | 0x0F => set (sa.minmax (imm == 1) sb)
  | 0x10 => set (sfnVal imm 16 f sa)
  | _ => r

/-- RESULT: rounded to the result format, then the seam clamp of segment j (R156). -/
def instarResult (im : Instar) (out : FF) (r : InstarRegs) (w : Nat) : FV :=
  let x := out.rnd (nth .zero r.v (fld w 20 3))
  match r.j with
  | none => x
  | some j =>
    if im.monotone = 0 then x
    else
      let s1 := out.rnd (f32 (nth 0 im.seams j))
      let s2 := out.rnd (f32 (nth 0 im.seams (j + 1)))
      let lo := if im.monotone = 1 then s1 else s2
      let hi := if im.monotone = 1 then s2 else s1
      if x.lt lo then lo else if hi.lt x then hi else x

/-- The steps of an evaluation up to RESULT. -/
def instarGo (im : Instar) (out : FF) (a : FV) : List Nat → InstarRegs → FV
  | [], _ => .nan
  | w :: ws, r => if fld w 26 6 = 0x3F then instarResult im out r w else instarGo im out a ws (instarStep im a r w)

/-- One evaluation of an Instar function (R155, R156) to the result format; v2 to v7 start at +0 (log 142). -/
def instarEval (im : Instar) (stage : FF) (a b : FV) : FV :=
  instarGo im (if im.outX35 then .x35 else stage) a im.steps
    ⟨[FF.inner.rnd a, FF.inner.rnd b, .zero, .zero, .zero, .zero, .zero, .zero], 0, none⟩

end Sys2Proof.Machine
end

