-- ==== Sys2Proof/Machine/Pass.lean ====
section
/-!
DEFINITION. Passes of the vector engine (R103 to R137, R177 to R179): the parameter block, the checks in the order
of R137, R160 and R186, and the run of a pass over scratchpad and accumulators.
-/
namespace Sys2Proof.Machine

/-- An input or output stream (R108); the output's own fields are at rest in an input (R111). -/
structure VStream where
  /-- BASE after the register sum. -/
  base : Nat
  /-- ROW_STRIDE. -/
  stride : Nat
  /-- ROW_LEN. -/
  rl : Nat
  /-- FORMAT. -/
  fmt : Nat
  /-- Scale code. -/
  scale : Nat
  /-- Block size. -/
  block : Nat
  /-- SCALE_BASE. -/
  sbase : Nat
  /-- SCALE_STRIDE. -/
  sstride : Nat
  /-- SOURCE. -/
  source : Nat
  /-- WRITE_PRED. -/
  wpred : Nat
  /-- WRITE_MODE: FILL. -/
  fillMode : Bool
  /-- RND. -/
  rnd : Bool
  /-- OVF. -/
  ovf : Bool
  /-- FILL. -/
  fill : Nat
  deriving DecidableEq, Repr

/-- A stage (Table 07-12). -/
structure VStage where
  /-- OP. -/
  op : Nat
  /-- FMT. -/
  fmt : Nat
  /-- A. -/
  a : Nat
  /-- B. -/
  b : Nat
  /-- C. -/
  c : Nat
  /-- GUARD. -/
  guard : Nat
  /-- X. -/
  x : Nat
  deriving DecidableEq, Repr

/-- A scan entry (Table 07-11). -/
structure VScan where
  /-- OP. -/
  op : Nat
  /-- MODE: LANEWISE. -/
  lanes : Bool
  /-- FORMAT. -/
  fmt : Nat
  /-- POSITION. -/
  pos : Nat
  /-- SRC_A. -/
  srcA : Nat
  /-- SRC_B. -/
  srcB : Nat
  /-- INCLUSIVE. -/
  inclusive : Bool
  /-- INCLUDE_PRED. -/
  inc : Nat
  /-- CARRY_IN. -/
  carryIn : Nat
  /-- CARRY_OUT. -/
  carryOut : Bool
  /-- SEGMENT. -/
  seg : Nat
  /-- TAG. -/
  tag : Nat
  /-- WAIT_COUNT. -/
  waitCount : Nat
  /-- WAIT_TARGET. -/
  waitTarget : Nat
  /-- CARRY_IN_ADDR: offset after the register sum, or global address. -/
  inAddr : Nat
  /-- CARRY_OUT_DEST after the register sum. -/
  outDest : Nat
  /-- RAISE_COUNT. -/
  raise : Nat
  deriving DecidableEq, Repr

/-- A reduction entry (Table 07-11). -/
structure VRed where
  /-- OP. -/
  op : Nat
  /-- FORMAT. -/
  fmt : Nat
  /-- SOURCE. -/
  source : Nat
  /-- INCLUDE_PRED. -/
  inc : Nat
  /-- SEGMENT. -/
  seg : Nat
  /-- DEST after the register sum. -/
  dest : Nat
  /-- TAG. -/
  tag : Nat
  deriving DecidableEq, Repr

/-- A pass (Table 05-1). -/
structure VPass where
  /-- COUNT. -/
  count : Nat
  /-- PACKED. -/
  packed : Bool
  /-- Stages 1 to STAGES. -/
  stages : List VStage
  /-- IN0 to IN3. -/
  ins : List (Option VStream)
  /-- OUT0 and OUT1. -/
  outs : List (Option VStream)
  /-- LC0 and LC1: base and format. -/
  lcs : List (Option (Nat × Nat))
  /-- MASK base. -/
  mask : Option Nat
  /-- Accumulator stream: ROW_FIRST and COLS. -/
  acc : Option (Nat × Nat)
  /-- ROWREF0 and ROWREF1: base and length. -/
  rowrefs : List (Nat × Nat)
  /-- IMM0 to IMM7. -/
  imms : List Nat
  /-- The scan. -/
  scan : Option VScan
  /-- Reductions used. -/
  reds : List VRed
  /-- The values of LC0 and LC1, once the pass has read them (R110). -/
  consts : List (List FV)
  deriving DecidableEq, Repr

/-- Rank of a code in the order of R186, R137 and R160. -/
def faultRank (c : Nat) : Nat :=
  if c = 0x3602 then 0 else if c = 0x3603 then 1 else if c / 256 = 0x31 then 2 else if c = 0x3204 then 3
  else if c = 0x3302 then 4 else if c / 256 = 0x34 then 5 else if c / 256 = 0x35 then 6 else 7

/-- The code that takes precedence among those found; within one rank the lowest code (DEDUCED, log 20). -/
def firstFault : List Nat → Option Nat
  | [] => none
  | c :: cs =>
    match firstFault cs with
    | none => some c
    | some d => if faultRank c * 65536 + c ≤ faultRank d * 65536 + d then some c else some d

/-- A code when a condition holds. -/
def when (b : Bool) (c : Nat) : List Nat := if b then [c] else []

/-- A scratchpad field plus a register: the sum in 64 bits, and F-3603 when it leaves the range (R166). -/
def sumField (off reg : Nat) : Nat × List Nat :=
  let s := (off + reg) % 2 ^ 64
  if s ≥ scratchSize then (0, [0x3603]) else (s, [])

/-- The area and range faults of spans: `past` is the code for running past the scratchpad. -/
def spanFaults (v : Bool) (past : Nat) (sp : List (Nat × Nat)) : List Nat :=
  let sp := sp.filter fun x => decide (0 < x.2)
  when (sp.any (spanBad v)) 0x3204 ++ when (sp.any spanPast) past

/-- Elements that a stream covers: a scaled output ends with a whole block (R111). -/
def VStream.cover (s : VStream) (out : Bool) (count : Nat) : Nat :=
  if out ∧ s.scale ≠ 0 then upTo count s.block else count

/-- Bytes of `n` elements of a row (R31). -/
def rowLenBytes (fmt n : Nat) : Nat := if fmtBits fmt = 6 then 3 * cdiv n 4 else elemBytes (fmtBits fmt) n

/-- The spans of a stream's elements, row by row. -/
def VStream.spans (s : VStream) (n : Nat) : List (Nat × Nat) :=
  (List.range (cdiv n s.rl)).map fun r => (s.base + r * s.stride, rowLenBytes s.fmt (min s.rl (n - r * s.rl)))

/-- The spans of a stream's scales. -/
def VStream.scaleSpans (s : VStream) (n : Nat) : List (Nat × Nat) :=
  if s.scale = 0 then []
  else (List.range (cdiv n s.rl)).map fun r => (s.sbase + r * s.sstride, cdiv (min s.rl (n - r * s.rl)) s.block)

/-- Read a stream descriptor (Table 07-10) with the register value of its side; its faults of encoding, format and R108. -/
def parseStream (out : Bool) (ws : List Nat) (reg : Nat) : VStream × List Nat :=
  let w0 := nth 0 ws 0
  let w1 := nth 0 ws 1
  let w2 := if out then nth 0 ws 2 else 0
  let w3 := if out then nth 0 ws 3 else 0
  let sc := fld w1 4 2
  let b := sumField (fld w0 0 24) reg
  let sb : Nat × List Nat := if sc = 0 then (0, []) else sumField (fld w1 8 24) reg
  let rnd := modeOf false (fld w2 10 2)
  let ovf := modeOf false (fld w2 12 2)
  let s : VStream := ⟨b.1, fld w0 24 24, fld w0 48 16 + 1, fld w1 0 4, sc, if flag w1 6 then 32 else 16, sb.1,
    fld w1 32 24, fld w2 0 5, fld w2 5 4, flag w2 9, rnd.getD false, ovf.getD false, fld w2 32 32⟩
  let bits := fmtBits s.fmt
  (s, b.2 ++ sb.2 ++
    when (flag w1 7 || fld w1 56 8 != 0 || fld w2 14 18 != 0 || w3 != 0 || sc == 3 || rnd.isNone || ovf.isNone) 0x3602 ++
    ((if out then scaledFault else sourceFault) s.fmt (if sc = 3 then 0 else sc) s.block).toList ++
    when (s.base % 16 != 0 || s.stride % 16 != 0 || decide (s.stride < rowLenBytes s.fmt s.rl) ||
      (bits == 4 && s.rl % 2 != 0) || (bits == 6 && s.rl % 4 != 0) || (sc != 0 && s.rl % s.block != 0)) 0x3402 ++
    when (out && (!pselOk s.wpred || (sc != 0 && !s.fillMode))) 0x3401)

/-- Format of the values a stream supplies: a block-scaled INT8 value is floating (R44; DEDUCED, log 21). -/
def VStream.vfmt (s : VStream) : Nat := if s.scale ≠ 0 ∧ s.fmt = 11 then 1 else s.fmt

/-- A stage word (Table 07-12). -/
def parseStage (w : Nat) : VStage := ⟨fld w 26 6, fld w 22 4, fld w 17 5, fld w 12 5, fld w 7 5, fld w 3 4, fld w 0 3⟩

/-- Source operands that a stage reads. -/
def VStage.arity (s : VStage) : Nat :=
  if s.op = 1 ∨ s.op = 2 then 3
  else if s.op = 15 ∨ s.op = 16 ∨ s.op = 18 ∨ s.op = 19 then 1
  else if s.op = 20 then 0
  else if s.op = 21 then (if s.c = 10 then 2 else 1)
  else 2

/-- Does the stage write a predicate instead of a value? -/
def VStage.isPred (s : VStage) : Bool := s.op == 8 || s.op == 19 || s.op == 20

/-- Function codes of Table 06-1. -/
def sfnCodeOk (c : Nat) : Bool := decide (c ≤ 18) || decide (24 ≤ c)

/-- Encoding and format rules of one stage (R113, R114, R172, R178): the codes it raises. -/
def stageFaults (packed : Bool) (s : VStage) : List Nat :=
  let f := s.fmt
  let scalar := f == 0 || f == 1 || f == 15
  let all := if packed then f == 2 || f == 3 else scalar || f == 9
  let flt := if packed then f == 2 || f == 3 else scalar
  let noC := s.c == 0
  let noX := s.x == 0
  let ok :=
    match s.op with
    | 0x01 => flt && noX
    | 0x02 => !packed && f == 9 && decide (s.x ≤ 1)
    | 0x03 | 0x04 | 0x05 | 0x06 | 0x07 => all && noC && decide (s.x ≤ 1)
    | 0x08 => all && decide (s.c ≤ 6) && decide (s.x ≤ 3)
    | 0x09 | 0x0A | 0x0B | 0x0C | 0x0D | 0x0E => !packed && f == 9 && noC && noX
    | 0x0F | 0x10 => all && noC && s.b == 0 && decide (s.x ≤ 1)
    | 0x11 => all && decide (8 ≤ s.c ∧ s.c < 16) && noX
    | 0x12 => (if packed then f == 2 || f == 3 else true) && s.b == 0 && decide (s.c < 16) && noX
    | 0x13 => flt && s.b == 0 && decide (s.c ≤ 5) && decide (s.x ≤ 3)
    | 0x14 => f == 0 && decide (s.a ≤ 3) && decide (s.b ≤ 3) && decide (s.c ≤ 3) && decide (s.x ≤ 3)
    | 0x15 => !packed && (f == 1 || f == 15) && sfnCodeOk s.c && (s.c == 10 || decide (24 ≤ s.c) || s.b == 0) &&
        (if s.c = 17 ∨ s.c = 18 then decide (s.x ≤ 1) else noX)
    | _ => false
  when (!ok || !pselOk s.guard) 0x3401 ++
    (if s.op = 0x12 then when (s.c % 4 == 3 || fld s.c 2 2 == 3) 0x3602 ++ when (isScaleFmt f) 0x3102 else [])

/-- Format of the value a stage supplies: `none` for a predicate stage; `x35` of each Instar slot is given. -/
def stageFmt (outX35 : Nat → Bool) (s : VStage) : Option Nat :=
  if s.isPred then none
  else if s.op = 0x15 then
    (if s.c = 2 then some 15 else if 24 ≤ s.c ∧ outX35 (s.c - 24) then some 15 else some s.fmt)
  else some s.fmt

/-- How an immediate is read by a reader of the format (R110): the format it then stands in. -/
def immFmt (rd : Nat) : Nat := if rd = 15 then 1 else rd

/-- The formats a source may supply to a reader, or F-3401 (R107, Table 07-4). `rd`: format in which an immediate is
read; `lim`: last stage that may be named; `scanOk`: SCAN may be named; `accF`: formats of the accumulator stream. What the
spec leaves open is the model's (DESIGN CHOICE, log 107): naming T of a predicate stage raises F-3401, and so does an
immediate named by a CVT stage whose FMT is an MX or narrow integer format, while one whose FMT is BF16 or FP16 reads
bits [15:0]. -/
def srcFmts (p : VPass) (accF : List Nat) (sf : List (Option Nat)) (code rd lim : Nat) (scanOk : Bool) : List Nat × List Nat :=
  let bad : List Nat × List Nat := ([], [0x3401])
  if code ≤ 3 then (match nth none p.ins code with | some s => ([s.vfmt], []) | none => bad)
  else if code = 4 then (if p.acc.isSome then (accF, []) else bad)
  else if code = 5 ∨ code = 6 then (match nth none p.lcs (code - 5) with | some l => ([l.2], []) | none => bad)
  else if 8 ≤ code ∧ code ≤ 15 then
    (if (rd = 0 ∧ code % 2 = 1) ∨ !(isStd rd || rd = 9 || rd = 15) then bad else ([immFmt rd], []))
  else if 16 ≤ code ∧ code ≤ 23 then
    (if code - 15 ≤ lim then (match nth none sf (code - 16) with | some f => ([f], []) | none => bad) else bad)
  else if code = 24 ∨ code = 25 then
    (match p.scan with | some sc => if scanOk then ([sc.fmt], []) else bad | none => bad)
  else if code = 26 ∨ code = 27 then ([9], [])
  else bad

/-- Operand conversions that R50 cannot make raise F-3401 (R114). -/
def operandFaults (fs : List Nat) (tgt : Nat) : List Nat :=
  when (fs.any fun f => f != tgt && (cvtFault f tgt false).isSome) 0x3401

/-- Faults of a stage's sources; `two`: does the Instar image of a slot take two operands? -/
def stageSrcFaults (p : VPass) (accF : List Nat) (sf : List (Option Nat)) (two : Nat → Bool) (k : Nat) (s : VStage) : List Nat :=
  let scanOk := match p.scan with | some sc => decide (sc.pos < k + 1) | none => false
  let cs := ([s.a, s.b, s.c].take s.arity) ++ (if s.op = 0x15 ∧ 24 ≤ s.c ∧ (two (s.c - 24) ∨ s.b ≠ 0) then [s.b] else [])
  cs.flatMap fun c =>
    let r := srcFmts p accF sf c s.fmt k scanOk
    r.2 ++ (if s.op = 0x12 then
        r.1.flatMap fun f => (cvtFault f s.fmt (modeOf false (s.c % 4) == some true)).toList
      else operandFaults r.1 s.fmt)

/-- The scan's format by its sources (R125). -/
def scanNeeds (fs : List Nat) : Nat := if fs.contains 0 then 0 else if fs.any (fun f => !isInt f) then 15 else 9

/-- A reduction format that can hold a source exactly (R120). An MX source in X35, and a narrower integer than INT32 for INT64, which is
extended by its sign, are taken too, though Tables 02-4 and 07-11 do not name the pairs (DESIGN CHOICE, log 143). -/
def redFmtOk (src fmt : Nat) : Bool :=
  if isInt src then fmt == 9
  else if isScaleFmt src then fmt == 1 || fmt == 0
  else
    let need := if src = 0 then 2 else if src = 15 then 1 else 0
    (fmt == 1 && need == 0) || (fmt == 15 && decide (need ≤ 1)) || fmt == 0

/-- Records that a reduction writes. -/
def VRed.records (r : VRed) (count : Nat) : Nat := if r.seg = 0 then 1 else max 1 (cdiv count r.seg)

/-- Bytes of one record of a reduction. -/
def VRed.recBytes (r : VRed) : Nat := if r.op = 10 ∨ r.op = 11 then 32 else 16

/-- Faults of a reduction (R105, R114, R120, R147, R148, R153). -/
def redFaults (v : Bool) (p : VPass) (accF : List Nat) (sf : List (Option Nat)) (r : VRed) : List Nat :=
  let row := r.op == 10 || r.op == 11
  let rd := if r.fmt = 9 then 9 else r.fmt
  let src := srcFmts p accF sf r.source rd (min p.stages.length 7) false
  let expStage := match nth none (p.stages.map some) (r.source - 16) with
    | some s => decide (16 ≤ r.source) && s.op == 0x15 && s.c == 2
    | none => false
  src.2 ++
  when (decide (r.seg > 16777216) || !pselOk r.inc || (p.packed && r.fmt != 1)) 0x3401 ++
  (if row then
    when (r.fmt != 15 || r.dest % 32 != 0 || (r.op == 10 && !expStage)) 0x3504 ++
    when (r.op == 11 && src.1.any (fun f => f != 1 && f != 15)) 0x3401
  else
    when (!(r.fmt == 1 || r.fmt == 15 || r.fmt == 0 || r.fmt == 9) || (r.op == 1 && r.fmt == 9) ||
      ((r.op == 7 || r.op == 8 || r.op == 9) && r.fmt != 9) ||
      (r.op != 6 && src.1.any (fun f => !redFmtOk f r.fmt))) 0x3401 ++
    when (r.dest % 16 != 0) 0x3402) ++
  spanFaults v 0x3402 [(r.dest, r.recBytes * r.records p.count)]

/-- A range of bytes that a stream covers, with its layout (R112): output, low, high, layout. -/
abbrev VRange := Bool × Nat × Nat × List Nat

/-- The ranges of a stream. -/
def VStream.ranges (s : VStream) (out : Bool) (n : Nat) : List VRange :=
  if n = 0 then []
  else
    let rows := cdiv n s.rl
    let last := n - (rows - 1) * s.rl
    (out, s.base, s.base + (rows - 1) * s.stride + rowLenBytes s.fmt last, [0, s.base, fmtBits s.fmt, s.rl, s.stride]) ::
      (if s.scale = 0 then []
       else [(out, s.sbase, s.sbase + (rows - 1) * s.sstride + cdiv last s.block, [1, s.sbase, s.sstride, s.block, s.rl])])

/-- Do two ranges overlap against R112? -/
def rangesClash (a b : VRange) : Bool :=
  (a.1 || b.1) && decide (a.2.1 < b.2.2.1) && decide (b.2.1 < a.2.2.1) && !(a.1 != b.1 && a.2.2.2 == b.2.2.2)

/-- Does any pair of ranges clash? -/
def anyClash : List VRange → Bool
  | [] => false
  | r :: rs => rs.any (rangesClash r) || anyClash rs

/-- Faults of a scan (R110, R114, R125 to R127, R130, R131). -/
def scanFaults (v : Bool) (p : VPass) (accF : List Nat) (sf : List (Option Nat)) (s : VScan) : List Nat :=
  let lim := min s.pos 7
  let rb := srcFmts p accF sf s.srcB s.fmt lim false
  let ra : List Nat × List Nat := if s.op = 4 then srcFmts p accF sf s.srcA s.fmt lim false else ([], [])
  let fs := rb.1 ++ ra.1
  let badAddr (a : Nat) : Bool := a % 16 != 0 || decide (a / 2 ^ 56 > 1)
  rb.2 ++ ra.2 ++
  when (p.packed || decide (s.pos > p.stages.length) || decide (s.seg > 16777216) || !pselOk s.inc ||
    !scanFmtOk s.op s.fmt || (!fs.isEmpty && s.fmt != scanNeeds fs) ||
    (decide (0 < s.seg) && (s.lanes || s.carryIn != 0 || s.carryOut))) 0x3401 ++
  operandFaults fs s.fmt ++
  (if s.carryIn = 1 then when (s.inAddr % 16 != 0) 0x3404 ++ spanFaults v 0x3404 [(s.inAddr, carryLen s.lanes)]
   else if s.carryIn = 2 then when (badAddr s.inAddr) 0x3404 else []) ++
  when (s.carryOut && badAddr s.outDest) 0x3404

/-- Is a COUNT_REF one that a word requires (R171, F-3605)? -/
def countRefBad (r : Nat) : Bool := !flag r 31 || fld r 26 5 != 0

/-- Faults of an SFN stage's row reference and slot (R151, Tables 06-9): `slot` gives each slot's image. -/
def sfnFaults (v : Bool) (p : VPass) (slot : Nat → Option Instar) (s : VStage) : List Nat :=
  if s.op ≠ 0x15 then []
  else if s.c = 17 ∨ s.c = 18 then
    let r := nth (0, 0) p.rowrefs (s.x % 2)
    if r.2 = 0 then [0x3504]
    else
      let n := 16 * cdiv p.count r.2
      when (r.1 % 16 != 0 || decide (r.2 > 16777216) || spanBad v (r.1, n) || spanPast (r.1, n)) 0x3505
  else if 24 ≤ s.c then
    (match slot (s.c - 24) with
     | none => [0x3501]
     | some im => when (!im.two && s.b != 0) 0x3501)
  else []

/-- Does the image of an Instar slot take two operands? -/
def slotTwo (slot : Nat → Option Instar) (i : Nat) : Bool := match slot i with | some im => im.two | none => false

/-- Does an Instar slot deliver X35 whatever the stage format? -/
def slotX35 (slot : Nat → Option Instar) (i : Nat) : Bool := match slot i with | some im => im.outX35 | none => false

/-- Formats of the accumulator stream and F-3302 (R109). -/
def accFmts (p : VPass) (ms : MatState) : List Nat × List Nat :=
  match p.acc with
  | none => ([], [])
  | some (r0, cols) =>
    let rows := (List.range (cdiv p.count cols)).map (· + r0)
    ((rows.filterMap fun r => (rowTag ms r).map fun t => accFmt t.ty.toNat).eraseDups,
      when (!rows.all (rowReadable ms cols)) 0x3302)

/-- All faults of a parsed pass beyond those of its parsing, unordered. -/
def passFaults (v : Bool) (p : VPass) (ms : MatState) (slot : Nat → Option Instar) : List Nat :=
  let af := accFmts p ms
  let sf := p.stages.map (stageFmt (slotX35 slot))
  let ins := p.ins.filterMap id
  let outs := p.outs.filterMap id
  let lcs := p.lcs.filterMap id
  af.2 ++ when (p.packed && p.acc.isSome) 0x3401 ++
  when (decide (p.count > 16777216) || p.stages.isEmpty) 0x3401 ++
  (ins.flatMap fun s => spanFaults v 0x3402 (s.spans p.count ++ s.scaleSpans p.count)) ++
  (outs.flatMap fun s =>
    spanFaults v 0x3402 (s.spans (s.cover true p.count) ++ s.scaleSpans (s.cover true p.count))) ++
  (lcs.flatMap fun l => (sourceFault l.2 0 16).toList ++ spanFaults v 0x3402 [(l.1, rowLenBytes l.2 128)]) ++
  (match p.mask with | none => [] | some m => when (m % 16 != 0 || spanBad v (m, cdiv p.count 8) || spanPast (m, cdiv p.count 8)) 0x3402) ++
  (p.stages.flatMap (stageFaults p.packed)) ++
  ((p.stages.mapIdx fun k s => stageSrcFaults p af.1 sf (slotTwo slot) k s).flatten) ++
  (p.stages.flatMap (sfnFaults v p slot)) ++
  (match p.scan with | none => [] | some s => scanFaults v p af.1 sf s) ++
  (outs.flatMap fun s =>
    let ff := if isInt s.fmt then 9 else 1
    let r := srcFmts p af.1 sf s.source ff p.stages.length p.scan.isSome
    r.2 ++ when (s.fmt == 0 && decide (8 ≤ s.source ∧ s.source ≤ 15) && s.source % 2 == 1) 0x3401 ++
      (r.1.flatMap fun f => (cvtFault f s.fmt (s.rnd && s.scale == 0)).toList) ++
      (cvtFault ff s.fmt (s.rnd && s.scale == 0)).toList) ++
  (p.reds.flatMap (redFaults v p af.1 sf)) ++
  when (anyClash ((ins.flatMap fun s => s.ranges false p.count) ++
    (outs.flatMap fun s => s.ranges true (s.cover true p.count)) ++
    (lcs.map fun l => (false, l.1, l.1 + rowLenBytes l.2 128, [2, l.1])) ++
    (match p.mask with | none => [] | some m => [(false, m, m + cdiv p.count 8, [3, m])]))) 0x3402

/-- The count words a pass names: WAIT_COUNT for CARRY_IN = 2 is required (F-3605). -/
def passCountFaults (p : VPass) : List Nat :=
  match p.scan with
  | some s => when (s.carryIn == 2 && countRefBad s.waitCount) 0x3605 ++
      when (s.carryOut && flag s.raise 31 && countRefBad s.raise) 0x3605
  | none => []

/-- Parse a PASS parameter block of 40 words (Tables 07-8 to 07-11). -/
def parsePass (ws : List Nat) (ireg oreg : Nat) : VPass × List Nat :=
  let h := nth 0 ws 0
  let w (i : Nat) : Nat := nth 0 ws i
  let inS := (List.range 4).map fun k =>
    if flag h (30 + k) then some (parseStream false [w (2 + 2 * k), w (3 + 2 * k)] ireg) else none
  let outS := (List.range 2).map fun k =>
    if flag h (38 + k) then some (parseStream true [w (10 + 4 * k), w (11 + 4 * k), w (12 + 4 * k), w (13 + 4 * k)] oreg) else none
  let l := w 18
  let m := w 19
  let lc (k : Nat) : Option ((Nat × List Nat) × Nat) :=
    if flag h (35 + k) then some (sumField (fld l (32 * k) 24) ireg, fld l (32 * k + 24) 4) else none
  let mask := if flag h 37 then some (sumField (fld m 0 24) ireg) else none
  let sc0 := w 26
  let scan : Option (VScan × List Nat) :=
    if flag h 40 then
      let a : Nat × List Nat := if fld sc0 27 2 = 1 then sumField (fld (w 28) 0 24) ireg else (w 28, [])
      some (⟨fld sc0 0 3, flag sc0 3, fld sc0 4 4, fld sc0 8 4, fld sc0 12 5, fld sc0 17 5, flag sc0 22, fld sc0 23 4,
          fld sc0 27 2, flag sc0 29, fld sc0 30 25, fld (w 27) 0 32, fld (w 27) 32 32, fld (w 30) 32 32, a.1,
          (w 29 + oreg) % 2 ^ 64, fld (w 30) 0 32⟩,
        a.2 ++ when (decide (fld sc0 0 3 > 4) || fld sc0 27 2 == 3 || fld sc0 55 9 != 0 || w 31 != 0) 0x3602)
    else none
  let red (k : Nat) : Option (VRed × List Nat) :=
    if flag h (41 + k) then
      let r0 := w (32 + 2 * k)
      let r1 := w (33 + 2 * k)
      let d := sumField (fld r1 0 24) oreg
      some (⟨fld r0 0 4, fld r0 4 4, fld r0 8 5, fld r0 13 4, fld r0 17 25, d.1, fld r1 32 32⟩,
        d.2 ++ when (decide (fld r0 0 4 > 11) || fld r0 42 22 != 0 || fld r1 24 8 != 0 ||
          (decide (fld r0 0 4 < 10) && fld r1 32 32 != 0)) 0x3602)
    else none
  let nst := fld h 25 4
  let stages := (List.range (min nst 8)).map fun k => parseStage (fld (w (36 + k / 2)) (32 * (k % 2)) 32)
  let p : VPass := ⟨fld h 0 25, flag h 29, stages, inS.map (·.map (·.1)), outS.map (·.map (·.1)),
    [(lc 0).map fun x => (x.1.1, x.2), (lc 1).map fun x => (x.1.1, x.2)], mask.map (·.1),
    if flag h 34 then some (fld m 24 8, fld m 32 8 + 1) else none,
    [(fld (w 20) 0 24, fld (w 20) 24 25), (fld (w 21) 0 24, fld (w 21) 24 25)],
    (List.range 8).map fun k => fld (w (22 + k / 2)) (32 * (k % 2)) 32, scan.map (·.1),
    ([red 0, red 1].filterMap id).map (·.1), []⟩
  let un (o : Option (Nat × List Nat)) : List Nat := match o with | some x => x.2 | none => []
  (p, (inS.filterMap id).flatMap (·.2) ++ (outS.filterMap id).flatMap (·.2) ++ un ((lc 0).map (·.1)) ++ un ((lc 1).map (·.1)) ++
    un mask ++ (match scan with | some x => x.2 | none => []) ++ (([red 0, red 1].filterMap id).flatMap (·.2)) ++
    when (fld h 43 21 != 0 || w 1 != 0 || fld l 28 4 != 0 || fld l 60 4 != 0 || fld m 40 24 != 0 || fld (w 20) 49 15 != 0 ||
      fld (w 21) 49 15 != 0) 0x3602 ++
    when (decide (nst < 1) || decide (nst > 8)) 0x3401)

/-- The pass of a parameter block, or the fault that comes first. -/
def passPrepare (v : Bool) (ws : List Nat) (ireg oreg : Nat) (ms : MatState) (slot : Nat → Option Instar) : Except Nat VPass :=
  let r := parsePass ws ireg oreg
  match firstFault (r.2 ++ passFaults v r.1 ms slot ++ passCountFaults r.1) with
  | some c => .error c
  | none => .ok r.1

/-- The pass of an SFN_BATCH word (R179, Table 07-14), or its first fault; `x` is S(XREG). -/
def sfnBatchPrepare (v : Bool) (w x : Nat) (ms : MatState) (slot : Nat → Option Instar) : Except Nat VPass :=
  let src := sumField (fld w 0 24) x
  let dst := sumField (fld w 24 24) x
  let rnd := modeOf false (fld w 86 2)
  let ovf := modeOf true (fld w 88 2)
  let fn := fld w 81 5
  let count := fld w 48 25
  let st (b f : Nat) (o : Bool) : VStream :=
    ⟨b, upTo (rowLenBytes f 65536) 16, 65536, f, 0, 16, 0, 0, if o then 16 else 0, 0, false, o && rnd.getD false, o && ovf.getD false, 0⟩
  let sfmt := if flag w 90 then 15 else 1
  let p : VPass := ⟨count, false, [⟨0x15, sfmt, 0, 0, fn, 0, 0⟩], [some (st src.1 (fld w 73 4) false), none, none, none],
    [some (st dst.1 (fld w 77 4) true), none], [none, none], none, none, [(0, 0), (0, 0)], [], none, [], []⟩
  let two := match slot (fn - 24) with | some im => decide (24 ≤ fn) && im.two | none => false
  match firstFault (src.2 ++ dst.2 ++ when (fld w 91 19 != 0 || rnd.isNone || ovf.isNone) 0x3602 ++
      (sourceFault (fld w 73 4) 0 16).toList ++ (scaledFault (fld w 77 4) 0 16).toList ++
      when (fn == 10 || fn == 17 || fn == 18 || two) 0x3401 ++
      when (src.1 % 16 != 0 || dst.1 % 16 != 0) 0x3402 ++ passFaults v p ms slot) with
  | some c => .error c
  | none => .ok p

/-- Is a word of the accumulator banks part of the pass (R72)? -/
def VPass.usesAcc (p : VPass) : Bool := p.acc.isSome

/-- One element inside a pass. -/
structure VEl where
  /-- Index. -/
  i : Nat
  /-- Accumulator value. -/
  acc : TV
  /-- PRED0 to PRED3. -/
  pr : BitVec 4
  /-- Results of the stages so far. -/
  t : List TV
  /-- SCAN_A and SCAN. -/
  sc : FV × FV
  deriving DecidableEq, Repr

/-- Element `i` of a stream (R38, R108). -/
def VStream.get (s : VStream) (sp : Mem) (i : Nat) : FV :=
  let r := i / s.rl
  let pos := i % s.rl
  let code := readElem sp (s.base + r * s.stride) (fmtBits s.fmt) pos
  if s.scale = 0 then decVal s.fmt code
  else scaledVal s.fmt (scaleFmtOf s.scale) (Mem.get sp (s.sbase + r * s.sstride + pos / s.block)).toNat code

/-- Write the code of element `i` of an output stream. -/
def VStream.set (s : VStream) (sp : Mem) (i x : Nat) : Mem :=
  writeElem sp (s.base + i / s.rl * s.stride) (fmtBits s.fmt) (i % s.rl) x

/-- An immediate as a reader of the format reads it (R110). -/
def immVal (imms : List Nat) (j rd : Nat) : TV :=
  let w := nth 0 imms j
  if rd = 0 then (0, FF.fp64.dec (w + nth 0 imms (j + 1) * 2 ^ 32))
  else if rd = 2 ∨ rd = 3 then (rd, decVal rd (w % 2 ^ 16))
  else (immFmt rd, decVal (immFmt rd) w)

/-- The value of a source for an element (Table 05-2). -/
def srcVal (p : VPass) (sp : Mem) (e : VEl) (code rd : Nat) : TV :=
  if code ≤ 3 then (match nth none p.ins code with | some s => (s.vfmt, s.get sp e.i) | none => (9, .zero))
  else if code = 4 then e.acc
  else if code ≤ 6 then
    (match nth none p.lcs (code - 5) with
     | some l => (l.2, nth .zero (nth [] p.consts (code - 5)) (laneOf p.packed e.i))
     | none => (9, .zero))
  else if code ≤ 15 then immVal p.imms (code - 8) rd
  else if code ≤ 23 then nth (9, .zero) e.t (code - 16)
  else if code = 24 then ((p.scan.map (·.fmt)).getD 9, e.sc.2)
  else if code = 25 then ((p.scan.map (·.fmt)).getD 9, e.sc.1)
  else if code = 26 then (9, FV.ofNat (laneOf p.packed e.i))
  else (9, FV.ofNat e.i)

/-- One SFN evaluation (R138, R152, R154, R156). -/
def sfnEval (p : VPass) (sp : Mem) (slot : Nat → Option Instar) (s : VStage) (i : Nat) (a b : FV) : TV :=
  let f := vff s.fmt
  if s.c = 10 then (s.fmt, sfnDiv f (divChoice s.fmt f a b) a b)
  else if s.c = 17 ∨ s.c = 18 then
    let r := nth (0, 1) p.rowrefs (s.x % 2)
    let c := Coef.ofBytes (Mem.bytes sp (r.1 + 16 * (i / r.2)) 16)
    (s.fmt, if s.c = 17 then smaxApply f s.fmt c a else normApply f s.fmt c a)
  else if 24 ≤ s.c then
    (match slot (s.c - 24) with
     | some im => (if im.outX35 then 15 else s.fmt, instarEval im f a (if im.two then b else .zero))
     | none => (s.fmt, .nan))
  else if s.c = 2 then (15, expX35 a)
  else (s.fmt, sfnVal s.c s.fmt f a)

/-- Running counts and stream counter of a pass. -/
abbrev VAcc := Nat × Tally

/-- One stage on one element (R113, R116, R119): the element after it, and the stream counter and counts. -/
def stageOne (p : VPass) (sp : Mem) (slot : Nat → Option Instar) (key : Nat) (s : VStage) (e : VEl) (a : VAcc) : VEl × VAcc :=
  let g := psel e.pr s.guard
  let get (c : Nat) : FV × Tally := operand (srcVal p sp e c s.fmt) s.fmt
  if s.op = 20 then
    let x := e.pr.getLsbD (s.a % 4)
    let y := e.pr.getLsbD (s.b % 4)
    let r := if s.c = 0 then x && y else if s.c = 1 then x || y else if s.c = 2 then x != y else x && !y
    ({ e with pr := if g then setPred e.pr (s.x % 4) r else e.pr, t := e.t ++ [(9, .zero)] }, a)
  else if s.op = 8 ∨ s.op = 19 then
    if g then
      let x := get s.a
      let y : FV × Tally := if s.op = 8 then get s.b else (.zero, {})
      let r := if s.op = 8 then cmpOp s.c x.1 y.1 else classOp (vff s.fmt) s.c x.1
      ({ e with pr := setPred e.pr (s.x % 4) r, t := e.t ++ [(9, .zero)] }, a.1, (a.2.plus x.2).plus y.2)
    else ({ e with t := e.t ++ [(9, .zero)] }, a)
  else if s.op = 18 then
    let rnd := modeOf false (s.c % 4) == some true
    let ovf := modeOf false (fld s.c 2 2) == some true
    let c' := if rnd then (a.1 + 1) % 2 ^ 128 else a.1
    let src := srcVal p sp e s.a s.fmt
    if g then
      let r := convert src.1 s.fmt src.2 (if rnd then .stoch (streamDraw key a.1) else .rne) ovf
      ({ e with t := e.t ++ [(s.fmt, decVal s.fmt r.1)] }, c', a.2.plus r.2)
    else
      let r := operand src s.fmt
      ({ e with t := e.t ++ [(s.fmt, r.1)] }, c', a.2.plus r.2)
  else
    let x := get s.a
    if !g then ({ e with t := e.t ++ [(s.fmt, x.1)] }, a.1, a.2.plus x.2)
    else
      let two := decide (2 ≤ s.arity) || (s.op == 21 && decide (24 ≤ s.c))
      let y : FV × Tally := if two then get s.b else (.zero, {})
      let z : FV × Tally := if s.arity = 3 then get s.c else (.zero, {})
      let r : TV :=
        if s.op = 21 then sfnEval p sp slot s e.i x.1 y.1
        else if s.op = 17 then (s.fmt, if psel e.pr s.c then x.1 else y.1)
        else (s.fmt, valueOp s.op s.fmt s.x x.1 y.1 z.1)
      ({ e with t := e.t ++ [r] }, a.1, ((a.2.plus x.2).plus y.2).plus z.2)

/-- A function on elements in order, threading counter and counts. -/
def mapAcc (f : VEl → VAcc → VEl × VAcc) : List VEl → VAcc → List VEl × VAcc
  | [], a => ([], a)
  | e :: es, a =>
    let r := f e a
    let q := mapAcc f es r.2
    (r.1 :: q.1, q.2)

/-- The scan's step on a batch (R125 to R128). -/
def scanBatch (p : VPass) (sp : Mem) (s : VScan) (es : List VEl) (st : ScanState) (a : VAcc) : List VEl × ScanState × VAcc :=
  let xs := es.map fun e =>
    let b := operand (srcVal p sp e s.srcB s.fmt) s.fmt
    let x : FV × Tally := if s.op = 4 then operand (srcVal p sp e s.srcA s.fmt) s.fmt else (.zero, {})
    ((e.i, if psel e.pr s.inc then some (x.1, b.1) else none), b.2.plus x.2)
  let r := if s.lanes then scanLanes s.op s.fmt s.inclusive st (xs.map (·.1)) else scanAlong s.op s.fmt s.seg s.inclusive st (xs.map (·.1))
  (List.zipWith (fun e v => { e with sc := v }) es r.1, r.2, a.1, xs.foldl (fun t x => t.plus x.2) a.2)

/-- The stages from number `k` on (1-based), with the scan after its POSITION. -/
def runStages (p : VPass) (sp : Mem) (slot : Nat → Option Instar) (key : Nat) : List VStage → Nat → List VEl → ScanState → VAcc → List VEl × ScanState × VAcc
  | [], _, es, st, a => (es, st, a)
  | s :: ss, k, es, st, a =>
    let r := mapAcc (stageOne p sp slot key s) es a
    match p.scan with
    | some sc =>
      if sc.pos = k then
        let q := scanBatch p sp sc r.1 st r.2
        runStages p sp slot key ss (k + 1) q.1 q.2.1 q.2.2
      else runStages p sp slot key ss (k + 1) r.1 st r.2
    | none => runStages p sp slot key ss (k + 1) r.1 st r.2

/-- The value of an output at an element: the source, or FILL where WRITE_PRED fails (R111). -/
def outVal (p : VPass) (sp : Mem) (s : VStream) (e : VEl) : TV :=
  let ff := if isInt s.fmt then 9 else 1
  if psel e.pr s.wpred then srcVal p sp e s.source ff else (ff, decVal ff s.fill)

/-- An unscaled output over a batch (R111, R116). -/
def outPlain (p : VPass) (rd : Mem) (key : Nat) (s : VStream) : List VEl → Mem → VAcc → Mem × VAcc
  | [], m, a => (m, a)
  | e :: es, m, a =>
    let c' := if s.rnd then (a.1 + 1) % 2 ^ 128 else a.1
    if psel e.pr s.wpred || s.fillMode then
      let v := outVal p rd s e
      let r := convert v.1 s.fmt v.2 (if s.rnd then .stoch (streamDraw key a.1) else .rne) s.ovf
      outPlain p rd key s es (s.set m e.i r.1) (c', a.2.plus r.2)
    else outPlain p rd key s es m (c', a.2)

/-- One block of a scaled output: its elements from index `i0`, those at or beyond COUNT as FILL (R111). -/
def outBlock (p : VPass) (rd : Mem) (s : VStream) (es : List VEl) (x : Mem × VAcc) (i0 : Nat) : Mem × VAcc :=
  let ff := if isInt s.fmt then 9 else 1
  let vs := (List.range s.block).map fun k =>
    match es.find? (·.i == i0 + k) with
    | some e => (outVal p rd s e).2
    | none => decVal ff s.fill
  let b := scaleBlock s.fmt (scaleFmtOf s.scale) s.ovf vs
  let m1 := (b.2.1.foldl (fun (y : Mem × Nat) c => (s.set y.1 y.2 c, y.2 + 1)) (x.1, i0)).1
  (Mem.set m1 (s.sbase + i0 / s.rl * s.sstride + i0 % s.rl / s.block) (BitVec.ofNat 8 b.1), x.2.1, x.2.2.plus b.2.2)

/-- An output stream over a batch. -/
def outRun (p : VPass) (rd : Mem) (key : Nat) (es : List VEl) (x : Mem × VAcc) (s : VStream) : Mem × VAcc :=
  if s.scale = 0 then outPlain p rd key s es x.1 x.2
  else
    match es with
    | [] => x
    | e :: _ => (List.range (cdiv es.length s.block)).foldl (fun y k => outBlock p rd s es y (e.i + k * s.block)) x

/-- A batch that has entered the stage chain and not left it: its elements carry the operands, the predicates and the results
so far (R133). -/
structure ChainBatch where
  /-- Its number. -/
  batch : Nat
  /-- Stages that it has passed. -/
  stage : Nat
  /-- Its elements. -/
  els : List VEl
  /-- The stream counter of its next draw: draws are numbered batch by batch, as the batches enter (R116). -/
  ctr : Nat
  deriving DecidableEq, Repr

/-- What a stopped pass keeps in its context (R133). -/
structure PassPos where
  /-- Batches done. -/
  batch : Nat
  /-- Batches that stand in the stage chain, the oldest first. -/
  chain : List ChainBatch
  /-- Scan state. -/
  scan : ScanState
  /-- Items of the reductions. -/
  reds : List (List RedItem)
  /-- The random draws it has made. -/
  draws : Nat
  deriving DecidableEq, Repr

/-- A pass that has not entered a batch. -/
def PassPos.start : PassPos := ⟨0, [], ⟨[], 0, false⟩, [], 0⟩

/-- A pass in progress. -/
structure VRun where
  /-- Scratchpad. -/
  sp : Mem
  /-- Banks (flags may be set by reads). -/
  ms : MatState
  /-- Scan state. -/
  scan : ScanState
  /-- Stream counter and counts. -/
  acc : VAcc
  /-- Items of the reductions. -/
  reds : List (List RedItem)
  /-- Elements done. -/
  done : Nat
  /-- F-3503 met at a batch. -/
  bad : Bool
  deriving DecidableEq, Repr

/-- Does a batch use a coefficient record of the wrong KIND or with reserved bits (R151)? -/
def coefBad (p : VPass) (sp : Mem) (i0 n : Nat) : Bool :=
  p.stages.any fun s =>
    (s.op == 0x15 && (s.c == 17 || s.c == 18)) && decide (0 < n) &&
      let r := nth (0, 1) p.rowrefs (s.x % 2)
      (List.range ((i0 + n - 1) / r.2 + 1 - i0 / r.2)).any fun k =>
        let c := Coef.ofBytes (Mem.bytes sp (r.1 + 16 * (i0 / r.2 + k)) 16)
        c.reserved || c.kind != (if s.c = 17 then 1 else 2)

/-- The elements of a batch as they enter (R103, R109, R118): also the banks and saturating sums of the reads. -/
def enterBatch (p : VPass) (sp : Mem) (ms : MatState) : List Nat → List VEl × MatState × Nat
  | [] => ([], ms, 0)
  | i :: is =>
    let pr0 := match p.mask with
      | none => true
      | some m => (Mem.get sp (m + i / 8)).getLsbD (i % 8)
    let av : TV × MatState × Nat :=
      match p.acc with
      | none => ((9, .zero), ms, 0)
      | some (r0, cols) =>
        let r := r0 + i / cols
        let x := accValue ms r (i % cols)
        let f := match rowTag ms r with | some t => accFmt t.ty.toNat | none => 1
        match x.2 with
        | some a => ((f, x.1), { ms with intSat := ms.intSat ||| BitVec.ofNat 4 (2 ^ a) }, 1)
        | none => ((f, x.1), ms, 0)
    let r := enterBatch p sp av.2.1 is
    (⟨i, av.1, if pr0 then 15 else 14, [], (.zero, .zero)⟩ :: r.1, r.2.1, av.2.2 + r.2.2)

/-- Elements per batch (R103). -/
def VPass.per (p : VPass) : Nat := if p.packed then 256 else 128

/-- Batches of the pass. -/
def VPass.batches (p : VPass) : Nat := cdiv p.count p.per

/-- Elements of a batch. -/
def VPass.size (p : VPass) (b : Nat) : Nat := min p.per (p.count - b * p.per)

/-- Draws that each element makes: one in every drawing stage and one in every drawing output (R53, R116). -/
def VPass.drawsPer (p : VPass) : Nat :=
  countIf (fun s => s.op == 18 && modeOf false (s.c % 4) == some true) p.stages + countIf (fun o => o.rnd && o.scale == 0) (p.outs.filterMap id)

/-- A batch enters the chain: the reads and the scan before the first stage, and the numbers of its draws. -/
def enterChain (p : VPass) (r : VRun) (b : Nat) : ChainBatch × VRun :=
  let n := p.size b
  let en := enterBatch p r.sp r.ms ((List.range n).map (· + b * p.per))
  let a0 : VAcc := (r.acc.1, { r.acc.2 with int := r.acc.2.int + en.2.2 })
  let st : List VEl × ScanState × VAcc :=
    match p.scan with
    | some sc => if sc.pos = 0 then scanBatch p r.sp sc en.1 r.scan a0 else (en.1, r.scan, a0)
    | none => (en.1, r.scan, a0)
  (⟨b, 0, st.1, r.acc.1⟩, { r with ms := en.2.1, scan := st.2.1, acc := ((r.acc.1 + n * p.drawsPer) % 2 ^ 128, st.2.2.2) })

/-- A batch passes on until it has passed `j` stages. -/
def advance (p : VPass) (slot : Nat → Option Instar) (key j : Nat) (x : ChainBatch × VRun) : ChainBatch × VRun :=
  let c := x.1
  let r := x.2
  let st := runStages p r.sp slot key ((p.stages.take j).drop c.stage) (c.stage + 1) c.els r.scan (c.ctr, r.acc.2)
  ({ c with stage := max c.stage j, els := st.1, ctr := st.2.2.1 }, { r with scan := st.2.1, acc := (r.acc.1, st.2.2.2) })

/-- A batch leaves the chain: its outputs are written and its reductions take their items. -/
def leaveChain (p : VPass) (key : Nat) (x : ChainBatch × VRun) : VRun :=
  let c := x.1
  let r := x.2
  let o := (p.outs.filterMap id).foldl (outRun p r.sp key c.els) (r.sp, (c.ctr, r.acc.2))
  { r with
    sp := o.1, acc := (r.acc.1, o.2.2), done := c.batch * p.per + p.size c.batch
    reds := List.zipWith (fun (rd : VRed) items =>
        items ++ c.els.map fun e =>
          let v := srcVal p r.sp e rd.source rd.fmt
          (e.i, psel e.pr rd.inc, if rd.op = 6 then v.2 else (operand v rd.fmt).1))
      p.reds r.reds }

/-- One batch of a pass, from its entry to its end. -/
def runBatch (p : VPass) (slot : Nat → Option Instar) (key : Nat) (r : VRun) (b : Nat) : VRun :=
  if r.bad then r
  else if coefBad p r.sp (b * p.per) (p.size b) then { r with bad := true }
  else leaveChain p key (advance p slot key p.stages.length (enterChain p r b))

/-- A batch that stood in the chain goes on from there to its end (R133). -/
def resumeBatch (p : VPass) (slot : Nat → Option Instar) (key : Nat) (r : VRun) (c : ChainBatch) : VRun :=
  leaveChain p key (advance p slot key p.stages.length (c, r))

/-- Write the records of the segments of a reduction that have ended among elements `from` to `done` (R120, R148, R106);
`whole`: the pass has ended. -/
def writeReds (p : VPass) (from' done : Nat) (whole : Bool) (rd : VRed) (items : List RedItem) (m : Mem) : Mem :=
  let recOf (base n : Nat) : List Byte :=
    let xs := items.filter fun x => decide (base ≤ x.1) && decide (x.1 < base + n)
    if rd.recBytes = 32 then rowRecord rd.op rd.tag xs else redRecord rd.op rd.fmt p.packed base xs
  (List.range (rd.records p.count)).foldl (fun m s =>
    let base := s * rd.seg
    let n := if rd.seg = 0 then p.count else min rd.seg (p.count - base)
    if (whole && p.count == 0) || (decide (from' < base + n) && decide (base + n ≤ done)) then
      Mem.setBytes m (rd.dest + rd.recBytes * s) (recOf base n) else m) m

/-- The start of a scan from a carry-in record (R129, R130). -/
def scanStart (s : VScan) (c : Option Carry) : ScanState :=
  let n := if s.lanes then 128 else 1
  let ident := scanIdent s.op s.fmt
  match c with
  | none => ⟨List.replicate n ident, 0, false⟩
  | some c => if c.isEmpty then ⟨List.replicate n ident, 0, false⟩ else ⟨(c.ch ++ List.replicate n ident).take n, 0, true⟩

/-- The carry-out record (R131, R106, R129). -/
def carryOut (s : VScan) (st : ScanState) : List Byte :=
  Carry.toBytes ⟨s.op, s.fmt, s.lanes, st.ch.any fun x => (s.op == 4 && x.1.nonFinite) || x.2.nonFinite, !st.nonEmpty, false, s.tag, st.ch⟩

/-- The pass with its lane constants read, before its first batch (R110). -/
def VPass.readConsts (p : VPass) (sp : Mem) : VPass :=
  { p with consts := p.lcs.map fun
      | some l => (List.range 128).map fun i => decVal l.2 (readElem sp l.1 (fmtBits l.2) i)
      | none => [] }

/-- The pass before its first batch: `carry` is the carry-in record as read, already checked. -/
def VPass.enter (p : VPass) (carry : Option Carry) : PassPos :=
  ⟨0, [], match p.scan with | some s => scanStart s carry | none => ⟨[], 0, false⟩, p.reds.map fun _ => [], 0⟩

/-- `n` batches of a pass from the position on, those that stand in the chain first (R103 to R131, R133), with the records of
the segments that end in them. -/
def passRun (p : VPass) (slot : Nat → Option Instar) (key ctr : Nat) (sp : Mem) (ms : MatState) (k : PassPos) (n : Nat) : VRun :=
  let r0 := (k.chain.take n).foldl (resumeBatch p slot key) ⟨sp, ms, k.scan, (ctr, {}), k.reds, min p.count (k.batch * p.per), false⟩
  let m := k.chain.length
  let r := (List.range (n - m)).foldl (fun r b => runBatch p slot key r (k.batch + m + b)) r0
  { r with sp := (List.zip p.reds r.reds).foldl (fun m x =>
      writeReds p (min p.count (k.batch * p.per)) r.done (!r.bad && decide (p.batches ≤ k.batch + n)) x.1 x.2 m) r.sp }

/-- The batches that stand in the chain where a pass stops: those that stood there (`old`), and behind them new ones, from
number `b` on, each behind the stages that the next set bit of `mask` names, the deepest stage first (R133). A batch that would
raise F-3503 on its entry has not entered. -/
def fillChain (p : VPass) (slot : Nat → Option Instar) (key mask : Nat) : Nat → Nat → VRun → List ChainBatch × VRun
  | 0, _, r => ([], r)
  | j + 1, b, r =>
    if flag mask j && decide (b < p.batches) && !coefBad p r.sp (b * p.per) (p.size b) then
      let x := advance p slot key j (enterChain p r b)
      let y := fillChain p slot key mask j (b + 1) x.2
      (x.1 :: y.1, y.2)
    else fillChain p slot key mask j b r

/-- The pass stops behind `n` whole batches with the chain filled as `mask` says. -/
def passStop (p : VPass) (slot : Nat → Option Instar) (key ctr : Nat) (sp : Mem) (ms : MatState) (k : PassPos) (n mask : Nat) : List ChainBatch × VRun :=
  let r := passRun p slot key ctr sp ms k n
  let old := k.chain.drop n
  if r.bad then ([], r)
  else
    let y := fillChain p slot key mask (match old.getLast? with | some c => c.stage | none => p.stages.length) (k.batch + n + old.length) r
    (old ++ y.1, y.2)

end Sys2Proof.Machine
end

