-- ==== Sys2Proof/Machine/Move.lean ====
section
/-!
DEFINITION. The move engine: tensor descriptors, window classes, copies, gathers and scatters (R182, R216 to R232,
R237). The functions are pure; memory is reached through the readers and checks that the meanings supply.
-/
namespace Sys2Proof.Machine

/-- A dimension entry (Table 09-2). -/
structure TDim where
  /-- GLOBAL_EXTENT. -/
  g : Nat
  /-- SHARDS. -/
  shards : Nat
  /-- SHARD_INDEX. -/
  index : Nat
  /-- AXIS. -/
  axis : Nat
  /-- WINDOW_ORIGIN. -/
  origin : Int
  /-- WINDOW_EXTENT. -/
  extent : Nat
  /-- STRIDE. -/
  stride : Int
  /-- TILE. -/
  tile : Nat
  /-- HALO. -/
  halo : Nat
  /-- TILE_STRIDE. -/
  tstride : Int
  deriving DecidableEq, Repr

/-- A tensor descriptor (Table 09-1). -/
structure TDesc where
  /-- FORMAT. -/
  fmt : Nat
  /-- SCALE_FORMAT. -/
  scale : Nat
  /-- Block size. -/
  block : Nat
  /-- LOCATION is DRAM. -/
  dram : Bool
  /-- PAD_VALUE. -/
  pad : Nat
  /-- BASE with the register of R216. -/
  base : Nat
  /-- SCALE_BASE with the register of R216. -/
  sbase : Nat
  /-- GATHER_AXIS. -/
  gaxis : Nat
  /-- RANGE_FAULT. -/
  rfault : Bool
  /-- Entries, innermost first. -/
  dims : List TDim
  deriving DecidableEq, Repr

/-- Element width in bits. -/
def TDesc.w (d : TDesc) : Nat := fmtBits d.fmt

/-- Parse an entry of four words. -/
def parseDim (ws : List Nat) : TDim :=
  let w (i : Nat) : Nat := nth 0 ws i
  ⟨fld (w 0) 0 31, fld (w 0) 32 14, fld (w 0) 46 14, fld (w 0) 60 2, sgn 32 (fld (w 1) 0 32), fld (w 1) 32 31,
    sgn 40 (fld (w 2) 0 40), fld (w 2) 40 16, fld (w 2) 56 8, sgn 40 (fld (w 3) 0 40)⟩

/-- The faults of one entry; `i` is its number and `nd` is DIMS (R217, R219). -/
def dimFaults (nd i : Nat) (ws : List Nat) : List Nat :=
  let w (k : Nat) : Nat := nth 0 ws k
  let d := parseDim ws
  if nd ≤ i then when (ws.any fun x => x != 0) 0x3701
  else when (flag (w 0) 31 || fld (w 0) 62 2 != 0 || flag (w 1) 63 || fld (w 3) 40 24 != 0) 0x3701 ++
    when (d.g == 0 || d.shards == 0 || decide (d.shards > 14641) || decide (d.index ≥ d.shards) ||
      decide (d.axis ≥ nd) || d.extent == 0) 0x3701 ++
    when ((i == 0 || d.tile == 0) && d.tstride != 0) 0x3701 ++ when (i == 0 && d.tile == 0 && d.stride != 0) 0x3701

/-- A BASE field of an index descriptor, to which no register is added (R216): outside the scratchpad it breaks R219, and the
bytes that its window reaches count from it all the same (R237). -/
def ixField (off : Nat) : Nat × List Nat := (off, when (decide (off ≥ scratchSize)) 0x3702)

/-- A descriptor from its twenty words; `ix`: it is an index descriptor; `rd`: it is only read; `reg` is the register
added (R216). -/
def parseDesc (ix rd : Bool) (ws : List Nat) (reg : Nat) : TDesc × List Nat :=
  let w (i : Nat) : Nat := nth 0 ws i
  let nd := fld (w 0) 7 2 + 1
  let dram := flag (w 0) 9
  let sc := fld (w 0) 4 2
  let ent (i : Nat) : List Nat := (ws.drop (4 + 4 * i)).take 4
  let ba : Nat × List Nat := if dram then ((w 1 + reg) % 2 ^ 64, []) else if ix then ixField (fld (w 1) 0 24) else sumField (fld (w 1) 0 24) reg
  let sb : Nat × List Nat :=
    if sc = 0 then (0, []) else if dram then ((w 2 + reg) % 2 ^ 64, []) else if ix then ixField (fld (w 2) 0 24) else sumField (fld (w 2) 0 24) reg
  let d : TDesc := ⟨fld (w 0) 0 4, sc, if flag (w 0) 6 then 32 else 16, dram, fld (w 0) 32 32, ba.1, sb.1,
    fld (w 3) 0 2, flag (w 3) 2, (List.range nd).map fun i => parseDim (ent i)⟩
  let bw := d.block * d.w
  let six := d.w == 6
  let d0 := parseDim (ent 0)
  (d, ba.2 ++ sb.2 ++ ((if rd then sourceFault else scaledFault) d.fmt (if sc = 3 then 0 else sc) d.block).toList ++
    when (fld (w 0) 10 22 != 0 || sc == 3 || (if ix then fld (w 3) 3 61 != 0 else w 3 != 0)) 0x3701 ++
    when (!dram && (fld (w 1) 24 40 != 0 || fld (w 2) 24 40 != 0)) 0x3701 ++ when (sc == 0 && w 2 != 0) 0x3701 ++
    ((List.range 4).flatMap fun i => dimFaults nd i (ent i)) ++
    when (!decide ((d.dims.map (·.axis)).Nodup)) 0x3701 ++
    when ((d.w == 4 && d0.tile % 2 != 0) || (six && d0.tile % 4 != 0) ||
      (six && d.dims.any fun x => x.stride % 3 != 0 || x.tstride % 3 != 0) || (six && dram && d.base % 3 != 0)) 0x3701 ++
    when (six && !dram && d.base % 3 != 0) 0x3702 ++
    when (sc != 0 && (d0.tile % d.block != 0 || d.dims.any fun x => (x.stride * 8) % (bw : Int) != 0 || (x.tstride * 8) % (bw : Int) != 0)) 0x3701)

/-- The class of a coordinate on one axis (Table 09-3). -/
inductive AxisClass where
  | padding | outside | halo | inside
  deriving DecidableEq, Repr

/-- Origin and end of the shard (R218). -/
def TDim.shard (d : TDim) : Int × Int :=
  let c := cdiv d.g d.shards
  let o := d.index * c
  (o, (max o (min d.g (o + c)) : Nat))

/-- Classify a global coordinate on an axis (R221). -/
def TDim.cls (d : TDim) (x : Int) : AxisClass :=
  let s := d.shard
  if x < 0 ∨ d.g ≤ x then .padding
  else if s.1 ≤ x ∧ x < s.2 then .inside
  else if s.1 - d.halo ≤ x ∧ x < s.2 + d.halo then .halo else .outside

/-- The class of a position given by its coordinates, entry by entry: the first row that applies. -/
def posClass (ds : List TDim) (xs : List Int) : AxisClass :=
  let cs := List.zipWith TDim.cls ds xs
  if cs.contains .padding then .padding
  else if cs.contains .outside then .outside
  else if cs.contains .halo then .halo else .inside

/-- Storage coordinate (R218). -/
def TDim.u (d : TDim) (x : Int) : Int := x - d.shard.1 + d.halo

/-- `off` and `pos` of R219. -/
def offPos (ds : List TDim) (xs : List Int) : Int × Int :=
  match ds, xs with
  | d :: dr, x :: xr =>
    let outer := (List.zipWith (fun (d : TDim) x =>
      if d.tile = 0 then d.u x * d.stride else d.u x % d.tile * d.tstride + d.u x / d.tile * d.stride) dr xr).foldl (· + ·) 0
    if d.tile = 0 then (outer, d.u x) else (outer + d.u x / d.tile * d.stride, d.u x % d.tile)
  | _, _ => (0, 0)

/-- A byte address: a scratchpad offset must not be negative; a global address wraps modulo 2^64 (R166). -/
def TDesc.norm (d : TDesc) (a : Int) : Int := if d.dram then a % (2 ^ 64 : Int) else a

/-- Bit address of the element of a position. -/
def TDesc.bitAt (d : TDesc) (xs : List Int) : Int :=
  let o := offPos d.dims xs
  8 * (d.base + o.1) + d.w * o.2

/-- Byte address of the scale of a position (R220). -/
def TDesc.scaleAt (d : TDesc) (xs : List Int) : Int :=
  let o := offPos d.dims xs
  d.norm (d.sbase + (8 * o.1 + o.2 / d.block * d.block * d.w) / (d.block * d.w))

/-- Does the coordinate start a block along entry 0? -/
def TDesc.blockStart (d : TDesc) (xs : List Int) : Bool := (offPos d.dims xs).2 % d.block == 0

/-- All tuples of distances below the extents, entry 0 fastest. -/
def walk : List Nat → List (List Nat)
  | [] => [[]]
  | e :: es => (walk es).flatMap fun t => (List.range e).map fun i => i :: t

/-- Coordinates of a descriptor at distances given per axis. -/
def TDesc.coords (d : TDesc) (dist : Nat → Nat) : List Int := d.dims.map fun x => x.origin + dist x.axis

/-- Every window position's coordinates. -/
def TDesc.window (d : TDesc) : List (List Int) :=
  (walk (d.dims.map (·.extent))).map fun t => List.zipWith (fun (x : TDim) (i : Nat) => x.origin + (i : Int)) d.dims t

/-- The bytes of the element at a position. -/
def TDesc.elemBytes (d : TDesc) (xs : List Int) : List Int :=
  let b := d.bitAt xs
  (List.range (((b % 8).toNat + d.w + 7) / 8)).map fun (i : Nat) => d.norm (b / 8 + (i : Int))

/-- Positions of the window that move reads or writes: padding never; a destination only its local ones. -/
def TDesc.reached (d : TDesc) (dst : Bool) : List (List Int) :=
  d.window.filter fun xs =>
    match posClass d.dims xs with | .inside => true | .halo => !dst | _ => false

/-- Lowest and highest byte of the elements, and of the scales (R226). -/
def TDesc.spanOf (d : TDesc) (dst : Bool) : List (Int × Int) :=
  let ps := d.reached dst
  let mm (bs : List Int) : List (Int × Int) :=
    match bs with | [] => [] | b :: r => [(r.foldl min b, r.foldl max b)]
  mm (ps.flatMap d.elemBytes) ++ (if d.scale = 0 then [] else mm (ps.map d.scaleAt))

/-- A checked MOVE. -/
structure MoveOp where
  /-- KIND. -/
  kind : Nat
  /-- RND. -/
  rnd : Bool
  /-- OVF. -/
  ovf : Bool
  /-- Source. -/
  src : TDesc
  /-- Destination. -/
  dst : TDesc
  /-- Index tensor. -/
  ix : Option TDesc
  /-- Bytes are copied unchanged (R225). -/
  raw : Bool
  deriving DecidableEq, Repr

/-- The axis of entry 0. -/
def TDesc.axis0 (d : TDesc) : Nat := match d.dims with | x :: _ => x.axis | [] => 0

/-- Window extent on an axis. -/
def TDesc.extentOf (d : TDesc) (a : Nat) : Nat := match d.dims.find? (·.axis == a) with | some x => x.extent | none => 0

/-- Window origin of entry 0 lies on a block boundary of storage (R225). -/
def TDesc.startsBlock (d : TDesc) : Bool := match d.dims with | x :: _ => (x.u x.origin) % d.block == 0 | [] => true

/-- The window ends on a block boundary of storage. -/
def TDesc.endsBlock (d : TDesc) : Bool := match d.dims with | x :: _ => (x.u (x.origin + x.extent)) % d.block == 0 | [] => true

/-- Are the bytes of the move copied unchanged (R225)? -/
def rawMove (kind gaxis : Nat) (s d : TDesc) : Bool :=
  kind != 3 && s.fmt == d.fmt && s.scale == d.scale && (s.scale == 0 || s.block == d.block) && s.axis0 == d.axis0 &&
  (s.scale == 0 || (s.startsBlock && d.startsBlock && (kind == 0 || gaxis != d.axis0))) &&
  (s.window.all fun x => posClass s.dims x != .padding) && (d.window.all fun x => posClass d.dims x != .padding)

/-- Does a DRAM range meet another range? Ranges are given with their side (R226). -/
def rangesMeet (a b : Bool × Int × Int) : Bool :=
  a.1 == b.1 && decide (a.2.1 ≤ b.2.2) && decide (b.2.1 ≤ a.2.2)

/-- A DRAM address of this module: DEVICE 0x3FFF and the module's own number name the same bytes (R226, F-3703). -/
def localSpace (own : Nat → Bool) (a : Nat) : Bool := fld a 56 8 == 0 && (fld a 42 14 == 0x3FFF || own (fld a 42 14))

/-- The address with its device replaced by 0x3FFF. -/
def sameDevice (a : Int) : Int := a % (2 ^ 42 : Int)

/-- Rank of a code found at issue (R186, R237). -/
def moveRank (c : Nat) : Nat :=
  if c = 0x3602 then 0 else if c = 0x3603 then 1 else if c / 256 = 0x31 then 3
  else match c with
    | 0x3701 => 4 | 0x3703 => 5 | 0x3204 => 6 | 0x3702 => 7 | 0x3706 => 8 | 0x3704 => 9 | _ => 10

/-- The first code of R237's order. -/
def moveFirst : List Nat → Option Nat
  | [] => none
  | c :: cs =>
    match moveFirst cs with
    | none => some c
    | some d => if moveRank c * 65536 + c ≤ moveRank d * 65536 + d then some c else some d

/-- Range and area faults of the bytes a window reaches. -/
def reachFaults (v dst : Bool) (own : Nat → Bool) (d : TDesc) : List Nat :=
  if d.dram then
    when (!localSpace own d.base || (d.scale != 0 && !localSpace own d.sbase)) 0x3703
  else
    let bs := (d.reached dst).flatMap fun x => d.elemBytes x ++ (if d.scale = 0 then [] else [d.scaleAt x])
    when (bs.any fun a => decide (0 ≤ a) && decide (a < scratchSize) && !areaOk v a.toNat 1) 0x3204 ++
    when (bs.any fun a => decide (a < 0) || decide ((scratchSize : Int) ≤ a)) 0x3702

/-- Does a block of a scaled destination hold both halo and local positions (R221)? -/
def mixedBlock (d : TDesc) : Bool :=
  d.scale != 0 && d.window.any fun x => posClass d.dims x == .halo && d.window.any fun y =>
    posClass d.dims y == .inside && d.scaleAt x == d.scaleAt y

/-- The checks of a MOVE at issue (R182, R216 to R231, R237): `src`, `dst`, `ix` are the words of the descriptors. -/
def movePrepare (v : Bool) (own : Nat → Bool) (kind rndc ovfc : Nat) (src dst ix : List Nat) (sreg dreg : Nat) : Except Nat MoveOp :=
  match modeOf false rndc, modeOf false ovfc with
  | some rnd, some ovf =>
    let s := parseDesc false true src sreg
    let d := parseDesc false false dst dreg
    let i := parseDesc true true ix 0
    let g := i.1.gaxis
    let nd := s.1.dims.length
    let n := i.1.extentOf 0
    let bad := s.2 ++ d.2 ++ (if kind = 0 then [] else i.2)
    -- a block-scaled INT8 value is floating (R44)
    let vf := if s.1.scale != 0 && s.1.fmt == 11 then 1 else s.1.fmt
    let cvt := (cvtFault vf d.1.fmt (rnd && d.1.scale == 0)).toList
    -- a descriptor that does not parse is checked no further than its own faults and the format codes
    if bad.contains 0x3701 then
      let same := s.1.fmt == d.1.fmt && s.1.scale == d.1.scale && (s.1.scale == 0 || s.1.block == d.1.block)
      .error ((moveFirst (bad ++ if same && kind != 3 then [] else cvt)).getD 0x3701)
    else
      let raw := rawMove kind g s.1 d.1
      let shape :=
        when (nd != d.1.dims.length) 0x3701 ++
        (if kind = 0 then when (!(List.range nd).all fun a => s.1.extentOf a == d.1.extentOf a) 0x3701
         else when (i.1.dims.length != 1 || !(i.1.fmt == 9 || i.1.fmt == 10) || i.1.scale != 0 ||
              (i.1.dims.any fun x => x.shards != 1) || (i.1.window.any fun x => posClass i.1.dims x == .padding) ||
              decide (nd ≤ g)) 0x3701 ++
            when (!(List.range nd).all fun a =>
              if a = g then (if kind = 1 then d.1.extentOf a == n else s.1.extentOf a == n)
              else s.1.extentOf a == d.1.extentOf a) 0x3701) ++
        when (kind == 3 && !((s.1.fmt == 1 || s.1.fmt == 2) && s.1.scale == 0 && d.1.fmt == 1 && d.1.scale == 0)) 0x3701 ++
        when (d.1.scale != 0 && !raw && !(d.1.startsBlock && d.1.endsBlock)) 0x3701 ++ when (mixedBlock d.1) 0x3701
      -- PAD_VALUE is converted where the source window holds padding (R221)
      let padded := s.1.window.any fun x => posClass s.1.dims x == .padding
      let cv := if raw then [] else cvt ++
        (if padded then (cvtFault (if isInt s.1.fmt then 9 else 1) d.1.fmt (rnd && d.1.scale == 0)).toList else [])
      let outs (t : TDesc) : Bool := t.window.any fun x => posClass t.dims x == .outside
      let rs (t : TDesc) (w : Bool) : List (Bool × Int × Int) :=
        (t.spanOf w).map fun x => if t.dram then (true, sameDevice x.1, sameDevice x.2) else (false, x.1, x.2)
      let others := rs s.1 false ++ (if kind = 0 then [] else rs i.1 false)
      match moveFirst (bad ++ shape ++ cv ++ reachFaults v false own s.1 ++ reachFaults v true own d.1 ++
          (if kind = 0 then [] else reachFaults v false own i.1) ++
          when ((rs d.1 true).any fun a => others.any (rangesMeet a)) 0x3706 ++
          when (outs s.1 || outs d.1 || (kind != 0 && outs i.1)) 0x3704) with
      | some c => .error c
      | none => .ok ⟨kind, rnd, ovf, s.1, d.1, if kind = 0 then none else some i.1, raw⟩
  | _, _ => .error 0x3602

/-- Where an element's source lies. -/
inductive MSrc where
  /-- A padding position: PAD_VALUE. -/
  | pad
  /-- The zero slice of an out-of-range index (R231). -/
  | zero
  /-- Coordinates of a source position. -/
  | pos (xs : List Int)
  deriving DecidableEq, Repr

/-- One element to move: where it stands in the walk, its source, and its destination coordinates. -/
structure MElem where
  /-- Request number (R229), 0 for a COPY. -/
  req : Nat
  /-- Slice: the number of the index element (R227), 0 for a COPY. -/
  slice : Nat
  /-- Position in the walk of the COPY or slice (R232). -/
  at' : Nat
  /-- Source. -/
  src : MSrc
  /-- Destination coordinates. -/
  dst : List Int
  deriving DecidableEq, Repr

/-- What a memory access of a move may meet: a code, and the beats found uncorrectable. -/
abbrev MFault := Nat × List Nat

/-- Readers of memory: side DRAM, byte address; the byte or a fault. -/
abbrev MRead := Bool → Nat → Except MFault Byte

/-- Bytes in order, or the first fault with every beat found uncorrectable among them. -/
def readAll (rd : MRead) (dram : Bool) : List Int → Except MFault (List Byte)
  | [] => .ok []
  | a :: as =>
    match rd dram a.toNat, readAll rd dram as with
    | .ok b, .ok bs => .ok (b :: bs)
    | .error f, .ok _ => .error f
    | .ok _, .error g => .error g
    | .error f, .error g => .error (f.1, f.2 ++ g.2.filter fun b => !f.2.contains b)

/-- The element code at a position. -/
def TDesc.code (d : TDesc) (rd : MRead) (xs : List Int) : Except MFault Nat := do
  let bs ← readAll rd d.dram (d.elemBytes xs)
  .ok (leNat bs / 2 ^ (d.bitAt xs % 8).toNat % 2 ^ d.w)

/-- The scale code at a position. -/
def TDesc.scaleCode (d : TDesc) (rd : MRead) (xs : List Int) : Except MFault Nat := do
  if d.scale = 0 then .ok 0 else
  let b ← rd d.dram (d.scaleAt xs).toNat
  .ok b.toNat

/-- The value of PAD_VALUE and its format. -/
def TDesc.padVal (d : TDesc) : FV := decVal (if isInt d.fmt then 9 else 1) d.pad

/-- Format and value of an element's source; for a raw move, the code and scale code. -/
structure MVal where
  /-- Format of the value. -/
  fmt : Nat
  /-- Value. -/
  val : FV
  /-- Element code. -/
  code : Nat
  /-- Scale code. -/
  sc : Nat
  deriving DecidableEq, Repr

/-- Read the source of an element. -/
def MoveOp.value (o : MoveOp) (rd : MRead) (e : MElem) : Except MFault MVal :=
  match e.src with
  | .pad => .ok ⟨if isInt o.src.fmt then 9 else 1, o.src.padVal, 0, 0⟩
  | .zero => .ok ⟨o.src.fmt, .zero, 0, 0⟩
  | .pos xs =>
    match o.src.code rd xs, o.src.scaleCode rd xs with
    | .ok c, .ok s =>
      if o.src.scale = 0 then .ok ⟨o.src.fmt, decVal o.src.fmt c, c, s⟩
      else .ok ⟨if o.src.fmt = 11 then 1 else o.src.fmt, scaledVal o.src.fmt (scaleFmtOf o.src.scale) s c, c, s⟩
    | .error f, .ok _ => .error f
    | .ok _, .error g => .error g
    | .error f, .error g => .error (f.1, f.2 ++ g.2.filter fun b => !f.2.contains b)

/-- Elements of a COPY in walk order (R224, R232): positions that are written. -/
def copyElems (o : MoveOp) : List MElem :=
  ((walk (o.dst.dims.map (·.extent))).mapIdx fun k t =>
    let pairs := List.zip (o.dst.dims.map (·.axis)) t
    let dist (a : Nat) : Nat := match pairs.find? (·.1 == a) with | some p => p.2 | none => 0
    let dx := o.dst.coords dist
    let sx := o.src.coords dist
    if posClass o.dst.dims dx = .inside then
      some (⟨0, 0, k, if posClass o.src.dims sx = .padding then .pad else .pos sx, dx⟩ : MElem)
    else none).filterMap id

/-- Elements of slice `j`: `ds` and `ss` are the distances along the gather axis on the two sides. -/
def sliceElems (o : MoveOp) (g j ds : Nat) (ss : Option Nat) : List MElem :=
  ((walk (o.dst.dims.map fun x => if x.axis = g then 1 else x.extent)).mapIdx fun n t =>
    let pairs := List.zip (o.dst.dims.map (·.axis)) t
    let dist (k a : Nat) : Nat := if a = g then k else match pairs.find? (·.1 == a) with | some p => p.2 | none => 0
    let dx := o.dst.coords (dist ds)
    if posClass o.dst.dims dx = .inside then
      some (⟨j / 16, j, n, match ss with
        | none => .zero
        | some k => let sx := o.src.coords (dist k); if posClass o.src.dims sx = .padding then .pad else .pos sx, dx⟩ : MElem)
    else none).filterMap id

/-- Is an index valid (R228)? -/
def indexOk (o : MoveOp) (g : Nat) (x : Int) : Bool :=
  let t := if o.kind = 1 then o.src else o.dst
  decide (0 ≤ x) && decide (x < (t.extentOf g : Int)) &&
  (walk (t.dims.map fun d => if d.axis = g then 1 else d.extent)).all fun tu =>
    let xs := List.zipWith (fun (d : TDim) (i : Nat) => if d.axis = g then d.origin + x else d.origin + (i : Int)) t.dims tu
    match posClass t.dims xs with | .inside => true | .halo => o.kind == 1 | _ => false

/-- What the indices of a gather or scatter select: elements in index order, out-of-range indices met, and the
request and code of the first fault. -/
structure MPlan where
  /-- Elements. -/
  elems : List MElem
  /-- Requests with an out-of-range index, one entry per index. -/
  bad : List Nat
  /-- First faulting request and its fault. -/
  fault : Option (Nat × MFault)
  deriving DecidableEq, Repr

/-- The plan of `n` indices from index `j` on. -/
def planFrom (o : MoveOp) (i : TDesc) (rd : MRead) : Nat → Nat → MPlan
  | 0, _ => ⟨[], [], none⟩
  | n + 1, j =>
    match i.code rd (i.coords fun _ => j) with
    | .error c => ⟨[], [], some (j / 16, c)⟩
    | .ok c =>
      let v := sgn i.w c
      if indexOk o i.gaxis v then
        let r := planFrom o i rd n (j + 1)
        { r with elems := (if o.kind = 1 then sliceElems o i.gaxis j j (some v.toNat)
            else sliceElems o i.gaxis j v.toNat (some j)) ++ r.elems }
      else if i.rfault then ⟨[], [], some (j / 16, 0x3705, [])⟩
      else
        let r := planFrom o i rd n (j + 1)
        { r with elems := (if o.kind = 1 then sliceElems o i.gaxis j j none else []) ++ r.elems,
                 bad := j / 16 :: r.bad }

/-- The plan of a move between two positions: a COPY's elements, all of them; of a gather or scatter the requests from
`p` to before `q`, those before a faulting request. -/
def MoveOp.plan (o : MoveOp) (rd : MRead) (p q : Nat) : MPlan :=
  match o.ix with
  | none => ⟨copyElems o, [], none⟩
  | some i =>
    let r := planFrom o i rd (min (i.extentOf 0) (16 * q) - 16 * p) (16 * p)
    match r.fault with
    | none => r
    | some f => { r with elems := r.elems.filter fun e => decide (e.req < f.1), bad := r.bad.filter fun q => decide (q < f.1) }

/-- Do two successive elements belong to one segment (R232, R234)? -/
def sameSegment (o : MoveOp) (a b : MElem) : Bool :=
  o.src.axis0 == o.dst.axis0 && a.slice == b.slice && a.at' + 1 == b.at' && o.dst.bitAt a.dst + o.dst.w == o.dst.bitAt b.dst &&
  match a.src, b.src with
  | .pos x, .pos y => o.src.bitAt x + o.src.w == o.src.bitAt y
  | .pad, .pad => true
  | .zero, .zero => true
  | _, _ => false

/-- Group elements into segments, in order. -/
def segments (o : MoveOp) : List MElem → List (List MElem)
  | [] => []
  | e :: es =>
    match segments o es with
    | (f :: s) :: r => if sameSegment o e f then (e :: f :: s) :: r else [e] :: (f :: s) :: r
    | r => [e] :: r

/-- Is a segment a narrow access (R232): under 64 bytes of the wider element, or of a transposition? -/
def narrow64 (o : MoveOp) (s : List MElem) : Bool :=
  o.src.axis0 != o.dst.axis0 || decide (s.length * max o.src.w o.dst.w < 512)

/-- Start and length of each segment, by number of elements. -/
def segEnds : Nat → List (List MElem) → List (Nat × List MElem)
  | _, [] => []
  | n, s :: r => (n, s) :: segEnds (n + s.length) r

/-- Every byte that the destination's elements and scales take. -/
def MoveOp.covered (o : MoveOp) (es : List MElem) : List Int :=
  es.flatMap fun e => o.dst.elemBytes e.dst ++ (if o.dst.scale = 0 then [] else [o.dst.scaleAt e.dst])

/-- One write: bit address, width and value at the destination's side; or an FP32 addition. -/
structure MWrite where
  /-- Bit address. -/
  bit : Int
  /-- Width. -/
  w : Nat
  /-- Value. -/
  val : Nat
  /-- Add in FP32 instead. -/
  add : Bool
  deriving DecidableEq, Repr

/-- What a move does: its writes in order, the fault that ends it, stream counter, counts. -/
structure MDone where
  /-- Writes, in order. -/
  writes : List MWrite
  /-- The bytes of each segment that is written, as far as this run writes it. -/
  covers : List (List Int)
  /-- Fault. -/
  fault : Option MFault
  /-- Stream counter. -/
  ctr : Nat
  /-- Counts. -/
  tally : Tally
  /-- Narrow accesses. -/
  narrow : Nat
  /-- Out-of-range index elements. -/
  range : Nat
  deriving DecidableEq, Repr

/-- What a stopped move of a Noon task keeps in its staging buffer (R235): of a gather or scatter the elements of the requests
that it has taken, and how many of them are written; and the values read of the elements next to write. -/
structure MHeld where
  /-- Elements of the requests taken; none for a COPY, whose elements are those of its windows. -/
  elems : List MElem
  /-- Of these, elements written. -/
  done : Nat
  /-- Values of the next ones. -/
  vals : List MVal
  deriving DecidableEq, Repr

/-- An empty staging buffer. -/
def MHeld.start : MHeld := ⟨[], 0, []⟩

/-- Values of elements up to the first fault: the values and the fault with the number of the element. Each element comes
with the bytes that its segment covers; the first ones' values may stand in the staging buffer. -/
def readElems (o : MoveOp) (rd : MRead) (wr : List Int → MElem → Option MFault) :
    List MVal → List (MElem × List Int) → Nat → List MVal × Option (Nat × MFault)
  | _, [], _ => ([], none)
  | hs, (e, cov) :: es, k =>
    match (match hs with | x :: _ => Except.ok x | [] => o.value rd e) with
    | .error c => ([], some (k, c))
    | .ok x =>
      match wr cov e with
      | some c => ([], some (k, c))
      | none => let r := readElems o rd wr hs.tail es (k + 1); (x :: r.1, r.2)

/-- Values of elements read ahead of their writing, up to the first that cannot be read. -/
def readAhead (o : MoveOp) (rd : MRead) : List MElem → List MVal
  | [] => []
  | e :: es => match o.value rd e with | .ok x => x :: readAhead o rd es | .error _ => []

/-- The block of a scaled destination that an element belongs to: each slice forms its own, unless blocks run along the
GATHER_AXIS (R230, R231, R237). -/
def MoveOp.blockKey (o : MoveOp) (e : MElem) : Int × Nat :=
  (o.dst.scaleAt e.dst, match o.ix with | some i => if i.gaxis = o.dst.axis0 then 0 else e.slice | none => 0)

/-- The blocks of elements, in the order in which they are met. -/
def blockKeys (o : MoveOp) (es : List MElem) : List (Int × Nat) := (es.map o.blockKey).eraseDups

/-- Writes of elements converted in order without scales; a raw move writes its codes. -/
def plainWrites (o : MoveOp) (key : Nat) : List (MElem × MVal) → Nat → List MWrite × Tally × Nat
  | [], c => ([], {}, c)
  | (e, x) :: r, c =>
    let w : MWrite × Tally × Nat :=
      if o.kind = 3 then (⟨o.dst.bitAt e.dst, 32, toF32 x.val, true⟩, {}, c)
      else if o.raw then (⟨o.dst.bitAt e.dst, o.dst.w, x.code, false⟩, {}, c)
      else
        let y := convert x.fmt o.dst.fmt x.val (if o.rnd then .stoch (streamDraw key c) else .rne) o.ovf
        (⟨o.dst.bitAt e.dst, o.dst.w, y.1, false⟩, y.2, if o.rnd then (c + 1) % 2 ^ 128 else c)
    let q := plainWrites o key r w.2.2
    (w.1 :: q.1, w.2.1.plus q.2.1, q.2.2)

/-- Of elements that name one destination position, the last (R230). -/
def lastOf (o : MoveOp) : List (MElem × MVal) → List (MElem × MVal)
  | [] => []
  | x :: r => if r.any fun y => o.dst.bitAt y.1.dst == o.dst.bitAt x.1.dst then lastOf o r else x :: lastOf o r

/-- Writes of one block of a scaled destination: every element and its scale (R40, R41, R231). -/
def blockWrites (o : MoveOp) (es : List (MElem × MVal)) (k : Int × Nat) : List MWrite × Tally :=
  let mine := lastOf o (es.filter fun x => o.blockKey x.1 == k)
  let b := scaleBlock o.dst.fmt (scaleFmtOf o.dst.scale) o.ovf (mine.map (·.2.val))
  (⟨8 * k.1, 8, b.1, false⟩ :: List.zipWith (fun (x : MElem × MVal) c => ⟨o.dst.bitAt x.1.dst, o.dst.w, c, false⟩) mine b.2.1, b.2.2)

/-- Writes of a list of whole units. -/
def unitWrites (o : MoveOp) (key c : Nat) (es : List (MElem × MVal)) : List MWrite × Tally × Nat :=
  if o.dst.scale = 0 then plainWrites o key es c
  else if o.raw then
    -- codes and scale codes unchanged; a zero slice takes scale 0 (R231)
    (es.flatMap fun x => [⟨o.dst.bitAt x.1.dst, o.dst.w, x.2.code, false⟩, ⟨8 * o.dst.scaleAt x.1.dst, 8, x.2.sc, false⟩], {}, c)
  else
    let r := (blockKeys o (es.map (·.1))).map (blockWrites o es)
    (r.flatMap (·.1), r.foldl (fun t x => t.plus x.2) {}, c)

/-- Units of a move, between which it may stop: the elements of a COPY, the requests of a gather or scatter (R235). -/
def MoveOp.units (o : MoveOp) : Nat :=
  match o.ix with
  | none => (copyElems o).length
  | some i => cdiv (i.extentOf 0) 16

/-- The elements of a run from `p` on that stand before a fault at element `k` of the run (R237): of a COPY those of whole
segments before it, else those of whole requests. -/
def standing (o : MoveOp) (ends : List (Nat × List MElem)) (es : List MElem) (p k : Nat) : Nat :=
  if o.kind = 0 then
    (match ends.find? fun s => decide (s.1 ≤ p + k) && decide (p + k < s.1 + s.2.length) with
     | some s => s.1 - p
     | none => k)
  else
    match es[k]? with
    | some e => (es.filter fun x => decide (x.req < e.req)).length
    | none => es.length

/-- Run a checked move from position `p` to position `q`, with what stands in its staging buffer before (R224 to R232, R235,
R237): `wr` answers the fault of writing an element whose segment covers given bytes. At most `lim` elements are written. -/
def moveRun (o : MoveOp) (rd : MRead) (wr : List Int → MElem → Option MFault) (key ctr : Nat) (h : MHeld) (p q : Nat) (lim : Option Nat) : MDone :=
  let pl := o.plan rd p q
  let lo := if o.kind = 0 then p else h.done
  let ends := segEnds 0 (segments o (h.elems ++ pl.elems))
  let all := ends.flatMap fun s => let cov := o.covered s.2; s.2.map fun e => (e, cov)
  let part := (if o.kind = 0 then all.take q else all).drop lo
  let es := part.map (·.1)
  let r := readElems o rd wr h.vals part 0
  let upto := match r.2 with | none => min (lim.getD es.length) es.length | some (k, _) => standing o ends es lo k
  let w := unitWrites o key ctr (List.zip (es.take upto) (r.1.take upto))
  let reqs := match r.2 with
    | some (k, _) => (match es[k]? with | some e => pl.bad.filter (fun q => decide (q < e.req)) | none => pl.bad)
    | none => pl.bad
  ⟨w.1, (ends.map fun s => o.covered ((s.2.take (lo + upto - s.1)).drop (lo - s.1))).filter (!·.isEmpty),
    (match r.2 with | some (_, c) => some c | none => pl.fault.map (·.2)), w.2.2, w.2.1,
    countIf (fun s => narrow64 o s.2 && decide (lo < s.1 + s.2.length) && decide (s.1 + s.2.length ≤ lo + upto)) ends, reqs.length⟩

/-- The numbers of elements after which a move of `es` offers a suspension point (R235): after 2 KiB of the wider element, after
every access, since the move may wait for a reply there, and at the end; a block of a scaled destination is not cut, nor one
that goes on in the elements `later` (DEDUCED, log 109). -/
def MoveOp.pointsOf (o : MoveOp) (es later : List MElem) : List Nat :=
  let ends := (segEnds 0 (segments o es)).map fun s => s.1 + s.2.length
  let w := max o.src.w o.dst.w
  let whole (n : Nat) : Bool :=
    o.dst.scale == 0 || !((es.drop n ++ later).any fun e => (es.take n).any fun d => o.blockKey d == o.blockKey e)
  (List.range (es.length + 1)).filter fun n =>
    whole n && decide (0 < n) && (ends.contains n || decide ((n - 1) * w / 16384 < n * w / 16384) || n == es.length)

/-- Where a move stands that stops: its position and its staging buffer, and what it did before. -/
structure MStop where
  /-- Position. -/
  pos : Nat
  /-- Staging buffer. -/
  held : MHeld
  /-- What it did. -/
  did : MDone

/-- Elements of a side's width that the 32 KiB staging buffer takes (R232). -/
def MoveOp.staged (o : MoveOp) : Nat := 262144 / max o.src.w o.dst.w

/-- A move stops at one of its suspension points from `p` on (R235): `a` picks the requests that a gather or scatter takes
besides, `b` the point, and `c` how many elements beyond it have been read into the staging buffer. -/
def moveStop (o : MoveOp) (rd : MRead) (wr : List Int → MElem → Option MFault) (key ctr : Nat) (h : MHeld) (p a b c : Nat) : MStop :=
  if o.kind = 0 then
    let es := copyElems o
    let ps := p :: (o.pointsOf es []).filter fun k => decide (p < k)
    let q := nth p ps (b % ps.length)
    let ahead := c % (o.staged + 1)
    ⟨q, ⟨[], 0, (h.vals.drop (q - p)) ++ readAhead o rd (((es.drop (q + (h.vals.length - (q - p))))).take ahead)⟩,
      moveRun o rd wr key ctr h p q none⟩
  else
    let q := p + a % (o.units - p + 1)
    let es := h.elems ++ (o.plan rd p q).elems
    let ps := h.done :: (o.pointsOf es (o.plan rd q (q + 2)).elems).filter fun k => decide (h.done < k)
    let k := nth h.done ps (b % ps.length)
    let r := moveRun o rd wr key ctr h p q (some (k - h.done))
    let known := h.vals.drop (k - h.done)
    let vals := known ++ readAhead o rd ((es.drop (k + known.length)).take (c % (o.staged + 1)))
    ⟨q, if k = es.length then MHeld.start else ⟨es, k, vals⟩, r⟩

end Sys2Proof.Machine
end

