-- ==== Sys2Proof/Syntax.lean ====
section
/-!
DEFINITION. The commands of the Kravo T1: one constructor per row of the opcode table, with the row's operands.
Tile words carry the tile, the context that issues them (Vesper or Noon, R165) and the raw 128-bit word (R161);
fabric operations carry the frame (R242-R247); host messages carry the datagram's header as received and their
payload fields (R372-R376); commands that report a physical event carry what was observed.
-/
namespace Sys2Proof

/-- A signal extension (Table 10-4). -/
structure SigExt where
  /-- COUNT_REF of R171. -/
  countRef : BitVec 32
  /-- INCREMENT. -/
  increment : BitVec 32
  /-- BYTES of the whole transfer. -/
  bytes : BitVec 32
  deriving DecidableEq, Repr

/-- A Delhorn frame: header of Table 10-3, signal extension and payload (R242). -/
structure Frame where
  /-- OP of Table 10-5. -/
  op : BitVec 4
  /-- CLASS: Vesper. -/
  vesper : Bool
  /-- CHANNEL. -/
  channel : BitVec 5
  /-- The signal extension where SIG = 1. -/
  sig : Option SigExt
  /-- LAST. -/
  last : Bool
  /-- NONMIN. -/
  nonmin : Bool
  /-- HOPS. -/
  hops : BitVec 3
  /-- DST, a hall number. -/
  dst : BitVec 14
  /-- SRC, a hall number. -/
  src : BitVec 14
  /-- JOB_ID. -/
  job : BitVec 16
  /-- SEQ_RESET. -/
  seqReset : Bool
  /-- DETOUR. -/
  detour : Bool
  /-- Some reserved bit of the header or extension is not zero. -/
  reserved : Bool
  /-- ADDR. -/
  addr : BitVec 64
  /-- XFER_ID. -/
  xfer : BitVec 24
  /-- LENGTH as the header states it. -/
  length : BitVec 13
  /-- VARIANT. -/
  variant : BitVec 9
  /-- CHAN_SEQ. -/
  chanSeq : BitVec 16
  /-- XFER_OFFSET. -/
  offset : BitVec 23
  /-- Of an ACCUMULATE: how many granules of a bucket its whole transfer covers, as its sender has fixed it (R301, R303). No
  field of the header carries it (log 125); 0 says nothing. -/
  covers : Nat := 0
  /-- AUX. -/
  aux : BitVec 32
  /-- LINK_SEQ. -/
  linkSeq : BitVec 16
  /-- ACK_VESPER. -/
  ackVesper : BitVec 16
  /-- ACK_NOON. -/
  ackNoon : BitVec 16
  /-- ACK_VALID. -/
  ackValid : Bool
  /-- The payload bytes. -/
  payload : List Byte
  deriving DecidableEq, Repr

/-- Bytes 0 to 21 of a fabric frame (Table 10-2): MAC addresses, SecTAG and inner EtherType. -/
structure EthHdr where
  /-- Destination MAC address. -/
  dst : BitVec 48
  /-- Source MAC address. -/
  src : BitVec 48
  /-- EtherType of the SecTAG. -/
  tagType : BitVec 16
  /-- TCI. -/
  tci : BitVec 6
  /-- AN (R412). -/
  an : BitVec 2
  /-- SL. -/
  sl : Byte
  /-- The low 32 bits of the packet number. -/
  pn : BitVec 32
  /-- Inner EtherType. -/
  inner : BitVec 16
  deriving DecidableEq, Repr

/-- A frame as it arrives on a port (R242, R257, R266): its headers in clear, the frame to which its bytes decipher under the key
that the SecTAG names, its ICV and FCS, and what the PHY found. -/
structure RxFrame where
  /-- Bytes 0 to 21. -/
  hdr : EthHdr
  /-- The rest. -/
  frame : Frame
  /-- The FEC has delivered the frame correctly, or has corrected it (R266). -/
  fecOk : Bool
  /-- The 16 bytes of the ICV as received, first byte lowest. -/
  icv : BitVec 128
  /-- The 4 bytes of the FCS as received, first byte lowest. -/
  fcs : BitVec 32
  /-- Codewords the FEC corrected. -/
  corrected : Nat
  /-- The receive crossing of the port was full (R453). -/
  overrun : Bool
  deriving DecidableEq, Repr

/-- An exit port's turn to send (R262): the port, 42 for the service link, and whether its transmit crossing ran empty in the
middle of the frame (R453). -/
structure TxTurn where
  port : Fin 43
  underrun : Bool
  deriving DecidableEq, Repr

/-- A reading of the blade voltage in 0.1 V, and whether it has stood outside 40 to 60 V for more than 1 ms (R370, R458). -/
structure VoltReading where
  volts : Nat
  lasted : Bool
  deriving DecidableEq, Repr

/-- A stalled crossing (R455): its island, numbered 0 to 41 for the ports, 42 for the service link, 43 to 618 for the channels, 619
for the flash and 620 for the timer, and whether the crossing out of the island holds the item. -/
structure Stall where
  crossing : Nat
  out : Bool
  deriving DecidableEq, Repr

/-- What an MKA frame of the key server brings (R413): the name of the CAK and the SAK; with the bytes of the frame and the
codewords the FEC corrected (R271). -/
structure MkaKey where
  ckn : BitVec 128
  sak : BitVec 256
  bytes : Nat
  corrected : Nat
  deriving DecidableEq, Repr

/-- How a beat comes from the DRAM against its code word (R193): which of its 36 symbols are in error (symbol i comes on
wires 8i to 8i + 7), and whether the DRAM delivered it from a wrong address. -/
structure BeatErr where
  /-- The symbols in error. -/
  symbols : List (Fin 36)
  /-- It is a beat of another address. -/
  wrongAddress : Bool
  deriving DecidableEq, Repr

/-- What a request to a channel does (R189, R195, R211, R212). -/
inductive ChOp where
  /-- Read `n` bytes. -/
  | read (n : Nat)
  /-- Write these bytes. -/
  | write (data : List Byte)
  /-- Add these FP32 patterns into consecutive sums (R211). -/
  | accumulate (xs : List (BitVec 32))
  /-- An atomic of Table 07-19 with operand and CAS store value (R212). -/
  | atomic (aop : BitVec 4) (operand store : BitVec 64)
  deriving DecidableEq, Repr

/-- A request that waits at a channel controller (R189). -/
structure ChReq where
  /-- Class Vesper. -/
  vesper : Bool
  /-- Requester number in the rotation of its class. -/
  requester : Nat
  /-- Byte offset within the channel. -/
  addr : BitVec 32
  /-- What it does. -/
  op : ChOp
  /-- How the beats that it reads come from the DRAM, in order; one beyond the list comes without error. -/
  errors : List BeatErr
  /-- The task that issued it, if a tile's task did: tile and class. -/
  task : Option (TileId × Bool)
  /-- How often the read-data crossing overran on it (R453). -/
  overruns : Fin 3
  deriving DecidableEq, Repr

/-- A KHT datagram as received: its way (R371), its header (Table 15-1), and the bytes that follow the header (R372). -/
structure KHdr where
  /-- 0: P40; 1: P41; 2: the service link (R375). -/
  port : Fin 3
  /-- Source IPv6 address. -/
  source : BitVec 128
  /-- Source UDP port. -/
  sourcePort : BitVec 16
  /-- Destination IPv6 address. -/
  dest : BitVec 128
  /-- Destination UDP port. -/
  destPort : BitVec 16
  /-- The next header that the IPv6 header names: 17 is UDP; an extension or fragment header has a number of its own. -/
  next : Byte
  /-- The UDP checksum as received. -/
  checksum : BitVec 16
  /-- Codewords the FEC of the port corrected. -/
  corrected : Nat
  /-- The receive crossing of the port was full (R453). -/
  overrun : Bool
  /-- VERSION. -/
  version : Byte
  /-- TYPE. -/
  type : Byte
  /-- Word 0 [31:16], reserved. -/
  res0 : BitVec 16
  /-- CONN_ID. -/
  conn : BitVec 32
  /-- SEQ. -/
  seq : BitVec 64
  /-- ACK. -/
  ack : BitVec 64
  /-- LENGTH. -/
  length : BitVec 16
  /-- WINDOW. -/
  window : BitVec 11
  /-- Word 3 [63:27], reserved. -/
  res3 : BitVec 37
  /-- PKT_NUM. -/
  pktNum : BitVec 64
  /-- What follows the header, byte by byte: the sealed payload and its tag; of an OPEN, its payload. -/
  body : List Byte
  deriving DecidableEq, Repr

/-- What is read of a die's or stack's sensor, in degrees Celsius. -/
abbrev Celsius := Int

/-- The physical conditions of a start (R456 to R461, R474): what the pins, sensors and PHYs show. -/
structure PowerIn where
  /-- Blade voltage in units of 0.1 V. -/
  volts : Nat
  /-- The feed strap (R474). -/
  feedStrap : BitVec 4
  /-- The slot presence strap (R474). -/
  slotPresent : Bool
  /-- The channels whose PHY trains (R461). -/
  channelsFailed : List TileId
  /-- The boot ROM's digest check and the supplies pass (rows 1 to 3). -/
  coreOk : Bool
  /-- The banks, A false and B true, at whose reading the flash returns an error (Table 17-14, cause READ_ERROR). -/
  readErrors : List Bool
  deriving DecidableEq, Repr

/-- The commands: one constructor per row of spec/opcode_table.json, in the table's order. -/
inductive Instr where
  -- tile words
  | nop (t : TileId) (v : Bool) (w : BitVec 128)
  | endTask (t : TileId) (v : Bool) (w : BitVec 128) (waves : BitVec 64)
  | set (t : TileId) (v : Bool) (w : BitVec 128)
  | alu (t : TileId) (v : Bool) (w : BitVec 128)
  | branch (t : TileId) (v : Bool) (w : BitVec 128)
  | loop (t : TileId) (v : Bool) (w : BitVec 128)
  | loadS (t : TileId) (v : Bool) (w : BitVec 128)
  | storeS (t : TileId) (v : Bool) (w : BitVec 128)
  | matmul (t : TileId) (v : Bool) (w : BitVec 128)
  | accMove (t : TileId) (v : Bool) (w : BitVec 128)
  | accStatus (t : TileId) (v : Bool) (w : BitVec 128)
  | pass (t : TileId) (v : Bool) (w : BitVec 128)
  | sfnBatch (t : TileId) (v : Bool) (w : BitVec 128)
  | carryCompose (t : TileId) (v : Bool) (w : BitVec 128)
  | rowstatCombine (t : TileId) (v : Bool) (w : BitVec 128)
  | rowstatFinalise (t : TileId) (v : Bool) (w : BitVec 128)
  | instarLoad (t : TileId) (v : Bool) (w : BitVec 128)
  | moveCopy (t : TileId) (v : Bool) (w : BitVec 128)
  | moveGather (t : TileId) (v : Bool) (w : BitVec 128)
  | moveScatter (t : TileId) (v : Bool) (w : BitVec 128)
  | moveScatterAdd (t : TileId) (v : Bool) (w : BitVec 128)
  | putWord (t : TileId) (v : Bool) (w : BitVec 128)
  | getWord (t : TileId) (v : Bool) (w : BitVec 128)
  | accumulateWord (t : TileId) (v : Bool) (w : BitVec 128)
  | atomicWord (t : TileId) (v : Bool) (w : BitVec 128)
  | multicastWord (t : TileId) (v : Bool) (w : BitVec 128)
  | signalWord (t : TileId) (v : Bool) (w : BitVec 128)
  | countWait (t : TileId) (v : Bool) (w : BitVec 128)
  | barrierArrive (t : TileId) (v : Bool) (w : BitVec 128)
  | barrierWait (t : TileId) (v : Bool) (w : BitVec 128)
  | hostSignal (t : TileId) (v : Bool) (w : BitVec 128)
  | hostWait (t : TileId) (v : Bool) (w : BitVec 128)
  | enqueue (t : TileId) (v : Bool) (w : BitVec 128)
  | queueState (t : TileId) (v : Bool) (w : BitVec 128)
  -- tiles, sequencers and packages
  | engineWordComplete (t : TileId) (v : Bool) (engine : Fin 4) (waves : Nat)
  | kernelReady (d : DieId) (tag : Nat) (kernel : BitVec 16)
  | sequencerWrite (d : DieId) (tag : Nat) (kernel : BitVec 16) (index : Nat)
  | taskTake (t : TileId)
  | stealProbe (t : TileId)
  | probeServe (victim thief : TileId)
  | vesperSuspend (t : TileId)
  | noonResume (t : TileId)
  | suspendOverrun (t : TileId)
  | wakeWire (t : TileId) (wire : Fin 6)
  | retentionEntry (t : TileId)
  | retentionWakeFailure (t : TileId)
  | statusRefresh (block : Fin 12) (ms : Bool) (busy : List (Nat × Nat))
  | packageStart (tag : Nat)
  | stepStart (tag : Nat)
  | layerFlip (tag : Nat) (layer : Nat)
  | packageComplete (tag : Nat)
  -- stacked memory
  | channelRequest (ch : TileId) (waiting : List ChReq)
  | refresh (ch : TileId) (bank : Nat) (overdue : Bool)
  | patrolScrub (ch : TileId) (error : BeatErr)
  | channelFail (ch : TileId)
  | stackSensorRead (stack : Fin 24) (a b : Celsius)
  | thermalHoldRelease
  -- fabric
  | frameReceive (p : PortId) (rx : RxFrame)
  | frameForward (p : PortId)
  | frameTransmit (x : TxTurn)
  | writeFrame (p : PortId) (f : Frame)
  | readFrame (p : PortId) (f : Frame)
  | readDataFrame (p : PortId) (f : Frame)
  | accumulateFrame (p : PortId) (f : Frame)
  | atomicFrame (p : PortId) (f : Frame)
  | atomicDataFrame (p : PortId) (f : Frame)
  | signalFrame (p : PortId) (f : Frame)
  | barrierArriveFrame (p : PortId) (f : Frame)
  | barrierReleaseFrame (p : PortId) (f : Frame)
  | multicastFrame (p : PortId) (f : Frame)
  | noticeFault (p : PortId) (f : Frame)
  | noticeLate (p : PortId) (f : Frame)
  | noticeHealth (p : PortId) (f : Frame)
  | ackFrame (p : PortId) (f : Frame)
  | errorFrame (p : PortId) (f : Frame)
  | fenceFrame (p : PortId) (f : Frame)
  | linkCtrlCredit (p : PortId) (f : Frame)
  | linkCtrlIdentity (p : PortId) (f : Frame)
  | linkCtrlEcho (p : PortId) (f : Frame)
  | linkCtrlNak (p : PortId) (f : Frame)
  | linkCtrlPortStates (p : PortId) (f : Frame)
  | linkCtrlFenceDone (p : PortId) (f : Frame)
  | creditReturn (p : PortId)
  | linkUp (p : PortId)
  | linkDown (p : PortId)
  | ackStall (p : PortId)
  | trainingAttempt (p : PortId)
  | linkRestore (p : PortId)
  | quarantineEnd (p : PortId)
  | transferTimeout (xfer : Nat)
  | rekeyStart (p : PortId)
  | rekeyFailed (p : PortId)
  | oldSaRetire (p : PortId)
  -- synchronisation
  | countIncrement (job : BitVec 16) (ref : BitVec 32) (inc : BitVec 32)
  | barrierTimeout (job : BitVec 16) (slot : Fin 64)
  | signalOut (job : BitVec 16)
  -- gradient exchange
  | bucketDeadline (job : BitVec 16) (bucket : Nat)
  | stepCloseLimit (job : BitVec 16)
  | checkGrace (job : BitVec 16) (bucket : Nat)
  | checkCompare (job : BitVec 16) (bucket : Nat)
  | verdictRound (job : BitVec 16)
  | verdictForm (job : BitVec 16)
  | verdictReceive (job : BitVec 16)
  | bucketClear (job : BitVec 16) (bucket : Nat)
  -- state securing
  | generationPrepare (job : BitVec 16)
  | parityFold (job : BitVec 16)
  | generationCommit (job : BitVec 16)
  | generationPromote (job : BitVec 16)
  | healthTick
  | restoreGather (job : BitVec 16)
  | restoreApply (job : BitVec 16)
  | spareRefill (job : BitVec 16)
  | restoreReload (job : BitVec 16)
  | evalWindowOpen (job : BitVec 16)
  | evalWindowClose (job : BitVec 16)
  | evalWindowOverrun (job : BitVec 16)
  -- power and arbitration
  | monarchWindow (energies : List (Nat × Nat)) (fixed : Nat)
  | grantExhausted (t : TileId)
  | supplyStep (d : DieId)
  | logicSensorRead (d : DieId) (temp : Celsius)
  | heatGrantHalve (d : DieId)
  | supplyUnder (d : DieId)
  | inputOutOfRange (reading : VoltReading)
  | bladeSense (a b : Nat)
  | bladePairLost (pair : Fin 2)
  | bladePairRestored (pair : Fin 2)
  | lateTimer (tag : Nat)
  | arbiterRequest (arb : Fin 16) (rank : Fin 4) (requester : Nat) (units : Nat)
  | arbiterGrant (arb : Fin 16)
  -- hosts
  | openConn (h : KHdr) (role : Byte) (hostEphemeral hostKey : BitVec 256) (nonce : BitVec 128) (sig : BitVec 512)
  | openPendingExpiry (conn : BitVec 32)
  | closeConn (h : KHdr)
  | khtAck (h : KHdr)
  | khtRetransmit (conn : BitVec 32) (seq : BitVec 64)
  | khtIdleTimeout (conn : BitVec 32)
  | khtIdleAck (conn : BitVec 32)
  | submit (h : KHdr) (packageId : BitVec 8) (offset : BitVec 26) (total : BitVec 27) (data : List Byte)
  | abandon (h : KHdr) (packageId : BitVec 8) (job : BitVec 16)
  | khtPut (h : KHdr) (job : BitVec 16) (addr : BitVec 64) (data : List Byte)
  | khtGet (h : KHdr) (job : BitVec 16) (addr : BitVec 64) (bytes : BitVec 21)
  | signalIn (h : KHdr) (job : BitVec 16) (kind : Bool) (number : BitVec 16) (w1 : BitVec 64)
  | statusRead (h : KHdr) (offset : BitVec 16) (words : BitVec 10)
  | attest (h : KHdr) (challenge : BitVec 256) (job : BitVec 16)
  | keyReleaseWeightKey (h : KHdr) (job : BitVec 16) (slot : BitVec 8) (blob : List Byte)
  | keyReleaseUnseal (h : KHdr) (job : BitVec 16) (slot : BitVec 8) (blob : List Byte)
  | keyReleaseTenantGrant (h : KHdr) (job : BitVec 16) (slot : BitVec 8) (blob : List Byte)
  | zeroingComplete
  | imagoRequest (h : KHdr) (job : BitVec 16) (scope : Bool) (recipient : BitVec 256)
  | unlockLevel1 (h : KHdr) (password : List Byte)
  | unlockLevel2Request (h : KHdr)
  | unlockLevel2Response (h : KHdr) (key : BitVec 256) (sig : BitVec 512)
  | unlockExpiry (conn : BitVec 32)
  | lockoutEnd
  | hostQuarantineEnd (source : BitVec 128)
  | icmpv6Request (port : Fin 2) (echo : Bool) (data : List Byte)
  | stage (h : KHdr) (offset total : BitVec 28) (data : List Byte)
  | flashOpComplete (ok : Bool)
  -- islands, start and logs
  | crossingStall (stall : Stall)
  | powerOn (p : PowerIn)
  | startRowOverrun (row : Fin 8)
  | ready
  | powerLoss
  | moduleReset
  | watchdogReset
  | logWrite
  | logReplayAdvance
  | trainingAttemptFailed (p : PortId)
  | identityExchangeTick (p : PortId)
  | unsealComplete (job : BitVec 16)
  | dieLost (d : DieId)
  | sequencerControlMessage (d : DieId) (tag : Nat)
  | mkaFrame (port : Fin 2) (an : BitVec 2) (key : MkaKey)
  deriving DecidableEq, Repr

end Sys2Proof
end

