-- ==== Sys2Proof/Machine/State.lean ====
section
/-!
DEFINITION. The state of the module: every register, memory, queue, counter, mode and pin the spec gives it, as
plain data, with the queue of waiting commands; and the state right after reset. INVENTORY.md lists each field with
the rule that names it and its reset value.
-/
namespace Sys2Proof.Machine

/-- The ways the model stops with a fault: none is ever raised. -/
inductive Fault where
  /-- Raised by no command: every fault of the spec is an effect on the state (R479). Safe: nothing raises it. -/
  | none
  deriving DecidableEq, Repr

/-- Why the model gives a command no next state. -/
inductive Refusal where
  /-- Raised by an arm of `exec` whose command has no meaning yet. Safe. -/
  | notModelled (mnemonic : String)
  /-- Raised by a command one of whose operands lies outside the field it names, so that no such event exists. Safe. -/
  | illFormed
  deriving DecidableEq, Repr

/-- The Septia fields in force (Tables 17-5 to 17-12). -/
structure Cfg where
  /-- HALL_POSITION, or none where it is invalid. -/
  hallPos : Option (Nat × Nat × Nat × Nat)
  /-- DIM_SIZE of A to D. -/
  dimSize : Nat × Nat × Nat × Nat
  /-- VESPER_SHARE in 0.5 %. -/
  vesperShare : Nat
  /-- NONMIN_THRESHOLD in percent. -/
  nonminThreshold : Nat
  /-- E2E_TIMEOUT in ms. -/
  e2eTimeout : Nat
  /-- QUARANTINE_LIMIT. -/
  quarantineLimit : Nat
  /-- CROSS_DIE_MIN. -/
  crossDieMin : Nat
  /-- STEAL_WAKE_THRESHOLD. -/
  stealWake : Nat
  /-- VESPER_STEAL_LIMIT in waves. -/
  vesperStealLimit : Nat
  /-- RETENTION_HOLDOFF in waves. -/
  retentionHoldoff : Nat
  /-- BARRIER_TIMEOUT in ms. -/
  barrierTimeout : Nat
  /-- LOSS_SCALE_SEED, an exponent. -/
  lossSeed : Int
  /-- LOSS_SCALE_MIN, an exponent. -/
  lossMin : Int
  /-- LOSS_SCALE_MAX, an exponent. -/
  lossMax : Int
  /-- LOSS_SCALE_INTERVAL. -/
  lossInterval : Nat
  /-- SKIP_LIMIT. -/
  skipLimit : Nat
  /-- DEADLINE_SEED in ms. -/
  deadlineSeed : Nat
  /-- DEADLINE_FLOOR in 0.1 ms. -/
  deadlineFloor : Nat
  /-- CHECK_GRACE in 0.1 ms. -/
  checkGrace : Nat
  /-- STEP_CLOSE_LIMIT in ms. -/
  stepCloseLimit : Nat
  /-- MIRROR_SIZE_MAX in MiB. -/
  mirrorSizeMax : Nat
  /-- MIRROR_CHANGE_MIN in percent. -/
  mirrorChangeMin : Nat
  /-- NIGHT_INTERVAL. -/
  nightInterval : Nat
  /-- DAY_INTERVAL. -/
  dayInterval : Nat
  /-- DUSK_INTERVAL. -/
  duskInterval : Nat
  /-- RISK_SEED. -/
  riskSeed : Nat
  /-- RISK_HALF_LIFE in s. -/
  riskHalfLife : Nat
  /-- DUSK_THRESHOLD. -/
  duskThreshold : Nat
  /-- NIGHT_THRESHOLD. -/
  nightThreshold : Nat
  /-- LEVEL_HOLD in s. -/
  levelHold : Nat
  /-- EVAL_WINDOW_LIMIT in s. -/
  evalLimit : Nat
  /-- FEED_MAP by hall number; an unlisted entry is 15. -/
  feedMap : Sp Nat
  /-- HOST_ADDRESS_P40, or none where invalid. -/
  addr40 : Option (BitVec 128)
  /-- HOST_ADDRESS_P41, or none where invalid. -/
  addr41 : Option (BitVec 128)
  /-- KHT_UDP_PORT. -/
  udpPort : Nat
  /-- KHT_IDLE_TIMEOUT in s. -/
  idleTimeout : Nat
  /-- KHT_RETRY_LIMIT. -/
  retryLimit : Nat
  /-- HOST_QUARANTINE_LIMIT. -/
  hostQuarantine : Nat
  /-- Valid OPERATOR_KEYS. -/
  operatorKeys : List (BitVec 256)
  /-- Valid SERVICE_KEYS. -/
  serviceKeys : List (BitVec 256)
  /-- UNLOCK_FAIL_LIMIT. -/
  unlockFailLimit : Nat
  /-- REKEY_PACKETS. -/
  rekeyPackets : Nat
  /-- REKEY_INTERVAL in s. -/
  rekeyInterval : Nat
  /-- UNLOCK_LIFETIME in s. -/
  unlockLifetime : Nat
  /-- SERVICE_PW_SALT. -/
  pwSalt : List Byte
  /-- SERVICE_PW_HASH. -/
  pwHash : List Byte
  /-- HALL_CAK_WRAP. -/
  hallCakWrap : List Byte
  /-- HOST_CAK_WRAP_P40. -/
  hostCak40 : List Byte
  /-- HOST_CAK_WRAP_P41. -/
  hostCak41 : List Byte
  /-- STRICT. -/
  strict : Bool
  /-- IMAGE_LABEL. -/
  label : List Byte
  /-- POWER_LIMIT in W. -/
  powerLimit : Nat
  /-- VESPER_POWER_SHARE in 0.5 %. -/
  vesperPowerShare : Nat
  /-- VESPER_TILE_SHARE in 0.5 %. -/
  vesperTileShare : Nat
  /-- MONARCH_SEED in 0.1 W. -/
  monarchSeed : Nat
  /-- DIE_SUPPLY_START in mV. -/
  supplyStart : Nat
  /-- COST_CAL_SEED in hundredths. -/
  calSeed : Nat
  /-- COST_CAL_MAX in hundredths. -/
  calMax : Nat
  deriving DecidableEq, Repr

/-- Every field at its default; a field without one is invalid (R442). -/
def Cfg.start : Cfg :=
  { hallPos := none, dimSize := (11, 11, 11, 11), vesperShare := 25, nonminThreshold := 50, e2eTimeout := 100,
    quarantineLimit := 256, crossDieMin := 8, stealWake := 4, vesperStealLimit := 4096, retentionHoldoff := 4096,
    barrierTimeout := 100, lossSeed := 16, lossMin := 0, lossMax := 24, lossInterval := 1000, skipLimit := 16,
    deadlineSeed := 50, deadlineFloor := 50, checkGrace := 20, stepCloseLimit := 60000, mirrorSizeMax := 64,
    mirrorChangeMin := 25, nightInterval := 1, dayInterval := 64, duskInterval := 8, riskSeed := 0, riskHalfLife := 3600,
    duskThreshold := 100, nightThreshold := 400, levelHold := 600, evalLimit := 60, feedMap := [], addr40 := none,
    addr41 := none, udpPort := 45541, idleTimeout := 30, retryLimit := 8, hostQuarantine := 256, operatorKeys := [],
    serviceKeys := [], unlockFailLimit := 5, rekeyPackets := 2 ^ 48, rekeyInterval := 86400, unlockLifetime := 3600,
    pwSalt := [], pwHash := [], hallCakWrap := [], hostCak40 := [], hostCak41 := [], strict := false, label := [],
    powerLimit := 2000, vesperPowerShare := 25, vesperTileShare := 50, monarchSeed := 15, supplyStart := 600,
    calSeed := 110, calMax := 200 }

/-- A task descriptor: four words of Table 03-3. -/
structure Desc where
  /-- Word 0. -/
  w0 : W64
  /-- Word 1, PROGRAM. -/
  w1 : W64
  /-- Word 2, ARGS. -/
  w2 : W64
  /-- Word 3. -/
  w3 : W64
  deriving DecidableEq, Repr

/-- The record-operation block of Table 07-15. -/
structure RecBlock where
  /-- X_MODE. -/
  xMode : Nat
  /-- Y_MODE. -/
  yMode : Nat
  /-- NORM_KIND is RMS. -/
  rms : Bool
  /-- N. -/
  n : Nat
  /-- TAG. -/
  tag : Nat
  /-- X_ADDR. -/
  x : Nat
  /-- Y_ADDR. -/
  y : Nat
  /-- DEST. -/
  dest : Nat
  /-- X_WAIT. -/
  xWait : Nat
  /-- X_TARGET. -/
  xTarget : Nat
  /-- Y_WAIT. -/
  yWait : Nat
  /-- Y_TARGET. -/
  yTarget : Nat
  /-- RAISE_COUNT. -/
  raise : Nat
  /-- EPS. -/
  eps : Nat
  deriving DecidableEq, Repr

/-- The operands of a remote word (Table 07-18), with the registers as it read them. -/
structure Remote where
  /-- REMOTE + S(XREG). -/
  addr : Nat
  /-- LOCAL. -/
  loc : Nat
  /-- S(LREG). -/
  len : Nat
  /-- LREG. -/
  lreg : Nat
  /-- S(CREG) where CREG is not 0. -/
  cnt : Nat
  /-- CHANNEL. -/
  ch : Nat
  /-- VARIANT. -/
  var : Nat
  /-- ATOMIC: S(VREG) and S(VREG + 1). -/
  vals : Nat × Nat
  deriving DecidableEq, Repr

/-- What an engine word does, with everything it read when it issued (R166, R167, R186). -/
inductive EngOp where
  | matmul (o : MatOp)
  | accMove (o : AccMove)
  | accStatus (dst : Nat)
  | pass (p : VPass)
  | compose (b : RecBlock)
  | combine (b : RecBlock)
  | finalise (b : RecBlock)
  | instar (slot addr : Nat)
  | move (o : MoveOp)
  | put (r : Remote)
  | get (r : Remote)
  | accumulate (r : Remote)
  | atomic (r : Remote)
  | multicast (r : Remote)
  | signal (r : Remote)
  deriving DecidableEq, Repr

/-- The engine that runs it (Table 07-2): 0 matrix, 1 vector, 2 move, 3 remote. -/
def EngOp.engine : EngOp → Fin 4
  | .matmul _ | .accMove _ | .accStatus _ => 0
  | .pass _ | .compose _ | .combine _ | .finalise _ | .instar _ _ => 1
  | .move _ => 2
  | .put _ | .get _ | .accumulate _ | .atomic _ | .multicast _ | .signal _ => 3

/-- An engine word of a task that has been accepted and is not complete (R162). -/
structure EngWord where
  /-- What it does. -/
  op : EngOp
  /-- Its byte offset within the program. -/
  off : BitVec 32
  /-- The halves of the banks, lower and upper, that it reads or writes (R96). -/
  halves : Bool × Bool
  /-- Its engine has begun it. -/
  begun : Bool
  /-- Its engine has done all of it; only replies may be outstanding. -/
  ran : Bool
  /-- Where it stands at a suspension point: rows, elements or requests taken, groups of 64 records (R99, R168, R235). -/
  pos : Nat
  /-- The staging buffer of a stopped move (R235). -/
  held : MHeld
  /-- Where a pass stands, and what its context holds (R133). -/
  pass : PassPos
  /-- The conditions of Table 02-5 it has met (R55). -/
  met : Tally
  /-- Accumulator elements that have saturated, at most four (R55). -/
  sat : List Nat
  /-- The Instar slots and generations that a pass has latched (R159). -/
  latched : List (Nat × Bool)
  /-- The transfers whose replies it awaits. -/
  waits : List Nat
  /-- Bytes of the records X and Y as read (R130, R132, R149). -/
  bufs : List Byte × List Byte
  /-- A MULTICAST: the code of the first ERROR to arrive (R248); 0: none. -/
  err : Nat
  deriving DecidableEq, Repr

/-- A word as its engine accepts it. -/
def EngWord.fresh (op : EngOp) (off : Nat) (halves : Bool × Bool) : EngWord :=
  ⟨op, BitVec.ofNat 32 off, halves, false, false, 0, MHeld.start, PassPos.start, {}, [], [], [], ([], []), 0⟩

/-- The engine that runs a word. -/
def EngWord.engine (w : EngWord) : Fin 4 := w.op.engine

/-- The control state of a running task in one of the two contexts of a tile (R165). -/
structure Ctx where
  /-- Its descriptor. -/
  desc : Desc
  /-- The job of its package. -/
  job : BitVec 16
  /-- Address of the next word. -/
  pos : W64
  /-- S1 to S15; an unlisted register is 0. -/
  regs : Sp W64
  /-- Incomplete engine words, oldest first. -/
  words : List EngWord
  /-- Epoch of the task's last arrival on each barrier slot (R288). -/
  arrivals : List (Nat × BitVec 16)
  /-- The arrival of a BARRIER_ARRIVE with AND_WAIT that waits for its release has been made (R288). -/
  arrived : Bool
  /-- The word at `pos` waits under R75: nothing issues until a wake wire fires. -/
  waiting : Bool
  /-- The barrier slot whose release the word at `pos` waits for (R288). -/
  onSlot : Option Nat
  deriving DecidableEq, Repr

/-- An Instar slot: two generations, empty or an image, and which is current (R158). -/
structure InstarSlot where
  /-- Generation 0. -/
  gen0 : List Byte
  /-- Generation 1. -/
  gen1 : List Byte
  /-- The current generation is 1. -/
  cur : Bool
  deriving DecidableEq, Repr

/-- A tile (Table 03-1). -/
structure TileState where
  /-- The task queue, oldest first (R63). -/
  queue : List Desc
  /-- The Noon task. -/
  noon : Option Ctx
  /-- The Vesper task. -/
  vesper : Option Ctx
  /-- The Noon task is suspended (R72). -/
  suspended : Bool
  /-- Tags and flags of the suspended task's banks, once they are in the save area (R72). -/
  save : Option MatState
  /-- The scratchpad. -/
  scratch : Mem
  /-- Banks, tags, flags and latch sets. -/
  mat : MatState
  /-- Instar slots; an unlisted slot is empty. -/
  slots : Sp InstarSlot
  /-- Key of the random stream (R54). -/
  streamK : BitVec 128
  /-- Counter of the random stream. -/
  streamC : BitVec 128
  /-- Isolated (R79). -/
  isolated : Bool
  /-- The code with which the tile was isolated (R79); 0: none. -/
  isoCode : Nat
  /-- In retention (R76). -/
  retained : Bool
  /-- A wake wire has fired at the tile in retention, and it has not issued since (R77). -/
  woken : Bool
  /-- The last probe order returned NONE; no wake wire since (R68). -/
  probed : Bool
  /-- ewma in uJ (R351); none: MONARCH_SEED * 10 us. -/
  ewma : Option Rat
  /-- The Noon grant of the running window in uJ (R349). -/
  grant : Rat
  /-- The tile has stopped on its grant in this window (R350). -/
  stopped : Bool
  deriving DecidableEq, Repr

/-- A tile in its start state (Table 18-4, R95, R158). -/
def TileState.start : TileState :=
  { queue := [], noon := none, vesper := none, suspended := false, save := none, scratch := [], mat := MatState.start,
    slots := [], streamK := 0, streamC := 0, isolated := false, isoCode := 0, retained := false, woken := false, probed := false, ewma := none,
    grant := 0, stopped := false }

/-- The stacked memory: channels, code state, repair, refresh and heat (R187 to R201). -/
structure MemState where
  /-- Bytes, keyed by channel * 2^32 + byte. -/
  dram : Mem
  /-- Uncorrectable beats, keyed by channel * 2^27 + beat (R194). -/
  poison : Sp Bool
  /-- Corrected errors of rows not yet repaired: channel, row, beat, scrub pass (0: not by scrub) (R198). -/
  ceRows : List (Nat × Nat × Nat × Nat)
  /-- Spare rows used in each channel. -/
  spares : Sp Nat
  /-- Repaired rows, keyed by channel * 2^27 + row. -/
  repaired : Sp Bool
  /-- Retired frames, keyed by channel * 2048 + frame (R199). -/
  retired : Sp Bool
  /-- The record of R214 of the beat for which F-1101 or F-1102 was raised last, which the log names (R481); 0: none. -/
  found : W64 × W64
  /-- Failed channels (R200). -/
  failed : Sp Bool
  /-- Stacks at the 64 ms interval (R196); an unlisted stack is at 32 ms. -/
  slow : Sp Bool
  /-- Since when both sensors of a stack have read 81 degrees or below, plus one; 0: not (R196). -/
  coolSince : Sp Nat
  /-- Last reading of each stack's hottest sensor. -/
  temp : Sp Nat
  /-- Highest reading since start. -/
  tempMax : Sp Nat
  /-- The hold of R201. -/
  hold : Bool
  /-- Since when every sensor that has been read has read 90 degrees or below, plus one; 0: not (R201). -/
  below : Nat
  /-- Next beat of the patrol scrub in each channel (R197). -/
  scrubPos : Sp Nat
  /-- Passes done in each channel. -/
  scrubPass : Sp Nat
  /-- When each bank was last refreshed, plus one, keyed by channel * 2^16 + bank; an unlisted bank has not been since the
  start (R189, R196). -/
  refreshedAt : Sp Nat
  /-- Where the rotation of R189 stands: the requester after the last one served, keyed by channel * 2 + Vesper. -/
  turn : Sp Nat
  deriving DecidableEq, Repr

/-- Memory right after reset: nothing listed. -/
def MemState.start : MemState :=
  ⟨[], [], [], [], [], [], (0, 0), [], [], [], [], [], false, 0, [], [], [], []⟩

/-- A mapped page of a job context (R205). -/
structure Page where
  /-- Scratchpad window. -/
  window : Bool
  /-- VPAGE. -/
  vpage : Nat
  /-- KEY. -/
  key : Nat
  /-- PIN. -/
  pin : Bool
  /-- DRAM: channel * 2048 + frame. Window: tile * 3 + SP_PAGE. -/
  place : Nat
  /-- The page-map entry that mapped it. -/
  entry : W64
  deriving DecidableEq, Repr

/-- A barrier slot of a job context (R283 to R288). -/
structure Barrier where
  /-- EPOCH. -/
  epoch : BitVec 16
  /-- Released epoch. -/
  released : BitVec 16
  /-- Group record of the current epoch. -/
  group : Option (W64 × W64)
  /-- Group record of the next epoch. -/
  group1 : Option (W64 × W64)
  /-- Local arrivals of the current epoch. -/
  count : Nat
  /-- Local arrivals of the next epoch. -/
  count1 : Nat
  /-- Frames received: for the next epoch, tree, phase or level, source device. -/
  frames : List (Bool × Bool × Nat × Nat)
  /-- Direct exchange: phases begun. -/
  phase : Nat
  /-- The tree frame of this epoch has been sent. -/
  sent : Bool
  /-- The timer when the module's part became complete, plus one; 0: not yet (R289). -/
  since : Nat
  deriving DecidableEq, Repr

/-- A slot when its context is created (R283); the released epoch is the one before EPOCH (DESIGN CHOICE, log 9). -/
def Barrier.start : Barrier := ⟨0, 0xFFFF, none, none, 0, 0, [], 0, false, 0⟩

/-- An entry of the outbound table (R290). -/
structure OutSig where
  /-- Pending count. -/
  pend : Nat
  /-- Latest payload. -/
  payload : W64
  /-- SEQ of the message sent and not acknowledged, with its connection. -/
  sent : Option (BitVec 32 × W64)
  deriving DecidableEq, Repr

/-- A delivery tracker (R256). -/
structure Tracker where
  /-- SRC. -/
  src : Nat
  /-- Class Vesper. -/
  vesper : Bool
  /-- CHANNEL. -/
  channel : Nat
  /-- Expected CHAN_SEQ, or the base of channel 16. -/
  expect : BitVec 16
  /-- Channel 16: marked frames of the window, as offsets from the base. -/
  marks : List Nat
  deriving DecidableEq, Repr

/-- A source's side of a channel (R244, R256). -/
structure TxChan where
  /-- DST. -/
  dst : Nat
  /-- Class Vesper. -/
  vesper : Bool
  /-- CHANNEL. -/
  channel : Nat
  /-- Next CHAN_SEQ. -/
  next : BitVec 16
  /-- The next frame carries SEQ_RESET. -/
  reset : Bool
  deriving DecidableEq, Repr

/-- A transfer of a contribution that has begun in a set of a bucket and is not yet credited (R303). -/
structure OpenContrib where
  /-- The set. -/
  set : Bool
  /-- Source hall number. -/
  src : Nat
  /-- Class Vesper. -/
  vesper : Bool
  /-- XFER_ID. -/
  xfer : Nat
  /-- First granule. -/
  first : Nat
  /-- Granules whose OPEN it has raised, from the first on. -/
  raised : Nat
  /-- Granules that its frames have reached, from the first on. -/
  covered : Nat
  deriving DecidableEq, Repr

/-- A frame that has been added to a set while a transfer of the set is not credited: what R301 undoes where its transfer turns
out to break the rule. -/
structure AddedFrame where
  /-- The set. -/
  set : Bool
  /-- Source hall number. -/
  src : Nat
  /-- Class Vesper. -/
  vesper : Bool
  /-- XFER_ID. -/
  xfer : Nat
  /-- Offset of the first sum in the region, in bytes. -/
  off : Nat
  /-- The elements, FP32. -/
  elems : List Nat
  /-- The sums before. -/
  before : List Byte
  /-- When it came. -/
  at' : Nat
  /-- It opened the set. -/
  opener : Bool
  /-- The pair that it claimed, and whether for the backup. -/
  claim : Option (Nat × Bool)
  deriving DecidableEq, Repr

/-- A bucket a module holds (Table 12-2) with its controller's state (R303 to R306, R318). -/
structure Bucket where
  /-- BUCKET_ID. -/
  id : Nat
  /-- ELEMENTS. -/
  elements : Nat
  /-- TILE. -/
  tile : Nat
  /-- CHECK_OF for a check bucket. -/
  checkOf : Option Nat
  /-- ORDER. -/
  order : Nat
  /-- DEADLINE_US. -/
  deadlineUs : Nat
  /-- SUM_BASE of set 0 and 1. -/
  sums : W64 × W64
  /-- GRANULE_BASE of set 0 and 1. -/
  granules : W64 × W64
  /-- State of each set: 0 IDLE, 1 OPEN, 2 CLOSED. -/
  st : Nat × Nat
  /-- When each set opened. -/
  openedAt : Nat × Nat
  /-- Whether each set closed on full count. -/
  full : Bool × Bool
  /-- F of R306 in us. -/
  f : BitVec 32
  /-- V of R306 in us. -/
  v : BitVec 32
  /-- Pair claims of each set: pair, claimed by the backup (R304). -/
  claims : List (Bool × Nat × Bool)
  /-- Transfers begun and not credited (R303). -/
  begun : List OpenContrib
  /-- Frames added while a transfer of their set is not credited, oldest first (R301). -/
  added : List AddedFrame
  /-- The step whose contributions each set takes (R298, R303). -/
  steps : Nat × Nat
  /-- When each set closed (R317). -/
  closedAt : Nat × Nat
  /-- The check of each set has ended (R318). -/
  checked : Bool × Bool
  /-- Step of the last disagreement, plus one (R318). -/
  mismatch : Nat
  deriving DecidableEq, Repr

/-- The gradient block in force (Table 12-1). -/
structure GradBlock where
  /-- LATE_MODE is BACKUP. -/
  backup : Bool
  /-- EXPECTED. -/
  expected : Nat
  /-- VERDICT_DEVICE. -/
  verdictDevice : Nat
  /-- VERDICT_COUNT. -/
  verdictCount : Nat
  /-- LOSS_KERNEL. -/
  lossKernel : Nat
  /-- LAYERS. -/
  layers : Nat
  /-- NORM_ADDR. -/
  normAddr : W64
  /-- Pair and role of each device number in BACKUP mode. -/
  pairs : List (Nat × Bool)
  deriving DecidableEq, Repr

/-- A secured tensor (Table 13-2) with its method (R323). -/
structure Tensor where
  /-- TENSOR_ID. -/
  id : Nat
  /-- Mirrored; else parity. -/
  mirror : Bool
  /-- PARTNER. -/
  partner : Nat
  /-- Parity group members. -/
  group : List Nat
  /-- MEMBER. -/
  member : Nat
  /-- BASE. -/
  base : W64
  /-- BYTES. -/
  bytes : Nat
  /-- SHADOW_ADDR. -/
  shadow : W64
  /-- COPY_ADDR. -/
  copy : W64
  /-- GROUP_BYTES. -/
  groupBytes : Nat
  deriving DecidableEq, Repr

/-- A copy that the securing or restore engine has still to send: one WRITE transfer. -/
structure CopyOut where
  /-- Destination hall number. -/
  hall : Nat
  /-- Its global address. -/
  addr : Nat
  /-- Own source address, where `data` is empty. -/
  src : Nat
  /-- Bytes. -/
  bytes : Nat
  /-- Bytes that come from the engine itself. -/
  data : List Byte
  /-- Count raised at the destination by 1: COUNT_REF. -/
  sig : Option Nat
  deriving DecidableEq, Repr

/-- A block that the engine has still to read: one READ transfer. -/
structure CopyIn where
  /-- Hall number read from. -/
  hall : Nat
  /-- Global address. -/
  addr : Nat
  /-- Bytes. -/
  bytes : Nat
  /-- Own addresses that take the bytes. -/
  dests : List Nat
  /-- They are XORed into what stands there. -/
  xored : Bool
  deriving DecidableEq, Repr

/-- The Chrysalis block in force (Table 13-1) and the device's securing state (R328 to R332). -/
structure Chrys where
  /-- LOST_STEP_CEILING. -/
  ceiling : Nat
  /-- SECURE_COUNT. -/
  secureCount : Nat
  /-- EVAL_EVERY. -/
  evalEvery : Nat
  /-- RECORD_ADDR. -/
  recordAddr : W64
  /-- RECORD_PARTNER. -/
  recordPartner : Nat
  /-- CURSOR_COUNT. -/
  cursors : Nat
  /-- RECORD_COPY_ADDR. -/
  recordCopy : W64
  /-- CURSOR_ADDR. -/
  cursorAddr : W64
  /-- STATE_KEYS. -/
  stateKeys : BitVec 256
  /-- The secured tensors. -/
  tensors : List Tensor
  /-- c, the step of the last committed generation. -/
  committed : Nat
  /-- G of the last committed generation. -/
  gen : BitVec 32
  /-- The step that is being secured. -/
  preparing : Option Nat
  /-- The parity of the generation in preparation has been folded. -/
  folded : Bool
  /-- The device has reported itself prepared. -/
  prepared : Bool
  /-- A copy of the generation in preparation was never answered, or a block that it folds was not read (R329). -/
  missed : Bool
  /-- For each parity tensor, the 4 KiB blocks set in the bitmaps that were sent (R329, R332). -/
  changed : List (Nat × List Nat)
  /-- The next step of the context is its first, or its first after a restore (R331). -/
  due : Bool
  /-- Job level of the last verdict (R330). -/
  level : Nat
  /-- A step whose generation is due and has not begun (R331). -/
  pendingStep : Option Nat
  /-- Copies still to send. -/
  toSend : List CopyOut
  /-- Blocks still to read. -/
  toRead : List CopyIn
  /-- Copies sent and not answered, by XFER_ID. -/
  waits : List Nat
  /-- Reads sent and not answered, by XFER_ID. -/
  folds : List (Nat × CopyIn)
  /-- The last step after which a scheduled window opened, plus one (R343). -/
  evalStep : Nat
  /-- LAYERS and BUCKET_COUNT of the gradient block, which lay out the step record (R326). -/
  shape : Nat × Nat
  deriving DecidableEq, Repr

/-- A key slot (R408). -/
abbrev KeySlot := Nat × BitVec 256

/-- A job context (R204). -/
structure JobCtx where
  /-- JOB_ID. -/
  id : BitVec 16
  /-- LOCAL_RIGHTS, 64 bytes. -/
  localRights : List Byte
  /-- REMOTE_RIGHTS. -/
  remoteRights : List Byte
  /-- HOST_RIGHTS. -/
  hostRights : List Byte
  /-- The page table. -/
  pages : List Page
  /-- The remap table: device number, hall number (R240). -/
  remap : List (Nat × Nat)
  /-- Multicast groups (R248). -/
  groups : List (Nat × List Nat)
  /-- Counts 0 to 4,095 (R273). -/
  counts : Sp (BitVec 32)
  /-- Watch bits: count, tile (R276). -/
  watch : List (Nat × Nat)
  /-- Pairs P, C, CAPACITY (R277). -/
  pairs : List (Nat × Nat × Nat)
  /-- Barrier slots. -/
  barriers : Sp Barrier
  /-- Outbound table by signal number; order of first unreported entry. -/
  outbound : List (Nat × OutSig)
  /-- Inbox: number, pending count, payload (R291). -/
  inbox : List (Nat × BitVec 32 × W64)
  /-- Tasks that wait on a number, oldest first: number, tile, Vesper (R291). -/
  hostWaiters : List (Nat × Nat × Bool)
  /-- Trackers. -/
  trackers : List Tracker
  /-- Sending channels. -/
  tx : List TxChan
  /-- JOB_DEVICES. -/
  devices : Nat
  /-- K of the job stream (R54). -/
  streamK : BitVec 128
  /-- C of the job stream. -/
  streamC : BitVec 128
  /-- The step number n of the running or last step (R299). -/
  step : Nat
  /-- Steps run since the counts were last zero (R27). -/
  steps : Nat
  /-- When the running step began (R304). -/
  stepAt : Nat
  /-- A step is running. -/
  stepping : Bool
  /-- The gradient block. -/
  grad : Option GradBlock
  /-- The buckets held. -/
  buckets : List Bucket
  /-- F and V of buckets that the block in force does not list, by BUCKET_ID (R306). -/
  estimates : List (Nat × BitVec 32 × BitVec 32)
  /-- The step whose norm entries are not written yet (R327). -/
  normsDue : Option Nat
  /-- The class of the training package whose blocks are in force (R328). -/
  vesper : Bool
  /-- GRAD_NONFINITE of the steps that use set 0 and set 1 (R307). -/
  gradFlag : Bool × Bool
  /-- CHECK_MISMATCH, likewise. -/
  checkFlag : Bool × Bool
  /-- The verdict round of this step has run here (R308). -/
  rounded : Bool
  /-- Rounds that this module, as VERDICT_DEVICE, has formed since the counts were zero. -/
  formed : Nat
  /-- The verdict of this step: none, or v (R308). -/
  verdict : Option Nat
  /-- Values that the sequencer keeps of counts it has seen (R308, R330, R332), by index. -/
  seen : Sp (BitVec 32)
  /-- Loss scale s (R315). -/
  lossScale : BitVec 32
  /-- Clean-step count. -/
  clean : Nat
  /-- Consecutive SKIP verdicts. -/
  skips : Nat
  /-- Flags of the last verdict. -/
  lastFlags : Nat
  /-- The Chrysalis block. -/
  chrys : Option Chrys
  /-- For each layer, for how many verdicts it has flipped or been left unchanged (R28, R29). -/
  flips : Sp Nat
  /-- Verdicts received since the counts were zero. -/
  verdicts : Nat
  /-- Value of each landed count when its slot last became free (R28). -/
  landedAt : Sp (BitVec 32)
  /-- Which of those verdicts were SKIP, counted from 1: each leaves a layer unchanged when its turn comes (R29). -/
  skipped : List Nat
  /-- The method of every secured tensor that a package of the context has named: TENSOR_ID, mirrored (R323). -/
  methods : List (Nat × Bool)
  /-- F and V of a restored record in table order, for the block that comes into force next (R341). -/
  restored : List (BitVec 32 × BitVec 32)
  /-- Key slots (R408). -/
  keySlots : List KeySlot
  /-- The sealed set (R410). -/
  sealed : BitVec 256
  /-- M4 (R405). -/
  m4 : BitVec 512
  /-- Connection and HOST_KEY of the last package accepted for the job: its host (R290, R380). -/
  host : BitVec 32 × BitVec 256
  deriving DecidableEq, Repr

/-- A kernel of a package (Table 15-9). -/
structure Kernel where
  /-- KERNEL_ID. -/
  id : Nat
  /-- DIE. -/
  die : Nat
  /-- TASK_FIRST. -/
  first : Nat
  /-- TASK_COUNT. -/
  count : Nat
  /-- Waits: COUNT_REF, TARGET_BASE, STEP_INC. -/
  waits : List (Nat × Nat × Nat)
  deriving DecidableEq, Repr

/-- A stage of a cost table (Table 14-2). -/
structure Stage where
  /-- KIND. -/
  kind : Nat
  /-- WHERE. -/
  place : Nat
  /-- TASKS. -/
  tasks : Nat
  /-- DST. -/
  dst : Nat
  /-- ACKED. -/
  acked : Bool
  /-- AMOUNT. -/
  amount : Nat
  deriving DecidableEq, Repr

/-- A cost table (R355). -/
structure Cost where
  /-- Stage entries. -/
  stages : List Stage
  /-- TILE, COST_S_TOTAL, CHANNEL_KIB. -/
  loads : List (Nat × Nat × Nat)
  /-- PORT, BYTES. -/
  ports : List (Nat × Nat)
  /-- TILES_MAX. -/
  tilesMax : Nat
  /-- DURATION_NS. -/
  duration : Nat
  /-- LATE_NOTIFY. -/
  lateNotify : Nat
  deriving DecidableEq, Repr

/-- A layer of a LANDING section (R389). -/
structure Layer where
  /-- First VPAGE of the working weights. -/
  vpage : Nat
  /-- PAGES. -/
  pages : Nat
  /-- SLOT. -/
  slot : Nat
  /-- Landed count. -/
  landed : Nat
  /-- Total in 4 KiB units. -/
  total : Nat
  /-- GRANT_GROUP. -/
  grantGroup : Nat
  /-- Grant count. -/
  grant : Nat
  deriving DecidableEq, Repr

/-- A LANDING section. -/
structure Landing where
  /-- First VPAGE and PAGES of each slot. -/
  slots : List (Nat × Nat)
  /-- The layers. -/
  layers : List Layer
  deriving DecidableEq, Repr

/-- A restore block (Table 13-6). -/
structure Restore where
  /-- COORDINATOR. -/
  coordinator : Nat
  /-- REPORT_ADDR. -/
  report : W64
  /-- DEVICE, SPARE, READABLE. -/
  lost : List (Nat × Nat × Bool)
  /-- Stage: 0 accepted, 1 reported or gathered, 2 applied, 3 refilled, 4 reloaded. -/
  stage : Nat
  deriving DecidableEq, Repr

/-- A held work package (R23, R385). -/
structure Pkg where
  /-- PACKAGE_TAG. -/
  tag : Nat
  /-- CLASS Vesper. -/
  vesper : Bool
  /-- KIND: 0 PLAIN, 1 TRAINING, 2 EVALUATION, 3 RESTORE. -/
  kind : Nat
  /-- PACKAGE_ID. -/
  pid : Nat
  /-- JOB_ID. -/
  job : BitVec 16
  /-- JOB_END. -/
  jobEnd : Bool
  /-- STEP_COUNT. -/
  stepCount : Nat
  /-- FAULT_NOTIFY. -/
  faultNotify : Nat
  /-- SEED. -/
  seed : W64
  /-- The connection that submitted it. -/
  conn : BitVec 32
  /-- HOST_KEY of that connection. -/
  hostKey : BitVec 256
  /-- Kernels. -/
  kernels : List Kernel
  /-- Task descriptors. -/
  tasks : List Desc
  /-- LANDING. -/
  landing : Option Landing
  /-- Cost table. -/
  cost : Option Cost
  /-- Restore block. -/
  restore : Option Restore
  /-- Timer at acceptance. -/
  acceptedAt : Nat
  /-- T of R356 in ns. -/
  t : Nat
  /-- kappa at acceptance. -/
  kappa : BitVec 32
  /-- Running (R23). -/
  running : Bool
  /-- Steps begun. -/
  step : Nat
  /-- Control messages on their way to the sequencers of dies 1 to 3, oldest first (R22): the die, and the layer that flipped,
  or none for a step that began. -/
  untold : List (Nat × Option Nat)
  /-- Kernels found ready in this step. -/
  ready : List Nat
  /-- Tasks written in this step: kernel, index. -/
  written : List (Nat × Nat)
  /-- Tasks ended in this step. -/
  ended : List (Nat × Nat)
  /-- A task ran beyond kappa * COST_S (R362). -/
  overran : Bool
  /-- A LATE notice has been sent. -/
  late : Bool
  /-- TRAINING: the gradient block, buckets and Chrysalis block that come into force when it starts, where another training
  package of the job was held at its acceptance (log 43). -/
  blocks : Option (GradBlock × List Bucket × Option Chrys)
  deriving DecidableEq, Repr

/-- The evaluation window (R343, R344). -/
structure EvalWin where
  /-- Job. -/
  job : BitVec 16
  /-- Saved streams of the tiles, by tile: key, counter. -/
  saved : List (Nat × BitVec 128 × BitVec 128)
  /-- Timer at opening. -/
  openedAt : Nat
  /-- It holds an Imago export. -/
  imago : Bool
  deriving DecidableEq, Repr

/-- An Imago export (R344, R417). -/
structure ImagoReq where
  /-- Connection. -/
  conn : BitVec 32
  /-- Job. -/
  job : BitVec 16
  /-- SCOPE OWNED. -/
  owned : Bool
  /-- RECIPIENT_KEY. -/
  recipient : BitVec 256
  /-- SEQ of the last message of the export, once sent. -/
  last : Option W64
  deriving DecidableEq, Repr

/-- A port (R239, R254 to R269, R411 to R413). -/
structure Port where
  /-- PORT_STATE: 0 DOWN, 1 TRAINING, 2 UP, 3 QUARANTINED, 4 MISCABLED, 5 TOO_LONG, 6 UNUSED. -/
  st : Nat
  /-- The PHY is up and the identity exchange runs (R239). -/
  phy : Bool
  /-- The peer's identity has been checked. -/
  identified : Bool
  /-- PEER_HALL. -/
  peerHall : Nat
  /-- PEER_PORT. -/
  peerPort : Nat
  /-- LENGTH_M. -/
  lengthM : Nat
  /-- DOWN_EVENTS. -/
  downs : Nat
  /-- Timer at which the link last went down, or a training attempt last failed. -/
  downAt : Nat
  /-- A training attempt is running. -/
  attempting : Bool
  /-- Next LINK_SEQ to send, Vesper and Noon. -/
  txV : BitVec 16
  /-- As txV, Noon. -/
  txN : BitVec 16
  /-- Expected LINK_SEQ, Vesper. -/
  rxV : BitVec 16
  /-- Expected LINK_SEQ, Noon. -/
  rxN : BitVec 16
  /-- A NAK is outstanding for Vesper. -/
  nakV : Bool
  /-- A NAK is outstanding for Noon. -/
  nakN : Bool
  /-- The replay buffer: frames not yet acknowledged, oldest first. -/
  replay : List Frame
  /-- Frames that the transmitter resends before new ones. -/
  resend : List Frame
  /-- LINK_CTRL frames that wait to leave, oldest first (R257). -/
  ctrlq : List Frame
  /-- Timer when an acknowledgement last advanced. -/
  ackAt : Nat
  /-- An acknowledgement is owed to the peer. -/
  ackOwed : Bool
  /-- Credit in 64-byte units per class and buffer class (Vesper 1 to 6, Noon 1 to 6); an unlisted entry is the
  initial credit of Config, which the spec does not give (log 12). -/
  used : Sp Nat
  /-- Credit owed to the peer, as `used`. -/
  owed : Sp Nat
  /-- Received frames that wait for the switch, oldest first. -/
  rxq : List Frame
  /-- Frames delivered to this module that wait to be applied. -/
  inbox : List Frame
  /-- Vesper frames that wait for this exit port. -/
  txqV : List Frame
  /-- Noon frames that wait for this exit port. -/
  txqN : List Frame
  /-- Window of 10 us and the Vesper bytes sent in it (R262). -/
  share : Nat × Nat
  /-- Beyond the share: the last frame sent was Vesper. -/
  lastV : Bool
  /-- Advertised states of the peer's ports: port, up (R258). -/
  advert : List (Nat × Bool)
  /-- Timers of retry events (R258). -/
  retries : List Nat
  /-- Timers of F-2305 violations (Table 10-8). -/
  seqViol : List Nat
  /-- Timers of violations (R269). -/
  viol : List Nat
  /-- Timer of the last ERROR sent from the port, plus one (R267). -/
  errAt : Nat
  /-- Restored after a down event: since when without a retry event (R260). -/
  restoreAt : Option Nat
  /-- FENCEs sent on the detour and not yet answered. -/
  fencing : Bool
  /-- FENCEs received for this link: class, buffer class (R260). -/
  fences : List (Bool × Nat)
  /-- AN in use, transmit. -/
  an : BitVec 2
  /-- Number of the SAK in use: 0 SAK0. -/
  sak : Nat
  /-- Next transmit PN. -/
  pn : Nat
  /-- The lowest PN that replay protection still takes, by AN (R413); an unlisted AN takes 1. -/
  rxPn : Sp Nat
  /-- Timer when the SA came into use. -/
  saAt : Nat
  /-- Rekey: when it began. -/
  rekeyAt : Option Nat
  /-- The receive SA of the offered key is installed. -/
  installed : Bool
  /-- The peer's receive SA is installed. -/
  peerInstalled : Bool
  /-- EPHEMERAL and NONCE offered. -/
  offer : BitVec 256 × BitVec 128
  /-- The private part of EPHEMERAL. -/
  ephSecret : BitVec 256
  /-- EPHEMERAL and NONCE of the peer, last offered. -/
  peerOffer : Option (BitVec 256 × BitVec 128)
  /-- The key in use, 44 bytes as a number. -/
  key : BitVec 352
  /-- The key before it, whose receive SA is kept for a while (R412). -/
  oldKey : BitVec 352
  /-- The old receive SA is kept until this timer (R412). -/
  oldUntil : Option Nat
  deriving DecidableEq, Repr

/-- A port after reset: DOWN, with nothing sent or received. -/
def Port.start : Port :=
  { st := 0, phy := false, identified := false, peerHall := 0, peerPort := 0, lengthM := 0, downs := 0, downAt := 0,
    attempting := false, txV := 0, txN := 0, rxV := 0, rxN := 0, nakV := false, nakN := false, replay := [],
    resend := [], ctrlq := [], ackAt := 0, ackOwed := false, used := [], owed := [], rxq := [], inbox := [], txqV := [], txqN := [],
    share := (0, 0), lastV := false, advert := [], retries := [], seqViol := [], viol := [], errAt := 0,
    restoreAt := none, fencing := false, fences := [], an := 0, sak := 0, pn := 1, rxPn := [], saAt := 0, rekeyAt := none,
    installed := false, peerInstalled := false, offer := (0, 0), ephSecret := 0, peerOffer := none, key := 0, oldKey := 0, oldUntil := none }

/-- An unanswered transfer of this module (R246, R250). -/
structure Xfer where
  /-- XFER_ID. -/
  id : Nat
  /-- The tile whose word it serves; none: the module itself. -/
  tile : Option Nat
  /-- Class Vesper. -/
  vesper : Bool
  /-- Job. -/
  job : BitVec 16
  /-- DST, a hall number. -/
  dst : Nat
  /-- CHANNEL. -/
  channel : Nat
  /-- OP of the request. -/
  op : Nat
  /-- Local scratchpad offset that a reply writes. -/
  addr : Nat
  /-- Bytes a READ awaits. -/
  bytes : Nat
  /-- Bytes received. -/
  got : Nat
  /-- Count a GET raises when its last byte is written: COUNT_REF, increment. -/
  sig : Option (BitVec 32 × BitVec 32)
  /-- Byte offset of the word in its program. -/
  off : BitVec 32
  /-- Step tag of an ACCUMULATE of a training package (R302). -/
  step : Option Nat
  /-- Request frames of the transfer (R256). -/
  frames : Nat
  /-- Timer when its last frame left for the exit port. -/
  sentAt : Nat
  /-- Where the bytes of a READ go: 0 the scratchpad, 1 the record X of its word, 2 the record Y (R130, R132). -/
  into : Nat
  /-- The word that it serves is one of the tile's Vesper context. -/
  ctx : Bool
  deriving DecidableEq, Repr

/-- An open tally (R279). -/
structure OpenTally where
  /-- SRC. -/
  src : Nat
  /-- JOB_ID. -/
  job : BitVec 16
  /-- CLASS. -/
  vesper : Bool
  /-- XFER_ID. -/
  xfer : Nat
  /-- Bytes applied. -/
  applied : Nat
  /-- The signal extension, once its frame has arrived. -/
  sig : Option SigExt
  /-- The last frame has been applied, and the transfer's length. -/
  len : Option Nat
  /-- The transfer has been answered with an ERROR: the tally is closed, and the entry only remembers that until the rest of
  the transfer has come (R247, R279, R281). -/
  bad : Bool
  /-- Timer when its signal arrived (R280). -/
  signalAt : Nat
  deriving DecidableEq, Repr

/-- Monarch, supplies, heat, blades (R348 to R354, R465, R466). -/
structure PowerState where
  /-- Input energy of past windows in uJ, newest first, at most 99,999; unlisted ones are POWER_LIMIT * 10 us. -/
  past : List Nat
  /-- Fixed energy of past windows, newest first, at most 100; unlisted ones are 600 W * 10 us. -/
  fixed : List Nat
  /-- run_above. -/
  runAbove : Nat
  /-- hold. -/
  hold : Nat
  /-- The last hardware failure known: its code and when (R362). -/
  hardware : Option (Nat × Nat)
  /-- Energy of the windows of the running second and their number; the last mean in W. -/
  second : Nat × Nat
  /-- Energy of the last 10 ms windows (R354). -/
  tenMs : Nat × Nat
  /-- Means in W of the last whole second and the last whole 10 ms. -/
  means : Nat × Nat
  /-- Timer when a tile last stopped on its grant, plus one; 0: none has (Table 14-9). -/
  throttledAt : Nat
  /-- Supply of each die in mV; an unlisted die is at DIE_SUPPLY_START. -/
  supply : Sp Nat
  /-- For each die, whether a tile stopped on its grant, in the last windows, newest first (at most 100). -/
  stops : Sp (List Bool)
  /-- Last hottest reading of each die, and the highest. -/
  temp : Sp Nat
  /-- Highest reading since start. -/
  tempMax : Sp Nat
  /-- Dies whose Noon grants are halved, and how often (R353). -/
  halvings : Sp Nat
  /-- The hold of R353. -/
  heatHold : Bool
  /-- Timer since when every logic sensor has read 95 or below, plus one; 0: not (R353). -/
  coolSince : Nat
  /-- Blade voltage in 0.1 V. -/
  volts : Nat
  /-- F-A103 is in force. -/
  inputBad : Bool
  /-- Dies whose sensed supply has fallen below 0.53 V since their last SUPPLY_STEP (log 135). -/
  under : Sp Bool
  /-- Blade currents last read, in 0.1 A (log 38). -/
  blade : Nat × Nat
  /-- Is the first blade pair lost, and the second (R466)? -/
  lost : Bool × Bool
  /-- kappa (R359). -/
  kappa : BitVec 32
  deriving DecidableEq, Repr

/-- Monarch at start (Table 18-5). -/
def PowerState.start : PowerState :=
  { past := [], fixed := [], runAbove := 0, hold := 0, hardware := none, second := (0, 0), tenMs := (0, 0), means := (0, 0),
    throttledAt := 0, supply := [], stops := [], temp := [], tempMax := [], halvings := [], heatHold := false,
    coolSince := 0, volts := 0, inputBad := false, under := [], blade := (0, 0), lost := (false, false), kappa := 0x3F8CCCCD }

/-- A request at an arbiter (R364). -/
structure ArbReq where
  /-- Rank: 0 due background, 1 Vesper, 2 Noon, 3 background. -/
  rank : Fin 4
  /-- Requester 0 to 7. -/
  who : Nat
  /-- Age: its number of arrival. -/
  age : Nat
  /-- Timer at arrival. -/
  at_ : Nat
  deriving DecidableEq, Repr

/-- An arbiter (R363 to R367). -/
structure Arbiter where
  /-- The holder. -/
  holder : Option ArbReq
  /-- The pending queue, by rank and age, at most 16. -/
  queue : List ArbReq
  /-- Requests returned to their requesters, oldest first. -/
  outside : List ArbReq
  /-- The last grants, newest first, at most 1,000: was it background? Unlisted ones are 2 % background. -/
  grants : List Bool
  /-- Next age. -/
  next : Nat
  /-- Is the holder a background request that was due when it was granted (R366)? -/
  heldDue : Bool
  deriving DecidableEq, Repr

/-- An idle arbiter. -/
def Arbiter.start : Arbiter := ⟨none, [], [], [], 0, false⟩

/-- A message from a host (Table 15-3), without its header. -/
inductive HMsg where
  /-- A message that is answered with an error and has no other effect (R391). -/
  | bad (code : Nat)
  | close
  | submit (pid off total : Nat) (data : List Byte)
  | abandon (pid : Nat) (job : BitVec 16)
  | put (job : BitVec 16) (addr : W64) (data : List Byte)
  | get (job : BitVec 16) (addr : W64) (bytes : Nat)
  | signalIn (job : BitVec 16) (count : Bool) (number : Nat) (w1 : W64)
  | statusRead (off words : Nat)
  | attest (challenge : BitVec 256) (job : BitVec 16)
  | keyRelease (job : BitVec 16) (slot : Nat) (blob : List Byte)
  | imago (job : BitVec 16) (owned : Bool) (recipient : BitVec 256)
  | unlock1 (password : List Byte)
  | unlock2
  | unlock2Response (key : BitVec 256) (sig : BitVec 512)
  | stage (off total : Nat) (data : List Byte)
  deriving DecidableEq, Repr

/-- A message from the module (Table 15-3), without its header. -/
inductive OMsg where
  | close
  | reply (ref : W64) (status : Nat)
  | accept (ref : W64) (pid : Nat) (job : BitVec 16) (position : Nat) (vesper : Bool) (t : Nat)
  | decline (ref : W64) (pid : Nat) (job : BitVec 16) (code t : Nat)
  | complete (pid : Nat) (job : BitVec 16) (steps elapsed : Nat) (within : Bool)
  | getData (ref : W64) (off : Nat) (last : Bool) (status : Nat) (data : List Byte)
  | signalOut (job : BitVec 16) (number merged : Nat) (payload : W64)
  | statusData (ref : W64) (off words status : Nat) (values : List W64)
  | attestReport (ref : W64) (report : List Byte)
  | imagoSegment (piece off : Nat) (last : Bool) (job : BitVec 16) (data : List Byte)
  | challenge (ref : W64) (challenge : BitVec 256) (serial : BitVec 128) (starts : W64)
  | notice (kind code device : Nat) (record : List W64)
  deriving DecidableEq, Repr

/-- Where a datagram goes from and to (R371, R373, R443). -/
structure UdpPath where
  /-- 0: P40; 1: P41; 2: the service link. -/
  port : Fin 3
  /-- The port's own address; none where the image gives it none. -/
  source : Option (BitVec 128)
  /-- KHT_UDP_PORT. -/
  sourcePort : Nat
  /-- The host's address. -/
  dest : BitVec 128
  /-- The host's UDP port. -/
  destPort : BitVec 16
  deriving DecidableEq, Repr

/-- The header of a datagram of the module (Table 15-1), whose VERSION is 1 and whose reserved fields are 0. -/
structure OHdr where
  /-- TYPE. -/
  type : Nat
  /-- CONN_ID. -/
  conn : BitVec 32
  /-- SEQ. -/
  seq : W64
  /-- ACK. -/
  ack : W64
  /-- LENGTH. -/
  length : Nat
  /-- WINDOW. -/
  window : Nat
  /-- PKT_NUM. -/
  pkt : Nat
  /-- The datagram is Vesper at the module's ports (R24, R374). -/
  vesper : Bool
  deriving DecidableEq, Repr

/-- A sequenced message of the module that is not acknowledged (R379). -/
structure Unacked where
  /-- SEQ. -/
  seq : W64
  /-- The message. -/
  msg : OMsg
  /-- Retransmissions made. -/
  tries : Nat
  /-- It has been sent at least once. -/
  sent : Bool
  /-- Timer when it was last sent (R379). -/
  at_ : Nat
  deriving DecidableEq, Repr

/-- A connection entry (R377 to R379). -/
structure Conn where
  /-- CONN_ID. -/
  id : BitVec 32
  /-- Its entry, 0 to 15 (Table 15-12). -/
  entry : Nat
  /-- 1 PENDING, 2 OPEN, 3 CLOSING. -/
  st : Nat
  /-- ROLE. -/
  role : Nat
  /-- HOST_KEY. -/
  hostKey : BitVec 256
  /-- HOST_NONCE of the OPEN. -/
  nonce : BitVec 128
  /-- The module's private ephemeral key, and its nonce. -/
  eph : BitVec 256 × BitVec 128
  /-- Keys of the two directions (R398). -/
  keys : BitVec 256 × BitVec 256
  /-- Port, address and UDP port of the last authenticated datagram (R373). -/
  port : Fin 3
  /-- Address. -/
  addr : BitVec 128
  /-- UDP port. -/
  udp : BitVec 16
  /-- Next SEQ expected. -/
  rxNext : W64
  /-- Messages held beyond the next, with their SEQ and TYPE. -/
  held : List (W64 × HMsg)
  /-- Next SEQ to use. -/
  txNext : W64
  /-- The host's ACK and WINDOW. -/
  ack : W64
  /-- WINDOW. -/
  window : Nat
  /-- Next PKT_NUM to send. -/
  pkt : Nat
  /-- PKT_NUMs received. -/
  seenPkts : List W64
  /-- Unacknowledged messages, oldest first. -/
  unacked : List Unacked
  /-- Timer of the last authenticated datagram. -/
  lastAt : Nat
  /-- Timer of the last error REPLY (R391), plus one. -/
  errAt : Nat
  /-- Datagrams received. -/
  datagrams : W64
  /-- The live report: its private ephemeral key, CHALLENGE, M0, M1, M3 (R407, R409). -/
  report : Option (BitVec 256 × BitVec 256 × BitVec 512 × BitVec 512 × BitVec 512)
  /-- Unlock held: level and its end (R416). -/
  unlock : Option (Nat × Nat)
  /-- Level-2 challenge and its timer (R415). -/
  challenge : Option (BitVec 256 × Nat)
  deriving DecidableEq, Repr

/-- A package being assembled (R385). -/
structure Assembly where
  /-- Connection. -/
  conn : BitVec 32
  /-- PACKAGE_ID. -/
  pid : Nat
  /-- TOTAL. -/
  total : Nat
  /-- Bytes received. -/
  data : List Byte
  deriving DecidableEq, Repr

/-- A tenant in force (Table 16-2). -/
structure Tenant where
  /-- TENANT_ID. -/
  id : BitVec 32
  /-- Keys with IMAGO_EXPORT. -/
  keys : List (BitVec 256 × Bool)
  /-- ALLOW_SERVICE. -/
  allowService : Bool
  /-- JOB_FIRST. -/
  jobFirst : Nat
  /-- JOB_LAST. -/
  jobLast : Nat
  deriving DecidableEq, Repr

/-- Zeroing in progress (R403): the grant that waits for it, and who is answered. -/
structure Zeroing where
  /-- Connection and REF of the grant. -/
  conn : BitVec 32
  /-- REF. -/
  ref : W64
  /-- The tenant bound at its end; none: a release. -/
  tenant : Option Tenant
  /-- Digest of the grant (M3). -/
  m3 : BitVec 512
  /-- Timer at its start. -/
  since : Nat
  deriving DecidableEq, Repr

/-- An unseal in progress (R409). -/
structure Unseal where
  /-- Connection. -/
  conn : BitVec 32
  /-- REF. -/
  ref : W64
  /-- Job. -/
  job : BitVec 16
  /-- Key. -/
  key : BitVec 256
  /-- Extents: ADDR, BYTES, NONCE_PREFIX, TAG_ADDR. -/
  extents : List (W64 × Nat × Nat × W64)
  deriving DecidableEq, Repr

/-- The key vault and tenancy (R396 to R417). -/
structure SecState where
  /-- The tenant. -/
  tenant : Option Tenant
  /-- Zeroing in progress. -/
  zeroing : Option Zeroing
  /-- A zeroing has run since the start (R404). -/
  zeroed : Bool
  /-- M0. -/
  m0 : BitVec 512
  /-- M1. -/
  m1 : BitVec 512
  /-- M2. -/
  m2 : BitVec 512
  /-- M3. -/
  m3 : BitVec 512
  /-- M5. -/
  m5 : BitVec 512
  /-- HALL_CAK, once opened (R411). -/
  hallCak : Option (BitVec 256)
  /-- CAK and CKN of P40 and P41, once opened (R413). -/
  hostCak : Option (BitVec 256 × BitVec 128) × Option (BitVec 256 × BitVec 128)
  /-- Consecutive unlock failures. -/
  failures : Nat
  /-- Length of the next lockout in s. -/
  nextLockout : Nat
  /-- A lockout runs until this timer. -/
  lockout : Option Nat
  /-- Unseals in progress, oldest first. -/
  unseals : List Unseal
  deriving DecidableEq, Repr

/-- The vault at reset. -/
def SecState.start : SecState :=
  ⟨none, none, false, 0, 0, 0, 0, 0, none, (none, none), 0, 60, none, []⟩

/-- The health monitor (R333 to R337). -/
structure Health where
  /-- S, FP32. -/
  score : BitVec 32
  /-- 0 Day, 1 Dusk, 2 Night. -/
  level : Nat
  /-- Points of this second. -/
  points : Nat
  /-- CE_COUNT and retry events already turned into points. -/
  base : W64 × W64
  /-- Since when S has stayed below half the threshold of the level, plus one. -/
  lowSince : Nat
  /-- Immediate inputs whose condition persists (codes). -/
  immediate : List Nat
  /-- Withdrawn (R335). -/
  withdrawn : Bool
  /-- Feed domain in use (R336). -/
  domain : Nat
  /-- F-6103 was raised. -/
  mismatch : Bool
  deriving DecidableEq, Repr

/-- The health monitor at reset (R333: S = RISK_SEED, default 0). -/
def Health.start : Health := ⟨0, 0, 0, (0, 0), 0, [], false, 15, false⟩

/-- A log record that waits in the queue (R481, R482). -/
structure LogRec where
  /-- UPTIME_NS. -/
  uptime : W64
  /-- CODE. -/
  code : Nat
  /-- KIND. -/
  kind : Nat
  /-- JOB_ID where JOB_VALID. -/
  job : Option (BitVec 16)
  /-- REPEATS. -/
  repeats : Nat
  /-- DROPPED. -/
  dropped : Nat
  /-- DETAIL. -/
  detail : W64 × W64
  /-- TENANT_ID. -/
  tenant : BitVec 32
  deriving DecidableEq, Repr

/-- The log (R481 to R486). -/
structure LogState where
  /-- The queue, oldest first. -/
  queue : List LogRec
  /-- LOG_SEQ_NEXT. -/
  next : W64
  /-- BIND_SEQ. -/
  bindSeq : W64
  /-- Events dropped since the last record was queued. -/
  dropped : Nat
  /-- Sector of the ring in use and the next slot in it; none: the ring has no valid sector yet. -/
  pos : Option (Nat × Nat)
  /-- SECTOR_SEQ of that sector. -/
  sectorSeq : W64
  /-- Sectors written, oldest first: ring index and LOG_SEQ of its first record. -/
  sectors : List (Nat × W64)
  /-- Timers of the records taken in the last second. -/
  taken : List Nat
  /-- The scan of R484 has ended. -/
  scanned : Bool
  /-- First LOG_SEQ that LOG_REPLAY shows, while an unlock is held. -/
  replay : Option W64
  deriving DecidableEq, Repr

/-- The log after reset, before the scan. -/
def LogState.start : LogState := ⟨[], 0, 0, 0, none, 0, [], [], false, none⟩

/-- Staging (R444, R445). -/
structure Staging where
  /-- Connection. -/
  conn : BitVec 32
  /-- Target bank B. -/
  bank : Bool
  /-- TOTAL. -/
  total : Nat
  /-- Bytes received. -/
  got : Nat
  /-- 1 ERASING, 2 RECEIVING, 3 CHECKING. -/
  st : Nat
  /-- The fragments whose flash operations run or wait, oldest first: REF, OFFSET and bytes. -/
  pend : List (W64 × Nat × List Byte)
  deriving DecidableEq, Repr

/-- Image control (R421 to R446). -/
structure ImgState where
  /-- Flash bytes by offset; an unlisted byte is 0xFF. -/
  flash : Sp Byte
  /-- Certificates 2, 3 and 4 of R397, in this order, as the controller's area of the flash holds them (R421): the spec gives them no
  offset, and nothing writes there. -/
  chain : List (List Byte)
  /-- Fused rollback level. -/
  fused : Nat
  /-- ROLLBACK_LEVEL as word 0x9000 shows it: the fused level read at this start (R446). -/
  shown : Nat
  /-- BANK_IN_USE; none in safe mode. -/
  bank : Option Bool
  /-- IMAGE_SEQ of the image run. -/
  seq : W64
  /-- ROLLBACK of the image run. -/
  rollback : Nat
  /-- BANK_CHECK, confirmed, tries, rollback, sequence of banks A and B. -/
  checkA : Nat × Bool × Nat × Nat × W64
  /-- As checkA. -/
  checkB : Nat × Bool × Nat × Nat × W64
  /-- The clamp report. -/
  clamps : List (W64 × W64)
  /-- Staging in progress. -/
  staging : Option Staging
  /-- STAGE_CODE and STAGE_CAUSE of the last staging, its bank and bytes. -/
  outcome : Nat × Nat × Bool × Nat
  deriving DecidableEq, Repr

/-- Flash as at manufacture, which holds the certificates (log 5), and nothing chosen. -/
def ImgState.start : ImgState :=
  ⟨[], [Config.certificate 2, Config.certificate 3, Config.certificate 4], 0, 0, none, 0, 0, (1, false, 0, 0, 0), (1, false, 0, 0, 0), [], none, (0, 0, false, 0)⟩

/-- Where the start sequence stands. -/
inductive Phase where
  /-- No power, or held in reset. -/
  | off
  /-- Rows 1 to 5 of Table 18-3 have run; links train (row 6), and READY awaits row 7. -/
  | starting
  /-- READY. -/
  | ready
  /-- Safe mode (R442). -/
  | safe
  deriving DecidableEq, Repr

/-- Start-up and pins (R448 to R461, R472 to R475). -/
structure StartState where
  /-- Phase. -/
  phase : Phase
  /-- The duration timer in ns. -/
  timer : W64
  /-- The reference is locked. -/
  runs : Bool
  /-- START_ROW. -/
  row : Nat
  /-- START_CAUSE of this start, or of the one that follows while the module is off: 0 power-on, 1 the reset pin, 2 the watchdog. -/
  cause : BitVec 2
  /-- FEED_ID strap as taken. -/
  feed : Nat
  /-- SLOT_PRESENT_L sampled low. -/
  slot : Bool
  /-- READY_AT_NS. -/
  readyAt : W64
  /-- ROW_END_NS of rows 1 to 7. -/
  rowEnd : List W64
  /-- START_COUNT. -/
  starts : W64
  /-- RESET_PIN_COUNT. -/
  pinResets : W64
  /-- WATCHDOG_COUNT. -/
  watchdogs : W64
  /-- Every rail is in regulation (R458). -/
  rails : Bool
  /-- The blade voltage lies within 40 to 60 V (R458). -/
  input : Bool
  /-- Resets by the pin or the watchdog to record at the next start: codes. -/
  owed : List Nat
  deriving DecidableEq, Repr

/-- Before power: nothing runs; counts as at manufacture. -/
def StartState.start : StartState :=
  ⟨.off, 0, false, 0, 0, 15, false, 0, List.replicate 7 0, 0, 0, 0, false, false, []⟩

/-- A crossing between clockless logic and an island (R450): its slots, each a holding register with a request toggle that
the sender drives and an acknowledge toggle that the receiver drives. A slot is full while its two toggles differ. -/
structure Crossing where
  /-- The holding registers, by slot; an unlisted one holds nothing. -/
  regs : Sp (List Byte)
  /-- The request toggles, by slot. -/
  req : Sp Bool
  /-- The acknowledge toggles, by slot. -/
  ack : Sp Bool
  /-- The slot that the sender uses next. -/
  put : Nat
  /-- The slot that the receiver uses next. -/
  take : Nat
  /-- OVERRUN (R453). -/
  overrun : Bool
  deriving DecidableEq, Repr

/-- A crossing after its reset: every slot free, no OVERRUN (R454). -/
def Crossing.start : Crossing := ⟨[], [], [], 0, 0, false⟩

/-- What leaves the module, in order: the MODEL's own record (log 2). -/
inductive Out where
  /-- A frame on a fabric port, with its first 22 bytes, its PN, whether its FCS is valid, and all its bytes (R242, R413, R453). -/
  | frame (p : Nat) (h : EthHdr) (f : Frame) (pn : Nat) (fcsOk : Bool) (bytes : List Byte)
  /-- A sequenced message to a connection: its header, and what follows the header (R372). -/
  | message (path : UdpPath) (h : OHdr) (m : OMsg) (body : List Byte)
  /-- An ACK datagram to a connection: its header, and what follows it. -/
  | ack (path : UdpPath) (h : OHdr) (body : List Byte)
  /-- An OPEN_REPLY: its header, STATUS, MODULE_EPHEMERAL, MODULE_NONCE, SIGNATURE. -/
  | openReply (path : UdpPath) (h : OHdr) (status : Nat) (eph : BitVec 256) (nonce : BitVec 128) (sig : BitVec 512)
  /-- The frame that port p, or the service link as 42, was sending ended with an invalid FCS (R453). -/
  | spoiled (p : Nat)
  /-- An ICMPv6 answer on host port p. -/
  | icmp (p : Fin 2) (echo : Bool) (data : List Byte)
  deriving DecidableEq, Repr

/-- The state of the module. -/
structure State where
  /-- Configuration in force. -/
  cfg : Cfg
  /-- Start-up and pins. -/
  start : StartState
  /-- Tiles; an unlisted tile is in its start state. -/
  tiles : Sp TileState
  /-- Stacked memory. -/
  mem : MemState
  /-- Job contexts, oldest first. -/
  jobs : List JobCtx
  /-- Held packages, in the order of acceptance. -/
  pkgs : List Pkg
  /-- The evaluation windows that are open, one for a job, in the order of their opening. -/
  eval : List EvalWin
  /-- Imago exports that wait or run. -/
  imagos : List ImagoReq
  /-- Ports P00 to P41; an unlisted port is in its start state. -/
  ports : Sp Port
  /-- The crossings of Table 18-1, by number; an unlisted one is as after its reset. -/
  crossings : Sp Crossing
  /-- Transfers of this module that wait for replies, oldest first. -/
  xfers : List Xfer
  /-- Next XFER_ID to try. -/
  nextXfer : Nat
  /-- Open tallies. -/
  tallies : List OpenTally
  /-- Power. -/
  power : PowerState
  /-- Arbiters 0 to 15. -/
  arbs : Sp Arbiter
  /-- Connections. -/
  conns : List Conn
  /-- The next CONN_ID to assign. -/
  nextConn : Nat
  /-- Queues of R380 by HOST_KEY. -/
  hostQueues : List (BitVec 256 × List OMsg)
  /-- Assemblies. -/
  assemblies : List Assembly
  /-- Quarantined sources, each with the timer at its quarantine (R392). -/
  quarantined : List (BitVec 128 × Nat)
  /-- Violations of sources: address, timer. -/
  hostViol : List (BitVec 128 × Nat)
  /-- Timers of the OPEN signatures verified in the last second (R377). -/
  opens : List Nat
  /-- Security. -/
  sec : SecState
  /-- Health monitor. -/
  health : Health
  /-- Log. -/
  log : LogState
  /-- Image control. -/
  img : ImgState
  /-- Live status words: counters and records, by status offset. -/
  stat : Sp W64
  /-- Words published at the last 1-second refresh, with their rounding. -/
  pub : Sp W64
  /-- Words published at the last 1 ms refresh, without rounding (R414). -/
  pubExact : Sp W64
  /-- What left the module (the model's record, log 2). -/
  out : List Out
  /-- Free values drawn (the model's counter, log 3). -/
  freeCtr : Nat
  /-- The commands that wait, first in, first out. -/
  pending : List Instr
  deriving DecidableEq, Repr

/-- The module before power reaches its blades for the first time since manufacture: nothing runs, the flash is erased
(log 5), every counter of Table 18-6 is 0, and every other field has the value of INVENTORY.md. -/
def State.reset : State :=
  { cfg := Cfg.start, start := StartState.start, tiles := [], mem := MemState.start, jobs := [], pkgs := [], eval := [],
    imagos := [], ports := [], crossings := [], xfers := [], nextXfer := 0, tallies := [], power := PowerState.start, arbs := [], conns := [],
    nextConn := 1, hostQueues := [], assemblies := [], quarantined := [], hostViol := [], opens := [], sec := SecState.start,
    health := Health.start, log := LogState.start, img := ImgState.start, stat := [], pub := [], pubExact := [], out := [],
    freeCtr := 0, pending := [] }

end Sys2Proof.Machine
end

