-- ==== Sys2Proof/Machine/Ops.lean ====
section
/-!
DEFINITION. The named operations over the state that every family uses: access to units, status words, records and
the log (R82, R214, R268, R295, R346, R394, R419, R462, R479 to R482), counts (R274, R278), translation and access to
memory (R187 to R212).
-/
namespace Sys2Proof.Machine

/-- The duration timer as a number of ns (R448). -/
def State.now (s : State) : Nat := s.start.timer.toNat

/-- Has a time of `n` ns passed since a moment? -/
def State.passed (s : State) (t n : Nat) : Bool := decide (t + n ≤ s.now)

/-- A tick: nothing is commanded, and where the reference is locked 1 ns passes on the duration timer (R448, log 50). -/
def State.tick (s : State) : State :=
  if s.start.runs then { s with start := { s.start with timer := s.start.timer + 1 } } else s

/-- A tile. -/
def State.tile (s : State) (t : Nat) : TileState := Sp.get TileState.start s.tiles t

/-- The state with a tile replaced. -/
def State.setTile (s : State) (t : Nat) (x : TileState) : State := { s with tiles := Sp.put TileState.start s.tiles t x }

/-- A port. -/
def State.port (s : State) (p : Nat) : Port := Sp.get Port.start s.ports p

/-- The state with a port replaced. -/
def State.setPort (s : State) (p : Nat) (x : Port) : State := { s with ports := Sp.put Port.start s.ports p x }

/-- Does a start run, from row 6 on, or has it ended in READY (Table 18-3)? -/
def State.alive (s : State) : Bool := s.start.phase == .starting || s.start.phase == .ready

/-- An arbiter. -/
def State.arb (s : State) (a : Nat) : Arbiter := Sp.get Arbiter.start s.arbs a

/-- The state with an arbiter replaced. -/
def State.setArb (s : State) (a : Nat) (x : Arbiter) : State := { s with arbs := Sp.put Arbiter.start s.arbs a x }

/-- A live status word. -/
def State.word (s : State) (k : Nat) : W64 := Sp.get 0#64 s.stat k

/-- The state with a live status word replaced. -/
def State.setWord (s : State) (k : Nat) (x : W64) : State := { s with stat := Sp.put 0#64 s.stat k x }

/-- Raise a modular status word (R487). -/
def State.bump (s : State) (k n : Nat) : State := s.setWord k (s.word k + BitVec.ofNat 64 n)

/-- A fresh free value (log 3). -/
def State.free (s : State) : BitVec 512 := Config.freeValue s.freeCtr

/-- The state after drawing a free value. -/
def State.drawn (s : State) : State := { s with freeCtr := s.freeCtr + 1 }

/-- Record something that leaves the module. -/
def State.emit (s : State) (o : Out) : State := { s with out := s.out ++ [o] }

/-- A job context. -/
def State.job? (s : State) (j : BitVec 16) : Option JobCtx := s.jobs.find? (·.id == j)

/-- Update a job context, if it exists. -/
def State.updJob (s : State) (j : BitVec 16) (f : JobCtx → JobCtx) : State :=
  { s with jobs := updFirst (·.id == j) f s.jobs }

/-- A held package by tag. -/
def State.pkg? (s : State) (tag : Nat) : Option Pkg := s.pkgs.find? (·.tag == tag)

/-- Update a held package. -/
def State.updPkg (s : State) (tag : Nat) (f : Pkg → Pkg) : State := { s with pkgs := updFirst (·.tag == tag) f s.pkgs }

/-- A connection by CONN_ID. -/
def State.conn? (s : State) (c : BitVec 32) : Option Conn := s.conns.find? (·.id == c)

/-- Update a connection. -/
def State.updConn (s : State) (c : BitVec 32) (f : Conn → Conn) : State := { s with conns := updFirst (·.id == c) f s.conns }

/-- The kind of a code (Table 20-2): 0 EVENT, 1 TASK, 2 HARDWARE, 3 DECLINE, 4 VIOLATION. -/
def kindOf (code : Nat) : Nat :=
  if [0x2101, 0x2102, 0x2103, 0x2104, 0x5301, 0x6103, 0x6201, 0x6502, 0x7106, 0x7201, 0x8401, 0x8402, 0x9101, 0x9102,
      0x9103, 0x9201, 0x9202, 0xA104, 0xA105, 0xA301, 0xB101, 0xB103, 0xB105, 0xB201, 0xB301].contains code then 0
  else if [0x1301, 0x1303, 0x1304, 0x3205, 0x3206, 0x5302, 0x9305, 0xA101, 0xA102, 0xA103, 0xB202].contains code then 2
  else if [0x2301, 0x2302, 0x2303, 0x2304, 0x2305, 0x2306, 0x4305, 0x7101, 0x7102, 0x7104, 0x7105].contains code then 4
  else if [0x1204, 0x1205, 0x1207, 0x4102, 0x5101, 0x6101, 0x6102, 0x6104, 0x6105, 0x6303, 0x6501, 0x7103, 0x7301, 0x7302,
      0x7303, 0x7304, 0x7305, 0x8102, 0x8201, 0x8203, 0x8204, 0x8205, 0x8301, 0x8302, 0x8303, 0x8304, 0x8305, 0x8501,
      0x8502, 0x8503, 0x9301, 0x9302, 0x9303, 0x9304, 0x9306, 0xA201, 0xA202, 0xA203, 0xA204, 0xA205, 0xA206].contains code
    then 3
  else 1

/-- Is an event of a kind and code a hardware failure that R360 names: one of kind HARDWARE, but for F-9305, which affects no
package, or a link that fails (Table 14-5)? -/
def isFailure (kind code : Nat) : Bool := (kind == 2 && code != 0x9305) || code == 0x2101

/-- Queue a log record of a code with a given kind, merging and dropping as R482 says; a hardware failure is
noted as known (R362). -/
def State.logAs (s0 : State) (kind code : Nat) (job : Option (BitVec 16)) (detail : W64 × W64) : State :=
  let s := if isFailure kind code then { s0 with power := { s0.power with hardware := some (code, s0.now) } } else s0
  let l := s.log
  let same (r : LogRec) : Bool := r.code == code && decide (r.detail = detail)
  let more (r : LogRec) : LogRec := { r with repeats := min (r.repeats + 1) (2 ^ 32 - 1) }
  if l.queue.any same then { s with log := { l with queue := updFirst same more l.queue } }
  else if 1024 ≤ l.queue.length then
    { s with log := { l with dropped := min (l.dropped + 1) 65535 } }.bump 0x0718 1
  else
    let r : LogRec := ⟨s.start.timer, code, kind, job, 0, l.dropped, detail, match s.sec.tenant with | some t => t.id | none => 0⟩
    { s with log := { l with dropped := 0, queue := l.queue ++ [r] } }

/-- Log a code with its catalogue kind (R480). -/
def State.logEvent (s : State) (code : Nat) (job : Option (BitVec 16)) (detail : W64 × W64) : State :=
  s.logAs (kindOf code) code job detail

/-- Write record n mod `m` at `base` + 8, then raise the count at `base` (R82, R214, R268, R295, R346, R394, R419,
R462). -/
def State.record (s : State) (base m : Nat) (w : W64 × W64) : State :=
  let n := (s.word base).toNat % m
  ((s.setWord (base + 8 + 16 * n) w.1).setWord (base + 16 + 16 * n) w.2).bump base 1

/-- Record and log a synchronisation fault (R295): code, index or slot, source hall number, job, value before, increment. -/
def State.syncFault (s : State) (code idx src : Nat) (job : BitVec 16) (before inc : Nat) : State :=
  let w : W64 × W64 := (BitVec.ofNat 64 (code + idx * 2 ^ 16 + src * 2 ^ 28 + job.toNat * 2 ^ 42),
    BitVec.ofNat 64 (before + inc * 2 ^ 32))
  (s.record 0x4100 16 w).logEvent code (some job) w

/-- Record and log a Chrysalis event (R346): code, level, device, TENSOR_ID, job, step. -/
def State.chrEvent (s : State) (code level device tensor : Nat) (job : BitVec 16) (step : Nat) : State :=
  let w : W64 × W64 := (BitVec.ofNat 64 (code + level * 2 ^ 16 + device % 2 ^ 14 * 2 ^ 18 + tensor * 2 ^ 32 + job.toNat * 2 ^ 48),
    BitVec.ofNat 64 step)
  (s.record 0x6100 16 w).logEvent code (some job) w

/-- Record and log a host fault (R394): code, port, TYPE, CONN_ID, and the low 64 bits of the source address, its last byte in bits [7:0]
(DESIGN CHOICE, log 144). -/
def State.hostFault (s : State) (code : Nat) (port : Fin 3) (type : Nat) (conn : BitVec 32) (src : BitVec 128) : State :=
  let w : W64 × W64 := (BitVec.ofNat 64 (code + port.val * 2 ^ 16 + type * 2 ^ 18 + conn.toNat * 2 ^ 26), src.truncate 64)
  (s.record 0x7400 16 w).logEvent code none w

/-- Record and log a security fault (R419): code, role, CONN_ID. -/
def State.secFault (s : State) (code role : Nat) (conn : BitVec 32) : State :=
  let w : W64 × W64 := (BitVec.ofNat 64 (code + role % 4 * 2 ^ 16 + conn.toNat * 2 ^ 18), s.start.timer)
  (s.record 0x8100 16 w).logEvent code none w

/-- Record and log a crossing event (R462): code, island kind, instance, direction. -/
def State.xingEvent (s : State) (code kind inst : Nat) (dir : Bool) : State :=
  let w : W64 × W64 := (BitVec.ofNat 64 (code + kind * 2 ^ 16 + inst * 2 ^ 19 + bit dir * 2 ^ 29), s.start.timer)
  (s.record 0xB400 16 w).logEvent code none w

/-- Add points to the health monitor's second (Table 13-5). -/
def State.points (s : State) (n : Nat) : State := { s with health := { s.health with points := s.health.points + n } }

/-! ### Descriptors (Table 03-3) -/

/-- KERNEL_ID of a descriptor. -/
def Desc.kernel (d : Desc) : Nat := fld d.w0.toNat 0 16
/-- TASK_INDEX. -/
def Desc.index (d : Desc) : Nat := fld d.w0.toNat 16 16
/-- CLASS Vesper. -/
def Desc.vesper (d : Desc) : Bool := flag d.w0.toNat 32
/-- PORTABLE. -/
def Desc.portable (d : Desc) : Bool := flag d.w0.toNat 33
/-- SCOPE. -/
def Desc.scope (d : Desc) : Nat := fld d.w0.toNat 34 2
/-- USES_MATRIX. -/
def Desc.usesMatrix (d : Desc) : Bool := flag d.w0.toNat 36
/-- STOLEN. -/
def Desc.stolen (d : Desc) : Bool := flag d.w0.toNat 37
/-- HOME_TILE. -/
def Desc.home (d : Desc) : Nat := fld d.w0.toNat 38 10
/-- PACKAGE_TAG. -/
def Desc.tag (d : Desc) : Nat := fld d.w0.toNat 48 5
/-- COST_S. -/
def Desc.cost (d : Desc) : Nat := fld d.w3.toNat 16 32
/-- DONE_COUNT where DONE_VALID. -/
def Desc.done (d : Desc) : Option Nat := if flag d.w3.toNat 12 then some (fld d.w3.toNat 0 12) else none
/-- The descriptor with STOLEN set. -/
def Desc.steal (d : Desc) : Desc := { d with w0 := d.w0 ||| BitVec.ofNat 64 (2 ^ 37) }
/-- The descriptor with its PACKAGE_TAG. -/
def Desc.withTag (d : Desc) (t : Nat) : Desc := { d with w0 := (d.w0 &&& BitVec.ofNat 64 (2 ^ 48 - 1)) ||| BitVec.ofNat 64 (t * 2 ^ 48) }

/-! ### Kernels -/

/-- INDEX of a COUNT_REF. -/
def refIndex (r : Nat) : Nat := fld r 0 12

/-- A kernel of a package. -/
def Pkg.kernel? (p : Pkg) (k : Nat) : Option Kernel := p.kernels.find? (·.id == k)

/-- Is a kernel one of the step's update and multicast kernels: one that waits on VERDICT_COUNT + 4 (R309, log 28)? -/
def JobCtx.isUpdate (j : JobCtx) (k : Kernel) : Bool :=
  match j.grad with
  | none => false
  | some g => k.waits.any fun w => refIndex w.1 == g.verdictCount + 4

/-! ### Positions and devices (R238, R240) -/

/-- This module's hall number; 0 where HALL_POSITION is invalid. -/
def State.hall (s : State) : Nat :=
  match s.cfg.hallPos with | some (a, b, c, d) => ((a * 11 + b) * 11 + c) * 11 + d | none => 0

/-- Coordinate of a hall or device number in dimension k. -/
def coordOf (h k : Nat) : Nat :=
  match k with | 0 => h / 1331 % 11 | 1 => h / 121 % 11 | 2 => h / 11 % 11 | _ => h % 11

/-- DIM_SIZE of dimension k. -/
def State.dimSize (s : State) (k : Nat) : Nat :=
  match k with | 0 => s.cfg.dimSize.1 | 1 => s.cfg.dimSize.2.1 | 2 => s.cfg.dimSize.2.2.1 | _ => s.cfg.dimSize.2.2.2

/-- The hall number that plays a device number in a job (R240). -/
def JobCtx.hallOf (j : JobCtx) (d : Nat) : Nat := match j.remap.find? (·.1 == d) with | some x => x.2 | none => d

/-- The device number that this module plays in a job. -/
def State.deviceOf (s : State) (j : JobCtx) : Nat := match j.remap.find? (·.2 == s.hall) with | some x => x.1 | none => s.hall

/-- Does this module play the device of an address in a job (R240)? -/
def State.plays (s : State) (j : JobCtx) (d : Nat) : Bool := d == 0x3FFF || j.hallOf d == s.hall

/-! ### Wake wires and counts (R74, R273 to R278) -/

/-- A wake wire fires at a tile: every waiting engine rechecks, and retention ends; the tile then owes a word (R74, R77). -/
def State.wake (s : State) (t : Nat) : State :=
  let x := s.tile t
  let w (c : Option Ctx) : Option Ctx := c.map fun c => { c with waiting := false }
  s.setTile t { x with noon := w x.noon, vesper := w x.vesper, retained := false, probed := false, woken := x.woken || x.retained }

/-- Fire a wire at several tiles. -/
def State.wakeAll (s : State) : List Nat → State
  | [] => s
  | t :: ts => (s.wake t).wakeAll ts

/-- The code of an increment that a pair forbids (R278). -/
def JobCtx.pairFault (j : JobCtx) (i inc : Nat) : Option Nat :=
  let val (k : Nat) : Nat := (Sp.get 0#32 j.counts k).toNat
  match j.pairs.find? fun p => p.1 == i || p.2.1 == i with
  | none => none
  | some (p, c, cap) =>
    if p = i then if (val p + inc + 2 ^ 32 - val c) % 2 ^ 32 > cap then some 0x4201 else none
    else if (val p + 2 * 2 ^ 32 - val c - inc) % 2 ^ 32 ≥ 2 ^ 31 then some 0x4202 else none

/-- An increment reaches its count (R274, R276, R278): the code that stops it, if any. A missing context discards it
without a code (R273). -/
def State.raiseCount (s : State) (job : BitVec 16) (i inc src : Nat) : Option Nat × State :=
  match s.job? job with
  | none => (none, s)
  | some j =>
    let v := (Sp.get 0#32 j.counts i).toNat
    match j.pairFault i inc with
    | some c => (some c, (s.syncFault c i src job v inc).bump 0x4030 1)
    | none =>
      let woken := (j.watch.filter (·.1 == i)).map (·.2)
      let s := s.updJob job fun j =>
        { j with counts := Sp.put 0#32 j.counts i (BitVec.ofNat 32 (v + inc)), watch := j.watch.filter (·.1 != i) }
      (none, s.wakeAll woken)

/-- Is a count's target reached (R275)? -/
def JobCtx.reachedAt (j : JobCtx) (i target : Nat) : Bool :=
  decide (((Sp.get 0#32 j.counts i).toNat + 2 ^ 32 - target % 2 ^ 32) % 2 ^ 32 < 2 ^ 31)

/-! ### Translation and memory (R187 to R212) -/

/-- Where a byte lies: DRAM (channel * 2^32 + byte) or a tile's scratchpad. -/
inductive Place where
  /-- A DRAM byte. -/
  | dram (k : Nat)
  /-- A scratchpad byte. -/
  | scratch (t off : Nat)
  deriving DecidableEq, Repr

/-- Which rights map applies (R207). -/
inductive Origin where
  | tile | remote | host
  deriving DecidableEq, Repr

/-- Kinds of access (R207). -/
inductive Access where
  | read | write | accumulate | atomic
  deriving DecidableEq, Repr

/-- The 2-bit code of a key in a rights map (R207). -/
def rightsCode (m : List Byte) (key : Nat) : Nat := fld (nth 0#8 m (key / 4)).toNat (2 * (key % 4)) 2

/-- Does the rights code allow the access (R207)? -/
def allowed (c : Nat) : Access → Bool
  | .read => decide (1 ≤ c)
  | .accumulate => decide (2 ≤ c)
  | .write => c == 3
  | .atomic => c == 3

/-- The rights map that applies. -/
def JobCtx.rights (j : JobCtx) : Origin → List Byte
  | .tile => j.localRights
  | .remote => j.remoteRights
  | .host => j.hostRights

/-- The evaluation window that is open for a job (R343). -/
def State.window? (s : State) (job : BitVec 16) : Option EvalWin := s.eval.find? (·.job == job)

/-- Is a write to the key forbidden by an open evaluation window of the job (R343)? -/
def State.stateKey (s : State) (j : JobCtx) (key : Nat) : Bool :=
  match s.window? j.id, j.chrys with
  | some _, some c => c.stateKeys.getLsbD key
  | _, _ => false

/-- Translate one byte address at this module (R203 to R208): the place, or the first failing code. -/
def State.translate (s : State) (job : BitVec 16) (o : Origin) (k : Access) (vesper : Bool) (a : Nat) : Except Nat Place :=
  let a := a % 2 ^ 64
  let sp := fld a 56 8
  let dev := fld a 42 14
  if sp > 1 ∨ (14641 ≤ dev ∧ dev ≤ 16382) then .error 0x1201
  else
    match s.job? job with
    | none => .error 0x1202
    | some j =>
      if !s.plays j dev then .error 0x1202
      else
        match j.pages.find? fun p => p.window == (sp == 1) && p.vpage == fld a 21 21 with
        | none => .error 0x1202
        | some p =>
          if !allowed (rightsCode (j.rights o) p.key) k then .error 0x1203
          else if (k == .write || k == .accumulate || k == .atomic) && s.stateKey j p.key then .error 0x1203
          else if p.window then
            let off := p.place % 3 * 2 ^ 21 + fld a 0 21
            if areaOk vesper off 1 then .ok (.scratch (p.place / 3) off) else .error 0x1206
          else
            let ch := p.place / 2048
            if Sp.get false s.mem.failed ch then .error 0x1304
            else .ok (.dram (ch * 2 ^ 32 + p.place % 2048 * 2 ^ 21 + fld a 0 21))

/-- Translate `n` consecutive bytes, page by page (R203). -/
def State.places (s : State) (job : BitVec 16) (o : Origin) (k : Access) (vesper : Bool) (a : Nat) : Nat → Except Nat (List Place)
  | 0 => .ok []
  | n + 1 => do
    let p ← s.translate job o k vesper a
    let ps ← s.places job o k vesper (a + 1) n
    .ok (p :: ps)

/-- The byte at a place. -/
def State.byteAt (s : State) : Place → Byte
  | .dram k => Mem.get s.mem.dram k
  | .scratch t off => Mem.get (s.tile t).scratch off

/-- Is a place in an uncorrectable beat (R194)? -/
def State.poisonAt (s : State) : Place → Bool
  | .dram k => Sp.get false s.mem.poison (k / 32)
  | .scratch _ _ => false

/-- The record of R214: beat number channel * 2^27 + beat; finder. -/
def ueWords (beat finder : Nat) : W64 × W64 :=
  let b := beat % 2 ^ 27
  (BitVec.ofNat 64 (beat / 2 ^ 27 + b / 65536 * 2 ^ 10 + finder * 2 ^ 21), BitVec.ofNat 64 (b % 65536))

/-- Count and record an uncorrectable beat (R194, R214). -/
def State.ueFound (s : State) (beat finder : Nat) : State := ((s.bump 0x1018 1).record 0x1400 8 (ueWords beat finder)).points 50

/-- The beat of a DRAM place. -/
def Place.beat : Place → Nat
  | .dram k => k / 32
  | .scratch _ _ => 0

/-- Count and record several uncorrectable beats, in order. -/
def State.ueEach (s : State) (finder : Nat) : List Nat → State
  | [] => s
  | b :: bs => (s.ueFound b finder).ueEach finder bs

/-- A request that raises F-1101 or F-1102 has met uncorrectable beats: all are counted and recorded, and the log of the code names
the first, for which it is raised (R194, R195, R481). -/
def State.ueAll (s : State) (finder : Nat) (bs : List Nat) : State :=
  match bs with
  | [] => s
  | b :: _ =>
    let s1 := s.ueEach finder bs
    { s1 with mem := { s1.mem with found := ueWords b finder } }

/-- The uncorrectable beats among places, each once, in order. -/
def State.badOf (s : State) (ps : List Place) : List Nat := ((ps.filter s.poisonAt).map Place.beat).eraseDups

/-- Read places (R194): the bytes, or F-1101; every beat found uncorrectable is counted and recorded. -/
def State.readPlaces (s : State) (ps : List Place) : Except Nat (List Byte) × State :=
  match s.badOf ps with
  | [] => (.ok (ps.map s.byteAt), s)
  | bs => (.error 0x1101, s.ueAll 0 bs)

/-- A translation fault raised at this module is counted (R213); another code is not. -/
def State.countXlate (s : State) (c : Nat) : State :=
  if c = 0x1202 ∨ c = 0x1203 ∨ c = 0x1206 then s.bump 0x1038 1 else s

/-- Read bytes at a global address of this module: a translation fault is counted (R213). -/
def State.readMem (s : State) (job : BitVec 16) (o : Origin) (vesper : Bool) (a n : Nat) : Except Nat (List Byte) × State :=
  match s.places job o .read vesper a n with
  | .error c => (.error c, s.countXlate c)
  | .ok ps => s.readPlaces ps

/-- Write one byte at a place. -/
def State.putByte (s : State) (p : Place) (b : Byte) : State :=
  match p with
  | .dram k => { s with mem := { s.mem with dram := Mem.set s.mem.dram k b } }
  | .scratch t off => let x := s.tile t; s.setTile t { x with scratch := Mem.set x.scratch off b }

/-- The beats that a write covers only in part and that are uncorrectable (R195). -/
def State.badBeats (s : State) (ws : List (Place × Byte)) : List Nat :=
  (s.badOf (ws.map (·.1))).filter fun b => !((List.range 32).all fun i => ws.any fun w => w.1 == .dram (b * 32 + i))

/-- Write bytes at places as one request (R195): every beat but an uncorrectable one written in part; a whole beat
written clears it; F-1102 for the first beat that fails. -/
def State.writePlaces (s : State) (ws : List (Place × Byte)) (finder : Nat) : Option Nat × State :=
  let bad := s.badBeats ws
  let good := ws.filter fun w => match w.1 with | .dram k => !bad.contains (k / 32) | .scratch _ _ => true
  let s1 := good.foldl (fun (s : State) w => s.putByte w.1 w.2) s
  let s2 := good.foldl (fun (s : State) w => match w.1 with
    | .dram k => { s with mem := { s.mem with poison := Sp.drop s.mem.poison (k / 32) } }
    | .scratch _ _ => s) s1
  match bad with
  | [] => (none, s2)
  | _ :: _ => (some 0x1102, s2.ueAll finder bad)

/-- Write bytes at a global address of this module: a fault of translation changes no memory (R208). -/
def State.writeMem (s : State) (job : BitVec 16) (o : Origin) (vesper : Bool) (a : Nat) (bs : List Byte) : Option Nat × State :=
  match s.places job o .write vesper a bs.length with
  | .error c => (some c, s.countXlate c)
  | .ok ps => s.writePlaces (List.zip ps bs) 3

/-- Write places each of whose beats is read, modified and written, whole or not (R195, R211, R212). -/
def State.modifyPlaces (s : State) (ws : List (Place × Byte)) : Option Nat × State :=
  let bad := s.badOf (ws.map (·.1))
  let good := ws.filter fun w => match w.1 with | .dram k => !bad.contains (k / 32) | .scratch _ _ => true
  let s1 := good.foldl (fun (s : State) w => s.putByte w.1 w.2) s
  match bad with
  | [] => (none, s1)
  | _ :: _ => (some 0x1102, s1.ueAll 2 bad)

/-- Is the status word offset one that a reader finds beyond the snapshots: format and move counters are live (R55,
R236). -/
def liveOffset (k : Nat) : Bool := decide (0x3A00 ≤ k ∧ k ≤ 0x3A08) || decide (0x3E00 ≤ k ∧ k ≤ 0x3E20)

end Sys2Proof.Machine
end

