-- ==== Sys2Proof/Machine/Arbiters.lean ====
section
/-!
DEFINITION. Shared-resource arbiters (R363 to R367).
-/
namespace Sys2Proof.Machine

/-- Is the requester one of the arbiter's (Table 14-7)? -/
def arbiterHas (arb who : Nat) : Bool :=
  if arb ≤ 7 then decide (who ≤ 4) || who == 7
  else if arb = 8 then decide (who ≤ 7)
  else if arb = 9 then decide (who ≤ 3) || who == 7
  else if arb ≤ 13 then decide (who ≤ 3)
  else false

/-- Does background hold fewer than 2 % of the last 1,000 grants (R366)? Grants before the first count as 2 % background (R460), so
that the share of the real ones decides. -/
def Arbiter.due (a : Arbiter) : Bool := decide ((a.grants.filter id).length * 100 < 2 * a.grants.length)

/-- The rank that counts: a background request is due or not (R364). -/
def Arbiter.rankOf (a : Arbiter) (q : ArbReq) : Nat := if q.rank = 3 then (if a.due then 0 else 3) else q.rank.val

/-- Does one request go before another in the queue (R365)? -/
def Arbiter.before (a : Arbiter) (q r : ArbReq) : Bool :=
  decide (a.rankOf q < a.rankOf r) || (a.rankOf q == a.rankOf r && decide (q.age < r.age))

/-- The request that goes first. -/
def Arbiter.first (a : Arbiter) : List ArbReq → Option ArbReq
  | [] => none
  | q :: qs => match a.first qs with | none => some q | some r => if a.before r q then some r else some q

/-- The request that goes last. -/
def Arbiter.last (a : Arbiter) : List ArbReq → Option ArbReq
  | [] => none
  | q :: qs => match a.last qs with | none => some q | some r => if a.before q r then some r else some q

/-- Park a request; beyond 16 entries the youngest of the lowest rank goes back to its requester (R365, log 42). -/
def Arbiter.park (a : Arbiter) (q : ArbReq) : Arbiter :=
  let qs := a.queue ++ [q]
  if qs.length ≤ 16 then { a with queue := qs }
  else match a.last qs with
    | some x => { a with queue := eraseFirst (· == x) qs, outside := a.outside ++ [x] }
    | none => a

/-- Grant the resource to a request. A background request that is due keeps its place before Vesper through its unit (log 129). -/
def Arbiter.give (a : Arbiter) (q : ArbReq) : Arbiter :=
  { a with holder := some q, heldDue := q.rank == 3 && a.due, grants := ((q.rank == 3) :: a.grants).take 1000 }

/-- Count a grant. -/
def State.countGrant (s : State) (arb who : Nat) : State := s.bump (0xA400 + 0xC0 * arb + 0x18 * who) 1

/-- May a request revoke the holder's grant (R364, R366)? -/
def Arbiter.revokes (a : Arbiter) (q h : ArbReq) : Bool :=
  let hr := if h.rank = 3 then (if a.heldDue then 0 else 3) else h.rank.val
  decide (a.rankOf q < hr) && !(a.rankOf q == 0 && h.rank == 1)

/-- Does a request take the resource from whoever holds it? -/
def Arbiter.wins (a : Arbiter) (q : ArbReq) : Bool := match a.holder with | none => true | some h => a.revokes q h

/-- An arbiter is granted to a request: a holder loses its grant, which is a revocation, and is parked, to restart its unit
(R364, R365); the grant and the longest wait are counted (R367). -/
def State.arbGive (s : State) (arb : Nat) (a : Arbiter) (q : ArbReq) : State :=
  let a1 := match a.holder with | some h => a.park { h with at_ := s.now } | none => a
  let k := 0xA410 + 0xC0 * arb + 0x18 * q.who
  let w := BitVec.ofNat 64 (max (s.word k).toNat (s.now - q.at_))
  (((s.setArb arb (a1.give q)).countGrant arb q.who).setWord k w).bump (0xA300 + 8 * arb) (bit a.holder.isSome)

/-- A grant may have made a parked background request due: where one that is parked now outranks the holder, it revokes the grant
at once (R364, R366). -/
def State.arbSettle (s : State) (arb : Nat) : State :=
  let a := s.arb arb
  match a.holder, a.first a.queue with
  | some h, some w => if a.revokes w h then s.arbGive arb { a with queue := eraseFirst (· == w) a.queue } w else s
  | _, _ => s

/-- One request of one unit arrives: of it and those parked the first takes the resource if it is free or if it may revoke the
holder's grant, so that a due background request goes before a Vesper one that arrives; a request not granted on arrival waits
(R364 to R367). -/
def State.arbAsk (s : State) (arb : Nat) (rank : Fin 4) (who : Nat) : State :=
  let a := s.arb arb
  let q : ArbReq := ⟨rank, who, a.next, s.now⟩
  let a1 := { a with next := a.next + 1 }
  let wait (s : State) : State := s.bump (0xA408 + 0xC0 * arb + 0x18 * who) 1
  match a.first (a.queue ++ [q]) with
  | none => s
  | some w =>
    if a.wins w then
      let s1 := (s.arbGive arb { a1 with queue := eraseFirst (· == w) (a.queue ++ [q]) } w).arbSettle arb
      if w = q then s1 else wait s1
    else wait (s.setArb arb (a1.park q))

/-- Several units are as many requests. -/
def State.requests (s : State) (arb : Nat) (rank : Fin 4) (who : Nat) : Nat → State
  | 0 => s
  | n + 1 => (s.arbAsk arb rank who).requests arb rank who n

/-- Is a requester of background rank: requester 7, and on the flash interface the staging and the log writer (R363, R366, R444)? -/
def background (arb who : Nat) : Bool := who == 7 || (arb == 9 && (who == 1 || who == 2))

/-- The rank of a request: a background requester's is not its own to choose, and another is Vesper or Noon. -/
def rankFor (arb who : Nat) (rank : Fin 4) : Fin 4 := if background arb who then 3 else if rank = 1 then 1 else 2

/-- ARBITER_REQUEST (R364). Whether a background request is due is the arbiter's to say (R366). -/
def execArbiterRequest (arb : Fin 16) (rank : Fin 4) (requester units : Nat) (s : State) : Host.Outcome State Fault Refusal :=
  if s.start.phase = .off || !arbiterHas arb.val requester then .next s else .next (s.requests arb.val (rankFor arb.val requester rank) requester units)

/-- ARBITER_GRANT: the holder's unit has ended and the next parked request is granted; one that waits outside re-enters
(R365, R367). -/
def execArbiterGrant (arb : Fin 16) (s : State) : Host.Outcome State Fault Refusal :=
  if s.start.phase = .off then .next s
  else
  let a := { s.arb arb.val with holder := none }
  match a.first a.queue with
  | none => .next (s.setArb arb.val a)
  | some q =>
    let a1 := { a with queue := eraseFirst (· == q) a.queue }
    let a2 := match a1.outside with | [] => a1 | x :: xs => ({ a1 with outside := xs }).park x
    .next ((s.arbGive arb.val a2 q).arbSettle arb.val)

end Sys2Proof.Machine
end

