-- ==== Sys2Proof/Machine/Crypto.lean ====
section
/-!
DEFINITION. The published algorithms of the key vault, the connections and the links: AES-256-GCM (FIPS 197, SP 800-38D),
HMAC and HKDF over SHA-512 (RFC 2104, RFC 5869), X25519 (RFC 7748) and Ed25519 (RFC 8032), as R242, R372, R396, R398, R399,
R409, R411, R412 and R417 name them. A key is a number whose little-endian bytes are the key's bytes in order.
-/
namespace Sys2Proof.Machine

/-! ### AES-256-GCM -/

/-- The words of the key schedule of AES-256, newest first, extended `n` times from word `i` under round constant `rc`. -/
def aes256Words : Nat → Nat → Nat → List (List Nat) → List (List Nat)
  | 0, _, _, ws => ws
  | n + 1, i, rc, ws =>
    let last := nth [] ws 0
    let turned := if i % 8 = 0 then xorL ((last.drop 1 ++ last.take 1).map aesSub) [rc, 0, 0, 0]
      else if i % 8 = 4 then last.map aesSub else last
    aes256Words n (i + 1) (if i % 8 = 0 then aesDbl rc else rc) (xorL (nth [] ws 7) turned :: ws)

/-- The fifteen round keys of a 32-byte key. -/
def aes256Keys (key : List Nat) : List (List Nat) :=
  (chunks 4 15 ((aes256Words 52 8 1 (chunks 4 8 key).reverse).reverse)).map List.flatten

/-- The rounds of a state under the round keys that are left. -/
def aes256Rounds : List (List Nat) → List Nat → List Nat
  | [], s => s
  | [k], s => xorL (aesShift (s.map aesSub)) k
  | k :: ks, s => aes256Rounds ks (xorL (aesMix (aesShift (s.map aesSub))) k)

/-- AES-256 of a 16-byte block under its round keys. -/
def aes256Block (ks : List (List Nat)) (x : List Nat) : List Nat := aes256Rounds (ks.drop 1) (xorL x (nth [] ks 0))

/-- The product of two elements of the field of GHASH, a block as a big-endian number: `n` bits of `x` are left, `v` is the
other factor as shifted so far and `z` the sum. -/
def gmul : Nat → Nat → Nat → Nat → Nat
  | 0, _, _, z => z
  | n + 1, x, v, z =>
    gmul n x (if v % 2 = 1 then (v / 2) ^^^ (0xE1 * 2 ^ 120) else v / 2) (if flag x n then z ^^^ v else z)

/-- The 16-byte blocks of a text as big-endian numbers, the last one filled up with zeros. -/
def gcmBlocks (bs : List Byte) : List Nat :=
  let n := cdiv bs.length 16
  (chunks 16 n (bs ++ List.replicate (16 * n - bs.length) 0#8)).map beNat

/-- GHASH of blocks under the hash key. -/
def ghash (h : Nat) (bs : List Nat) : Nat := bs.foldl (fun y b => gmul 128 (y ^^^ b) h 0) 0

/-- Counter block i of a 12-byte nonce. -/
def gcmCounter (nonce : List Byte) (i : Nat) : List Nat := (nonce ++ beBytes 4 i).map (·.toNat)

/-- The first n bytes of the key stream, from counter 2 on. -/
def gcmStream (ks : List (List Nat)) (nonce : List Byte) (n : Nat) : List Nat :=
  ((List.range (cdiv n 16)).flatMap fun i => aes256Block ks (gcmCounter nonce (i + 2))).take n

/-- A text under the key stream: encryption and decryption are the same. -/
def gcmText (ks : List (List Nat)) (nonce text : List Byte) : List Byte :=
  List.zipWith (fun (b : Byte) k => b ^^^ BitVec.ofNat 8 k) text (gcmStream ks nonce text.length)

/-- The tag of a ciphertext. -/
def gcmTag (ks : List (List Nat)) (nonce aad ct : List Byte) : List Byte :=
  let h := beNat ((aes256Block ks (List.replicate 16 0)).map (BitVec.ofNat 8))
  let s := ghash h (gcmBlocks aad ++ gcmBlocks ct ++ [8 * aad.length * 2 ^ 64 + 8 * ct.length])
  beBytes 16 (s ^^^ beNat ((aes256Block ks (gcmCounter nonce 1)).map (BitVec.ofNat 8)))

/-- The round keys of a key. -/
def gcmKeys (key : BitVec 256) : List (List Nat) := aes256Keys (natBytes 32 key.toNat)

/-- AES-256-GCM sealing: the ciphertext, then the 16-byte tag. -/
def gcmSeal (key : BitVec 256) (nonce aad text : List Byte) : List Byte :=
  let ks := gcmKeys key
  let ct := gcmText ks nonce text
  ct ++ gcmTag ks nonce aad ct

/-- AES-256-GCM opening of a ciphertext with its tag; `none`: the tag fails. -/
def gcmOpen (key : BitVec 256) (nonce aad sealed : List Byte) : Option (List Byte) :=
  let ks := gcmKeys key
  let n := sealed.length - 16
  let ct := sealed.take n
  if 16 ≤ sealed.length ∧ gcmTag ks nonce aad ct = sealed.drop n then some (gcmText ks nonce ct) else none

/-! ### HMAC and HKDF -/

/-- HMAC-SHA-512. -/
def hmac (key msg : List Byte) : List Byte :=
  let k0 := if 128 < key.length then sha512 key else key
  let k := k0 ++ List.replicate (128 - k0.length) 0#8
  sha512 (k.map (· ^^^ 0x5C#8) ++ sha512 (k.map (· ^^^ 0x36#8) ++ msg))

/-- The first 64 bytes of output of HKDF-SHA-512: input key material, salt, info. A shorter output is its first part. -/
def hkdfBytes (ikm salt info : List Byte) : List Byte := hmac (hmac salt ikm) (info ++ [1#8])

/-- HKDF-SHA-512 with L = 32. -/
def hkdf (ikm salt info : List Byte) : BitVec 256 := BitVec.ofNat 256 (leNat (hkdfBytes ikm salt info))

/-- HKDF-SHA-512 with L = 44: the key in the low 32 bytes, then the XPN salt (R411, R412). -/
def hkdf44 (ikm salt info : List Byte) : BitVec 352 := BitVec.ofNat 352 (leNat (hkdfBytes ikm salt info))

/-- HKDF-SHA-512 with L = 64: the two keys of a connection, the host's direction in the low half (R398). -/
def hkdf64 (ikm salt info : List Byte) : BitVec 512 := BitVec.ofNat 512 (leNat (hkdfBytes ikm salt info))

/-! ### X25519 -/

/-- The prime of both curves. -/
def fieldP : Nat := 2 ^ 255 - 19

/-- Subtraction in the field. -/
def fieldSub (a b : Nat) : Nat := (a + fieldP - b % fieldP) % fieldP

/-- A power modulo m; `n`: bits of the exponent that are left. -/
def powMod (m : Nat) : Nat → Nat → Nat → Nat → Nat
  | 0, _, _, acc => acc
  | n + 1, b, e, acc => powMod m n (b * b % m) (e / 2) (if e % 2 = 1 then acc * b % m else acc)

/-- The inverse in the field; 0 of 0. -/
def fieldInv (a : Nat) : Nat := powMod fieldP 255 a (fieldP - 2) 1

/-- A private key as a scalar (RFC 7748, RFC 8032). -/
def clampScalar (k : Nat) : Nat := 2 ^ 254 + k % 2 ^ 254 / 8 * 8

/-- One step of the Montgomery ladder on the curve of X25519: the double of the first point and the sum of both. -/
def ladderStep (x1 : Nat) (a b : Nat × Nat) : (Nat × Nat) × (Nat × Nat) :=
  let p := (a.1 + a.2) % fieldP
  let q := fieldSub a.1 a.2
  let pp := p * p % fieldP
  let qq := q * q % fieldP
  let e := fieldSub pp qq
  let da := fieldSub b.1 b.2 * p % fieldP
  let cb := (b.1 + b.2) % fieldP * q % fieldP
  let s := (da + cb) % fieldP
  let d := fieldSub da cb
  ((pp * qq % fieldP, e * (pp + 121665 * e) % fieldP), (s * s % fieldP, x1 * (d * d % fieldP) % fieldP))

/-- The ladder over the low `n` bits of a scalar. -/
def ladder (x1 k : Nat) : Nat → Nat × Nat → Nat × Nat → Nat × Nat
  | 0, a, _ => a
  | n + 1, a, b =>
    if flag k n then
      let r := ladderStep x1 b a
      ladder x1 k n r.2 r.1
    else
      let r := ladderStep x1 a b
      ladder x1 k n r.1 r.2

/-- X25519: a private key and a public key. -/
def x25519 (secret pub : BitVec 256) : BitVec 256 :=
  let u := pub.toNat % 2 ^ 255 % fieldP
  let r := ladder u (clampScalar secret.toNat) 255 (1, 0) (u, 1)
  BitVec.ofNat 256 (r.1 * fieldInv r.2 % fieldP)

/-- The public key of a private key. -/
def x25519Public (secret : BitVec 256) : BitVec 256 := x25519 secret 9

/-! ### Ed25519 -/

/-- A point of the curve in extended coordinates: X, Y, Z and T = XY/Z. -/
structure EdPoint where
  /-- X. -/
  x : Nat
  /-- Y. -/
  y : Nat
  /-- Z. -/
  z : Nat
  /-- T. -/
  t : Nat
  deriving DecidableEq, Repr

/-- The constant d of the curve. -/
def edD : Nat := fieldSub 0 (121665 * fieldInv 121666 % fieldP)

/-- The order of the base point. -/
def edOrder : Nat := 2 ^ 252 + 27742317777372353535851937790883648493

/-- The sum of two points. -/
def edAdd (p q : EdPoint) : EdPoint :=
  let a := fieldSub p.y p.x * fieldSub q.y q.x % fieldP
  let b := (p.y + p.x) * (q.y + q.x) % fieldP
  let c := 2 * p.t * q.t % fieldP * edD % fieldP
  let d := 2 * p.z * q.z % fieldP
  let e := fieldSub b a
  let f := fieldSub d c
  let g := (d + c) % fieldP
  let h := (b + a) % fieldP
  ⟨e * f % fieldP, g * h % fieldP, f * g % fieldP, e * h % fieldP⟩

/-- The low `n` bits of k times a point, added to `acc`. -/
def edTimes (k : Nat) : Nat → EdPoint → EdPoint → EdPoint
  | 0, _, acc => acc
  | n + 1, p, acc => edTimes (k / 2) n (edAdd p p) (if k % 2 = 1 then edAdd acc p else acc)

/-- A scalar times a point. -/
def edMul (k : Nat) (p : EdPoint) : EdPoint := edTimes k 256 p ⟨0, 1, 1, 0⟩

/-- Are two points the same? -/
def edSame (p q : EdPoint) : Bool :=
  p.x * q.z % fieldP == q.x * p.z % fieldP && p.y * q.z % fieldP == q.y * p.z % fieldP

/-- The x of a point with this y and sign, if there is one. -/
def edRoot (y sign : Nat) : Option Nat :=
  if fieldP ≤ y then none
  else
    let xx := fieldSub (y * y) 1 * fieldInv ((edD * (y * y % fieldP) + 1) % fieldP) % fieldP
    if xx = 0 then (if sign = 1 then none else some 0)
    else
      let r := powMod fieldP 255 xx ((fieldP + 3) / 8) 1
      let x := if r * r % fieldP = xx then r else r * powMod fieldP 255 2 ((fieldP - 1) / 4) 1 % fieldP
      if x * x % fieldP ≠ xx then none else if x % 2 = sign then some x else some (fieldP - x)

/-- The point of a 32-byte encoding. -/
def edDecode (k : Nat) : Option EdPoint :=
  let y := k % 2 ^ 255
  (edRoot y (k / 2 ^ 255 % 2)).map fun x => ⟨x, y, 1, x * y % fieldP⟩

/-- The encoding of a point. -/
def edEncode (p : EdPoint) : Nat :=
  let i := fieldInv p.z
  p.y * i % fieldP + p.x * i % fieldP % 2 * 2 ^ 255

/-- The base point. -/
def edBase : EdPoint := (edDecode (4 * fieldInv 5 % fieldP)).getD ⟨0, 1, 1, 0⟩

/-- The public key of a private key. -/
def ed25519Public (secret : BitVec 256) : BitVec 256 :=
  let h := sha512 (leBytes 32 secret.toNat)
  BitVec.ofNat 256 (edEncode (edMul (clampScalar (leNat (h.take 32))) edBase))

/-- The signature of a message under a private key. -/
def ed25519Sign (secret : BitVec 256) (msg : List Byte) : BitVec 512 :=
  let h := sha512 (leBytes 32 secret.toNat)
  let a := clampScalar (leNat (h.take 32))
  let pub := leBytes 32 (edEncode (edMul a edBase))
  let r := leNat (sha512 (h.drop 32 ++ msg)) % edOrder
  let rr := edEncode (edMul r edBase)
  let k := leNat (sha512 (leBytes 32 rr ++ pub ++ msg)) % edOrder
  BitVec.ofNat 512 (rr + (r + k * a) % edOrder * 2 ^ 256)

/-- Does a signature verify? RFC 8032 lets the group equation be checked with the cofactor or without (log 13). -/
def ed25519Verify (pub : BitVec 256) (msg : List Byte) (sig : BitVec 512) : Bool :=
  let rr := sig.toNat % 2 ^ 256
  let sc := sig.toNat / 2 ^ 256
  match edDecode pub.toNat, edDecode rr with
  | some a, some r =>
    let k := leNat (sha512 (leBytes 32 rr ++ leBytes 32 pub.toNat ++ msg)) % edOrder
    let lhs := edMul sc edBase
    let rhs := edAdd r (edMul k a)
    decide (sc < edOrder) && (edSame lhs rhs || (Config.ed25519Cofactored && edSame (edMul 8 lhs) (edMul 8 rhs)))
  | _, _ => false

/-- Is this an encoding of an Ed25519 public key (R429)? -/
def keyValid (k : BitVec 256) : Bool := (edDecode k.toNat).isSome

/-! ### The device's keys (R396) -/

/-- The public device identity key. -/
def dikPublic : BitVec 256 := ed25519Public Config.dikSecret

/-- The public device agreement key. -/
def dkaPublic : BitVec 256 := x25519Public Config.dkaSecret

/-- The private part of the ephemeral key drawn n-th: fresh random bytes (log 3). -/
def freshSecret (n : Nat) : BitVec 256 := (Config.freeValue n).truncate 256

end Sys2Proof.Machine
end

