-- ==== Sys2Proof/Machine/Crossing.lean ====
section
/-!
DEFINITION. Crossings between clockless logic and the clocked islands (R449, R450, R452 to R454): slots with request and
acknowledge toggles, used in rotation; stopped clocks; resets; overruns.
-/
namespace Sys2Proof.Machine

/-! ### The crossings of Table 18-1, by number -/

/-- Receive crossing of port p. -/
def portRx (p : Nat) : Nat := 4 * p
/-- Transmit crossing of port p; 4 p + 2 and 4 p + 3 are its control crossings, into the island and out of it. -/
def portTx (p : Nat) : Nat := 4 * p + 1
/-- Service link, into the island; 169 is the one out of it. -/
def serviceTx : Nat := 168
/-- Service link, out of the island. -/
def serviceRx : Nat := 169
/-- Command crossing of channel t. -/
def dramCmd (t : Nat) : Nat := 170 + 3 * t
/-- Write-data crossing of channel t. -/
def dramWrite (t : Nat) : Nat := 171 + 3 * t
/-- Read-data crossing of channel t. -/
def dramRead (t : Nat) : Nat := 172 + 3 * t
/-- Flash interface, into the island. -/
def flashIn : Nat := 1898
/-- Flash interface, out of the island. -/
def flashOut : Nat := 1899
/-- Duration timer, read. -/
def timerRead : Nat := 1900

/-- Slots of a crossing, and bytes of an item (Table 18-1). -/
def crossingShape (k : Nat) : Nat × Nat :=
  if k < 168 then (if k % 4 < 2 then (64, 128) else (8, 8))
  else if k < 170 then (16, 8)
  else if k < 1898 then (match (k - 170) % 3 with | 0 => (16, 16) | _ => (32, 256))
  else if k < 1900 then (8, 64) else (16, 8)

/-- Bytes cut into a crossing's items. -/
def itemsOf (k : Nat) (bs : List Byte) : List (List Byte) := chunks (crossingShape k).2 bs.length bs

/-! ### One crossing (R450) -/

/-- Is a slot full? -/
def Crossing.full (x : Crossing) (k : Nat) : Bool := Sp.get false x.req k != Sp.get false x.ack k

/-- The sender writes an item into the next slot's holding register and then flips its request toggle; where that slot is
full it changes nothing and waits. -/
def Crossing.give (n : Nat) (x : Crossing) (item : List Byte) : Option Crossing :=
  if x.full x.put then none
  else some { x with regs := Sp.put [] x.regs x.put item, req := Sp.put false x.req x.put (!Sp.get false x.req x.put),
                     put := (x.put + 1) % n }

/-- The receiver takes the item of the next slot and then flips its acknowledge toggle; a free slot gives nothing. -/
def Crossing.receive (n : Nat) (x : Crossing) : Option (List Byte × Crossing) :=
  if x.full x.take then
    some (Sp.get [] x.regs x.take, { x with ack := Sp.put false x.ack x.take (!Sp.get false x.ack x.take), take := (x.take + 1) % n })
  else none

/-- Items are given in order while a slot is free: those left, and the crossing. -/
def Crossing.giveAll (n : Nat) (x : Crossing) : List (List Byte) → List (List Byte) × Crossing
  | [] => ([], x)
  | i :: is => match x.give n i with | some y => y.giveAll n is | none => (i :: is, x)

/-- At most `m` held items are taken, in order. -/
def Crossing.drain (n : Nat) : Nat → Crossing → Crossing
  | 0, x => x
  | m + 1, x => match x.receive n with | some (_, y) => Crossing.drain n m y | none => x

/-- Slots that are full. -/
def Crossing.held (n : Nat) (x : Crossing) : Nat := countIf x.full (List.range n)

/-- An item passes while both sides run: what is held goes first. -/
def Crossing.pass (n : Nat) (x : Crossing) (item : List Byte) : Crossing :=
  match (x.drain n n).give n item with
  | some y => y.drain n n
  | none => x.drain n n

/-! ### The crossings of the module -/

/-- A crossing by number. -/
def State.crossing (s : State) (k : Nat) : Crossing := Sp.get Crossing.start s.crossings k

/-- The state with a crossing replaced. -/
def State.setCrossing (s : State) (k : Nat) (x : Crossing) : State := { s with crossings := Sp.put Crossing.start s.crossings k x }

/-- A crossing's reset, both sides together: held items are discarded, every slot is free, OVERRUN is clear (R454). -/
def State.resetCrossings (s : State) : List Nat → State
  | [] => s
  | k :: ks => (s.setCrossing k Crossing.start).resetCrossings ks

/-- The crossings of a port. -/
def portCrossings (p : Nat) : List Nat := [4 * p, 4 * p + 1, 4 * p + 2, 4 * p + 3]

/-- The crossings of a channel. -/
def dramCrossings (t : Nat) : List Nat := [dramCmd t, dramWrite t, dramRead t]

/-- Bytes are given to an island whose clock is stopped: they wait in its slots, and what finds no free slot waits at the
sender (R452). -/
def State.holdAt (s : State) (k : Nat) (bs : List Byte) : State :=
  s.setCrossing k ((s.crossing k).giveAll (crossingShape k).1 (itemsOf k bs)).2

/-- The island's clock restarts: it takes the held items in order, and then those of `bs` that had found no slot (R452). -/
def State.restartAt (s : State) (k : Nat) (bs : List Byte) : State :=
  let n := (crossingShape k).1
  let x := s.crossing k
  s.setCrossing k (((itemsOf k bs).drop (x.held n)).foldl (fun x i => x.pass n i) (x.drain n n))

/-- The islands of Table 18-1. -/
inductive Island where
  | port (p : Nat)
  | service
  | phy (t : Nat)
  | flash
  | timer
  deriving DecidableEq, Repr

/-- Does an island's clock run (R452)? A port that is held down or unused stands, and so does a PHY in self-refresh (R459)
or of a failed channel; the flash interface is gated between its transfers, here those
of a staging. -/
def State.clockRuns (s : State) : Island → Bool
  | .port p => (s.port p).phy
  | .service => s.start.phase != .off
  | .phy t => (s.start.phase == .starting || s.start.phase == .ready) && !Sp.get false s.mem.failed t
  | .flash => match s.img.staging with | some g => !g.pend.isEmpty | none => false
  | .timer => s.start.runs

/-- The island of a crossing. -/
def islandOf (k : Nat) : Island :=
  if k < 168 then .port (k / 4) else if k < 170 then .service else if k < 1898 then .phy ((k - 170) / 3) else if k < 1900 then .flash else .timer

/-- Does a crossing lead into its island? -/
def intoIsland (k : Nat) : Bool :=
  if k < 168 then k % 4 == 1 || k % 4 == 2 else if k < 170 then k == 168 else if k < 1898 then (k - 170) % 3 != 2 else k == 1898

/-- Bytes pass through a crossing: where the island's clock runs they are taken as they come; into one that stands they are held, and
out of one that stands comes nothing (R450, R452). -/
def State.across (s : State) (k : Nat) (bs : List Byte) : State :=
  if s.clockRuns (islandOf k) then s.setCrossing k ((itemsOf k bs).foldl (fun x i => x.pass (crossingShape k).1 i) (s.crossing k))
  else if intoIsland k then s.holdAt k bs
  else s

/-- A crossing overruns (R453): its flag, the count of its island class, the record, F-B201 and 20 points. -/
def State.overran (s : State) (k cls kind inst : Nat) (dir : Bool) : State :=
  ((((s.setCrossing k { s.crossing k with overrun := true }).bump (0xB010 + 8 * cls) 1).xingEvent 0xB201 kind inst dir)).points 20

/-- A port's crossing overruns: PORT_OVERRUNS counts both directions. -/
def State.portOverrun (s : State) (p : Nat) (rx : Bool) : State :=
  (s.bump (0xB100 + 8 * p) 1).overran (if rx then portRx p else portTx p) (bit (!rx)) 0 p rx

/-- The read-data crossing of a channel overruns `n` times on one read; its bit of CHANNEL_OVERRUN is set. -/
def State.dramOverruns (s : State) (t : Nat) : Nat → State
  | 0 => s
  | n + 1 =>
    let k := 0xB300 + 8 * (t / 64)
    ((s.setWord k (s.word k ||| BitVec.ofNat 64 (2 ^ (t % 64)))).overran (dramRead t) 2 2 t true).dramOverruns t n

end Sys2Proof.Machine
end

