-- ==== Sys2Proof/Machine/Net.lean ====
section
/-!
DEFINITION. Sending on the fabric: routes, queues, sequence numbers, replies and errors (R244 to R256, R259, R267).
-/
namespace Sys2Proof

/-- A frame with every field at its plain value. -/
def Frame.plain (op : BitVec 4) (vesper : Bool) (channel : Nat) (dst src : Nat) (job : BitVec 16) (xfer : Nat) : Frame :=
  { op := op, vesper := vesper, channel := BitVec.ofNat 5 channel, sig := none, last := true, nonmin := false, hops := 0,
    dst := BitVec.ofNat 14 dst, src := BitVec.ofNat 14 src, job := job, seqReset := false, detour := false,
    reserved := false, addr := 0, xfer := BitVec.ofNat 24 xfer, length := 0, variant := 0, chanSeq := 0, offset := 0,
    aux := 0, linkSeq := 0, ackVesper := 0, ackNoon := 0, ackValid := false, payload := [] }

/-- The same frame with a payload (LENGTH follows it). -/
def Frame.withData (f : Frame) (bs : List Byte) : Frame := { f with payload := bs, length := BitVec.ofNat 13 bs.length }

/-- Bytes from the destination address through the FCS (Table 10-2). -/
def Frame.wireBytes (f : Frame) : Nat := 82 + (if f.sig.isSome then 16 else 0) + f.payload.length

end Sys2Proof

namespace Sys2Proof.Machine

/-- Payload bytes per frame of a class (R246). -/
def perFrame (vesper : Bool) : Nat := if vesper then 960 else 4096

/-- Is the operation a request, which is answered (Table 10-5)? -/
def isRequest (op : Nat) : Bool := [0, 1, 3, 4, 6, 7, 8, 9, 10].contains op

/-- The port of a module at coordinate p of dimension k that reaches coordinate t (R238). -/
def portTo (k p t : Nat) : Nat := 10 * k + (t + 10 - p) % 11

/-- May the port carry traffic? -/
def State.up (s : State) (p : Nat) : Bool := (s.port p).st == 2

/-- The dimensions in which this module's position differs from a destination's. -/
def State.openDims (s : State) (dst : Nat) : List Nat := (List.range 4).filter fun k => coordOf s.hall k != coordOf dst k

/-- The port towards position t of dimension k, or the detour of R259: the port and whether it is a detour. -/
def State.linkTo (s : State) (k t : Nat) : Option (Nat × Bool) :=
  let p := coordOf s.hall k
  if s.up (portTo k p t) then some (portTo k p t, false)
  else
    (List.range (s.dimSize k)).find? (fun q => q != p && q != t && s.up (portTo k p q) &&
      (s.port (portTo k p q)).advert.contains (portTo k q t, true)) |>.map fun q => (portTo k p q, true)

/-- Bytes queued at a port in the buffer class of `hops` (R252). -/
def State.queued (s : State) (p : Nat) (hops : Nat) : Nat :=
  sumNat (((s.port p).txqN.filter fun f => f.hops.toNat == hops).map Frame.wireBytes)

/-- Does a port's queue exceed NONMIN_THRESHOLD of the buffer class (R253)? -/
def State.overThreshold (s : State) (p hops : Nat) : Bool :=
  decide (s.queued p hops * 100 > s.cfg.nonminThreshold * 64 * Config.initialCredit false hops)

/-- The first element with the least measure. -/
def leastBy {α : Type} (m : α → Nat) : List α → Option α
  | [] => none
  | x :: xs => match leastBy m xs with | none => some x | some y => if m x ≤ m y then some x else some y

/-- The adaptive choice of R252 and R253 for a frame that will take hop number `hops`. -/
def State.adaptive (s : State) (f : Frame) (hops : Nat) : Option (Nat × Bool × Bool) :=
  let dst := f.dst.toNat
  let cands := (s.openDims dst).filterMap fun k => (s.linkTo k (coordOf dst k)).map fun x => (x.1, x.2, false)
  let minimal := leastBy (fun (c : Nat × Bool × Bool) => s.queued c.1 hops) cands
  if !f.nonmin && decide (f.hops.toNat ≤ 3) && !cands.isEmpty && cands.all (fun c => s.overThreshold c.1 hops) then
    let non := (s.openDims dst).flatMap fun k =>
      let p := coordOf s.hall k
      ((List.range (s.dimSize k)).filter fun q => q != p && q != coordOf dst k && s.up (portTo k p q)).map
        fun q => (portTo k p q, false, true)
    match leastBy (fun (c : Nat × Bool × Bool) => s.queued c.1 hops) non with
    | some c => some c
    | none => minimal
  else minimal

/-- The exit of a frame (R251 to R253, R259): port, detour, non-minimal; none: no way. -/
def State.routeOf (s : State) (f : Frame) : Option (Nat × Bool × Bool) :=
  if !f.vesper && f.channel == 16 then s.adaptive f (f.hops.toNat + 1)
  else
    match s.openDims f.dst.toNat with
    | [] => none
    | k :: _ => (s.linkTo k (coordOf f.dst.toNat k)).map fun x => (x.1, x.2, false)

/-- Put a frame into the inbox of a port's slice: it waits to be applied. -/
def State.deliver (s : State) (p : Nat) (f : Frame) : State :=
  let x := s.port p
  s.setPort p { x with inbox := x.inbox ++ [f] }

/-- Queue a frame at an exit port for its next hop. -/
def State.queueAt (s : State) (e : Nat × Bool × Bool) (f : Frame) : State :=
  let f := { f with hops := f.hops + 1, detour := e.2.1 }
  let x := s.port e.1
  let s := if e.2.2 then s.bump 0x2028 1 else s
  s.setPort e.1 (if f.vesper then { x with txqV := x.txqV ++ [f] } else { x with txqN := x.txqN ++ [f] })

/-- The next CHAN_SEQ of a channel and whether SEQ_RESET is set (R244, R256). -/
def State.takeSeq (s : State) (job : BitVec 16) (dst : Nat) (v : Bool) (ch : Nat) : BitVec 16 × Bool × State :=
  match s.job? job with
  | none => (0, true, s)
  | some j =>
    let same (t : TxChan) : Bool := t.dst == dst && t.vesper == v && t.channel == ch
    match j.tx.find? same with
    | some t => (t.next, t.reset, s.updJob job fun j =>
        { j with tx := updFirst same (fun t => { t with next := t.next + 1, reset := false }) j.tx })
    | none => (0, true, s.updJob job fun j => { j with tx := j.tx ++ [⟨dst, v, ch, 1, false⟩] })

/-- Number a frame in its channel. -/
def State.number (s : State) (f : Frame) : Frame × State :=
  let r := s.takeSeq f.job f.dst.toNat f.vesper f.channel.toNat
  ({ f with chanSeq := r.1, seqReset := r.2.1 }, r.2.2)

/-- The next frame of a channel carries SEQ_RESET (R256). -/
def State.resetSeq (s : State) (job : BitVec 16) (dst : Nat) (v : Bool) (ch : Nat) : State :=
  let same (t : TxChan) : Bool := t.dst == dst && t.vesper == v && t.channel == ch
  s.updJob job fun j => { j with tx := updFirst same (fun t => { t with reset := true }) j.tx }

/-- Send a reply (ACK, ERROR, READ_DATA, ATOMIC_DATA) from this module (R247); one with no route is dropped (R267). -/
def State.sendReply (s : State) (f : Frame) : State :=
  let r := s.number f
  if f.dst.toNat = s.hall then r.2.deliver 0 r.1
  else match r.2.routeOf r.1 with
    | some e => r.2.queueAt e r.1
    | none => r.2.resetSeq f.job f.dst.toNat f.vesper f.channel.toNat

/-- The ERROR reply to a request (R247). -/
def errorFor (s : State) (f : Frame) (code : Nat) : Frame :=
  { Frame.plain 0xC f.vesper f.channel.toNat f.src.toNat s.hall f.job f.xfer.toNat with aux := BitVec.ofNat 32 code }

/-- The ACK reply to a request. -/
def ackFor (s : State) (f : Frame) : Frame := Frame.plain 0xB f.vesper f.channel.toNat f.src.toNat s.hall f.job f.xfer.toNat

/-- Has the port sent an ERROR within the last 1 us, so that another is not sent (R267)? -/
def State.errorHeld (s : State) (p : Nat) : Bool := (s.port p).errAt != 0 && decide (s.now < (s.port p).errAt - 1 + 1000)

/-- Send an ERROR that a frame received on port p calls for: at most one per port per 1 us (R267). -/
def State.sendError (s : State) (p : Nat) (f : Frame) (code : Nat) : State :=
  if s.errorHeld p then s.bump 0x2030 1
  else
    let s := s.setPort p { s.port p with errAt := s.now + 1 }
    (if code = 0x2201 then s.bump 0x2018 1 else s).sendReply (errorFor s f code)

/-- The ERROR F-2201 that a request of this module itself meets here comes back to it, once for its transfer, and is logged where it
arises (R247, R259, R480). -/
def State.ownError (s : State) (f : Frame) : State :=
  if !isRequest f.op.toNat || (s.port 0).inbox.any (fun g => g.op == 0xC && g.src.toNat == s.hall && g.xfer == f.xfer) then s
  else
    let r := ((s.logEvent 0x2201 (some f.job) (0, 0)).bump 0x2018 1).number { errorFor s f 0x2201 with dst := BitVec.ofNat 14 s.hall }
    r.2.deliver 0 r.1

/-- Inject a numbered request of this module; with no route its own ERROR F-2201 comes back (R259). -/
def State.inject (s : State) (f : Frame) : State :=
  if f.dst.toNat = s.hall then s.deliver 0 f
  else
    match s.routeOf f with
    | some e => s.queueAt e f
    | none => s.ownError f

/-- Number and inject the frames of a transfer in order. -/
def State.sendAll (s : State) : List Frame → State
  | [] => s
  | f :: fs => let r := s.number f; (r.2.inject r.1).sendAll fs

/-- An XFER_ID whose low 22 bits are unique among the unanswered transfers (R244), with bits [23:22] as R302 sets them for a
step. -/
def State.freshXfer (s : State) (step : Option Nat) : Nat :=
  let tag (i : Nat) : Nat := match step with | some n => n % 4 * 2 ^ 22 + i % 2 ^ 22 | none => i % 2 ^ 24
  match (List.range (s.xfers.length + 1)).find? fun k => !(s.xfers.any fun x => x.id % 2 ^ 22 == tag (s.nextXfer + k) % 2 ^ 22) with
  | some k => tag (s.nextXfer + k)
  | none => tag s.nextXfer

/-- A control request of the module itself on Vesper: notice or barrier frame (R247, R249). -/
def State.sendControl (s : State) (op : BitVec 4) (channel : Nat) (job : BitVec 16) (dst : Nat) (variant aux : Nat)
    (payload : List Byte) (sig : Option SigExt) : State :=
  let id := s.freshXfer none
  let f := { (Frame.plain op true channel dst s.hall job id).withData payload with
    variant := BitVec.ofNat 9 variant, aux := BitVec.ofNat 32 aux, sig := sig }
  let x : Xfer := ⟨id, none, true, job, dst, channel, op.toNat, variant, aux, 0, none, 0, none, 1, s.now, 0, true⟩
  { s with xfers := s.xfers ++ [x], nextXfer := id + 1 }.sendAll [f]

/-- A Vesper SIGNAL of the lead sequencer on channel 0 to a count of a device of the job (R27, R308, R330, R332). One to this
module itself is a local increment, which a context that has ended discards (R273). -/
def State.signalTo (s : State) (job : BitVec 16) (device count inc : Nat) : State :=
  match s.job? job with
  | none => s
  | some j => if j.hallOf device = s.hall then (s.raiseCount job count inc 0x3FFF).2 else s.sendControl 6 0 job (j.hallOf device) 0 0 []
      (some ⟨BitVec.ofNat 32 (count + device * 2 ^ 12 + 2 ^ 31), BitVec.ofNat 32 inc, 0⟩)

/-- One signal to each of several devices. -/
def State.signalAll (s : State) (job : BitVec 16) (count inc : Nat) : List Nat → State
  | [] => s
  | d :: ds => (s.signalTo job d count inc).signalAll job count inc ds

/-- Words as little-endian bytes. -/
def wordsBytes (ws : List W64) : List Byte := ws.flatMap fun w => leBytes 8 w.toNat

/-- A fabric NOTICE (R249). -/
def State.fabricNotice (s : State) (job : BitVec 16) (dst kind code : Nat) (rec : List W64) : State :=
  s.sendControl 0xA 15 job dst kind code (wordsBytes rec) none

/-! ### Frames taken back (R78, R168) -/

/-- The number of a frame within its transfer. -/
def framePart (f : Frame) : Nat := f.offset.toNat / perFrame f.vesper

/-- Do two frames count in one channel (R244)? -/
def sameChannel (f g : Frame) : Bool :=
  f.src == g.src && f.job == g.job && f.dst == g.dst && f.vesper == g.vesper && f.channel == g.channel

/-- The frames that this module has queued and not sent, in its own ports' queues and for itself. -/
def State.ownQueued (s : State) : List Frame :=
  ((List.range 40).flatMap fun p => (s.port p).txqV ++ (s.port p).txqN ++ if p = 0 then (s.port p).inbox else []).filter
    fun f => f.src.toNat == s.hall

/-- A frame's number in its channel after frames before it have been taken back. -/
def renumber (gs : List Frame) (f : Frame) : Frame :=
  let before := gs.filter fun g => sameChannel f g && decide ((f.chanSeq - g.chanSeq).toNat < 2 ^ 15)
  let q := f.chanSeq - BitVec.ofNat 16 before.length
  { f with chanSeq := q, seqReset := f.seqReset || before.any fun g => g.seqReset && g.chanSeq == q }

/-- The sending side of a channel after frames of it have been taken back. -/
def TxChan.back (job : BitVec 16) (gs : List Frame) (t : TxChan) : TxChan :=
  let mine := gs.filter fun g => g.job == job && g.dst.toNat == t.dst && g.vesper == t.vesper && g.channel.toNat == t.channel
  let q := t.next - BitVec.ofNat 16 mine.length
  { t with next := q, reset := t.reset || mine.any fun g => g.seqReset && g.chanSeq == q }

/-- Frames of this module's requests are taken back: they leave the queues, the channels are numbered without them, and a transfer
whose last frame is among them awaits nothing. -/
def State.takeBack (s : State) (gs : List Frame) : State :=
  let rest (fs : List Frame) : List Frame := (fs.filter fun f => !gs.contains f).map (renumber gs)
  let s1 := (List.range 40).foldl (fun (s : State) p =>
    let x := s.port p
    s.setPort p { x with txqV := rest x.txqV, txqN := rest x.txqN, inbox := if p = 0 then rest x.inbox else x.inbox }) s
  { s1 with jobs := s1.jobs.map fun j => { j with tx := j.tx.map (TxChan.back j.id gs) },
            xfers := s1.xfers.filter fun x => !(gs.any fun g => g.last && g.xfer.toNat == x.id) }

/-! ### Transfers of words -/

/-- The hall number that an address's DEVICE names in a job. -/
def State.hallFor (s : State) (job : BitVec 16) (dev : Nat) : Nat :=
  if dev = 0x3FFF then s.hall else match s.job? job with | some j => j.hallOf dev | none => dev

/-- Frames of a transfer from consecutive bytes (R246): `f0` is the plain frame, `step` how far ADDR advances per
payload byte, in halves (2: one byte per byte; 4: BF16 into FP32 sums). -/
def dataFrames (f0 : Frame) (addr half : Nat) (sig : Option SigExt) (data : List Byte) : List Frame :=
  let per := perFrame f0.vesper
  let n := max 1 (cdiv data.length per)
  (List.range n).map fun i =>
    let last := decide (i + 1 = n)
    { f0.withData ((data.drop (i * per)).take per) with
      addr := BitVec.ofNat 64 (addr + i * per * half / 2), offset := BitVec.ofNat 23 (i * per), last := last,
      sig := if last then sig else none }

/-- Open a transfer of a word of a tile: its XFER_ID and the state that holds it. -/
def State.openXfer (s : State) (x : Xfer) : Nat × State :=
  let id := s.freshXfer x.step
  (id, { s with xfers := s.xfers ++ [{ x with id := id, sentAt := s.now }], nextXfer := id % 2 ^ 22 + 1 })

/-- How an engine's record write ended. -/
structure RecOut where
  /-- State. -/
  s : State
  /-- A fault. -/
  fault : Option Nat
  /-- The transfer that the word awaits. -/
  waits : List Nat

/-- Write a record at a global address in the class of the task, with its count (R131, R149, R274): locally through
translation, or to another module as a WRITE transfer that carries the signal. -/
def State.writeRecord (s : State) (t : Nat) (v : Bool) (c : Ctx) (off dest raise : Nat) (bytes : List Byte) : RecOut :=
  let dev := fld dest 42 14
  let here := match s.job? c.job with | some j => s.plays j dev | none => true
  if here || (decide (14641 ≤ dev) && dev != 0x3FFF) then
    match s.writeMem c.job .tile v dest bytes with
    | (some f, s1) => ⟨s1, some f, []⟩
    | (none, s1) =>
      if flag raise 31 then
        match s1.raiseCount c.job (refIndex raise) 1 0x3FFF with
        | (f, s2) => ⟨s2, f, []⟩
      else ⟨s1, none, []⟩
  else
    let dst := s.hallFor c.job dev
    let sig : Option SigExt := if flag raise 31 then some ⟨BitVec.ofNat 32 raise, 1, BitVec.ofNat 32 bytes.length⟩ else none
    let r := s.openXfer ⟨0, some t, v, c.job, dst, 0, 0, 0, 0, 0, none, BitVec.ofNat 32 off, none, max 1 (cdiv bytes.length (perFrame v)), 0, 0, v⟩
    ⟨r.2.sendAll (dataFrames (Frame.plain 0 v 0 dst s.hall c.job r.1) dest 2 sig bytes), none, [r.1]⟩

end Sys2Proof.Machine
end

