-- ==== Sys2Proof/Machine/Engines.lean ====
section
/-!
DEFINITION. What the engines do with a word that has begun, unit by unit, and where such a word stands when it is stopped:
contexts of a tile, format and move counters, memory as a move reaches it, partial runs and suspension points (R54, R55,
R78, R99, R133, R159, R195, R235 to R237, Table 07-2).
-/
namespace Sys2Proof.Machine

/-! ### Contexts (R165) -/

/-- The control state of a tile's context. -/
def TileState.ctx (x : TileState) (v : Bool) : Option Ctx := if v then x.vesper else x.noon

/-- The tile with a context replaced. -/
def TileState.setCtx (x : TileState) (v : Bool) (c : Option Ctx) : TileState :=
  if v then { x with vesper := c } else { x with noon := c }

/-- A context of a tile. -/
def State.ctx? (s : State) (t : Nat) (v : Bool) : Option Ctx := (s.tile t).ctx v

/-- Update a context of a tile, if it exists. -/
def State.updCtx (s : State) (t : Nat) (v : Bool) (f : Ctx → Ctx) : State :=
  s.setTile t ((s.tile t).setCtx v (((s.tile t).ctx v).map f))

/-- Replace engine word `k` of a context. -/
def State.setEng (s : State) (t : Nat) (v : Bool) (k : Nat) (w : EngWord) : State :=
  s.updCtx t v fun c => { c with words := c.words.set k w }

/-! ### Counters -/

/-- Raise the format counters by what one operation has met beyond what it had met before, at most 4 in all (R55). -/
def State.countFormats (s : State) (old new : Tally) : State :=
  let up (k a b : Nat) (s : State) : State := s.bump k (min b 4 - min a 4)
  up 0x3E20 old.scaleClamp new.scaleClamp (up 0x3E18 old.scaleNan new.scaleNan (up 0x3E10 old.int new.int
    (up 0x3E08 old.nan new.nan (up 0x3E00 old.sat new.sat s))))

/-- Raise the move counters (R236). -/
def State.countMove (s : State) (range narrow : Nat) : State := (s.bump 0x3A00 range).bump 0x3A08 narrow

/-! ### Memory as a move reaches it (R194, R195, R207, R237) -/

/-- The byte reader of a move: an uncorrectable beat answers F-1101 with the beat. -/
def State.moveRead (s : State) (t : Nat) (v : Bool) (job : BitVec 16) : MRead := fun dram a =>
  if dram then
    match s.translate job .tile .read v a with
    | .error f => .error (f, [])
    | .ok p => if s.poisonAt p then .error (0x1101, [p.beat]) else .ok (s.byteAt p)
  else .ok (Mem.get (s.tile t).scratch a)

/-- The place of a destination byte. -/
def State.movePlace (s : State) (t : Nat) (v : Bool) (job : BitVec 16) (dram : Bool) (a : Nat) : Except Nat Place :=
  if dram then s.translate job .tile .write v a else .ok (.scratch t a)

/-- Is the beat that holds byte `a` covered in part only? -/
def partBeat (covered : List Int) (a : Int) : Bool :=
  !((List.range 32).all fun i => covered.contains (a / 32 * 32 + (i : Int)))

/-- The fault of writing an element whose segment covers given bytes: translation, else F-1102 with its beats. A SCATTER_ADD
reads, modifies and writes every beat; another move only a beat that its segment covers in part (R195). -/
def State.moveCheck (s : State) (t : Nat) (v : Bool) (job : BitVec 16) (o : MoveOp) (cov : List Int) (e : MElem) : Option MFault :=
  let as := o.dst.elemBytes e.dst ++ (if o.dst.scale = 0 then [] else [o.dst.scaleAt e.dst])
  match as.findSome? fun a => match s.movePlace t v job o.dst.dram a.toNat with | .error f => some f | .ok _ => none with
  | some f => some (f, [])
  | none =>
    match (as.filterMap fun a => match s.movePlace t v job o.dst.dram a.toNat with
        | .ok p => if s.poisonAt p && (o.kind == 3 || partBeat cov a) then some p.beat else none
        | .error _ => none).eraseDups with
    | [] => none
    | bs => some (0x1102, bs)

/-- The addresses of the bytes that one write of a move touches. -/
def MWrite.bytes (w : MWrite) : List Nat := (List.range (((w.bit % 8).toNat + w.w + 7) / 8)).map ((w.bit / 8).toNat + ·)

/-- Apply one write of a move: read the bytes it touches, change its bits, write them. -/
def State.moveWrite (s : State) (t : Nat) (v : Bool) (job : BitVec 16) (dram : Bool) (w : MWrite) : State :=
  let sh := (w.bit % 8).toNat
  match w.bytes.mapM (fun a => match s.movePlace t v job dram a with | .ok q => some q | .error _ => none) with
  | none => s
  | some qs =>
    let old := leNat (qs.map s.byteAt)
    let new := if w.add then addF32 old w.val else old - fld old sh w.w * 2 ^ sh + w.val * 2 ^ sh
    (List.zip qs (leBytes w.bytes.length new)).foldl (fun (s : State) x => s.putByte x.1 x.2) s

/-- Beats that a segment wholly writes become correct (R195). -/
def State.clearBeats (s : State) (t : Nat) (v : Bool) (job : BitVec 16) (dram : Bool) (cov : List Int) : State :=
  if s.mem.poison.isEmpty then s
  else cov.foldl (fun (s : State) a =>
    match s.movePlace t v job dram a.toNat with
    | .ok p => if s.poisonAt p && !partBeat cov a then { s with mem := { s.mem with poison := Sp.drop s.mem.poison p.beat } } else s
    | .error _ => s) s

/-- Count what a fault of a move met: its uncorrectable beats, or a translation fault (R194, R213, R214). -/
def State.moveFault (s : State) (kind : Nat) (f : MFault) : State :=
  (s.countXlate f.1).ueAll (if f.1 = 0x1101 then 0 else if kind = 3 then 2 else 3) f.2

/-! ### Instar generations (R158, R159) -/

/-- A generation of an Instar slot. -/
def InstarSlot.gen (x : InstarSlot) (g : Bool) : List Byte := if g then x.gen1 else x.gen0

/-- An empty slot. -/
def InstarSlot.start : InstarSlot := ⟨[], [], false⟩

/-- A slot of a tile. -/
def TileState.slot (x : TileState) (i : Nat) : InstarSlot := Sp.get InstarSlot.start x.slots i

/-- The tile with a slot replaced. -/
def TileState.setSlot (x : TileState) (i : Nat) (y : InstarSlot) : TileState := { x with slots := Sp.put InstarSlot.start x.slots i y }

/-- The slot with its non-current generation written. -/
def InstarSlot.write (x : InstarSlot) (bs : List Byte) : InstarSlot := if x.cur then { x with gen0 := bs } else { x with gen1 := bs }

/-- The image of a generation of a slot. -/
def TileState.genImage (x : TileState) (i : Nat) (g : Bool) : Option Instar :=
  let b := (x.slot i).gen g
  if b.isEmpty then none else some (Instar.ofBytes b)

/-- The image of a slot's current generation. -/
def TileState.slotImage (x : TileState) (i : Nat) : Option Instar := x.genImage i (x.slot i).cur

/-- The images that a pass has latched. -/
def EngWord.image (w : EngWord) (x : TileState) (i : Nat) : Option Instar :=
  match w.latched.find? (·.1 == i) with | some g => x.genImage i g.2 | none => none

/-- The slots that a pass names, with the generation it latches at its start. -/
def latchedOf (x : TileState) (p : VPass) : List (Nat × Bool) :=
  (p.stages.filter fun s => s.op == 0x15 && decide (24 ≤ s.c)).map fun s => (s.c - 24, (x.slot (s.c - 24)).cur)

/-- Does an incomplete pass of a context hold a generation? -/
def holdsGen (c : Option Ctx) (slot : Nat) (gen : Bool) : Bool :=
  match c with
  | none => false
  | some c => c.words.any fun w => w.latched.contains (slot, gen)

/-- The bytes of a record: from the scratchpad under mode 1, as fetched under mode 2. -/
def heldBytes (sp : Mem) (mode a n : Nat) (buf : List Byte) : List Byte := if mode = 1 then Mem.bytes sp a n else buf

/-! ### Record operations (R132, R149, R150) -/

/-- CARRY_COMPOSE: X and Y are read with the lengths that their own MODEs give; X_MODE = 0 is the identity. -/
def composeBytes (v : Bool) (sp : Mem) (b : RecBlock) (buf : List Byte) : Except Nat (List Byte) :=
  let local' (a : Nat) : Except Nat Carry :=
    let n := carryLen (flag (leNat (Mem.bytes sp a 8)) 8)
    match firstFault (spanFaults v 0x3404 [(a, n)]) with
    | some f => .error f
    | none => .ok (Carry.ofBytes (Mem.bytes sp a n))
  match local' b.y with
  | .error f => .error f
  | .ok y =>
    match (if b.xMode = 0 then .ok { y with isEmpty := true, nonfinite := false }
        else if b.xMode = 1 then local' b.x else .ok (Carry.ofBytes buf)) with
    | .error f => .error f
    | .ok x => match carryCompose x y b.tag with | none => .error 0x3403 | some z => .ok z.toBytes

/-- Row-statistics records of an array (R148). -/
def rowRecords (bs : List Byte) (n : Nat) : List RowStat := (chunks 32 n bs).map RowStat.ofBytes

/-- Is a row-statistics record one that an operation reads with the TAG (R149)? -/
def rowOk (tag : Nat) (r : RowStat) : Bool := (r.kind == 1 || r.kind == 2) && r.tag == tag && !r.reserved

/-- The records of a source as latched; mode 0 gives none. -/
def rowsIn (mode n : Nat) (buf : List Byte) : List RowStat := if mode = 0 then [] else rowRecords buf n

/-- The records of a source; mode 0 gives none. -/
def rowsOf (sp : Mem) (mode a n : Nat) (buf : List Byte) : List RowStat :=
  if mode = 0 then [] else rowRecords (heldBytes sp mode a (32 * n) buf) n

/-- The combined records, pair by pair; a mode-0 source is the identity. -/
def combineRows (tag : Nat) (xs ys : List RowStat) : Option (List RowStat) :=
  if !(xs.all (rowOk tag) && ys.all (rowOk tag)) then none
  else if xs.isEmpty then some ys
  else if ys.isEmpty then some xs
  else if (List.zipWith (fun (x y : RowStat) => x.kind == y.kind) xs ys).all id then some (List.zipWith rowCombine xs ys)
  else none

/-- A ROWSTAT operation reads its records before it writes any: those of the scratchpad stand in its buffers from then on, beside
those that came from elsewhere (R149). -/
def EngWord.latchRecords (w : EngWord) (sp : Mem) : EngWord :=
  match w.op with
  | .combine b => { w with bufs := (heldBytes sp b.xMode b.x (32 * b.n) w.bufs.1, heldBytes sp b.yMode b.y (32 * b.n) w.bufs.2) }
  | .finalise b => { w with bufs := (heldBytes sp b.xMode b.x (32 * b.n) w.bufs.1, w.bufs.2) }
  | _ => w

/-- What a record operation writes, or the fault of the records it reads (F-3403, F-3503). -/
def EngWord.recordOut (w : EngWord) (v : Bool) (sp : Mem) : Option (RecBlock × Except Nat (List Byte)) :=
  match w.op with
  | .compose b => some (b, composeBytes v sp b w.bufs.1)
  | .combine b => some (b, match combineRows b.tag (rowsIn b.xMode b.n w.bufs.1) (rowsIn b.yMode b.n w.bufs.2) with
      | none => .error 0x3503
      | some zs => .ok (zs.flatMap RowStat.toBytes))
  | .finalise b =>
    let xs := rowsIn b.xMode b.n w.bufs.1
    some (b, if xs.all (rowOk b.tag) then .ok (xs.flatMap fun r => (rowFinalise r b.rms b.eps).toBytes) else .error 0x3503)
  | _ => none

/-! ### Runs of a word -/

/-- Units of a word, between which it may stop: streamed rows, rows of an accumulator move, batches, positions or requests of
a move, groups of 64 row-statistics records; the other words have none. -/
def EngOp.units : EngOp → Nat
  | .matmul o => o.rows
  | .accMove o => o.rows
  | .pass p => p.batches
  | .move o => o.units
  | .combine b | .finalise b => cdiv b.n 64
  | _ => 0

/-- Bytes that a ROWSTAT operation writes for each record. -/
def EngOp.recordBytes : EngOp → Nat
  | .finalise _ => 16
  | _ => 32

/-- Units done. -/
def EngWord.at' (w : EngWord) : Nat := match w.op with | .pass _ => w.pass.batch | _ => w.pos

/-- Units left. -/
def EngWord.left (w : EngWord) : Nat := w.op.units - w.at'

/-- What a run leaves: the state, the word as it stands, and the fault it met. -/
structure RunOut where
  /-- State. -/
  s : State
  /-- The word. -/
  w : EngWord
  /-- Fault. -/
  fault : Option Nat

/-- `n` streamed rows of a matrix operation (R92, R99). -/
def State.runMatmul (s : State) (t : Nat) (w : EngWord) (o : MatOp) (n : Nat) : RunOut :=
  let y := s.tile t
  let r := matRows o y.scratch w.pos n (y.mat, w.sat)
  let met : Tally := { int := r.2.length }
  ⟨(s.setTile t { y with mat := r.1 }).countFormats w.met met, { w with pos := w.pos + n, sat := r.2, met := met }, none⟩

/-- `n` rows of an accumulator move (R97). -/
def State.runAccMove (s : State) (t : Nat) (w : EngWord) (o : AccMove) (n : Nat) : RunOut :=
  let y := s.tile t
  let r := accMoveRows o y.streamK.toNat y.streamC.toNat y.scratch y.mat w.pos n
  let met := w.met.plus r.2.2.2
  ⟨(s.setTile t { y with scratch := r.1, mat := r.2.1, streamC := BitVec.ofNat 128 r.2.2.1 }).countFormats w.met met,
    { w with pos := w.pos + n, met := met }, none⟩

/-- What a run of a pass leaves, with `batch` batches done and `chain` in the stage chain. A pass that meets F-3503 draws nothing:
it gives back what it has drawn (R160). -/
def State.passLeft (s : State) (t : Nat) (w : EngWord) (r : VRun) (draws batch : Nat) (chain : List ChainBatch) : RunOut :=
  let y := s.tile t
  let met := w.met.plus r.acc.2
  let drawn := draws + (r.acc.1 + 2 ^ 128 - y.streamC.toNat) % 2 ^ 128
  let ctr := if r.bad then (r.acc.1 + 2 ^ 128 - drawn) % 2 ^ 128 else r.acc.1
  ⟨(s.setTile t { y with scratch := r.sp, mat := r.ms, streamC := BitVec.ofNat 128 ctr }).countFormats w.met met,
    { w with met := met, pass := ⟨batch, chain, r.scan, r.reds, drawn⟩ }, if r.bad then some 0x3503 else none⟩

/-- `n` batches of a pass (R103, R133). -/
def State.runPass (s : State) (t : Nat) (w : EngWord) (p : VPass) (n : Nat) : RunOut :=
  let y := s.tile t
  let r := passRun p (w.image y) y.streamK.toNat y.streamC.toNat y.scratch y.mat w.pass n
  s.passLeft t w r w.pass.draws (w.pass.batch + n) (w.pass.chain.drop n)

/-- What `n` units of a move do, whole: its writes, its faults and its counts. -/
def State.moveDone (s : State) (t : Nat) (v : Bool) (job : BitVec 16) (w : EngWord) (o : MoveOp) (n : Nat) : MDone :=
  let y := s.tile t
  moveRun o (s.moveRead t v job) (s.moveCheck t v job o) y.streamK.toNat y.streamC.toNat w.held w.pos (w.pos + n) none

/-- What a run of a move leaves, at position `pos` with its staging buffer. -/
def State.moveLeft (s : State) (t : Nat) (v : Bool) (job : BitVec 16) (w : EngWord) (o : MoveOp) (r : MDone) (pos : Nat) (held : MHeld) : RunOut :=
  let met := w.met.plus r.tally
  let s1 := r.writes.foldl (fun (s : State) w => s.moveWrite t v job o.dst.dram w) s
  let s2 := if o.kind = 3 then s1 else r.covers.foldl (fun (s : State) cov => s.clearBeats t v job o.dst.dram cov) s1
  let s3 := ((s2.setTile t { s2.tile t with streamC := BitVec.ofNat 128 r.ctr }).countFormats w.met met).countMove r.range r.narrow
  let w1 := { w with pos := pos, held := held, met := met }
  match r.fault with
  | some f => ⟨s3.moveFault o.kind f, w1, some f.1⟩
  | none => ⟨s3, w1, none⟩

/-- `n` units of a move, whole (R224 to R237). -/
def State.runMove (s : State) (t : Nat) (v : Bool) (job : BitVec 16) (w : EngWord) (o : MoveOp) (n : Nat) : RunOut :=
  s.moveLeft t v job w o (s.moveDone t v job w o n) (w.pos + n) MHeld.start

/-- `n` groups of 64 records of a ROWSTAT operation, written with the count where they are the last (R149, R150). -/
def State.runRecs (s : State) (t : Nat) (v : Bool) (c : Ctx) (w : EngWord) (n : Nat) : RunOut :=
  match w.recordOut v (s.tile t).scratch with
  | none => ⟨s, w, none⟩
  | some (_, .error f) => ⟨s, w, some f⟩
  | some (b, .ok bs) =>
    let per := 64 * w.op.recordBytes
    if n = 0 then ⟨s, w, none⟩
    else
      let o := s.writeRecord t v c w.off.toNat (b.dest + w.pos * per) (if w.op.units ≤ w.pos + n then b.raise else 0) ((bs.drop (w.pos * per)).take (n * per))
      ⟨o.s, { w with pos := w.pos + n, waits := w.waits ++ o.waits }, o.fault⟩

/-- Run `n` units of a begun word. -/
def State.runWord (s : State) (t : Nat) (v : Bool) (c : Ctx) (w : EngWord) (n : Nat) : RunOut :=
  match w.op with
  | .matmul o => s.runMatmul t w o n
  | .accMove o => s.runAccMove t w o n
  | .pass p => s.runPass t w p n
  | .move o => s.runMove t v c.job w o n
  | .combine _ | .finalise _ => s.runRecs t v c w n
  | _ => ⟨s, w, none⟩

/-! ### Stopping at a suspension point (R72, R78, Table 07-2) -/

/-- The units after which a word may stop, from where it stands: every row of a matrix operation, every 16 rows of an
accumulator move, every 64 records. -/
def EngWord.stops (w : EngWord) : List Nat :=
  let from' := w.at'
  let n := w.op.units
  let all := (List.range (n + 1 - from')).map (from' + ·)
  match w.op with
  | .accMove _ => from' :: all.filter fun k => decide (from' < k) && (k % 16 == 0 || k == n)
  | _ => all

/-- Is a word one that its engine may be in the midst of? -/
def EngWord.midst (w : EngWord) : Bool := w.begun && !w.ran && (decide (0 < w.left) || !w.held.elems.isEmpty)

/-- A pass stops behind a batch, with the batches of its stage chain where they stand (R133); `f` picks where. -/
def State.stopPass (s : State) (t : Nat) (w : EngWord) (p : VPass) (f : Nat) : RunOut :=
  let y := s.tile t
  let n := f % (w.left + 1)
  let r := passStop p (w.image y) y.streamK.toNat y.streamC.toNat y.scratch y.mat w.pass n (f / 2 ^ 64 % 256)
  s.passLeft t w r.2 w.pass.draws (w.pass.batch + n) r.1

/-- A move stops at one of its points with what it has read beyond it in its staging buffer (R235); `f` picks where. -/
def State.stopMove (s : State) (t : Nat) (v : Bool) (job : BitVec 16) (w : EngWord) (o : MoveOp) (f : Nat) : RunOut :=
  let y := s.tile t
  let m := moveStop o (s.moveRead t v job) (s.moveCheck t v job o) y.streamK.toNat y.streamC.toNat w.held w.pos (f % 2 ^ 64) (f / 2 ^ 64 % 2 ^ 64)
    (f / 2 ^ 128 % 2 ^ 64)
  s.moveLeft t v job w o m.did m.pos m.held

/-- A word in progress runs on to a suspension point and stops there; which of its points that is follows no rule of the
module's state and is a free value (log 110). -/
def State.stopWord (s : State) (t : Nat) (v : Bool) (c : Ctx) (w : EngWord) : RunOut :=
  let f := s.free.toNat
  match w.op with
  | .pass p => s.drawn.stopPass t w p f
  | .move o => s.drawn.stopMove t v c.job w o f
  | _ => let ps := w.stops; s.drawn.runWord t v c w (nth w.at' ps (f % ps.length) - w.at')

/-- Every word in progress of a context, from number `k` on, runs to a suspension point: the state, and the faults met with the
offsets of their words. -/
def State.stopFrom (t : Nat) (v : Bool) (c : Ctx) : Nat → List EngWord → State → State × List (Nat × BitVec 32)
  | _, [], s => (s, [])
  | k, w :: ws, s =>
    if w.midst then
      let r := s.stopWord t v c w
      match r.fault with
      | some f => let q := State.stopFrom t v c (k + 1) ws (r.s.setEng t v k { r.w with ran := true }); (q.1, (f, w.off) :: q.2)
      | none => State.stopFrom t v c (k + 1) ws (r.s.setEng t v k r.w)
    else State.stopFrom t v c (k + 1) ws s

/-! ### The record of a fault (R82, R480, R481) -/

/-- The record of a task's fault at a tile. -/
def Ctx.faultWords (c : Ctx) (t code off : Nat) : W64 × W64 :=
  let d := c.desc
  (BitVec.ofNat 64 (code + t * 2 ^ 16 + d.kernel * 2 ^ 26 + d.index * 2 ^ 42 + d.tag * 2 ^ 58), BitVec.ofNat 64 (off % 2 ^ 32))

/-- A fault that a task raises is recorded and logged: as a TASK fault, and F-1304, met at this module, as the hardware failure that
it is (R200, R479). The log's DETAIL of F-1101 and F-1102 is the record of R214 of the beat. -/
def State.noteFault (s : State) (t : Nat) (c : Ctx) (code off : Nat) : State :=
  let w := c.faultWords t code off
  (s.record 0x3800 16 w).logAs (if code = 0x1304 then 2 else 1) code (some c.job) (if code = 0x1101 ∨ code = 0x1102 then s.mem.found else w)

/-- The faults that stopping words met are recorded, those of a package that has been abandoned too (R78). -/
def State.noteFaults (s : State) (t : Nat) (c : Ctx) : List (Nat × BitVec 32) → State
  | [] => s
  | f :: fs => (s.noteFault t c f.1 f.2.toNat).noteFaults t c fs

/-- The remote word that the engine of a context is sending: the last one it has begun. -/
def Ctx.sending (c : Ctx) : Option EngWord := (c.words.filter fun w => w.engine == 3 && w.begun).getLast?

/-- The remote engine stops at a frame boundary: of the frames of the word that it is sending, those from some number on that are
still queued in this module have not been sent and are not sent; which boundary that is is a free value (R78, R168; log 110). -/
def State.recall (s : State) (t : Nat) (v : Bool) : State :=
  match (s.ctx? t v).bind Ctx.sending with
  | none => s
  | some w =>
    let mine := s.ownQueued.filter fun f => isRequest f.op.toNat && w.waits.contains f.xfer.toNat
    match leastBy (fun (n : Nat) => n) (mine.map framePart) with
    | none => s
    | some lo =>
      let cut := lo + s.free.toNat % ((mine.map framePart).foldl max lo + 2 - lo)
      s.drawn.takeBack (mine.filter fun f => decide (cut ≤ framePart f))

/-- The words in progress of a task of the package stop; a suspended Noon task's have stopped already (R78). The faults that they
meet before they stop follow the first, and are recorded. -/
def State.haltCtx (s : State) (tag t : Nat) (v : Bool) : State :=
  match s.ctx? t v with
  | none => s
  | some c =>
    if c.desc.tag = tag then
      let s1 := s.recall t v
      if v || !(s.tile t).suspended then
        let r := State.stopFrom t v c 0 c.words s1
        r.1.noteFaults t c r.2
      else s1
    else s

/-- The tasks of a package stop on each of several tiles (R78). -/
def State.haltTag (s : State) (tag : Nat) : List Nat → State
  | [] => s
  | t :: ts => ((s.haltCtx tag t true).haltCtx tag t false).haltTag tag ts

end Sys2Proof.Machine
end

