-- ==== Sys2Proof/Machine/Msg.lean ====
section
/-!
DEFINITION. Sending to hosts: sequenced messages, windows, queues (R372 to R380, R391), and the notices that end a
package: FAULT, LATE and HEALTH (R78, R334, R361, R362, R390).
-/
namespace Sys2Proof.Machine

/-- The link-local address of the service link: fe80::/64 and the last 8 bytes of SERIAL (R443). -/
def serviceAddr : BitVec 128 := BitVec.ofNat 128 (0xfe80 * 2 ^ 112 + beNat ((leBytes 16 Config.serial.toNat).drop 8))

/-- The IPv6 address of a KHT port: of the image for P40 and P41, link-local for the service link (R371, R443). -/
def State.portAddr (s : State) (p : Fin 3) : Option (BitVec 128) :=
  if p = 0 then s.cfg.addr40 else if p = 1 then s.cfg.addr41 else some serviceAddr

/-- Where a datagram to a host goes: from the port's own address and KHT_UDP_PORT. -/
def State.pathTo (s : State) (p : Fin 3) (addr : BitVec 128) (udp : BitVec 16) : UdpPath := ⟨p, s.portAddr p, s.cfg.udpPort, addr, udp⟩

/-- The path of a connection: its most recent authenticated datagram's (R373). -/
def State.pathOf (s : State) (c : Conn) : UdpPath := s.pathTo c.port c.addr c.udp

/-- TX_BYTES and TX_FRAMES of P40 or P41 (R271); the service link has none. -/
def State.hostTx (s : State) (p : Fin 3) (bytes : Nat) : State :=
  if p = 2 then s else (s.bump (0x2108 + 0x40 * (40 + p.val)) bytes).bump (0x2118 + 0x40 * (40 + p.val)) 1

/-- RX_BYTES of P40 or P41 (R271). -/
def State.hostRx (s : State) (p : Fin 3) (bytes : Nat) : State :=
  if p = 2 then s else s.bump (0x2110 + 0x40 * (40 + p.val)) bytes

/-! ### Messages as bytes (R372, R376) -/

/-- TYPE of a message (Table 15-2). -/
def OMsg.type : OMsg → Nat
  | .close => 0x03
  | .reply .. => 0x05
  | .accept .. => 0x11
  | .decline .. => 0x12
  | .complete .. => 0x13
  | .getData .. => 0x22
  | .signalOut .. => 0x31
  | .statusData .. => 0x41
  | .attestReport .. => 0x51
  | .imagoSegment .. => 0x61
  | .challenge .. => 0x71
  | .notice .. => 0x80

/-- Is it a control message, which is Vesper (R374)? -/
def OMsg.control : OMsg → Bool
  | .getData .. | .imagoSegment .. => false
  | .close | .reply .. | .accept .. | .decline .. | .complete .. | .signalOut .. | .statusData .. | .attestReport .. | .challenge .. |
    .notice .. => true

/-- The payload of a message (Tables 15-3 and 15-4). -/
def OMsg.payload : OMsg → List Byte
  | .close => []
  | .reply ref status => leBytes 8 ref.toNat ++ leBytes 8 status
  | .accept ref pid job pos v t =>
    leBytes 8 ref.toNat ++ leBytes 8 (pid % 256 + job.toNat * 2 ^ 8 + pos % 8 * 2 ^ 24 + bit v * 2 ^ 27) ++ leBytes 8 t
  | .decline ref pid job code t => leBytes 8 ref.toNat ++ leBytes 8 (pid % 256 + job.toNat * 2 ^ 8 + code * 2 ^ 24) ++ leBytes 8 t
  | .complete pid job steps elapsed within =>
    leBytes 8 (pid % 256 + job.toNat * 2 ^ 8 + steps * 2 ^ 24) ++ leBytes 8 elapsed ++ leBytes 8 (bit within)
  | .getData ref off last status data => leBytes 8 ref.toNat ++ leBytes 8 (off % 2 ^ 21 + bit last * 2 ^ 21 + status * 2 ^ 32) ++ data
  | .signalOut job n merged w => leBytes 8 (job.toNat + n * 2 ^ 16 + merged * 2 ^ 32) ++ leBytes 8 w.toNat
  | .statusData ref off words status values =>
    leBytes 8 ref.toNat ++ leBytes 8 (off + words * 2 ^ 16 + status * 2 ^ 32) ++ values.flatMap fun v => leBytes 8 v.toNat
  | .attestReport ref report => leBytes 8 ref.toNat ++ report
  | .imagoSegment piece off last job data =>
    leBytes 8 (piece % 2 ^ 32 + off % 2 ^ 21 * 2 ^ 32 + bit last * 2 ^ 53) ++ leBytes 8 job.toNat ++ data
  | .challenge ref ch serial starts => leBytes 8 ref.toNat ++ leBytes 32 ch.toNat ++ leBytes 16 serial.toNat ++ leBytes 8 starts.toNat
  | .notice kind code device rec => leBytes 8 (kind + code * 2 ^ 4 + device * 2 ^ 18) ++ rec.flatMap fun w => leBytes 8 w.toNat

/-- The 40 bytes of a header (Table 15-1). -/
def OHdr.bytes (h : OHdr) : List Byte :=
  leBytes 8 (1 + h.type * 2 ^ 8 + h.conn.toNat * 2 ^ 32) ++ leBytes 8 h.seq.toNat ++ leBytes 8 h.ack.toNat ++
    leBytes 8 (h.length + h.window * 2 ^ 16) ++ leBytes 8 h.pkt

/-- The nonce of a datagram (R372). -/
def khtNonce (pkt : Nat) : List Byte := leBytes 8 pkt ++ leBytes 4 0

/-- The next header of a connection, for a message or an ACK. -/
def Conn.header (c : Conn) (type : Nat) (seq : W64) (length : Nat) (v : Bool) : OHdr := ⟨type, c.id, seq, c.rxNext, length, 1024, c.pkt, v⟩

/-- What follows the header of a datagram of a connection: its payload sealed under the key of the module's direction (R372, R398). -/
def Conn.seal (c : Conn) (h : OHdr) (payload : List Byte) : List Byte := gcmSeal c.keys.2 (khtNonce h.pkt) h.bytes payload

/-- A datagram of KHT leaves: its bytes pass through the transmit crossing (R450), and its frame is as long as they are within MAC,
SecTAG, IPv6 and UDP headers, ICV and FCS. -/
def State.khtSent (s : State) (bytes : List Byte) (o : Out) (p : Fin 3) : State :=
  (((s.bump 0x7018 1).hostTx p (90 + bytes.length)).across (if p = 2 then serviceTx else portTx (40 + p.val)) bytes).emit o

/-- The messages of a connection that may be sent now: within the host's window and 1,024 (R378). -/
def Conn.sendable (c : Conn) : List Unacked :=
  c.unacked.filter fun u => !u.sent && decide ((u.seq - c.ack).toNat < min c.window 1024)

/-- Has a connection used every PKT_NUM of its direction, so that the next would repeat? It sends nothing more (R398, log 83). -/
def Conn.spent (c : Conn) : Bool := decide (2 ^ 64 ≤ c.pkt)

/-- Send one datagram with a sequenced message (R372, R373). -/
def State.datagram (s : State) (id : BitVec 32) (u : Unacked) : State :=
  match s.conn? id with
  | none => s
  | some c =>
    if c.spent then s
    else
    let body := u.msg.payload
    let h := c.header u.msg.type u.seq body.length u.msg.control
    let bytes := c.seal h body
    (s.updConn id fun c => { c with pkt := c.pkt + 1, unacked := updFirst (·.seq == u.seq) (fun u => { u with sent := true, at_ := s.now }) c.unacked }).khtSent
      (h.bytes ++ bytes) (.message (s.pathOf c) h u.msg bytes) c.port

/-- Send what the window allows. -/
def State.flush (s : State) (id : BitVec 32) : State :=
  match s.conn? id with
  | none => s
  | some c => c.sendable.foldl (fun (s : State) u => s.datagram id u) s

/-- Give a message the next SEQ of a connection and send it when the window allows (R374, R378). -/
def State.sendMsg (s : State) (id : BitVec 32) (m : OMsg) : State :=
  (s.updConn id fun c => { c with txNext := c.txNext + 1, unacked := c.unacked ++ [⟨c.txNext, m, 0, false, 0⟩] }).flush id

/-- Send an ACK datagram (R378). -/
def State.sendAck (s : State) (id : BitVec 32) : State :=
  match s.conn? id with
  | none => s
  | some c =>
    if c.spent then s
    else
    let h := c.header 0x04 c.txNext 0 true
    let bytes := c.seal h []
    (s.updConn id fun c => { c with pkt := c.pkt + 1 }).khtSent (h.bytes ++ bytes) (.ack (s.pathOf c) h bytes) c.port

/-- An error REPLY to an authenticated message: at most one per connection per 10 us (R391). -/
def State.errorReply (s : State) (id : BitVec 32) (ref : W64) (code : Nat) : State :=
  match s.conn? id with
  | none => s
  | some c =>
    if c.errAt ≠ 0 ∧ s.now < c.errAt - 1 + 10000 then s.bump 0x7070 1
    else (s.updConn id fun c => { c with errAt := s.now + 1 }).sendMsg id (.reply ref code)

/-- A signal message is on its way under a SEQ of a connection, or no longer (R290). -/
def State.markSent (s : State) (job : BitVec 16) (n : Nat) (x : Option (BitVec 32 × W64)) : State :=
  s.updJob job fun j => { j with outbound := updFirst (·.1 == n) (fun e => (n, { e.2 with sent := x })) j.outbound }

/-- Queue a message for the next connection of a HOST_KEY, dropping the oldest beyond 256 (R380). -/
def State.enq (s : State) (key : BitVec 256) (m : OMsg) : State :=
  match s.hostQueues.find? (·.1 == key) with
  | none => { s with hostQueues := s.hostQueues ++ [(key, [m])] }
  | some (_, q) =>
    let full := decide (256 ≤ q.length)
    let q' := if full then q.drop 1 ++ [m] else q ++ [m]
    let s := { s with hostQueues := updFirst (·.1 == key) (fun _ => (key, q')) s.hostQueues }
    if full then
      (match q.head? with
       | some (.signalOut job n _ _) => s.markSent job n none
       | _ => s).bump 0x7068 1
    else s

/-- A message of the module for a package or job: on its connection, or in the queue of its HOST_KEY (R380). -/
def State.originate (s : State) (id : BitVec 32) (key : BitVec 256) (m : OMsg) : State :=
  match s.conn? id with
  | some c => if c.st = 2 && !c.spent then s.sendMsg id m else s.enq key m
  | none => s.enq key m

/-- Could a message of the module leave on a connection at once: it is not OPEN, or no earlier one waits and the window of the host
has room (R378)? -/
def State.handsOver (s : State) (id : BitVec 32) : Bool :=
  match s.conn? id with
  | some c => c.st != 2 || c.spent || (c.unacked.all (·.sent) && decide ((c.txNext - c.ack).toNat < min c.window 1024))
  | none => true

/-- Elapsed time of a package. -/
def State.elapsed (s : State) (p : Pkg) : Nat := s.now - p.acceptedAt

/-- Is the KHT NOTICE of a package sent on its connection (R380)? -/
def State.noticeHost (s : State) (p : Pkg) (kind code device : Nat) (rec : List W64) : State :=
  s.originate p.conn p.hostKey (.notice kind code device rec)

/-- A LATE notice (R361, Table 14-6): cause and fault. At most one per package. -/
def State.sendLate (s : State) (tag cause fault : Nat) : State :=
  match s.pkg? tag with
  | none => s
  | some p =>
    if p.late || !p.vesper then s
    else
      let d := match p.cost with | some c => c.duration | none => 0
      let words : List W64 := [BitVec.ofNat 64 (p.job.toNat + p.pid * 2 ^ 16 + cause * 2 ^ 24 + fault * 2 ^ 26),
        BitVec.ofNat 64 (s.elapsed p), BitVec.ofNat 64 d, BitVec.ofNat 64 p.t]
      let s1 := ((s.updPkg tag fun p => { p with late := true }).bump 0xA118 1).noticeHost p 2 fault 0x3FFF words
      match p.cost, s1.job? p.job with
      | some c, some j => if c.lateNotify = 0x3FFF then s1 else s1.fabricNotice p.job (j.hallOf c.lateNotify) 2 fault words
      | _, _ => s1

/-- A HEALTH record (Table 15-4). -/
def State.healthRec (s : State) : List W64 :=
  [BitVec.ofNat 64 (s.health.level + s.health.score.toNat * 4), 0, 0, 0]

/-- HEALTH notices to every OPEN connection (R380). -/
def State.healthHosts (s : State) : List Conn → State
  | [] => s
  | c :: cs => (if c.st = 2 then s.sendMsg c.id (.notice 3 0x6201 0x3FFF s.healthRec) else s).healthHosts cs

/-- The devices of a job that hear of a change of level (R334). -/
def JobCtx.healthDevices (j : JobCtx) : List Nat :=
  match j.chrys with
  | none => []
  | some c => (c.recordPartner :: c.tensors.flatMap fun t => if t.mirror then [t.partner] else t.group).eraseDups

/-- HEALTH notices to the devices of the jobs held. -/
def State.healthFabric (s : State) : List JobCtx → State
  | [] => s
  | j :: js => (j.healthDevices.foldl (fun (s : State) d =>
      if j.hallOf d = s.hall then s else s.fabricNotice j.id (j.hallOf d) 3 0x6201 s.healthRec) s).healthFabric js

/-- Change the level: counted, recorded, notified (R334). -/
def State.setLevel (s : State) (l : Nat) : State :=
  if l = s.health.level then s
  else
    let s1 := { s with health := { s.health with level := l, lowSince := 0 } }.bump 0x6040 1
    let s2 := s1.chrEvent 0x6201 l s1.hall 0 0 0
    (s2.healthFabric s2.jobs).healthHosts s2.conns

/-- An immediate input of the health monitor (Table 13-5, R334). -/
def State.immediate (s : State) (code : Nat) : State :=
  { s with health := { s.health with immediate := if s.health.immediate.contains code then s.health.immediate else s.health.immediate ++ [code] } }.setLevel 2

/-! ### The end of contexts and packages (R78, R204, R390) -/

/-- A job context ends: its counts, barriers, trackers, tables, tallies and pages cease to exist (R204, R256, R273). -/
def State.endContext (s : State) (job : BitVec 16) : State :=
  { s with jobs := s.jobs.filter (·.id != job), tallies := s.tallies.filter (·.job != job),
           imagos := s.imagos.filter (·.job != job) }

/-- What abandonment does at one tile: queued descriptors of the package go, its running tasks end, their accepted words
are discarded (R78), and with a suspended Noon task its save area holds nothing more (R72). -/
def TileState.drop (x : TileState) (tag : Nat) : TileState :=
  let keep (c : Option Ctx) : Option Ctx := match c with | some c => if c.desc.tag = tag then none else some c | none => none
  let noon := keep x.noon
  { x with queue := x.queue.filter (fun d => d.tag != tag), noon := noon, vesper := keep x.vesper,
           suspended := x.suspended && noon.isSome, save := if noon.isSome then x.save else none, probed := false }

/-- The tiles a package occupies lose it. -/
def State.dropTag (s : State) (tag : Nat) : List Nat → State
  | [] => s
  | t :: ts => (s.setTile t ((s.tile t).drop tag)).dropTag tag ts

/-- A package is no longer held: its words await nothing and its evaluation window's list shrinks. -/
def State.removePkg (s : State) (tag : Nat) : State :=
  match s.pkg? tag with
  | none => s
  | some p =>
    let s := { s with pkgs := s.pkgs.filter (·.tag != tag) }
    if p.jobEnd then s.endContext p.job else s

/-- A package is abandoned (R78, R79, R390): its words in progress stop, its descriptors and tasks go, and CONTROL fires at
every tile (R74; which tiles it fires at is the model's choice, log 111). Operands: first code, the tile, kernel and task that raised it; `hw`: a hardware
failure, for which a Vesper package's LATE notice goes out (R361). -/
def State.abandon (s : State) (tag code tile kernel index : Nat) (hw : Bool) : State :=
  match s.pkg? tag with
  | none => s
  | some p =>
    let ts := s.tiles.map (·.1)
    let s := ((s.haltTag tag ts).dropTag tag ts).wakeAll ts
    let orphan (x : Xfer) : Xfer :=
      match x.tile with
      | some t => (match s.ctx? t x.ctx with | some _ => x | none => { x with tile := none })
      | none => x
    let alive (w : Nat × Nat × Bool) : Bool := (s.ctx? w.2.1 w.2.2).isSome
    let jobs := s.jobs.map fun j => { j with hostWaiters := j.hostWaiters.filter alive }
    let s := { s with xfers := s.xfers.map orphan, jobs := jobs }
    let words : List W64 := [BitVec.ofNat 64 (p.job.toNat + p.pid * 2 ^ 16 + code * 2 ^ 24 + tile * 2 ^ 40),
      BitVec.ofNat 64 (kernel + index * 2 ^ 16), BitVec.ofNat 64 (p.step - 1), BitVec.ofNat 64 (s.elapsed p)]
    let s := ((s.bump 0x6050 (bit (p.kind == 3))).bump 0x7060 1).noticeHost p 1 code 0x3FFF words
    let s := if hw then s.sendLate tag 1 code else s
    let s := match s.job? p.job with
      | some j => if p.faultNotify = 0x3FFF then s else s.fabricNotice p.job (j.hallOf p.faultNotify) 1 code words
      | none => s
    s.removePkg tag

/-- Abandon several packages with one code. -/
def State.abandonAll (s : State) (code tile : Nat) (hw : Bool) : List Nat → State
  | [] => s
  | t :: ts => (s.abandon t code tile 0 0 hw).abandonAll code tile hw ts

/-- Every running package. -/
def State.running (s : State) : List Nat := (s.pkgs.filter (·.running)).map (·.tag)

/-- A fault of a task ends its package: F-1304 met at this module is a hardware failure (R78, R200, R479). -/
def State.endTask (s : State) (t : Nat) (c : Ctx) (code : Nat) : State := s.abandon c.desc.tag code t c.desc.kernel c.desc.index (code == 0x1304)

/-- A task fault of a tile (R78, R82, R480): recorded, logged, and the package abandoned. -/
def State.faultTask (s : State) (t : Nat) (v : Bool) (code : Nat) (off : Nat) : State :=
  match s.ctx? t v with
  | none => s
  | some c => (s.noteFault t c code off).endTask t c code

/-- A task raises the code that an ERROR carried back: logged here with kind TASK, whatever its kind at the module that answered
(R247, R480). -/
def State.faultRemote (s : State) (t : Nat) (v : Bool) (code : Nat) (off : Nat) : State :=
  match s.ctx? t v with
  | none => s
  | some c =>
    let w := c.faultWords t code off
    ((s.record 0x3800 16 w).logAs 1 code (some c.job) w).abandon c.desc.tag code t c.desc.kernel c.desc.index false

/-- The module withdraws (R335): Night, running packages abandoned, later ones declined. -/
def State.withdraw (s : State) : State :=
  if s.health.withdrawn then s
  else
    let s := { s with health := { s.health with withdrawn := true } }.immediate 0x6105
    (s.chrEvent 0x6105 s.health.level s.hall 0 0 0).abandonAll 0x6105 0x3FF true s.running

end Sys2Proof.Machine
end

