-- ==== Sys2Proof/Machine/Operands.lean ====
section
/-!
DEFINITION. Operands of tile words: the fields of the header and the bodies, scalar registers, sums marked +X, parameter
blocks, COUNT_REFs, and reading and writing by a word (R163 to R167, R171, R131).
-/
namespace Sys2Proof.Machine

/-- A scalar register: S0 reads zero (R165). -/
def Ctx.reg (c : Ctx) (i : Nat) : Nat := if i = 0 then 0 else (Sp.get 0#64 c.regs i).toNat

/-- Write a scalar register: a write to S0 is discarded (R165). -/
def Ctx.setReg (c : Ctx) (i x : Nat) : Ctx := if i = 0 then c else { c with regs := Sp.put 0#64 c.regs i (BitVec.ofNat 64 x) }

/-- Write a scalar register of a context. -/
def State.setReg (s : State) (t : Nat) (v : Bool) (i x : Nat) : State := s.updCtx t v fun c => c.setReg i x

/-- OPCODE (Table 07-1). -/
def opcodeOf (w : Nat) : Nat := fld w 120 8

/-- Is WAIT bit `e` set? -/
def waitBit (w e : Nat) : Bool := flag w (116 + e)

/-- LAG. -/
def lagOf (w : Nat) : Nat := fld w 110 2

/-- XREG. -/
def xregOf (w : Nat) : Nat := fld w 112 4

/-- A field of the body. -/
def bodyBits (w lo len : Nat) : Nat := fld w lo len

/-- Sign extension of a 48-bit immediate to 64 bits (R173). -/
def imm48 (w : Nat) : Nat := twos 64 (sgn 48 (fld w 0 48))

/-- The control state of a starting task (R165). -/
def Ctx.start (d : Desc) (job : BitVec 16) (tile : Nat) : Ctx :=
  { desc := d, job := job, pos := d.w1,
    regs := Sp.put 0#64 (Sp.put 0#64 (Sp.put 0#64 (Sp.put 0#64 [] 1 d.w2) 2 (BitVec.ofNat 64 d.index)) 3 (BitVec.ofNat 64 d.home))
      4 (BitVec.ofNat 64 tile), words := [], arrivals := [], arrived := false, waiting := false, onSlot := none }

/-- The address of a parameter block of `n` bytes at PARAM + S(XREG) (R166, R167, R186). -/
def paramAt (v : Bool) (w x n : Nat) : Except Nat Nat :=
  let a := (fld w 0 24 + x) % 2 ^ 64
  if a % 16 ≠ 0 ∨ a + n > scratchSize then .error 0x3603
  else if areaOk v a n then .ok a else .error 0x3204

/-- 64-bit words of a scratchpad. -/
def memWords (m : Mem) (a n : Nat) : List Nat := (List.range n).map fun i => leNat (Mem.bytes m (a + 8 * i) 8)

/-- DEVICE of a COUNT_REF. -/
def refDevice (r : Nat) : Nat := fld r 12 14

/-- Does a COUNT_REF of a wait name a count of this module (R275)? -/
def State.refLocal (s : State) (job : BitVec 16) (r : Nat) : Bool :=
  match s.job? job with
  | some j => s.plays j (refDevice r)
  | none => refDevice r == 0x3FFF

/-- The fault of a COUNT_REF that a wait requires: F-3605, then F-4101 (R171, R275). -/
def State.waitRefFault (s : State) (job : BitVec 16) (r : Nat) : Option Nat :=
  if countRefBad r then some 0x3605 else if !s.refLocal job r then some 0x4101 else none

/-- A wait's F-4101 is a synchronisation fault and is recorded (R295). The count is another module's, so the VALUE that the
record shows is a free value (log 97). -/
def State.waitFaulted (s : State) (job : BitVec 16) (r f : Nat) : State :=
  if f = 0x4101 then s.drawn.syncFault 0x4101 (refIndex r) 0x3FFF job (s.free.toNat % 2 ^ 32) 0 else s

/-- Is the target of a wait reached? -/
def State.countReached (s : State) (job : BitVec 16) (r target : Nat) : Bool :=
  match s.job? job with | some j => j.reachedAt (refIndex r) target | none => false

/-- A waiting engine sets its tile's watch bit (R276). -/
def State.watch (s : State) (job : BitVec 16) (r t : Nat) : State :=
  s.updJob job fun j => if j.watch.contains (refIndex r, t) then j else { j with watch := j.watch ++ [(refIndex r, t)] }

end Sys2Proof.Machine
end

