-- ==== Sys2Proof/Machine/RemoteRun.lean ====
section
/-!
DEFINITION. What the remote engine does with a word that begins: the frames of PUT, GET, ACCUMULATE, ATOMIC, MULTICAST and
SIGNAL (R185, R246 to R248, R256, R274, R302), and the reads of records that lie at another module (R130, R132).
-/
namespace Sys2Proof.Machine

/-- The byte length S(LREG)[31:0]. -/
def Remote.bytes (r : Remote) : Nat := fld r.len 0 32

/-- SPACE of REMOTE. -/
def Remote.space (r : Remote) : Nat := fld r.addr 56 8

/-- DEVICE of REMOTE. -/
def Remote.device (r : Remote) : Nat := fld r.addr 42 14

/-- The COUNT_REF that rides with a transfer, with its increment: a zero is taken as 1 (R185, R274). -/
def Remote.sig (r : Remote) : Option (Nat × Nat) :=
  if flag r.cnt 31 then some (fld r.cnt 0 32, if fld r.cnt 32 32 = 0 then 1 else fld r.cnt 32 32) else none

/-- Frames to one destination on channel 16 in unanswered transfers (R256). -/
def State.adaptiveOut (s : State) (dst : Nat) : Nat :=
  sumNat ((s.xfers.filter fun x => x.dst == dst && x.channel == 16 && !x.vesper).map (·.frames))

/-- Does R256 hold the transfer back? -/
def State.holdsBack (s : State) (dst ch frames : Nat) : Bool := ch == 16 && decide (2048 < s.adaptiveOut dst + frames)

/-- Frames that `n` bytes take. -/
def frameCount (v : Bool) (n : Nat) : Nat := max 1 (cdiv n (perFrame v))

/-- The step tag of an ACCUMULATE of a training package (R302). -/
def State.stepTag (s : State) (c : Ctx) : Option Nat :=
  match s.pkg? c.desc.tag, s.job? c.job with
  | some p, some j => if p.kind = 1 then some j.step else none
  | _, _ => none

/-- How a word that its engine would begin stands. -/
inductive Begun where
  /-- It waits in its engine. -/
  | wait (w : EngWord) (s : State)
  /-- It has begun, or goes on: the word and the state. -/
  | go (w : EngWord) (s : State)
  /-- It raised a fault. -/
  | fault (code : Nat) (s : State)

/-- A remote word that has sent all it sends, and awaits the replies of its transfers. -/
def EngWord.sent (w : EngWord) (waits : List Nat) : EngWord := { w with begun := true, ran := true, waits := waits }

/-- A transfer of a word of a tile. -/
def wordXfer (t : Nat) (v : Bool) (c : Ctx) (w : EngWord) (dst ch op addr bytes : Nat) (sig : Option (BitVec 32 × BitVec 32))
    (step : Option Nat) (frames into : Nat) : Xfer :=
  ⟨0, some t, v, c.job, dst, ch, op, addr, bytes, 0, sig, w.off, step, frames, 0, into, v⟩

/-- Send a transfer with data to the module that REMOTE names. -/
def sendData (t : Nat) (v : Bool) (c : Ctx) (w : EngWord) (r : Remote) (op : BitVec 4) (variant aux half : Nat)
    (step : Option Nat) (data : List Byte) (s : State) : Begun :=
  let dst := s.hallFor c.job r.device
  let n := frameCount v data.length
  if s.holdsBack dst r.ch n then .wait w s
  else
    let o := s.openXfer (wordXfer t v c w dst r.ch op.toNat r.loc 0 none step n 0)
    let sig : Option SigExt := r.sig.map fun q => ⟨BitVec.ofNat 32 q.1, BitVec.ofNat 32 q.2, BitVec.ofNat 32 data.length⟩
    let f0 := { Frame.plain op v r.ch dst s.hall c.job o.1 with variant := BitVec.ofNat 9 variant, aux := BitVec.ofNat 32 aux,
                                                                             covers := if op = 3 then cdiv (data.length * half / 2) 4096 else 0 }
    .go (w.sent [o.1]) (o.2.sendAll (dataFrames f0 r.addr half sig data))

/-- PUT. -/
def beginPut (t : Nat) (v : Bool) (c : Ctx) (w : EngWord) (r : Remote) (s : State) : Begun :=
  sendData t v c w r 0 0 0 2 none (Mem.bytes (s.tile t).scratch r.loc r.bytes) s

/-- GET: a READ request whose data comes back to LOCAL. -/
def beginGet (t : Nat) (v : Bool) (c : Ctx) (w : EngWord) (r : Remote) (s : State) : Begun :=
  let dst := s.hallFor c.job r.device
  if s.holdsBack dst r.ch 1 then .wait w s
  else
    let o := s.openXfer (wordXfer t v c w dst r.ch 1 r.loc r.bytes
      (r.sig.map fun q => (BitVec.ofNat 32 q.1, BitVec.ofNat 32 q.2)) none 1 0)
    let f := { Frame.plain 1 v r.ch dst s.hall c.job o.1 with addr := BitVec.ofNat 64 r.addr, aux := BitVec.ofNat 32 r.bytes }
    .go (w.sent [o.1]) (o.2.sendAll [f])

/-- Source and target format of an ACCUMULATE's conversion (Table 07-19). -/
def xfmtPair (xf : Nat) : Nat × Nat := if xf = 0 then (1, 1) else if xf = 1 then (1, 2) else (2, 2)

/-- The bytes that an ACCUMULATE sends: its local elements converted, FP32 as FP32, FP32 as BF16 or BF16 as BF16 (R50); with
the stream's counter after the draws, and the counts. -/
def accumulateData (y : TileState) (xf : Nat) (rnd ovf : Bool) (loc n : Nat) : List Byte × Nat × Tally :=
  let q := xfmtPair xf
  let from' := fmtBits q.1 / 8
  let vs := (List.range (n / from')).map fun i => decVal q.1 (leNat (Mem.bytes y.scratch (loc + from' * i) from'))
  let r := convElems q.1 q.2 rnd ovf y.streamK.toNat y.streamC.toNat vs
  (r.1.flatMap (leBytes (fmtBits q.2 / 8)), r.2.2, r.2.1)

/-- ACCUMULATE: the elements are converted as they are sent. -/
def beginAccumulate (t : Nat) (v : Bool) (c : Ctx) (w : EngWord) (r : Remote) (s : State) : Begun :=
  let xf := fld r.var 0 2
  let y := s.tile t
  let d := accumulateData y xf (modeOf false (fld r.var 2 2) == some true) (modeOf true (fld r.var 4 2) == some true) r.loc r.bytes
  match sendData t v c w r 3 (if xf = 0 then 0 else 1) (fld r.len 32 32) (if xf = 0 then 2 else 4) (s.stepTag c) d.1 s with
  | .go w1 s1 => .go w1 (s1.setTile t { s1.tile t with streamC := BitVec.ofNat 128 d.2.1 } |>.countFormats {} d.2.2)
  | b => b

/-- ATOMIC: the operand and the CAS store value travel; the old value comes back to LOCAL. -/
def beginAtomic (t : Nat) (v : Bool) (c : Ctx) (w : EngWord) (r : Remote) (s : State) : Begun :=
  let aop := fld r.var 0 4
  sendData t v c w r 4 aop 0 2 none (leBytes 8 r.vals.1 ++ leBytes 8 (if aop = 7 then r.vals.2 else 0)) s

/-- Is a device number one that a module of the hall plays (F-2203)? -/
def State.deviceExists (s : State) (j : JobCtx) (d : Nat) : Bool :=
  let h := j.hallOf d
  decide (h < 14641) && (List.range 4).all fun k => decide (coordOf h k < s.dimSize k)

/-- The address with its DEVICE replaced. -/
def withDevice (a d : Nat) : Nat := a - fld a 42 14 * 2 ^ 42 + d * 2 ^ 42

/-- A COUNT_REF with its DEVICE replaced (R282). -/
def refFor (r d : Nat) : Nat := r - fld r 12 14 * 2 ^ 12 + d * 2 ^ 12

/-- Open one transfer for each member: the frames of each, and the transfers. -/
def openMembers (t : Nat) (v : Bool) (c : Ctx) (w : EngWord) (r : Remote) (j : JobCtx) (data : List Byte) (s : State) :
    List Nat → List (List Frame) × List Nat × State
  | [] => ([], [], s)
  | d :: ds =>
    let dst := j.hallOf d
    let o := s.openXfer (wordXfer t v c w dst r.ch 9 r.loc 0 none none (frameCount v data.length) 0)
    let sig : Option SigExt := r.sig.map fun q => ⟨BitVec.ofNat 32 (refFor q.1 d), BitVec.ofNat 32 q.2, BitVec.ofNat 32 data.length⟩
    let f0 := { Frame.plain 9 v r.ch dst s.hall c.job o.1 with variant := BitVec.ofNat 9 r.var }
    let q := openMembers t v c w r j data o.2 ds
    (dataFrames f0 (withDevice r.addr d) 2 sig data :: q.1, o.1 :: q.2.1, q.2.2)

/-- The frames of several transfers, frame by frame, each frame to every member in turn (R248). -/
def interleave : Nat → List (List Frame) → List Frame
  | 0, _ => []
  | n + 1, fs => fs.filterMap List.head? ++ interleave n (fs.map List.tail)

/-- The members of a MULTICAST's group, in increasing device number; none: the group or a member does not exist (F-2203). -/
def State.members (s : State) (job : BitVec 16) (group : Nat) : Option (JobCtx × List Nat) :=
  match s.job? job with
  | none => none
  | some j =>
    match j.groups.find? (·.1 == group) with
    | none => none
    | some (_, ds) => if ds.all (s.deviceExists j) then some (j, sortNat ds.eraseDups) else none

/-- MULTICAST (R248): own copy locally, one transfer to every other member in increasing device number. -/
def beginMulticast (t : Nat) (v : Bool) (c : Ctx) (w : EngWord) (r : Remote) (s : State) : Begun :=
  match s.members c.job r.var with
  | none => .fault 0x2203 s
  | some (j, ds) =>
    let others := ds.filter fun d => !s.plays j d
    if others.any fun d => s.holdsBack (j.hallOf d) r.ch (frameCount v r.bytes) then .wait w s
    else
      let data := Mem.bytes (s.tile t).scratch r.loc r.bytes
      let own : Option Nat × State :=
        match ds.find? (s.plays j) with
        | none => (none, s)
        | some d =>
          match s.writeMem c.job .tile v (withDevice r.addr d) data with
          | (some f, s1) => (some f, s1)
          | (none, s1) => (match r.sig with | some q => s1.raiseCount c.job (refIndex q.1) q.2 0x3FFF | none => (none, s1))
      match own with
      | (some f, s1) => .fault f s1
      | (none, s1) =>
        let o := openMembers t v c w r j data s1 others
        .go (w.sent o.2.1) (o.2.2.sendAll (interleave (frameCount v data.length) o.1))

/-- SIGNAL: one frame of length 0 to the module that holds the count. A signal is Vesper, a Noon job's too (R24); one that a
Noon task sends on channel 16, which is Noon only, stays Noon (DEDUCED, log 112). -/
def beginSignal (t : Nat) (v : Bool) (c : Ctx) (w : EngWord) (r : Remote) (s : State) : Begun :=
  let ref := fld r.cnt 0 32
  let dst := s.hallFor c.job (refDevice ref)
  if s.holdsBack dst r.ch 1 then .wait w s
  else
    let class' := r.ch != 16
    let o := s.openXfer { wordXfer t v c w dst r.ch 6 0 0 none none 1 0 with vesper := class' }
    let f := { Frame.plain 6 class' r.ch dst s.hall c.job o.1 with sig := some ⟨BitVec.ofNat 32 ref, BitVec.ofNat 32 r.bytes, 0⟩ }
    .go (w.sent [o.1]) (o.2.sendAll [f])

/-- Read `n` bytes of a record at a global address for word `w`: at this module through translation, at another by a READ
whose bytes go to the word's buffer `into` from `off` on (R130, R132). -/
def State.fetchRecord (s : State) (t : Nat) (v : Bool) (c : Ctx) (w : EngWord) (a off n into : Nat) : Begun :=
  let dev := fld a 42 14
  let here := match s.job? c.job with | some j => s.plays j dev | none => true
  if here || (decide (14641 ≤ dev) && dev != 0x3FFF) then
    match s.readMem c.job .tile v (a + off) n with
    | (.error f, s1) => .fault f s1
    | (.ok bs, s1) =>
      .go (if into = 1 then { w with bufs := (w.bufs.1 ++ bs, w.bufs.2) } else { w with bufs := (w.bufs.1, w.bufs.2 ++ bs) }) s1
  else
    let dst := s.hallFor c.job dev
    let o := s.openXfer (wordXfer t v c w dst 0 1 0 n none none 1 into)
    let f := { Frame.plain 1 v 0 dst s.hall c.job o.1 with addr := BitVec.ofNat 64 (a + off), aux := BitVec.ofNat 32 n }
    .go { w with waits := w.waits ++ [o.1] } (o.2.sendAll [f])

end Sys2Proof.Machine
end

