-- ==== Sys2Proof/Machine/Status.lean ====
section
/-!
DEFINITION. The status space 0x02: the live value of every word, what a refresh publishes with which rounding, and
what a reader sees (R7 to R9, R80, R81, R213, R271, R294, R320, R346, R354, R369, R394, R414, R419, R446, R461, R462,
R485).
-/
namespace Sys2Proof.Machine

/-- Pack values of `w` bits, value i at bit w*i. -/
def packBits (w : Nat) (xs : List Nat) : Nat := (xs.foldr (fun x a => a * 2 ^ w + x % 2 ^ w) 0)

/-- Does every engine of a context wait: its control unit under R75, and no word in progress on the others (R75, R76)? A control unit
that holds its own word back behind a word of another engine is not waiting for a wire, and keeps the tile up (DESIGN CHOICE,
log 134). -/
def Ctx.rests (c : Ctx) : Bool := c.waiting && c.words.all fun w => !w.begun || w.ran

/-- State of a tile as block 0x3000 codes it (Table 03-8). A tile without a task shows 1, waiting, before its first probe as after it
(DESIGN CHOICE, log 133). -/
def TileState.code (x : TileState) : Nat :=
  if x.isolated then 3 else if x.retained then 2
  else
    let runs (c : Option Ctx) : Bool := match c with | some c => !c.rests | none => false
    if runs x.vesper || (!x.suspended && runs x.noon) then 0 else 1

/-- CHANNEL_STATE of a channel (Table 08-6). -/
def State.channelState (s : State) (c : Nat) : Nat :=
  if Sp.get false s.mem.failed c then 2 else if 1024 ≤ Sp.get 0 s.mem.spares c then 1 else 0

/-- The channel with the most spare rows used, lowest index on ties, among those listed. -/
def leastSpare : Sp Nat → Nat × Nat
  | [] => (1024, 0)
  | (c, u) :: r => let y := leastSpare r; if y.1 < 1024 - min u 1024 then y else (1024 - min u 1024, c)

/-- FAULT_L is low (R458). -/
def State.faultLow (s : State) : Bool :=
  match s.start.phase with
  | .off => false
  | .safe => true
  | .starting => true
  | .ready => s.health.withdrawn || s.mem.hold || s.power.heatHold || s.power.inputBad

/-- Highest unlock held by any session (Table 16-10). -/
def State.unlockLevel (s : State) : Nat := s.conns.foldl (fun a c => match c.unlock with | some u => max a u.1 | none => a) 0

/-- Block 0x0000. -/
def State.block0 (s : State) (unlocked : Bool) (k : Nat) : W64 :=
  let q := k / 8
  if k = 0 then BitVec.ofNat 64 (1 + bit (decide (s.start.phase = .ready)) * 2 ^ 8 + s.start.row * 2 ^ 9 + s.start.cause.toNat * 2 ^ 12
      + s.start.feed * 2 ^ 14 + bit s.start.slot * 2 ^ 18 + bit s.faultLow * 2 ^ 19)
  else if k = 0x08 then Config.serial.truncate 64
  else if k = 0x10 then (Config.serial >>> 64).truncate 64
  else if k = 0x18 then s.start.starts
  else if k = 0x20 then s.start.timer
  else if k = 0x28 then s.start.readyAt
  else if 0x30 ≤ k ∧ k < 0x68 then nth 0#64 s.start.rowEnd (q - 6)
  else if k = 0x68 then s.start.pinResets
  else if k = 0x70 then s.start.watchdogs
  else if k = 0x700 then s.log.next
  else if k = 0x708 then (match s.log.sectors with | (_, n) :: _ => n | [] => s.log.next)
  else if k = 0x710 then s.log.bindSeq
  else if k = 0x718 ∨ k = 0x720 then s.word k
  else if k = 0x728 then BitVec.ofNat 64 s.log.queue.length
  else if 0x800 ≤ k ∧ k < 0xC00 then
    -- without an unlock, a record below BIND_SEQ reads as zero (R485)
    if !unlocked && decide ((s.word (k / 64 * 64)).toNat < s.log.bindSeq.toNat) then 0 else s.word k
  else if 0xC00 ≤ k ∧ k < 0x1000 then (if s.unlockLevel = 0 then 0 else s.word k)
  else 0

/-- Block 0x1000 (Table 08-6). -/
def State.block1 (s : State) (k : Nat) : W64 :=
  if k = 0x1000 then
    let failed := countIf (·.2) s.mem.failed
    BitVec.ofNat 64 (576 - failed + countIf (fun x => decide (1024 ≤ x.2)) s.mem.spares * 2 ^ 10 + s.mem.retired.length * 2 ^ 20)
  else if k = 0x1040 then let x := leastSpare s.mem.spares; BitVec.ofNat 64 (x.1 + x.2 * 2 ^ 11)
  else if 0x1100 ≤ k ∧ k < 0x1100 + 8 * 24 then
    let i := (k - 0x1100) / 8
    BitVec.ofNat 64 (Sp.get 0 s.mem.temp i % 256 + Sp.get 0 s.mem.tempMax i % 256 * 2 ^ 8 + bit (!Sp.get false s.mem.slow i) * 2 ^ 16)
  else if 0x1200 ≤ k ∧ k < 0x1320 then
    BitVec.ofNat 64 (packBits 4 ((List.range 16).map fun i => s.channelState ((k - 0x1200) / 8 * 16 + i)))
  else s.word k

/-- Block 0x2000 (Table 10-10). -/
def State.block2 (s : State) (k : Nat) : W64 :=
  if k = 0x2000 then
    let up := countIf (fun p => (s.port p).st == 2) (List.range 40)
    let qu := countIf (fun p => (s.port p).st == 3) (List.range 40)
    let pos := match s.cfg.hallPos with | some (a, b, c, d) => a + b * 16 + c * 256 + d * 4096 | none => 0
    BitVec.ofNat 64 (s.hall + pos * 2 ^ 14 + up * 2 ^ 30 + qu * 2 ^ 36)
  else if 0x2100 ≤ k ∧ k < 0x2B80 ∧ k % 64 = 0 then
    let x := s.port ((k - 0x2100) / 64)
    BitVec.ofNat 64 (x.st + (if x.st = 2 then x.peerHall else 0) * 2 ^ 3 + x.peerPort * 2 ^ 17 + min x.lengthM 127 * 2 ^ 23 + x.downs * 2 ^ 30)
  else s.word k

/-- Block 0x3000 (Table 03-8). -/
def State.block3 (s : State) (k : Nat) : W64 :=
  if k = 0x3000 then
    let iso := countIf (fun x => x.2.isolated) s.tiles
    BitVec.ofNat 64 (576 - iso + countIf (fun x => x.2.retained && !x.2.isolated) s.tiles * 2 ^ 10 + iso * 2 ^ 20)
  else if 0x3500 ≤ k ∧ k < 0x3620 then
    BitVec.ofNat 64 (packBits 4 ((List.range 16).map fun i => (s.tile ((k - 0x3500) / 8 * 16 + i)).code))
  else s.word k

/-- Block 0x4000 (Table 11-8). -/
def State.block4 (s : State) (k : Nat) : W64 :=
  if k = 0x4028 then BitVec.ofNat 64 (countIf (fun t => !t.bad) s.tallies + (s.word 0x4028).toNat / 2 ^ 32 * 2 ^ 32) else s.word k

/-- The training context that block 0x5000 speaks of: the one held longest with a gradient block. -/
def State.trainJob (s : State) : Option JobCtx := s.jobs.find? fun j => j.grad.isSome

/-- Block 0x5000 (Table 12-6). -/
def State.block5 (s : State) (k : Nat) : W64 :=
  if k = 0x5080 then
    match s.trainJob with
    | some j => BitVec.ofNat 64 (j.lossScale.toNat + min j.clean 65535 * 2 ^ 32 + min j.skips 1024 * 2 ^ 48 + j.lastFlags % 8 * 2 ^ 59)
    | none => 0
  else s.word k

/-- Block 0x6000 (Table 13-11). -/
def State.block6 (s : State) (k : Nat) : W64 :=
  let c := s.jobs.findSome? fun j => j.chrys
  if k = 0x6000 then
    let h := s.health
    BitVec.ofNat 64 (h.level + bit h.withdrawn * 4 + h.domain % 16 * 8 + bit h.mismatch * 128 + h.score.toNat * 256)
  else if k = 0x6010 then (match c with | some c => BitVec.ofNat 64 c.committed | none => 0)
  else if k = 0x6018 then (match c with | some c => c.gen.zeroExtend 64 | none => 0)
  else s.word k

/-- Block 0x7000 (Table 15-12). -/
def State.block7 (s : State) (k : Nat) : W64 :=
  if k = 0x7000 then
    BitVec.ofNat 64 (countIf (fun c => decide (2 ≤ c.st)) s.conns + s.assemblies.length * 32)
  else if 0x7100 ≤ k ∧ k < 0x7300 then
    match s.conns.find? fun c => c.entry == (k - 0x7100) / 32 with
    | none => 0
    | some c =>
      if k % 32 = 0 then BitVec.ofNat 64 (c.st + c.port.val * 4 + c.id.toNat * 16)
      else if k % 32 = 8 then c.datagrams
      else if k % 32 = 16 then BitVec.ofNat 64 ((s.now - c.lastAt) / 1000000) else 0
  else s.word k

/-- Block 0x8000 (Table 16-10). -/
def State.block8 (s : State) (k : Nat) : W64 :=
  if k = 0x8000 then
    BitVec.ofNat 64 (bit s.sec.tenant.isSome + bit s.sec.zeroing.isSome * 2 + s.unlockLevel * 4 +
      countIf (fun c => c.unlock.isSome) s.conns * 16 + bit s.sec.lockout.isSome * 2 ^ 9 +
      (match s.sec.tenant with | some t => t.id.toNat | none => 0) * 2 ^ 10)
  else s.word k

/-- A bank's two words (Table 17-13). -/
def bankWords (x : Nat × Bool × Nat × Nat × W64) : W64 × W64 :=
  (BitVec.ofNat 64 (x.1 + bit x.2.1 * 16 + x.2.2.1 * 32 + x.2.2.2.1 * 2 ^ 12), x.2.2.2.2)

/-- Staging words (Table 17-13). -/
def State.stageWords (s : State) : W64 × W64 :=
  let o := s.img.outcome
  match s.img.staging with
  | some g => (BitVec.ofNat 64 (g.st + bit g.bank * 4 + o.1 * 8 + o.2.1 * 2 ^ 19), BitVec.ofNat 64 g.got)
  | none => (BitVec.ofNat 64 (bit o.2.2.1 * 4 + o.1 * 8 + o.2.1 * 2 ^ 19), BitVec.ofNat 64 o.2.2.2)

/-- Block 0x9000 (Table 17-13). -/
def State.block9 (s : State) (k : Nat) : W64 :=
  let i := s.img
  let safe := decide (s.start.phase = .safe)
  if k = 0x9000 then BitVec.ofNat 64 (bit (i.bank == some true) + bit safe * 2 + i.shown * 4 + bit s.cfg.strict * 256)
  else if k = 0x9008 then i.seq
  else if k = 0x9010 then (bankWords i.checkA).1
  else if k = 0x9018 then (bankWords i.checkA).2
  else if k = 0x9020 then (bankWords i.checkB).1
  else if k = 0x9028 then (bankWords i.checkB).2
  else if k = 0x9030 then s.stageWords.1
  else if k = 0x9038 then s.stageWords.2
  else if 0x9040 ≤ k ∧ k < 0x9060 then BitVec.ofNat 64 (leNat ((s.cfg.label.drop (k - 0x9040)).take 8))
  else if k = 0x9080 then BitVec.ofNat 64 i.clamps.length
  else if 0x9800 ≤ k then
    match i.clamps[(k - 0x9800) / 16]? with
    | some c => if k % 16 = 0 then c.1 else c.2
    | none => 0
  else 0

/-- Is a blade pair lost? -/
def PowerState.anyLost (p : PowerState) : Bool := p.lost.1 || p.lost.2

/-- Has a tile stopped on its grant in the last second (Table 14-9)? -/
def State.throttled (s : State) : Bool := decide (s.power.throttledAt ≠ 0 ∧ s.now < s.power.throttledAt + 1000000000)

/-- PWR_OK: every rail in regulation, the supplies of the dies among them, and the blade voltage within 40 to 60 V (R458; log 135). -/
def State.pwrOk (s : State) : Bool := s.start.rails && s.start.input && s.power.under.isEmpty

/-- POWER_LIMIT in use (R466). -/
def State.powerLimit (s : State) : Nat := if s.power.anyLost then min s.cfg.powerLimit 1400 else s.cfg.powerLimit

/-- A die's supply in mV. -/
def State.supply (s : State) (d : Nat) : Nat := Sp.get s.cfg.supplyStart s.power.supply d

/-- Block 0xA000 (Table 14-9); `exact`: 10 ms means in 1 W steps (R354). -/
def State.blockA (s : State) (exact : Bool) (k : Nat) : W64 :=
  let p := s.power
  if k = 0xA000 then
    let avg := if exact then p.means.2 else p.means.1 / 10 * 10
    BitVec.ofNat 64 (avg % 4096 + s.powerLimit * 2 ^ 12 + (s.cfg.vesperPowerShare * s.cfg.powerLimit / 200) * 2 ^ 24 +
      bit s.throttled * 2 ^ 36 + min p.volts 1000 * 2 ^ 37)
  else if 0xA010 ≤ k ∧ k < 0xA030 then
    let d := (k - 0xA010) / 8
    BitVec.ofNat 64 (s.supply d + Sp.get 0 p.temp d % 256 * 2 ^ 10 + Sp.get 0 p.tempMax d % 256 * 2 ^ 18 + bit (Sp.get 0 p.halvings d != 0) * 2 ^ 26)
  else if k = 0xA100 then BitVec.ofNat 64 (countIf (·.vesper) s.pkgs + p.kappa.toNat * 32)
  else s.word k

/-- The live value of a status word; words that no rule assigns read 0 (R8). -/
def State.live (s : State) (exact : Bool) (k : Nat) : W64 :=
  match k / 0x1000 with
  | 0 => s.block0 exact k
  | 1 => s.block1 k
  | 2 => s.block2 k
  | 3 => s.block3 k
  | 4 => s.block4 k
  | 5 => s.block5 k
  | 6 => s.block6 k
  | 7 => s.block7 k
  | 8 => s.block8 k
  | 9 => s.block9 k
  | 10 => s.blockA exact k
  | 11 => s.word k
  | _ => 0

/-- The step to which a word is rounded down without an unlock (R81, R271, R294, R320, R346, R394); 1: exact. A snapshot
sequence is published exact, or it could enclose no set (DEDUCED, log 22). -/
def roundStep (k : Nat) : Nat :=
  if 0x3100 ≤ k ∧ k < 0x3200 then (if k % 64 < 32 then 2 ^ 20 else 16)
  else if k = 0x3018 then 16
  else if 0x2100 ≤ k ∧ k < 0x2B80 then
    (if k % 64 = 0 then 1 else if k % 64 ≤ 16 then 2 ^ 20 else 16)
  else if 0x4008 ≤ k ∧ k ≤ 0x4048 ∧ k ≠ 0x4028 then 16
  else if 0x5008 ≤ k ∧ k ≤ 0x5078 then 16
  else if 0x6020 ≤ k ∧ k ≤ 0x6060 then 16
  else if 0x7010 ≤ k ∧ k ≤ 0x7070 then 16
  else if 0x7100 ≤ k ∧ k < 0x7300 ∧ k % 32 = 8 then 16
  else 1

/-- Is the word published at refreshes, rather than read live? -/
def refreshed (k : Nat) : Bool :=
  let b := k / 0x1000
  (decide (1 ≤ b ∧ b ≤ 11) && b != 9 && !(b == 3 && decide (0x3A00 ≤ k))) || k == 0x9030 || k == 0x9038

/-- The snapshot sequence word of a block (R80, R213, R271, R294, R320, R346, R369, R394, R419, R462). -/
def seqWord (b : Nat) : Option Nat :=
  match b with
  | 1 => some 0x1008 | 2 => some 0x2008 | 3 => some 0x3008 | 4 => some 0x4000 | 5 => some 0x5000 | 6 => some 0x6008
  | 7 => some 0x7008 | 8 => some 0x8008 | 10 => some 0xA008 | 11 => some 0xB000 | _ => none

/-- The words of a block, published into a table: the value now, rounded down unless `exact`. -/
def State.publish (s : State) (exact : Bool) (b : Nat) (m : Sp W64) : Sp W64 :=
  (List.range 512).foldl (fun m i =>
    let k := b * 0x1000 + 8 * i
    if refreshed k then
      let x := s.live exact k
      Sp.put 0#64 m k (if exact then x else BitVec.ofNat 64 (x.toNat / roundStep k * roundStep k))
    else m) m

/-- The record counts of R414 and the records that they count: published exact to every reader at each refresh of their block. -/
def recordWord (k : Nat) : Bool :=
  decide (0x1400 ≤ k ∧ k < 0x1488 ∨ 0x2C00 ≤ k ∧ k < 0x2D08 ∨ 0x3800 ≤ k ∧ k < 0x3908 ∨ 0x4100 ≤ k ∧ k < 0x4208 ∨ 0x6100 ≤ k ∧ k < 0x6208 ∨
    0x7400 ≤ k ∧ k < 0x7508 ∨ 0x8100 ≤ k ∧ k < 0x8208 ∨ 0xB400 ≤ k ∧ k < 0xB508)

/-- A block's record counts and records go into a table as they are. -/
def State.publishRecords (s : State) (b : Nat) (m : Sp W64) : Sp W64 :=
  (List.range 512).foldl (fun m i => let k := b * 0x1000 + 8 * i; if recordWord k then Sp.put 0#64 m k (s.live true k) else m) m

/-- The blocks that an unlock refreshes every 1 ms: those of the rules that R414 lists. -/
def msBlock (b : Nat) : Bool := [1, 2, 3, 4, 5, 6, 7, 10].contains b

/-- A 1 ms refresh of a block under an unlock: its exact words for sessions that hold one, and its records for every reader (R414). -/
def State.publishMs (s : State) (b : Nat) : State :=
  { s with pubExact := s.publish true b s.pubExact, pub := s.publishRecords b s.pub }

/-- The two published values of a block's words (R414): rounded, and exact. -/
def State.publishBoth (s : State) (b : Nat) : State := { s with pub := s.publish false b s.pub, pubExact := s.publish true b s.pubExact }

/-- What a reader sees (R9, R414; the blocks are those of the rules that R414 lists): `unlocked`: a session that holds an unlock. -/
def State.readStatus (s : State) (unlocked : Bool) (k : Nat) : W64 :=
  if !refreshed k then s.live unlocked k
  else if unlocked && msBlock (k / 0x1000) then Sp.get 0#64 s.pubExact k
  else Sp.get 0#64 s.pub k

end Sys2Proof.Machine
end

