-- ==== Sys2Proof/Machine/EngineRun.lean ====
section
/-!
DEFINITION. The four engines of a tile: when an accepted word begins, what beginning does, and what completing it does
(R96, R102, R104, R129 to R133, R149, R150, R158 to R160, R162, R180).
-/
namespace Sys2Proof.Machine

/-! ### When a word begins (R96, R104, R159, R162) -/

/-- Do two words meet in a half of the banks? -/
def sharesHalf (a b : EngWord) : Bool := (a.halves.1 && b.halves.1) || (a.halves.2 && b.halves.2)

/-- A load that has made its generation current. -/
def EngWord.loaded (w : EngWord) : Bool := match w.op with | .instar _ _ => w.ran | _ => false

/-- May word `k` of a context begin? Each engine runs its words in the order it accepted them: one word at a time on the
matrix, vector and move engines, except that an INSTAR_LOAD runs beside an earlier pass (R159); and an operation on a half of
the banks waits for every earlier one on it, whichever engine runs that one, so that the one issued first completes first (R96). -/
def Ctx.mayBegin (c : Ctx) (k : Nat) (w : EngWord) : Bool :=
  let before := c.words.take k
  let mine := before.filter fun e => e.engine == w.engine
  match w.op with
  | .matmul _ | .accMove _ | .accStatus _ => mine.isEmpty && !(before.any fun e => sharesHalf e w)
  | .move _ => mine.isEmpty
  | .pass _ => mine.all EngWord.loaded && !(before.any fun e => sharesHalf e w)
  | .compose _ | .combine _ | .finalise _ => mine.all EngWord.loaded
  | .instar _ _ | .put _ | .get _ | .accumulate _ | .atomic _ | .multicast _ | .signal _ => mine.all (·.begun)

/-- Do the engines of the tile work for a class: not isolated or in retention, and for Noon neither suspended nor stopped
(R72, R76, R79, R350)? -/
def TileState.engines (x : TileState) (v : Bool) : Bool :=
  !x.isolated && !x.retained && (v || (!x.suspended && x.vesper.isNone && !x.stopped))

/-! ### Waits and records (R130, R132) -/

/-- Wait for counts: none where all are reached; else the state in which the tile watches the first that is not. -/
def State.awaits (s : State) (t : Nat) (job : BitVec 16) : List (Nat × Nat × Nat) → Option State
  | [] => none
  | (mode, ref, target) :: r => if mode = 2 && !s.countReached job ref target then some (s.watch job ref t) else s.awaits t job r

/-- What is still to be fetched of a record of mode 2: from which byte, and how many. -/
def missing (mode n : Nat) (buf : List Byte) : Option (Nat × Nat) :=
  if mode = 2 && decide (buf.length < n) then some (buf.length, n - buf.length) else none

/-- The length of a carry record whose first 16 bytes are known (R132); until then those 16. -/
def carryNeed (buf : List Byte) : Nat := if buf.length < 16 then 16 else carryLen (flag (leNat (buf.take 8)) 8)

/-- The next read that a word needs before it begins: address, first byte, bytes, buffer (R130, R132, R149). -/
def EngWord.need (w : EngWord) : Option (Nat × Nat × Nat × Nat) :=
  let of (mode a n into : Nat) (buf : List Byte) : Option (Nat × Nat × Nat × Nat) :=
    (missing mode n buf).map fun q => (a, q.1, q.2, into)
  match w.op with
  | .pass p => p.scan.bind fun s => of s.carryIn s.inAddr (carryLen s.lanes) 1 w.bufs.1
  | .compose b => of b.xMode b.x (carryNeed w.bufs.1) 1 w.bufs.1
  | .combine b => (of b.xMode b.x (32 * b.n) 1 w.bufs.1).orElse fun _ => of b.yMode b.y (32 * b.n) 2 w.bufs.2
  | .finalise b => of b.xMode b.x (32 * b.n) 1 w.bufs.1
  | _ => none

/-- Fetch what a word needs, read by read; a read at another module waits for its reply. -/
def State.gather (t : Nat) (v : Bool) (c : Ctx) : Nat → EngWord → State → Begun
  | 0, w, s => .wait w s
  | n + 1, w, s =>
    match w.need with
    | none => .go w s
    | some q =>
      if !w.waits.isEmpty then .wait w s
      else
        match s.fetchRecord t v c w q.1 q.2.1 q.2.2.1 q.2.2.2 with
        | .go w1 s1 => State.gather t v c n w1 s1
        | b => b

/-! ### Beginning -/

/-- A pass begins (R110, R129, R130, R159): its wait, its record, then the latched generations and its constants. -/
def State.beginPass (s : State) (t : Nat) (v : Bool) (c : Ctx) (w : EngWord) (p : VPass) : Begun :=
  let start (w : EngWord) (k : Option Carry) (s : State) : Begun :=
    let y := s.tile t
    let q := p.readConsts y.scratch
    .go { w with op := .pass q, begun := true, latched := latchedOf y p, pass := q.enter k } s
  match p.scan with
  | none => start w none s
  | some sc =>
    match s.awaits t c.job [(sc.carryIn, sc.waitCount, sc.waitTarget)] with
    | some s1 => .wait w s1
    | none =>
      match State.gather t v c 2 w s with
      | .go w1 s1 =>
        if sc.carryIn = 0 then start w1 none s1
        else
          let k := Carry.ofBytes (heldBytes (s1.tile t).scratch sc.carryIn sc.inAddr (carryLen sc.lanes) w1.bufs.1)
          if k.fits sc.op sc.fmt sc.lanes sc.tag then start w1 (some k) s1 else .fault 0x3403 s1
      | b => b

/-- A record operation begins once its counts are reached and its records from elsewhere are at hand (R130, R132, R149). A ROWSTAT
operation then reads its records, and F-3503 is raised before it writes any (R149, R160). -/
def State.beginRec (s : State) (t : Nat) (v : Bool) (c : Ctx) (w : EngWord) (b : RecBlock) : Begun :=
  match s.awaits t c.job [(b.xMode, b.xWait, b.xTarget), (b.yMode, b.yWait, b.yTarget)] with
  | some s1 => .wait w s1
  | none =>
    match State.gather t v c 4 w s with
    | .go w1 s1 =>
      let w2 := w1.latchRecords (s1.tile t).scratch
      (match w1.op, w2.recordOut v (s1.tile t).scratch with
       | .compose _, _ => .go { w2 with begun := true } s1
       | _, some (_, .error f) => .fault f s1
       | _, _ => .go { w2 with begun := true } s1)
    | q => q

/-- INSTAR_LOAD (R158, R159): the image is read, checked and made current. -/
def State.beginLoad (s : State) (t : Nat) (v : Bool) (c : Ctx) (w : EngWord) (i a : Nat) : Begun :=
  let y := s.tile t
  let sl := y.slot i
  if v && holdsGen y.noon i (!sl.cur) then .fault 0x3503 s
  else if holdsGen y.noon i (!sl.cur) || holdsGen y.vesper i (!sl.cur) then .wait w s
  else
    match s.readMem c.job .tile v a 32 with
    | (.error f, s1) => .fault f s1
    | (.ok h, s1) =>
      let n := instarLen (leNat (h.take 8))
      if n > 12288 then .fault 0x3502 (s1.setTile t (y.setSlot i (sl.write [])))
      else
        match s1.readMem c.job .tile v a n with
        | (.error f, s2) => .fault f s2
        | (.ok bs, s2) =>
          if instarOk bs then .go { w with begun := true, ran := true } (s2.setTile t (y.setSlot i { sl.write bs with cur := !sl.cur }))
          else .fault 0x3502 (s2.setTile t (y.setSlot i (sl.write [])))

/-- What the engine of a word does as it begins it. A matrix operation meets F-3301 here (R102), and zeroes its rows and sets
its tags (R95). -/
def State.beginWord (s : State) (t : Nat) (v : Bool) (c : Ctx) (w : EngWord) : Begun :=
  match w.op with
  | .matmul o =>
    let y := s.tile t
    if matTagFault o y.mat then .fault 0x3301 s
    else .go { w with begun := true } (s.setTile t { y with mat := if o.init then matInit o y.mat else y.mat })
  | .accMove _ | .accStatus _ | .move _ => .go { w with begun := true } s
  | .pass p => s.beginPass t v c w p
  | .compose b => s.beginRec t v c w { b with yMode := 1 }
  | .combine b => s.beginRec t v c w b
  | .finalise b => s.beginRec t v c w { b with yMode := 0 }
  | .instar i a => s.beginLoad t v c w i a
  | .put r => beginPut t v c w r s
  | .get r => beginGet t v c w r s
  | .accumulate r => beginAccumulate t v c w r s
  | .atomic r => beginAtomic t v c w r s
  | .multicast r => beginMulticast t v c w r s
  | .signal r => beginSignal t v c w r s

/-- Word `k` of a context begins, if it may; one that faults runs no further, and its task with it (R78). -/
def State.beginOne (t : Nat) (v : Bool) (s : State) (k : Nat) : State :=
  match s.ctx? t v with
  | none => s
  | some c =>
    match c.words[k]? with
    | none => s
    | some w =>
      if w.begun || !(s.tile t).engines v || !c.mayBegin k w then s
      else
        match s.beginWord t v c w with
        | .wait w1 s1 => s1.setEng t v k w1
        | .go w1 s1 => s1.setEng t v k w1
        | .fault code s1 => (s1.setEng t v k { w with begun := true, ran := true }).faultTask t v code w.off.toNat

/-- Every word of a context that may begin does, the oldest first (R162). -/
def State.beginWords (s : State) (t : Nat) (v : Bool) : State :=
  match s.ctx? t v with
  | none => s
  | some c => (List.range c.words.length).foldl (State.beginOne t v) s

/-! ### Completing (R162) -/

/-- Write a word's record with its count; the word awaits the reply where the record goes to another module. -/
def State.leaveRecord (s : State) (t : Nat) (v : Bool) (c : Ctx) (w : EngWord) (dest raise : Nat) (bs : List Byte) : Begun :=
  let o := s.writeRecord t v c w.off.toNat dest raise bs
  match o.fault with
  | some f => .fault f o.s
  | none => .go { w with ran := true, waits := o.waits } o.s

/-- The elements that a pass of an update kernel counts by its COUNT reductions as left unchanged rise UPDATE_NONFINITE (R311);
which of its reductions is that one is the program's, and no field of a package says so (log 80). -/
def State.countUnchanged (s : State) (c : Ctx) (w : EngWord) (p : VPass) : State :=
  let update : Bool := match s.pkg? c.desc.tag, s.job? c.job with
    | some q, some j => q.kind == 1 && (match q.kernel? c.desc.kernel with | some k => j.isUpdate k | none => false)
    | _, _ => false
  if !update then s
  else
    let one (k : Nat) : Nat := match p.reds[k]?, w.pass.reds[k]? with
      | some rd, some items => if rd.op == 6 && Config.countsUnchanged c.desc.kernel w.off.toNat k then countIf (·.2.1) items else 0
      | _, _ => 0
    s.bump 0x5060 (sumNat ((List.range p.reds.length).map one))

/-- A begun word runs to its end: the rest of its units, then what it writes last. -/
def State.finishWord (s : State) (t : Nat) (v : Bool) (c : Ctx) (w : EngWord) : Begun :=
  match w.op with
  | .accStatus d =>
    let y := s.tile t
    .go { w with ran := true } ((s.setTile t { y with mat := { y.mat with intSat := 0 } }).setReg t v d (accStatusWord y.mat))
  | .pass p =>
    let r := s.runPass t w p w.left
    (match r.fault, p.scan with
     | some f, _ => .fault f r.s
     | none, some sc =>
       let s1 := r.s.countUnchanged c r.w p
       if sc.carryOut then s1.leaveRecord t v c r.w sc.outDest sc.raise (carryOut sc r.w.pass.scan)
       else .go { r.w with ran := true } s1
     | none, none => .go { r.w with ran := true } (r.s.countUnchanged c r.w p))
  | .compose b =>
    (match composeBytes v (s.tile t).scratch b w.bufs.1 with
     | .error f => .fault f s
     | .ok bs => s.leaveRecord t v c w b.dest b.raise bs)
  | _ =>
      let r := s.runWord t v c w w.left
      match r.fault with
      | some f => .fault f r.s
      | none => .go { r.w with ran := true } r.s

/-- Does a pass use the special-function evaluators? -/
def usesSfe (p : VPass) : Bool := p.stages.any fun s => s.op == 0x15

/-- Waves are counted for the engine; those of the evaluators within a pass are free up to them (log 27). -/
def State.wordWaves (s : State) (t : Nat) (w : EngWord) (n : Nat) : State :=
  let up (kind : Nat) (n : Nat) (s : State) : State := s.bump (0x3100 + 0x40 * (t / 144) + 8 * kind) n
  match w.op with
  | .matmul _ | .accMove _ | .accStatus _ => up 0 n s
  | .pass p => if usesSfe p then (up 2 (s.free.toNat % (n + 1)) (up 1 n s)).drawn else up 1 n s
  | .compose _ | .combine _ | .finalise _ | .instar _ _ => up 1 n s
  | .move _ => up 3 n s
  | _ => s

/-- The word of an engine that completes next: the oldest that has run and awaits nothing, else the oldest that has begun
and not run. -/
def Ctx.nextDone (c : Ctx) (e : Fin 4) : Option (Nat × EngWord) :=
  let at' (p : EngWord → Bool) : Option (Nat × EngWord) :=
    (c.words.findIdx? fun w => w.engine == e && p w).bind fun k => c.words[k]?.map fun w => (k, w)
  (at' fun w => w.ran && w.waits.isEmpty).orElse fun _ => at' fun w => w.begun && !w.ran

/-- Word `k` of a context, as its engine leaves it: one that has run and awaits nothing is complete and goes. -/
def State.leaveWord (s : State) (t : Nat) (v : Bool) (k : Nat) (w : EngWord) (waves : Nat) : State :=
  if w.ran && w.waits.isEmpty then (s.updCtx t v fun c => { c with words := c.words.eraseIdx k }).wordWaves t w waves
  else s.setEng t v k w

/-- Word `k` of a context runs to its end and completes; one that faults ends its task (R78). -/
def State.completeWord (s : State) (t : Nat) (v : Bool) (c : Ctx) (k : Nat) (w : EngWord) (waves : Nat) : State :=
  if w.ran then s.leaveWord t v k w waves
  else
    match s.finishWord t v c w with
    | .wait w1 s1 => s1.setEng t v k w1
    | .go w1 s1 => s1.leaveWord t v k w1 waves
    | .fault code s1 => (s1.setEng t v k { w with ran := true }).faultTask t v code w.off.toNat

/-! ### Suspension (R72, R99, R133) -/

/-- The Noon words in progress stop at their suspension points, and the task issues nothing more until it resumes. One that
meets a fault before its point ends its task; faults of others that follow it are recorded too (R78). -/
def State.suspendNoon (s : State) (t : Nat) : State :=
  match (s.tile t).noon with
  | none => s
  | some c =>
    let r := State.stopFrom t false c 0 c.words s
    match r.2 with
    | (code, off) :: rest => ((r.1.noteFault t c code off.toNat).noteFaults t c rest).endTask t c code
    | [] => r.1.setTile t { r.1.tile t with suspended := true }

/-- The matrix operation of a context that stands between two rows. -/
def Ctx.matmulAt (c : Ctx) : Option MatOp :=
  c.words.findSome? fun w => if w.midst && decide (0 < w.pos) then (match w.op with | .matmul o => some o | _ => none) else none

end Sys2Proof.Machine
end

