-- ==== Sys2Proof/Machine/Flags.lean ====
section
/-!
DEFINITION. The compared conditions and scalar arithmetic of R173. (The flags and counters of Tables 02-5 and 09-5 are
raised where an engine runs: `State.countFormats`, `State.countMove`, `State.wordWaves`.)
-/
namespace Sys2Proof.Machine

/-- The ALU operations of Table 07-5 on 64-bit values; `none`: reserved. -/
def aluOp (op a b : Nat) : Option Nat :=
  let sa := sgn 64 a
  let sb := sgn 64 b
  match op with
  | 0 => some ((a + b) % 2 ^ 64)
  | 1 => some ((a + 2 ^ 64 - b) % 2 ^ 64)
  | 2 => some (a * b % 2 ^ 64)
  | 3 => some (a &&& b)
  | 4 => some (a ||| b)
  | 5 => some (a ^^^ b)
  | 6 => some (a * 2 ^ (b % 64) % 2 ^ 64)
  | 7 => some (a / 2 ^ (b % 64))
  | 8 => some (twos 64 (sa / (2 ^ (b % 64) : Nat)))
  | 9 => some (if sa ≤ sb then a else b)
  | 10 => some (if sa ≤ sb then b else a)
  | 11 => some (min a b)
  | 12 => some (max a b)
  | _ => none

/-- The conditions of Table 07-5 (BRANCH); `none`: reserved. -/
def branchCond (cond a b : Nat) : Option Bool :=
  let sa := sgn 64 a
  let sb := sgn 64 b
  match cond with
  | 0 => some true
  | 1 => some (a == b)
  | 2 => some (a != b)
  | 3 => some (decide (sa < sb))
  | 4 => some (decide (sb ≤ sa))
  | 5 => some (decide (a < b))
  | 6 => some (decide (b ≤ a))
  | _ => none

end Sys2Proof.Machine
end

