-- ==== Sys2Proof/Machine/Issue.lean ====
section
/-!
DEFINITION. Fetch and issue of a tile word (R161 to R169, R186): the one pipeline that every word's meaning goes through.
An engine word issues when its engine accepts it; it begins when its engine is free for it, and its completion is a command
of its own (log 25).
-/
namespace Sys2Proof.Machine

/-- What issuing a word comes to. -/
inductive WordRes where
  /-- It issued; the program goes on with the next word. -/
  | ok (s : State)
  /-- It issued; the program position moves. -/
  | goto (pos : W64) (s : State)
  /-- Its engine has accepted it (R161, R162). -/
  | accepted (w : EngWord) (s : State)
  /-- It is held back, and with it every later word, by a word before it, a full queue of an engine or of another tile
  (R161, R162, R164, R66, R169): it is tried again whenever it is sent. -/
  | hold (s : State)
  /-- It waits under R75: nothing issues until a wake wire fires (R161, R168). -/
  | wait (s : State)
  /-- It raised a fault; `s` holds what its owning chapter lets it write (R78). -/
  | fault (code : Nat) (s : State)
  /-- The task has ended. -/
  | ended (s : State)

/-- Opcodes of Table 07-2. -/
def opcodeOk (op : Nat) : Bool :=
  decide (op ≤ 0x07) || decide (0x20 ≤ op ∧ op ≤ 0x22) || decide (0x30 ≤ op ∧ op ≤ 0x35) || op == 0x40 ||
  decide (0x50 ≤ op ∧ op ≤ 0x55) || decide (0x60 ≤ op ∧ op ≤ 0x64) || op == 0x70 || op == 0x71

/-- The engine of an opcode: 0 matrix, 1 vector, 2 move, 3 remote; none: the control unit. -/
def engineOf (op : Nat) : Option (Fin 4) :=
  if 0x20 ≤ op ∧ op ≤ 0x2F then some 0
  else if 0x30 ≤ op ∧ op ≤ 0x3F then some 1
  else if op = 0x40 then some 2
  else if 0x50 ≤ op ∧ op ≤ 0x5F then some 3 else none

/-- Incomplete words of a task on an engine. -/
def Ctx.incomplete (c : Ctx) (e : Nat) : Nat := countIf (fun w => w.engine.val == e) c.words

/-- Words in the issue queue of an engine: accepted and not begun (R162). -/
def Ctx.queued (c : Ctx) (e : Nat) : Nat := countIf (fun w => w.engine.val == e && !w.begun) c.words

/-- May a context of the tile issue now (R72, R76, R79, R350)? -/
def TileState.issues (x : TileState) (v : Bool) : Bool := x.engines v

/-- Does WAIT with LAG hold the word back (R164), or is the issue queue of its engine full: 4 words (R162)? -/
def Ctx.gated (c : Ctx) (w : Nat) : Bool :=
  ((List.range 4).any fun e => waitBit w e && decide (lagOf w < c.incomplete e)) ||
  (match engineOf (opcodeOf w) with | some e => decide (4 ≤ c.queued e.val) | none => false)

/-- Byte offset of the word at the program position within its program (R82). -/
def Ctx.off (c : Ctx) : Nat := (c.pos - c.desc.w1).toNat % 2 ^ 32

/-- Fetch the word at the program position through translation (R161). -/
def State.fetch (s : State) (v : Bool) (c : Ctx) : Except Nat Nat × State :=
  match s.readMem c.job .tile v c.pos.toNat 16 with
  | (.error f, s1) => (.error f, s1)
  | (.ok bs, s1) => (.ok (leNat bs), s1)

/-- A word issued: the tile has met the bound of R77, and the program goes on. -/
def State.issued (s : State) (t : Nat) (v : Bool) (f : Ctx → Ctx) : State :=
  let s1 := s.updCtx t v fun c => { f c with waiting := false, onSlot := none }
  s1.setTile t { s1.tile t with woken := false }

/-- What follows from how a word issued. -/
def settle (t : Nat) (v : Bool) (off : Nat) : WordRes → State
  | .ok s => s.issued t v fun c => { c with pos := c.pos + 16 }
  | .goto p s => s.issued t v fun c => { c with pos := p }
  | .accepted w s => (s.issued t v fun c => { c with pos := c.pos + 16, words := c.words ++ [w] }).beginWords t v
  | .hold s => s
  | .wait s => s.updCtx t v fun c => { c with waiting := true }
  | .fault code s => s.faultTask t v code off
  | .ended s => s.setTile t { s.tile t with woken := false }

/-- The word at a context's position issues: `act` is its meaning on the control state, given S(XREG). -/
def State.issueWord (s : State) (t : Nat) (v : Bool) (c : Ctx) (w : Nat) (act : Ctx → Nat → State → WordRes) : State :=
  if c.gated w then settle t v c.off (.hold s)
  else if !opcodeOk (opcodeOf w) then settle t v c.off (.fault 0x3601 s)
  else if fld w 116 4 = 0 ∧ lagOf w ≠ 0 then settle t v c.off (.fault 0x3602 s)
  else settle t v c.off (act c (c.reg (xregOf w)) s)

/-- The command that word `w` of a tile's context issues, for a meaning of the words that `mine` accepts: a word of
another opcode of the table is no such event (log 26); neither is one on a tile that runs no task there, is stopped or waits
under R75, nor one that does not stand at the program position. -/
def issue (mine : Nat → Bool) (act : Ctx → Nat → State → WordRes) (t : TileId) (v : Bool) (w : BitVec 128) (s : State) :
    Host.Outcome State Fault Refusal :=
  if opcodeOk (opcodeOf w.toNat) && !mine w.toNat then .refused .illFormed
  else
    match s.ctx? t.val v with
    | none => .next s
    | some c =>
      if !(s.tile t.val).issues v || c.waiting then .next s
      else
        match s.fetch v c with
        | (.error f, s1) => .next (s1.faultTask t.val v f c.off)
        | (.ok x, s1) => if x = w.toNat then .next (s1.issueWord t.val v c w.toNat act) else .next s

/-- Words of one opcode. -/
def ofOpcode (op w : Nat) : Bool := opcodeOf w == op

/-- A Vesper task without USES_MATRIX while a Noon task is suspended (R72, F-3207). -/
def State.undeclared (s : State) (t : Nat) (v : Bool) (c : Ctx) : Bool := v && (s.tile t).suspended && !c.desc.usesMatrix

end Sys2Proof.Machine
end

