-- ==== Sys2Proof/Machine/Control.lean ====
section
/-!
DEFINITION. Control words: NOP, END, SET, ALU, BRANCH, LOOP, LOAD_S, STORE_S (R169, R173, Table 07-5).
-/
namespace Sys2Proof.Machine

/-- Does the body hold a bit outside the named fields, given as (low bit, length)? -/
def stray (w : Nat) (used : List (Nat × Nat)) : Bool :=
  (List.range 110).any fun i => flag w i && !(used.any fun u => decide (u.1 ≤ i) && decide (i < u.1 + u.2))

/-- The second operand of ALU and BRANCH. -/
def second (c : Ctx) (w : Nat) : Nat := if flag w 93 then imm48 w else c.reg (fld w 98 4)

/-- The target of BRANCH and LOOP: the word's own address plus 16 * DISP. -/
def dispTo (c : Ctx) (w : Nat) : W64 := c.pos + BitVec.ofInt 64 (16 * sgn 24 (fld w 64 24))

/-! ### What each word does -/

/-- NOP carries a header only. -/
def nopWord (w : Nat) (_c : Ctx) (_x : Nat) (s : State) : WordRes := if stray w [] then .fault 0x3602 s else .ok s

/-- SET. -/
def setWord (t : Nat) (v : Bool) (w : Nat) (_c : Ctx) (_x : Nat) (s : State) : WordRes :=
  if stray w [(106, 4), (0, 64)] then .fault 0x3602 s else .ok (s.setReg t v (fld w 106 4) (fld w 0 64))

/-- ALU. -/
def aluWord (t : Nat) (v : Bool) (w : Nat) (c : Ctx) (_x : Nat) (s : State) : WordRes :=
  if stray w [(106, 4), (102, 4), (98, 4), (94, 4), (93, 1), (0, 48)] then .fault 0x3602 s
  else
    match aluOp (fld w 94 4) (c.reg (fld w 102 4)) (second c w) with
    | none => .fault 0x3602 s
    | some r => .ok (s.setReg t v (fld w 106 4) r)

/-- BRANCH. -/
def branchWord (w : Nat) (c : Ctx) (_x : Nat) (s : State) : WordRes :=
  if stray w [(102, 4), (98, 4), (94, 4), (93, 1), (64, 24), (0, 48)] then .fault 0x3602 s
  else
    match branchCond (fld w 94 4) (c.reg (fld w 102 4)) (second c w) with
    | none => .fault 0x3602 s
    | some true => .goto (dispTo c w) s
    | some false => .ok s

/-- LOOP: the register falls by one first. -/
def loopWord (t : Nat) (v : Bool) (w : Nat) (c : Ctx) (_x : Nat) (s : State) : WordRes :=
  let a := fld w 102 4
  if stray w [(102, 4), (64, 24)] || a == 0 then .fault 0x3602 s
  else
    let r := (c.reg a + 2 ^ 64 - 1) % 2 ^ 64
    if r = 0 then .ok (s.setReg t v a r) else .goto (dispTo c w) (s.setReg t v a r)

/-- The address of LOAD_S and STORE_S, or the fault: (scratchpad, address) (R173, R186). -/
def scalarAddr (v store : Bool) (w x : Nat) : Except Nat (Bool × Nat) :=
  if flag w 93 then
    let a := (fld w 0 24 + x) % 2 ^ 64
    if a % 8 ≠ 0 ∨ a + 8 > scratchSize then .error 0x3603
    else if areaOk v a 8 then .ok (true, a) else .error 0x3204
  else
    let a := (fld w 0 64 + x) % 2 ^ 64
    let sp := fld a 56 8
    if a % 8 ≠ 0 ∨ sp > 2 ∨ (store ∧ sp = 2) then .error 0x3603 else .ok (false, a)

/-- LOAD_S. -/
def loadWord (t : Nat) (v : Bool) (w : Nat) (c : Ctx) (x : Nat) (s : State) : WordRes :=
  if stray w [(106, 4), (93, 1), (0, 64)] then .fault 0x3602 s
  else
    let d := fld w 106 4
    match scalarAddr v false w x with
    | .error f => .fault f s
    | .ok (true, a) => .ok (s.setReg t v d (leNat (Mem.bytes (s.tile t).scratch a 8)))
    | .ok (false, a) =>
      let dev := fld a 42 14
      if fld a 56 8 = 2 then
        if 14641 ≤ dev ∧ dev ≠ 0x3FFF then .fault 0x1201 s
        else if !s.refLocal c.job (dev * 2 ^ 12) then .fault 0x1202 (s.countXlate 0x1202)
        else .ok (s.setReg t v d (s.readStatus false (fld a 0 42)).toNat)
      else
        match s.readMem c.job .tile v a 8 with
        | (.error f, s1) => .fault f s1
        | (.ok bs, s1) => .ok (s1.setReg t v d (leNat bs))

/-- STORE_S. -/
def storeWord (t : Nat) (v : Bool) (w : Nat) (c : Ctx) (x : Nat) (s : State) : WordRes :=
  if stray w [(102, 4), (93, 1), (0, 64)] then .fault 0x3602 s
  else
    let bs := leBytes 8 (c.reg (fld w 102 4))
    match scalarAddr v true w x with
    | .error f => .fault f s
    | .ok (true, a) =>
      let y := s.tile t
      .ok (s.setTile t { y with scratch := Mem.setBytes y.scratch a bs })
    | .ok (false, a) =>
      match s.writeMem c.job .tile v a bs with
      | (some f, s1) => .fault f s1
      | (none, s1) => .ok s1

/-- COST_CAL_SEED and COST_CAL_MAX as FP32. -/
def hundredths (n : Nat) : Nat := FF.fp32.enc (FF.fp32.ofRat ((n : Rat) / 100))

/-- The next calibration factor after a task of `cost` ran `waves` waves (R359), in FP32. -/
def State.nextKappa (s : State) (waves cost : Nat) : BitVec 32 :=
  let k := s.power.kappa.toNat
  let rho := toF32 (FF.fp32.div (FV.ofInt waves) (FV.ofInt cost))
  let seed := f32 (hundredths s.cfg.calSeed)
  let cap := f32 (hundredths s.cfg.calMax)
  if (f32 k).lt (f32 rho) then BitVec.ofNat 32 (toF32 (if cap.lt (f32 rho) then cap else f32 rho))
  else
    let d := FF.fp32.add (f32 k) seed.neg
    let r := FF.fp32.add (f32 k) (FF.fp32.div d (FV.ofInt 4096)).neg
    BitVec.ofNat 32 (toF32 (if r.lt seed then seed else r))

/-- Did a run of `waves` exceed kappa * COST_S (R362)? -/
def beyondKappa (kappa : BitVec 32) (waves cost : Nat) : Bool :=
  decide ((f32 kappa.toNat).toRat * (cost : Rat) < (waves : Rat))

/-- A Vesper task's accounting at its end (R62, R359, R362). -/
def State.costEnd (s : State) (c : Ctx) (waves : Nat) : State :=
  let cost := c.desc.cost
  let s1 := if cost < waves then s.bump 0x3010 1 else s
  { s1 with power := { s1.power with kappa := s1.nextKappa waves cost } }.updPkg c.desc.tag fun p =>
    { p with overran := p.overran || beyondKappa p.kappa waves cost }

/-- The task of a context ends (R62, R169): registers and position cease to exist, and its package counts it. -/
def State.endOf (s : State) (t : Nat) (v : Bool) (c : Ctx) (waves : Nat) : State :=
  let s1 := (s.setTile t ((s.tile t).setCtx v none)).bump (0x3120 + 0x40 * (t / 144)) 1
  let s2 := if v then s1.costEnd c waves else s1
  s2.updPkg c.desc.tag fun p => { p with ended := p.ended ++ [(c.desc.kernel, c.desc.index)] }

/-- END: it waits for every earlier word, raises DONE_COUNT and ends the task (R169). -/
def endWord (t : Nat) (v : Bool) (w waves : Nat) (c : Ctx) (_x : Nat) (s : State) : WordRes :=
  if stray w [] then .fault 0x3602 s
  else if !c.words.isEmpty then .hold s
  else
    match c.desc.done with
    | none => .ended (s.endOf t v c waves)
    | some i =>
      match s.raiseCount c.job i 1 0x3FFF with
      | (some f, s1) => .fault f s1
      | (none, s1) => .ended (s1.endOf t v c waves)

/-! ### The commands -/

/-- NOP (R173). -/
def execNop (t : TileId) (v : Bool) (w : BitVec 128) (s : State) : Host.Outcome State Fault Refusal :=
  issue (ofOpcode 0x00) (nopWord w.toNat) t v w s

/-- END (R169). -/
def execEndTask (t : TileId) (v : Bool) (w : BitVec 128) (waves : BitVec 64) (s : State) : Host.Outcome State Fault Refusal :=
  issue (ofOpcode 0x01) (endWord t.val v w.toNat waves.toNat) t v w s

/-- SET (R173). -/
def execSet (t : TileId) (v : Bool) (w : BitVec 128) (s : State) : Host.Outcome State Fault Refusal :=
  issue (ofOpcode 0x02) (setWord t.val v w.toNat) t v w s

/-- ALU (R173). -/
def execAlu (t : TileId) (v : Bool) (w : BitVec 128) (s : State) : Host.Outcome State Fault Refusal :=
  issue (ofOpcode 0x03) (aluWord t.val v w.toNat) t v w s

/-- BRANCH (R173). -/
def execBranch (t : TileId) (v : Bool) (w : BitVec 128) (s : State) : Host.Outcome State Fault Refusal :=
  issue (ofOpcode 0x04) (branchWord w.toNat) t v w s

/-- LOOP (R173). -/
def execLoop (t : TileId) (v : Bool) (w : BitVec 128) (s : State) : Host.Outcome State Fault Refusal :=
  issue (ofOpcode 0x05) (loopWord t.val v w.toNat) t v w s

/-- LOAD_S (R173). -/
def execLoadS (t : TileId) (v : Bool) (w : BitVec 128) (s : State) : Host.Outcome State Fault Refusal :=
  issue (ofOpcode 0x06) (loadWord t.val v w.toNat) t v w s

/-- STORE_S (R173). -/
def execStoreS (t : TileId) (v : Bool) (w : BitVec 128) (s : State) : Host.Outcome State Fault Refusal :=
  issue (ofOpcode 0x07) (storeWord t.val v w.toNat) t v w s

end Sys2Proof.Machine
end

