-- ==== Sys2Proof/Machine/MatrixWords.lean ====
section
/-!
DEFINITION. Matrix words: MATMUL, ACC_MOVE, ACC_STATUS (R83 to R102, R174 to R176).
-/
namespace Sys2Proof.Machine

/-- A fault found among a word's checks, with F-3207 behind F-3602 and F-3603 only (R72, R186). -/
def withUndeclared (u : Bool) (f : Nat) : Nat := if u && f != 0x3602 && f != 0x3603 then 0x3207 else f

/-- The banks with the tags that stand when a read that issues now comes to run: those of the accepted operations with
ACC_INIT that have not begun are set already (DEDUCED, log 113). -/
def Ctx.projected (c : Ctx) (m : MatState) : MatState :=
  c.words.foldl (fun m w => match w.op with
    | .matmul o => if !w.begun && o.init then { m with tagLo := if o.lo then o.tag else m.tagLo, tagHi := if o.hi then o.tag else m.tagHi }
        else m
    | _ => m) m

/-- The halves of the banks, lower and upper, in which rows from `first` to before `last` lie under the tags (R94, R96). -/
def readHalves (m : MatState) (first last : Nat) : Bool × Bool :=
  (decide (first < halfRows m.tagLo.ty.toNat), decide (halfRows m.tagHi.ty.toNat < last))

/-- MATMUL (R174): the checks of R102 but for F-3301, which the operation meets when it starts. -/
def matmulWord (t : Nat) (v : Bool) (w : Nat) (c : Ctx) (x : Nat) (s : State) : WordRes :=
  if stray w [(0, 24), (106, 4), (102, 4)] then .fault 0x3602 s
  else
    match paramAt v w x 48 with
    | .error f => .fault f s
    | .ok a =>
      let u := s.undeclared t v c
      match matPrepare v (memWords (s.tile t).scratch a 6) (c.reg (fld w 106 4)) (c.reg (fld w 102 4)) with
      | .error f => .fault (withUndeclared u f) s
      | .ok o => if u then .fault 0x3207 s else .accepted (EngWord.fresh (.matmul o) c.off (o.lo, o.hi)) s

/-- ACC_MOVE (R97, R175). -/
def accMoveWord (t : Nat) (v : Bool) (w : Nat) (c : Ctx) (x : Nat) (s : State) : WordRes :=
  let u := s.undeclared t v c
  match accMovePrepare v w x (c.projected (s.tile t).mat) with
  | .error f => .fault (withUndeclared u f) s
  | .ok o => if u then .fault 0x3207 s else .accepted (EngWord.fresh (.accMove o) c.off (readHalves (c.projected (s.tile t).mat) o.row (o.row + o.rows))) s

/-- ACC_STATUS returns the tags and flags and clears the flags, when it runs; it waits like a read of both halves (R98, R176). -/
def accStatusWord' (t : Nat) (v : Bool) (w : Nat) (c : Ctx) (_x : Nat) (s : State) : WordRes :=
  if stray w [(106, 4)] then .fault 0x3602 s
  else if s.undeclared t v c then .fault 0x3207 s
  else .accepted (EngWord.fresh (.accStatus (fld w 106 4)) c.off (true, true)) s

/-- MATMUL (R174). -/
def execMatmul (t : TileId) (v : Bool) (w : BitVec 128) (s : State) : Host.Outcome State Fault Refusal :=
  issue (ofOpcode 0x20) (matmulWord t.val v w.toNat) t v w s

/-- ACC_MOVE (R175). -/
def execAccMove (t : TileId) (v : Bool) (w : BitVec 128) (s : State) : Host.Outcome State Fault Refusal :=
  issue (ofOpcode 0x21) (accMoveWord t.val v w.toNat) t v w s

/-- ACC_STATUS (R176). -/
def execAccStatus (t : TileId) (v : Bool) (w : BitVec 128) (s : State) : Host.Outcome State Fault Refusal :=
  issue (ofOpcode 0x22) (accStatusWord' t.val v w.toNat) t v w s

end Sys2Proof.Machine
end

