-- ==== Sys2Proof/Machine/VectorWords.lean ====
section
/-!
DEFINITION. Vector words: PASS, SFN_BATCH, CARRY_COMPOSE, ROWSTAT_COMBINE, ROWSTAT_FINALISE, INSTAR_LOAD (R103 to R137,
R146 to R160, R177 to R181).
-/
namespace Sys2Proof.Machine

/-- The halves of the banks that a pass reads directly, under the tags that stand when it runs. -/
def VPass.halves (p : VPass) (m : MatState) : Bool × Bool :=
  match p.acc with
  | none => (false, false)
  | some (r0, cols) => readHalves m r0 (r0 + cdiv p.count cols)

/-- The fault of a wait of R130 as its word issues, F-3605, then F-4101 (R275), with the COUNT_REF that raises it. -/
def State.waitFault (s : State) (job : BitVec 16) (mode ref : Nat) : Option (Nat × Nat) :=
  if mode = 2 then (s.waitRefFault job ref).map fun f => (f, ref) else none

/-- A checked pass is accepted. -/
def acceptPass (t : Nat) (c : Ctx) (p : VPass) (s : State) : WordRes :=
  .accepted (EngWord.fresh (.pass p) c.off (p.halves (c.projected (s.tile t).mat))) s

/-- PASS (R177): the checks of R137 and R160; its wait, its records and its batches are the engine's. -/
def passWord (t : Nat) (v : Bool) (w : Nat) (c : Ctx) (x : Nat) (s : State) : WordRes :=
  if stray w [(0, 24), (106, 4), (102, 4)] then .fault 0x3602 s
  else
    match paramAt v w x 320 with
    | .error f => .fault f s
    | .ok a =>
      let y := s.tile t
      let u := s.undeclared t v c
      let ws := memWords y.scratch a 40
      match passPrepare v ws (c.reg (fld w 106 4)) (c.reg (fld w 102 4)) (c.projected y.mat) y.slotImage with
      | .error f => .fault (withUndeclared (u && flag (nth 0 ws 0) 34) f) s
      | .ok p =>
        if u && p.usesAcc then .fault 0x3207 s
        else
          match p.scan.bind fun sc => s.waitFault c.job sc.carryIn sc.waitCount with
          | some f => .fault f.1 (s.waitFaulted c.job f.2 f.1)
          | none => acceptPass t c p s

/-- SFN_BATCH (R146, R179). -/
def sfnBatchWord (t : Nat) (v : Bool) (w : Nat) (c : Ctx) (x : Nat) (s : State) : WordRes :=
  let y := s.tile t
  match sfnBatchPrepare v w x (c.projected y.mat) y.slotImage with
  | .error f => .fault f s
  | .ok p => acceptPass t c p s

/-! ### Record operations (R180) -/

/-- Parse the block, with its reserved fields. -/
def parseRec (ws : List Nat) : RecBlock × Bool :=
  let w (i : Nat) : Nat := nth 0 ws i
  let mode1 (m a : Nat) : Nat := if m = 1 then fld a 0 24 else a
  (⟨fld (w 0) 0 2, fld (w 0) 2 2, flag (w 0) 4, fld (w 0) 5 24, fld (w 0) 32 32, mode1 (fld (w 0) 0 2) (w 1),
    mode1 (fld (w 0) 2 2) (w 2), w 3, fld (w 4) 0 32, fld (w 4) 32 32, fld (w 5) 0 32, fld (w 5) 32 32, fld (w 6) 0 32,
    fld (w 7) 0 32⟩,
   fld (w 0) 29 3 != 0 || fld (w 6) 32 32 != 0 || fld (w 7) 32 32 != 0)

/-- Faults of a source's address: mode 1 in `n` bytes of scratchpad, mode 2 at a global address (F-3404, F-3204). -/
def recAddrFaults (v : Bool) (mode a n : Nat) : List Nat :=
  if mode = 1 then when (a % 16 != 0) 0x3404 ++ spanFaults v 0x3404 [(a, n)]
  else if mode = 2 then when (a % 16 != 0 || decide (a / 2 ^ 56 > 1)) 0x3404
  else []

/-- Faults of DEST and RAISE_COUNT. -/
def recOutFaults (b : RecBlock) : List Nat :=
  when (b.dest % 16 != 0 || decide (b.dest / 2 ^ 56 > 1)) 0x3404 ++ when (flag b.raise 31 && countRefBad b.raise) 0x3605

/-- The block of a record operation, checked: `own` are the faults of the operation's own kind. -/
def recPrepare (t : Nat) (v : Bool) (w x : Nat) (s : State) (bad : RecBlock → Bool) (own : RecBlock → List Nat) : Except Nat RecBlock :=
  if stray w [(0, 24)] then .error 0x3602
  else
    match paramAt v w x 64 with
    | .error f => .error f
    | .ok a =>
      let r := parseRec (memWords (s.tile t).scratch a 8)
      if r.2 || r.1.n == 0 || r.1.xMode == 3 || bad r.1 then .error 0x3602
      else
        match firstFault (own r.1 ++ recOutFaults r.1) with
        | some f => .error f
        | none => .ok r.1

/-- A checked record operation is accepted, or raises the fault of a count it waits on; `y`: it reads Y under Y_MODE. -/
def acceptRec (op : RecBlock → EngOp) (y : Bool) (c : Ctx) (r : Except Nat RecBlock) (s : State) : WordRes :=
  match r with
  | .error f => .fault f s
  | .ok b =>
    match (s.waitFault c.job b.xMode b.xWait).orElse fun _ => if y then s.waitFault c.job b.yMode b.yWait else none with
    | some f => .fault f.1 (s.waitFaulted c.job f.2 f.1)
    | none => .accepted (EngWord.fresh (op b) c.off (false, false)) s

/-- CARRY_COMPOSE (R132, R180): Y_MODE = 1 and N = 1; X_MODE = 0 reads the identity. -/
def composeWord (t : Nat) (v : Bool) (w : Nat) (c : Ctx) (x : Nat) (s : State) : WordRes :=
  acceptRec .compose false c (recPrepare t v w x s (fun b => b.yMode != 1 || b.n != 1 || b.rms || b.eps != 0)
    (fun b => recAddrFaults v b.xMode b.x 32 ++ recAddrFaults v 1 b.y 32)) s

/-- Records of the scratchpad that do not fit: found as the word issues, where records read under a count are found when they are
read (R160, F-3503). -/
def recRowFaults (sp : Mem) (b : RecBlock) (y : Bool) : List Nat :=
  let at' (m a : Nat) : List RowStat := if m = 1 then rowsOf sp 1 a b.n [] else []
  when (combineRows b.tag (at' b.xMode b.x) (if y then at' b.yMode b.y else [])).isNone 0x3503

/-- ROWSTAT_COMBINE (R149). -/
def combineWord (t : Nat) (v : Bool) (w : Nat) (c : Ctx) (x : Nat) (s : State) : WordRes :=
  acceptRec .combine true c (recPrepare t v w x s (fun b => b.yMode == 3 || b.rms || b.eps != 0 || (b.xMode == 0 && b.yMode == 0))
    (fun b => recAddrFaults v b.xMode b.x (32 * b.n) ++ recAddrFaults v b.yMode b.y (32 * b.n) ++ recRowFaults (s.tile t).scratch b true)) s

/-- Is an FP32 code negative or NaN (F-3504)? -/
def epsBad (e : Nat) : Bool := f32 e == .nan || (f32 e).lt .zero

/-- Does a block name a Y? -/
def RecBlock.namesY (b : RecBlock) : Bool := b.yMode != 0 || b.y != 0 || b.yWait != 0 || b.yTarget != 0

/-- ROWSTAT_FINALISE reads X only, so that it allows no field of a Y (R150, R180). -/
def finaliseWord (t : Nat) (v : Bool) (w : Nat) (c : Ctx) (x : Nat) (s : State) : WordRes :=
  acceptRec .finalise false c (recPrepare t v w x s (fun b => b.xMode == 0 || b.namesY)
    (fun b => recAddrFaults v b.xMode b.x (32 * b.n) ++ recRowFaults (s.tile t).scratch b false ++ when (epsBad b.eps) 0x3504)) s

/-! ### Instar slots (R158, R159) -/

/-- INSTAR_LOAD (R158, R159, R181): the address is checked here, the image when the load runs. -/
def instarLoadWord (w : Nat) (c : Ctx) (x : Nat) (s : State) : WordRes :=
  let a := (fld w 0 64 + x) % 2 ^ 64
  if fld w 67 43 ≠ 0 then .fault 0x3602 s
  else if a % 16 ≠ 0 ∨ a / 2 ^ 56 > 1 then .fault 0x3502 s
  else .accepted (EngWord.fresh (.instar (fld w 64 3) a) c.off (false, false)) s

/-- PASS (R177). -/
def execPass (t : TileId) (v : Bool) (w : BitVec 128) (s : State) : Host.Outcome State Fault Refusal :=
  issue (ofOpcode 0x30) (passWord t.val v w.toNat) t v w s

/-- SFN_BATCH (R179). -/
def execSfnBatch (t : TileId) (v : Bool) (w : BitVec 128) (s : State) : Host.Outcome State Fault Refusal :=
  issue (ofOpcode 0x31) (sfnBatchWord t.val v w.toNat) t v w s

/-- CARRY_COMPOSE (R132). -/
def execCarryCompose (t : TileId) (v : Bool) (w : BitVec 128) (s : State) : Host.Outcome State Fault Refusal :=
  issue (ofOpcode 0x32) (composeWord t.val v w.toNat) t v w s

/-- ROWSTAT_COMBINE (R149). -/
def execRowstatCombine (t : TileId) (v : Bool) (w : BitVec 128) (s : State) : Host.Outcome State Fault Refusal :=
  issue (ofOpcode 0x33) (combineWord t.val v w.toNat) t v w s

/-- ROWSTAT_FINALISE (R150). -/
def execRowstatFinalise (t : TileId) (v : Bool) (w : BitVec 128) (s : State) : Host.Outcome State Fault Refusal :=
  issue (ofOpcode 0x34) (finaliseWord t.val v w.toNat) t v w s

/-- INSTAR_LOAD (R158). -/
def execInstarLoad (t : TileId) (v : Bool) (w : BitVec 128) (s : State) : Host.Outcome State Fault Refusal :=
  issue (ofOpcode 0x35) (instarLoadWord w.toNat) t v w s

end Sys2Proof.Machine
end

