-- ==== Sys2Proof/Machine/MoveWords.lean ====
section
/-!
DEFINITION. Move words (R182, R216 to R237): the descriptors and the checks of a MOVE at issue.
-/
namespace Sys2Proof.Machine

/-- Does this module play a device number in the job of a task? -/
def State.ownDevice (s : State) (job : BitVec 16) (d : Nat) : Bool :=
  match s.job? job with | some j => s.plays j d | none => d == 0x3FFF

/-- The offset of a descriptor of 160 bytes, checked. -/
def descAt (v : Bool) (a : Nat) : Except Nat Nat :=
  if a % 16 ≠ 0 ∨ a + 160 > scratchSize then .error 0x3603 else if areaOk v a 160 then .ok a else .error 0x3204

/-- The code of a descriptor's address. -/
def descCode (e : Except Nat Nat) : List Nat := match e with | .error f => [f] | .ok _ => []

/-- Does a register sum of a descriptor that can be read leave the scratchpad range (F-3603, R166)? -/
def descSum (isIx src : Bool) (m : Mem) (reg : Nat) (e : Except Nat Nat) : List Nat :=
  match e with
  | .ok a => when ((parseDesc isIx src (memWords m a 20) reg).2.contains 0x3603) 0x3603
  | .error _ => []

/-- MOVE of a kind (R182): reserved KINDs raise F-3602 whichever command carries them. F-3603, of an address or a register
sum, comes before the F-3204 of a descriptor's own area (R237). -/
def moveWord (kind t : Nat) (v : Bool) (w : Nat) (c : Ctx) (x : Nat) (s : State) : WordRes :=
  let m := (s.tile t).scratch
  let ix := fld w 48 24
  let sreg := c.reg (fld w 79 4)
  let dreg := c.reg (fld w 83 4)
  if fld w 87 23 ≠ 0 ∨ 4 ≤ fld w 72 3 ∨ fld w 75 2 = 3 ∨ fld w 77 2 = 3 ∨ (kind = 0 ∧ ix ≠ 0) then .fault 0x3602 s
  else
    match descAt v ((fld w 0 24 + x) % 2 ^ 64), descAt v ((fld w 24 24 + x) % 2 ^ 64), (if kind = 0 then .ok 0 else descAt v ix) with
    | .ok a, .ok b, .ok i =>
      (match movePrepare v (s.ownDevice c.job) kind (fld w 75 2) (fld w 77 2) (memWords m a 20) (memWords m b 20)
          (if kind = 0 then [] else memWords m i 20) sreg dreg with
       | .error f => .fault f s
       | .ok o => .accepted (EngWord.fresh (.move o) c.off (false, false)) s)
    | a, b, i =>
      .fault ((moveFirst (descCode a ++ descCode b ++ descCode i ++ descSum false true m sreg a ++ descSum false false m dreg b)).getD
        0x3603) s

/-- Is a word a MOVE of the kind, or one of a reserved kind? -/
def ofMove (kind w : Nat) : Bool := opcodeOf w == 0x40 && (fld w 72 3 == kind || decide (4 ≤ fld w 72 3))

/-- MOVE, KIND COPY (R224). -/
def execMoveCopy (t : TileId) (v : Bool) (w : BitVec 128) (s : State) : Host.Outcome State Fault Refusal :=
  issue (ofMove 0) (moveWord 0 t.val v w.toNat) t v w s

/-- MOVE, KIND GATHER (R227). -/
def execMoveGather (t : TileId) (v : Bool) (w : BitVec 128) (s : State) : Host.Outcome State Fault Refusal :=
  issue (ofMove 1) (moveWord 1 t.val v w.toNat) t v w s

/-- MOVE, KIND SCATTER (R230). -/
def execMoveScatter (t : TileId) (v : Bool) (w : BitVec 128) (s : State) : Host.Outcome State Fault Refusal :=
  issue (ofMove 2) (moveWord 2 t.val v w.toNat) t v w s

/-- MOVE, KIND SCATTER_ADD (R230). -/
def execMoveScatterAdd (t : TileId) (v : Bool) (w : BitVec 128) (s : State) : Host.Outcome State Fault Refusal :=
  issue (ofMove 3) (moveWord 3 t.val v w.toNat) t v w s

end Sys2Proof.Machine
end

