-- ==== Sys2Proof/Machine/RemoteWords.lean ====
section
/-!
DEFINITION. Remote words: PUT, GET, ACCUMULATE, ATOMIC, MULTICAST, SIGNAL: their operands and their checks at issue (R185,
R246 to R248, R274, R302, Tables 07-18 and 07-19).
-/
namespace Sys2Proof.Machine

/-- Read the operands. -/
def remoteOf (w : Nat) (c : Ctx) (x : Nat) : Remote :=
  let vr := fld w 105 4
  ⟨(fld w 0 64 + x) % 2 ^ 64, fld w 64 24, c.reg (fld w 88 4), fld w 88 4, c.reg (fld w 92 4), fld w 96 5, fld w 101 9,
    (c.reg vr, c.reg (vr + 1))⟩

/-- The issuing module's check of SPACE and DEVICE (R203), with an access that space 0x02 does not admit: a write, or an
unaligned one (Table 08-7). -/
def Remote.addrFault (r : Remote) (space2 : Bool) : List Nat :=
  when (decide (r.space > 2) || (decide (14641 ≤ r.device) && r.device != 0x3FFF) || (r.space == 2 && space2)) 0x1201

/-- CHANNEL of the word (R185). -/
def Remote.chanFault (r : Remote) (v : Bool) : List Nat := when (decide (16 < r.ch) || (r.ch == 16 && v)) 0x3604

/-- Faults of the COUNT_REF that rides with a transfer, and of its increment (F-3605). -/
def Remote.sigFault (r : Remote) : List Nat :=
  match r.sig with | none => [] | some (f, i) => when (countRefBad f || decide (2 ^ 31 ≤ i)) 0x3605

/-- Faults of the local end of `n` bytes: area, then the length rule. -/
def Remote.localFault (r : Remote) (v : Bool) (n : Nat) : List Nat :=
  when (decide (n = 0) || decide (r.loc + n > scratchSize)) 0x3604 ++ when (spanBad v (r.loc, n)) 0x3204

/-- The first of a remote word's faults, F-3604 before F-3605 and both behind every other (R186), but F-2203, which is found
when the word would begin to send (DESIGN CHOICE, log 20). -/
def remoteFirst (cs : List Nat) : Option Nat :=
  let rank (c : Nat) : Nat := if c = 0x3602 then 0 else if c = 0x3603 then 1 else if c = 0x3604 then 3 else if c = 0x3605 then 4 else if c = 0x2203 then 5 else 2
  leastBy (fun c => rank c * 65536 + c) cs

/-- A remote word with its faults: it raises the first, or is accepted. -/
def acceptRemote (op : Remote → EngOp) (faults : Remote → List Nat) (w : Nat) (c : Ctx) (x : Nat) (s : State) : WordRes :=
  let r := remoteOf w c x
  match remoteFirst (faults r) with
  | some f => .fault f s
  | none => .accepted (EngWord.fresh (op r) c.off (false, false)) s

/-- Faults of a PUT. One to space 0x02 breaks Table 08-7 (F-1201) and Table 07-19 (F-3604), and F-1201 goes first (DEDUCED, log
114). -/
def putFaults (v : Bool) (r : Remote) : List Nat :=
  r.addrFault true ++ when (decide (r.space > 1) || r.var != 0) 0x3604 ++ r.chanFault v ++ r.localFault v r.bytes ++ r.sigFault

/-- Faults of a GET. -/
def getFaults (v : Bool) (r : Remote) : List Nat :=
  let un := r.space == 2 && (r.addr % 8 != 0 || r.bytes % 8 != 0)
  r.addrFault un ++ when (decide (r.space > 2) || r.var != 0 || un) 0x3604 ++
    r.chanFault v ++ r.localFault v r.bytes ++ r.sigFault

/-- Faults of an ACCUMULATE, those of its conversion among them (R50, R56). -/
def accumulateFaults (v : Bool) (r : Remote) : List Nat :=
  let xf := fld r.var 0 2
  let rnd := modeOf false (fld r.var 2 2)
  let q := xfmtPair xf
  when (rnd.isNone || (modeOf true (fld r.var 4 2)).isNone) 0x3602 ++ r.addrFault true ++
    (if xf = 3 then [] else (cvtFault q.1 q.2 (rnd == some true)).toList) ++
    when (r.space != 0 || r.addr % 4 != 0 || xf == 3 || fld r.var 6 3 != 0 || r.bytes % (fmtBits q.1 / 8) != 0) 0x3604 ++
    r.chanFault v ++ r.localFault v r.bytes ++ r.sigFault

/-- Faults of an ATOMIC. -/
def atomicFaults (v : Bool) (r : Remote) : List Nat :=
  let aop := fld r.var 0 4
  r.addrFault true ++ when (r.space != 0 || r.addr % 8 != 0 || r.loc % 8 != 0 || r.lreg != 0 || decide (8 < aop) || flag r.var 8 ||
    (aop == 7 && fld r.var 4 4 == 15)) 0x3604 ++ r.chanFault v ++ r.localFault v 8 ++ r.sigFault

/-- Faults of a MULTICAST, a group or member that does not exist among them (F-2203). -/
def multicastFaults (v : Bool) (s : State) (job : BitVec 16) (r : Remote) : List Nat :=
  r.addrFault true ++ when (r.space != 0) 0x3604 ++ r.chanFault v ++ r.localFault v r.bytes ++ r.sigFault ++
    when (s.members job r.var).isNone 0x2203

/-- Faults of a SIGNAL, whose COUNT_REF is required. -/
def signalFaults (v : Bool) (r : Remote) : List Nat :=
  let ref := fld r.cnt 0 32
  when (decide (14641 ≤ refDevice ref) && refDevice ref != 0x3FFF) 0x1201 ++ when (r.addr != 0 || r.var != 0) 0x3604 ++
    r.chanFault v ++ when (countRefBad ref || r.bytes == 0 || decide (2 ^ 31 ≤ r.bytes)) 0x3605

/-- PUT. -/
def putWord' (v : Bool) (w : Nat) (c : Ctx) (x : Nat) (s : State) : WordRes := acceptRemote .put (putFaults v) w c x s

/-- GET. -/
def getWord' (v : Bool) (w : Nat) (c : Ctx) (x : Nat) (s : State) : WordRes := acceptRemote .get (getFaults v) w c x s

/-- ACCUMULATE. -/
def accumulateWord' (v : Bool) (w : Nat) (c : Ctx) (x : Nat) (s : State) : WordRes := acceptRemote .accumulate (accumulateFaults v) w c x s

/-- ATOMIC. -/
def atomicWord' (v : Bool) (w : Nat) (c : Ctx) (x : Nat) (s : State) : WordRes := acceptRemote .atomic (atomicFaults v) w c x s

/-- MULTICAST. -/
def multicastWord' (v : Bool) (w : Nat) (c : Ctx) (x : Nat) (s : State) : WordRes :=
  acceptRemote .multicast (multicastFaults v s c.job) w c x s

/-- SIGNAL. -/
def signalWord' (v : Bool) (w : Nat) (c : Ctx) (x : Nat) (s : State) : WordRes := acceptRemote .signal (signalFaults v) w c x s

/-- PUT (R185). -/
def execPutWord (t : TileId) (v : Bool) (w : BitVec 128) (s : State) : Host.Outcome State Fault Refusal :=
  issue (ofOpcode 0x50) (putWord' v w.toNat) t v w s

/-- GET (R185). -/
def execGetWord (t : TileId) (v : Bool) (w : BitVec 128) (s : State) : Host.Outcome State Fault Refusal :=
  issue (ofOpcode 0x51) (getWord' v w.toNat) t v w s

/-- ACCUMULATE (R185). -/
def execAccumulateWord (t : TileId) (v : Bool) (w : BitVec 128) (s : State) : Host.Outcome State Fault Refusal :=
  issue (ofOpcode 0x52) (accumulateWord' v w.toNat) t v w s

/-- ATOMIC (R185). -/
def execAtomicWord (t : TileId) (v : Bool) (w : BitVec 128) (s : State) : Host.Outcome State Fault Refusal :=
  issue (ofOpcode 0x53) (atomicWord' v w.toNat) t v w s

/-- MULTICAST (R248). -/
def execMulticastWord (t : TileId) (v : Bool) (w : BitVec 128) (s : State) : Host.Outcome State Fault Refusal :=
  issue (ofOpcode 0x54) (multicastWord' v w.toNat) t v w s

/-- SIGNAL (R185). -/
def execSignalWord (t : TileId) (v : Bool) (w : BitVec 128) (s : State) : Host.Outcome State Fault Refusal :=
  issue (ofOpcode 0x55) (signalWord' v w.toNat) t v w s

end Sys2Proof.Machine
end

