-- ==== Sys2Proof/Machine/Barrier.lean ====
section
/-!
DEFINITION. Barriers (R283 to R289): group records, arrivals, the direct exchange, the counter tree, release and reset.
-/
namespace Sys2Proof.Machine

/-- Mask of dimension k of a group record (Table 11-4). -/
def maskOf (w0 k : Nat) : Nat := fld w0 (11 * k) 11

/-- Is a device a member of a group? -/
def isMember (w0 dev : Nat) : Bool := (List.range 4).all fun k => flag (maskOf w0 k) (coordOf dev k)

/-- ARRIVALS. -/
def arrivalsOf (w1 : Nat) : Nat := fld w1 0 10

/-- Is a record invalid at this module (F-4303, R283)? -/
def State.groupBad (s : State) (own w0 w1 : Nat) : Bool :=
  !isMember w0 own || ((List.range 4).any fun k => decide (2 ^ s.dimSize k ≤ maskOf w0 k)) || arrivalsOf w1 == 0 ||
  decide (576 < arrivalsOf w1) || fld w0 44 20 != 0 || fld w1 10 22 != 0

/-- A device number with coordinate k replaced. -/
def withCoord (d k p : Nat) : Nat :=
  let wt := match k with | 0 => 1331 | 1 => 121 | 2 => 11 | _ => 1
  d - coordOf d k * wt + p * wt

/-- The other members that differ from a device only in dimension k, in rising order. -/
def rowPeers (w0 own k : Nat) : List Nat :=
  ((List.range 11).filter fun p => flag (maskOf w0 k) p && p != coordOf own k).map fun p => withCoord own k p

/-- The lowest masked coordinate of dimension k. -/
def lowCoord (w0 k : Nat) : Nat := ((List.range 11).find? fun p => flag (maskOf w0 k) p).getD 0

/-- Has a device the lowest masked coordinate in dimension k? -/
def atLow (w0 own k : Nat) : Bool := coordOf own k == lowCoord w0 k

/-- The parent of a member in the counter tree, with the level of its frame; none: the root (R287). -/
def treeParent (w0 own : Nat) : Option (Nat × Nat) :=
  match [3, 2, 1, 0].find? fun k => !atLow w0 own k with
  | some k => some (k, withCoord own k (lowCoord w0 k))
  | none => none

/-- The children of a member, with the levels of their frames (R287). -/
def treeChildren (w0 own : Nat) : List (Nat × Nat) :=
  ([3, 2, 1, 0].filter fun k => ([3, 2, 1, 0].filter (fun i => decide (k ≤ i))).all (atLow w0 own)).flatMap fun k =>
    (rowPeers w0 own k).map fun d => (k, d)

/-- Does the counter tree run this epoch (R287)? -/
def JobCtx.usesTree (j : JobCtx) (w0 : Nat) : Bool := j.remap.any fun r => isMember w0 r.1

/-- A barrier slot. -/
def JobCtx.barrier (j : JobCtx) (slot : Nat) : Barrier := Sp.get Barrier.start j.barriers slot

/-- Replace a barrier slot. -/
def State.setBarrier (s : State) (job : BitVec 16) (slot : Nat) (b : Barrier) : State :=
  s.updJob job fun j => { j with barriers := Sp.put Barrier.start j.barriers slot b }

/-- Is the module's part of the current epoch complete (R284)? -/
def Barrier.complete (b : Barrier) : Bool :=
  match b.group with | some g => b.count == arrivalsOf g.2.toNat | none => false

/-- Has a BARRIER_RELEASE of the current epoch come (R285, R287)? The slot keeps one as a tree frame of level 4. -/
def Barrier.freed (b : Barrier) : Bool := b.frames.any fun e => !e.1 && e.2.1 && e.2.2.1 == 4

/-- Has a frame of the current epoch come? -/
def Barrier.has (b : Barrier) (tree : Bool) (phase dev : Nat) : Bool := b.frames.contains (false, tree, phase, dev)

/-- Send one barrier frame to a device (R285, Table 11-5). -/
def State.barrierFrame (s : State) (op : BitVec 4) (j : JobCtx) (slot : Nat) (b : Barrier) (g : W64 × W64) (tree : Bool) (phase dev : Nat) : State :=
  s.sendControl op 15 j.id (j.hallOf dev) slot (b.epoch.toNat + phase * 2 ^ 16 + bit tree * 2 ^ 18) (wordsBytes [g.1, g.2]) none

/-- Tiles whose task in the job waits for the release of a slot (R288). -/
def State.barrierWaiters (s : State) (job : BitVec 16) (slot : Nat) : List Nat :=
  let w (c : Option Ctx) : Bool := match c with | some c => c.job == job && c.onSlot == some slot | none => false
  (s.tiles.filter fun x => w x.2.noon || w x.2.vesper).map (·.1)

/-- The slot after an epoch: what was counted towards the next epoch becomes current (R284, R288). -/
def Barrier.next (b : Barrier) (released : Bool) : Barrier :=
  { epoch := b.epoch + 1, released := if released then b.epoch else b.released, group := b.group1, group1 := none,
    count := b.count1, count1 := 0, frames := (b.frames.filter (·.1)).map fun f => (false, f.2), phase := 0, sent := false, since := 0 }

/-- Release the current epoch of a slot (R288). -/
def State.releaseEpoch (s : State) (j : JobCtx) (slot : Nat) (tree : Bool) : State :=
  let s1 := (s.setBarrier j.id slot ((j.barrier slot).next true)).bump 0x4008 1
  let s2 := if tree then s1.bump 0x4010 1 else s1
  s2.wakeAll (s2.barrierWaiters j.id slot)

/-- Send BARRIER_RELEASE to the children (R287). -/
def State.releaseDown (s : State) (j : JobCtx) (slot : Nat) (b : Barrier) (g : W64 × W64) : List (Nat × Nat) → State
  | [] => s
  | (k, d) :: r => (s.barrierFrame 8 j slot b g true k d).releaseDown j slot b g r

/-- Send the frames of one phase (R286). -/
def State.phaseOut (s : State) (j : JobCtx) (slot : Nat) (b : Barrier) (g : W64 × W64) (k : Nat) : List Nat → State
  | [] => s
  | d :: r => (s.barrierFrame 7 j slot b g false k d).phaseOut j slot b g k r

/-- One thing that a slot can do now, if any: note completion, begin a phase, forward in the tree, or release. -/
def State.barrierStep (s : State) (job : BitVec 16) (slot : Nat) : Option State :=
  match s.job? job with
  | none => none
  | some j =>
    let b := j.barrier slot
    match b.group with
    | none => none
    | some g =>
      let own := s.deviceOf j
      let w0 := g.1.toNat
      if b.freed then some ((s.releaseDown j slot b g (treeChildren w0 own)).releaseEpoch j slot true)
      else if !b.complete then none
      else if b.since = 0 then some (s.setBarrier job slot { b with since := s.now + 1 })
      else if j.usesTree w0 then
        let cs := treeChildren w0 own
        if b.sent || !(cs.all fun c => b.has true c.1 c.2) then none
        else
          match treeParent w0 own with
          | none => some ((s.releaseDown j slot b g cs).releaseEpoch j slot true)
          | some (k, d) => some ((s.setBarrier job slot { b with sent := true }).barrierFrame 7 j slot b g true k d)
      else if b.phase = 0 then
        some ((s.setBarrier job slot { b with phase := 1 }).phaseOut j slot b g 0 (rowPeers w0 own 0))
      else if (rowPeers w0 own (b.phase - 1)).all (fun d => b.has false (b.phase - 1) d) then
        if b.phase = 4 then some (s.releaseEpoch j slot false)
        else some ((s.setBarrier job slot { b with phase := b.phase + 1 }).phaseOut j slot b g b.phase (rowPeers w0 own b.phase))
      else none

/-- All that a slot can do now: at most two epochs of six actions. -/
def State.barrierRun (job : BitVec 16) (slot : Nat) : Nat → State → State
  | 0, s => s
  | n + 1, s => match s.barrierStep job slot with | some s1 => barrierRun job slot n s1 | none => s

/-- A local arrival with a group record (R283, R284): the epoch it counts for, or the code. -/
def State.arriveLocal (s : State) (job : BitVec 16) (slot : Nat) (g : W64 × W64) : Except Nat (BitVec 16) × State :=
  match s.job? job with
  | none => (.error 0x4302, s)
  | some j =>
    let b := j.barrier slot
    let bad (code : Nat) : Except Nat (BitVec 16) × State := (.error code, s.syncFault code slot 0x3FFF job b.epoch.toNat 0)
    if s.groupBad (s.deviceOf j) g.1.toNat g.2.toNat then bad 0x4303
    else if !b.complete then
      if b.group.isSome && b.group != some g then bad 0x4301
      else (.ok b.epoch, (s.setBarrier job slot { b with group := some g, count := b.count + 1 }).barrierRun job slot 12)
    else if b.group1.isSome && b.count1 == arrivalsOf ((b.group1.getD g).2.toNat) then bad 0x4302
    else if b.group1.isSome && b.group1 != some g then bad 0x4301
    else (.ok (b.epoch + 1), s.setBarrier job slot { b with group1 := some g, count1 := b.count1 + 1 })

/-- Has an epoch been released (R288)? -/
def Barrier.passed (b : Barrier) (e : BitVec 16) : Bool := decide ((b.released - e).toNat < 2 ^ 15)

/-- The tasks that wait on epoch E of a slot: tile and class. -/
def State.waitersOf (s : State) (job : BitVec 16) (slot : Nat) (e : BitVec 16) : List (Nat × Bool) :=
  let w (c : Option Ctx) : Bool := match c with
    | some c => c.job == job && c.onSlot == some slot && (c.arrivals.find? (·.1 == slot)).map (·.2) == some e
    | none => false
  s.tiles.flatMap fun x => (if w x.2.vesper then [(x.1, true)] else []) ++ (if w x.2.noon then [(x.1, false)] else [])

/-- Tasks raise a code at their words: each fault is recorded, those of one package too (R78). -/
def State.noteAll (s : State) (code : Nat) : List (Nat × Ctx) → State
  | [] => s
  | (t, c) :: r => (s.noteFault t c code c.off).noteAll code r

/-- Their packages end, each with one notice, that of its first task (R78). -/
def State.endAll (s : State) (code : Nat) : List (Nat × Ctx) → State
  | [] => s
  | (t, c) :: r => (s.endTask t c code).endAll code r

/-- Every task of a list raises a code at its word. -/
def State.faultAll (s : State) (code : Nat) (ws : List (Nat × Bool)) : State :=
  let cs := ws.filterMap fun w => (s.ctx? w.1 w.2).map fun c => (w.1, c)
  (s.noteAll code cs).endAll code cs

/-- An epoch fails (R289): its waiters raise F-4304, the slot resets to E + 1, and a Vesper package's LATE goes out. -/
def State.barrierFail (s : State) (job : BitVec 16) (slot : Nat) : State :=
  match s.job? job with
  | none => s
  | some j =>
    let b := j.barrier slot
    let ws := s.waitersOf job slot b.epoch
    let late := (ws.filterMap fun w => (s.ctx? w.1 w.2).map fun c => c.desc.tag).eraseDups
    let s1 := ((s.syncFault 0x4304 slot 0x3FFF job b.epoch.toNat 0).bump 0x4018 1).setBarrier job slot
      { Barrier.start with epoch := b.epoch + 1, released := b.released }
    let s2 := late.foldl (fun (s : State) t => s.sendLate t 1 0x4304) s1
    s2.faultAll 0x4304 ws

end Sys2Proof.Machine
end

