-- ==== Sys2Proof/Machine/SyncWords.lean ====
section
/-!
DEFINITION. Synchronisation and queue words: COUNT_WAIT, BARRIER_ARRIVE, BARRIER_WAIT, HOST_SIGNAL, HOST_WAIT, ENQUEUE,
QUEUE_STATE (R61, R65, R66, R183, R184, R275, R284, R288, R290, R291).
-/
namespace Sys2Proof.Machine

/-- COUNT_WAIT (R275, R276). -/
def countWaitWord (t : Nat) (w : Nat) (c : Ctx) (_x : Nat) (s : State) : WordRes :=
  if fld w 68 42 ≠ 0 then .fault 0x3602 s
  else
    let ref := fld w 0 32
    let target := (fld w 32 32 + c.reg (fld w 64 4)) % 2 ^ 32
    match s.waitRefFault c.job ref with
    | some f => .fault f (s.waitFaulted c.job ref f)
    | none => if s.countReached c.job ref target then .ok s else .wait (s.watch c.job ref t)

/-- The wait for the release of the task's last arrival on a slot (R288). -/
def barrierHold (t : Nat) (v : Bool) (slot : Nat) (e : BitVec 16) (c : Ctx) (s : State) : WordRes :=
  match s.job? c.job with
  | none => .wait s
  | some j =>
    if (j.barrier slot).passed e then .ok (s.updCtx t v fun c => { c with arrived := false })
    else .wait (s.updCtx t v fun c => { c with onSlot := some slot })

/-- The offset of a 16-byte group record. -/
def groupAt (v : Bool) (w x : Nat) : Except Nat Nat :=
  let a := (fld w 6 24 + x) % 2 ^ 64
  if a % 16 ≠ 0 ∨ a + 16 > scratchSize then .error 0x3603 else if areaOk v a 16 then .ok a else .error 0x3204

/-- BARRIER_ARRIVE (R283, R284, R288). -/
def barrierArriveWord (t : Nat) (v : Bool) (w : Nat) (c : Ctx) (x : Nat) (s : State) : WordRes :=
  let slot := fld w 0 6
  let last (c : Ctx) : BitVec 16 := match c.arrivals.find? (·.1 == slot) with | some a => a.2 | none => 0
  if fld w 31 79 ≠ 0 then .fault 0x3602 s
  else if c.arrived then barrierHold t v slot (last c) c s
  else
    match groupAt v w x with
    | .error f => .fault f s
    | .ok a =>
      let ws := memWords (s.tile t).scratch a 2
      match s.arriveLocal c.job slot (BitVec.ofNat 64 (nth 0 ws 0), BitVec.ofNat 64 (nth 0 ws 1)) with
      | (.error f, s1) => .fault f s1
      | (.ok e, s1) =>
        let s2 := s1.updCtx t v fun c => { c with arrivals := (slot, e) :: c.arrivals.filter (·.1 != slot) }
        if flag w 30 then barrierHold t v slot e c (s2.updCtx t v fun c => { c with arrived := true }) else .ok s2

/-- BARRIER_WAIT (R288): F-4302 where the task has not arrived on the slot. -/
def barrierWaitWord (t : Nat) (v : Bool) (w : Nat) (c : Ctx) (_x : Nat) (s : State) : WordRes :=
  let slot := fld w 0 6
  if fld w 6 104 ≠ 0 then .fault 0x3602 s
  else
    match c.arrivals.find? (·.1 == slot) with
    | none =>
      let e := match s.job? c.job with | some j => (j.barrier slot).epoch.toNat | none => 0
      .fault 0x4302 (s.syncFault 0x4302 slot 0x3FFF c.job e 0)
    | some a => barrierHold t v slot a.2 c s

/-- The outbound table with a signal entered (R290). -/
def enterSignal (n : Nat) (p : W64) (xs : List (Nat × OutSig)) : List (Nat × OutSig) :=
  match xs.find? (·.1 == n) with
  | some (_, o) => if o.pend = 0 then xs.filter (·.1 != n) ++ [(n, { o with pend := 1, payload := p })]
      else updFirst (·.1 == n) (fun _ => (n, { o with pend := o.pend + 1, payload := p })) xs
  | none => xs ++ [(n, ⟨1, p, none⟩)]

/-- HOST_SIGNAL (R290). -/
def hostSignalWord (w : Nat) (c : Ctx) (_x : Nat) (s : State) : WordRes :=
  if fld w 20 90 ≠ 0 then .fault 0x3602 s
  else
    let n := fld w 0 16
    let merged : Bool := match s.job? c.job with
      | some j => (match j.outbound.find? (·.1 == n) with | some x => x.2.pend != 0 | none => false)
      | none => false
    let s1 := (s.updJob c.job fun j => { j with outbound := enterSignal n (BitVec.ofNat 64 (c.reg (fld w 16 4))) j.outbound }).bump 0x4040 1
    .ok (if merged then s1.bump 0x4048 1 else s1)

/-- HOST_WAIT (R291): the earliest waiter of a number takes first. -/
def hostWaitWord (t : Nat) (v : Bool) (w : Nat) (c : Ctx) (_x : Nat) (s : State) : WordRes :=
  if fld w 20 90 ≠ 0 then .fault 0x3602 s
  else
    let n := fld w 0 16
    let me : Nat × Nat × Bool := (n, t, v)
    let wait (s : State) : State := s.updJob c.job fun j =>
      if j.hostWaiters.contains me then j else { j with hostWaiters := j.hostWaiters ++ [me] }
    match s.job? c.job with
    | none => .wait s
    | some j =>
      match j.inbox.find? (·.1 == n) with
      | none => .wait (wait s)
      | some (_, k, p) =>
        let first : Bool := match j.hostWaiters.find? (·.1 == n) with | some m => m == me | none => true
        if k = 0 || !first then .wait (wait s)
        else
          -- while the count stays above zero, the next task that waits on the number is woken to take it
          let rest := j.hostWaiters.filter fun m => m.1 == n && m != me
          let s1 := (s.updJob c.job fun j =>
            { j with inbox := updFirst (·.1 == n) (fun _ => (n, k - 1, p)) j.inbox,
                     hostWaiters := j.hostWaiters.filter (· != me) }).setReg t v (fld w 16 4) p.toNat
          .ok (if k = 1 then s1 else s1.wakeAll (rest.map (·.2.1)))

/-! ### Queues -/

/-- The fault of a descriptor as it is copied (R61); `die`: the die that the package assigns to the kernel. One that breaks
both lists raises F-3201 (DESIGN CHOICE, log 115: the rule gives no order). -/
def Desc.bad (d : Desc) (die : Option Nat) : Option Nat :=
  let w0 := d.w0.toNat
  let w3 := d.w3.toNat
  let off : Bool := match die with | some k => d.home / 144 != k | none => false
  if fld w0 53 11 != 0 || fld w3 13 3 != 0 || fld w3 48 16 != 0 || d.stolen || d.tag != 0 || decide (575 < d.home) || off ||
      (d.vesper && d.cost == 0) || d.w2.toNat % 8 != 0 then some 0x3201
  else if d.w1.toNat % 16 ≠ 0 ∨ d.w1.toNat / 2 ^ 56 > 1 then some 0x3202 else none

/-- Room in a queue for a descriptor of a class (R65). -/
def TileState.room (x : TileState) (v : Bool) : Bool :=
  decide (x.queue.length < 64) && (v || decide (countIf (fun d => !d.vesper) x.queue < 56))

/-- A descriptor enters a queue: the QUEUE wire fires (R64, R74). -/
def State.enterQueue (s : State) (t : Nat) (d : Desc) : State :=
  let x := s.tile t
  (s.setTile t { x with queue := x.queue ++ [d] }).wake t

/-- Die, row and column of a tile (R12). -/
def dieOf (t : Nat) : Nat := t / 144
@[inherit_doc dieOf] def rowOfTile (t : Nat) : Nat := t % 144 / 12
@[inherit_doc dieOf] def colOfTile (t : Nat) : Nat := t % 12

/-- Manhattan distance of two tiles of a die. -/
def manhattan (a b : Nat) : Nat :=
  (rowOfTile a - rowOfTile b) + (rowOfTile b - rowOfTile a) + (colOfTile a - colOfTile b) + (colOfTile b - colOfTile a)

/-- The nearest tile of a tile's die that a condition admits, lowest index on ties; not the tile itself. -/
def nearestThat (t : Nat) (f : Nat → Bool) : Option Nat :=
  leastBy (manhattan t) ((List.range 144).map (dieOf t * 144 + ·) |>.filter fun u => u != t && f u)

/-- The nearest in-service tile of the die, lowest index on ties (R79). -/
def State.nearest (s : State) (t : Nat) : Option Nat := nearestThat t fun u => !(s.tile u).isolated

/-- Where a descriptor is written: its home, or the nearest in-service tile of the die for a PORTABLE task of an isolated
home; none: the task is pinned to an isolated tile (R79). -/
def State.homeFor (s : State) (d : Desc) : Option Nat :=
  if !(s.tile d.home).isolated then some d.home else if d.portable then s.nearest d.home else none

/-- A package whose task is pinned to an isolated tile is abandoned, a hardware failure (R79). -/
def State.losePinned (s : State) (tag : Nat) (d : Desc) : State :=
  s.abandon tag (s.tile d.home).isoCode d.home d.kernel d.index true

/-- ENQUEUE (R66, R79, R183). The CLASS of the descriptor is the package's, as R24 has it of every task (F-3201). -/
def enqueueWord (t : Nat) (v : Bool) (w : Nat) (c : Ctx) (x : Nat) (s : State) : WordRes :=
  if stray w [(0, 24)] then .fault 0x3602 s
  else
    match paramAt v w x 32 with
    | .error f => .fault f s
    | .ok a =>
      let ws := memWords (s.tile t).scratch a 4
      let g (i : Nat) : W64 := BitVec.ofNat 64 (nth 0 ws i)
      let d : Desc := ⟨g 0, g 1, g 2, g 3⟩
      let pv : Bool := match s.pkg? c.desc.tag with | some p => p.vesper | none => c.desc.vesper
      match (d.bad none).orElse fun _ => if d.vesper = pv then none else some 0x3201 with
      | some f => .fault f s
      | none =>
        match s.homeFor d with
        | none => .ended (s.losePinned c.desc.tag d)
        | some h =>
          if (s.tile h).room d.vesper then .ok (s.enterQueue h (d.withTag c.desc.tag))
          else if h = t then .fault 0x3203 s else .hold s

/-- QUEUE_STATE (R183). -/
def queueStateWord (t : Nat) (v : Bool) (w : Nat) (_c : Ctx) (_x : Nat) (s : State) : WordRes :=
  if stray w [(106, 4)] then .fault 0x3602 s
  else
    let q := (s.tile t).queue
    let nv := countIf (·.vesper) q
    .ok (s.setReg t v (fld w 106 4) (q.length + (q.length - nv) * 2 ^ 8 + nv * 2 ^ 16))

/-- COUNT_WAIT (R275). -/
def execCountWait (t : TileId) (v : Bool) (w : BitVec 128) (s : State) : Host.Outcome State Fault Refusal :=
  issue (ofOpcode 0x60) (countWaitWord t.val w.toNat) t v w s

/-- BARRIER_ARRIVE (R284). -/
def execBarrierArrive (t : TileId) (v : Bool) (w : BitVec 128) (s : State) : Host.Outcome State Fault Refusal :=
  issue (ofOpcode 0x61) (barrierArriveWord t.val v w.toNat) t v w s

/-- BARRIER_WAIT (R288). -/
def execBarrierWait (t : TileId) (v : Bool) (w : BitVec 128) (s : State) : Host.Outcome State Fault Refusal :=
  issue (ofOpcode 0x62) (barrierWaitWord t.val v w.toNat) t v w s

/-- HOST_SIGNAL (R290). -/
def execHostSignal (t : TileId) (v : Bool) (w : BitVec 128) (s : State) : Host.Outcome State Fault Refusal :=
  issue (ofOpcode 0x63) (hostSignalWord w.toNat) t v w s

/-- HOST_WAIT (R291). -/
def execHostWait (t : TileId) (v : Bool) (w : BitVec 128) (s : State) : Host.Outcome State Fault Refusal :=
  issue (ofOpcode 0x64) (hostWaitWord t.val v w.toNat) t v w s

/-- ENQUEUE (R183). -/
def execEnqueue (t : TileId) (v : Bool) (w : BitVec 128) (s : State) : Host.Outcome State Fault Refusal :=
  issue (ofOpcode 0x70) (enqueueWord t.val v w.toNat) t v w s

/-- QUEUE_STATE (R183). -/
def execQueueState (t : TileId) (v : Bool) (w : BitVec 128) (s : State) : Host.Outcome State Fault Refusal :=
  issue (ofOpcode 0x71) (queueStateWord t.val v w.toNat) t v w s

end Sys2Proof.Machine
end

