-- ==== Sys2Proof/Machine/Tiles.lean ====
section
/-!
DEFINITION. Tiles between words: completion of engine words, taking, stealing, suspension, wake wires, retention and
isolation (R62 to R79, R162).
-/
namespace Sys2Proof.Machine

/-! ### Completion of engine words (R162, R164) -/

/-- ENGINE_WORD_COMPLETE: the engine's next word runs to its end and completes, the words behind it begin, and words that
WAIT and LAG held may issue (R162, R164). Words that may begin do so first. Nothing completes on engines that have stopped; a
remote word completes once its replies have come. -/
def execEngineWordComplete (t : TileId) (v : Bool) (engine : Fin 4) (waves : Nat) (s : State) : Host.Outcome State Fault Refusal :=
  if (s.tile t.val).isolated || (engine != 3 && !(s.tile t.val).engines v) then .next s
  else
    let s1 := s.beginWords t.val v
    match s1.ctx? t.val v with
    | none => .next s1
    | some c =>
      match c.nextDone engine with
      | none => .next s1
      | some (k, w) => .next ((s1.completeWord t.val v c k w waves).beginWords t.val v)

/-! ### Taking (R64, R72) -/

/-- Is the tile free of any running task? -/
def TileState.noTask (x : TileState) : Bool := x.noon.isNone && x.vesper.isNone

/-- Copy the banks, tags and flags to the save area (Table 03-7, row 2). -/
def TileState.saveBanks (x : TileState) : TileState :=
  { x with scratch := x.scratch.filter (fun e => decide (e.1 < 0x560000)) ++
             ((x.mat.acc.filter fun e => decide (e.1 < 0x40000)).map fun e => (e.1 + 0x560000, e.2)) ++
             x.scratch.filter (fun e => decide (0x5A0000 ≤ e.1)),
           save := some { x.mat with acc := [] } }

/-- Restore the banks from the save area (Table 03-7, rows 4 and 5). A matrix operation that stands between two rows reloads
its arrays' current sets from the address, axis and offset recorded, reading what stands there now (R99, R100). -/
def TileState.restoreBanks (x : TileState) : TileState :=
  match x.save with
  | none => x
  | some m =>
    let acc := (x.scratch.filter fun e => decide (0x560000 ≤ e.1 ∧ e.1 < 0x5A0000)).map fun e => (e.1 - 0x560000, e.2)
    let latch := match x.noon.bind Ctx.matmulAt with | some o => latchReload o x.scratch m.latch | none => x.mat.latch
    { x with mat := { m with acc := acc, latch := latch }, save := none }

/-- A descriptor starts in a context of the tile (R165). -/
def State.startTask (s : State) (t : Nat) (d : Desc) (v : Bool) : State :=
  match s.pkg? d.tag with
  | none => s
  | some p =>
    let x := s.tile t
    let y := if v && d.usesMatrix && x.suspended && x.save.isNone then x.saveBanks else x
    s.setTile t (({ y with queue := eraseFirst (· == d) y.queue, probed := false }).setCtx v (some (Ctx.start d p.job t)))

/-- TASK_TAKE: the oldest Vesper descriptor, or else the oldest Noon descriptor (R64). -/
def execTaskTake (t : TileId) (s : State) : Host.Outcome State Fault Refusal :=
  let x := s.tile t.val
  if x.isolated || x.retained || x.vesper.isSome then .next s
  else
    match x.queue.find? (·.vesper) with
    | some d => if x.noon.isSome && !x.suspended then .next s else .next (s.startTask t.val d true)
    | none =>
      if x.noon.isSome then .next s
      else match x.queue with
        | [] => .next s
        | d :: _ => .next (s.startTask t.val d false)

/-! ### Skipper (R67 to R73) -/

/-- Does a thief lie within SCOPE of a descriptor's HOME_TILE (Table 03-3)? -/
def inScope (d : Desc) (thief : Nat) : Bool :=
  match d.scope with
  | 0 => dieOf d.home == dieOf thief && decide (manhattan d.home thief ≤ 1)
  | 1 => dieOf d.home == dieOf thief && decide (manhattan d.home thief ≤ 3)
  | 2 => dieOf d.home == dieOf thief
  | _ => true

/-- Is a descriptor in a victim's queue eligible for a thief (R67, R70, R73)? `older` is the COST_S sum of the Vesper
descriptors that stand before it in that queue. Across dies only Noon with SCOPE 3. -/
def State.eligible (s : State) (victim thief older : Nat) (d : Desc) : Bool :=
  let same := dieOf victim == dieOf thief
  d.portable && !d.stolen && inScope d thief &&
  (if d.vesper then same && !((s.tile thief).queue.any (·.vesper)) && decide (d.cost ≤ s.cfg.vesperStealLimit) && decide (1024 ≤ older)
   else same || d.scope == 3)

/-- The eligible descriptors of a queue, in age order, behind `older` waves of Vesper descriptors. -/
def State.eligiblesFrom (s : State) (victim thief : Nat) : Nat → List Desc → List Desc
  | _, [] => []
  | older, d :: ds =>
    let rest := s.eligiblesFrom victim thief (older + if d.vesper then d.cost else 0) ds
    if s.eligible victim thief older d then d :: rest else rest

/-- The eligible descriptors of a victim, in age order; an isolated or retained tile answers NONE (R67). -/
def State.eligibles (s : State) (victim thief : Nat) : List Desc :=
  let x := s.tile victim
  if x.isolated || x.retained then [] else s.eligiblesFrom victim thief 0 x.queue

/-- What a victim hands over (R69, R70, R73), in age order. -/
def State.handed (s : State) (victim thief : Nat) : List Desc :=
  let es := s.eligibles victim thief
  match (es.filter (·.vesper)).getLast? with
  | some d => [d]
  | none =>
    let e := es.length
    if e = 0 ∨ (dieOf victim ≠ dieOf thief ∧ e < s.cfg.crossDieMin) then [] else es.drop (e - max 1 (e / 2))

/-- A queue without the descriptors handed over: of equal ones the youngest go (R69). -/
def withoutYoungest (ds q : List Desc) : List Desc := (ds.foldl (fun q d => eraseFirst (· == d) q) q.reverse).reverse

/-- The descriptors pass from victim to thief with STOLEN set, counted and waking the thief (R69, R80). -/
def State.steal (s : State) (victim thief : Nat) (ds : List Desc) : State :=
  let x := s.tile victim
  let s1 := s.setTile victim { x with queue := withoutYoungest ds x.queue }
  let y := s1.tile thief
  let s2 := (s1.setTile thief { y with queue := y.queue ++ ds.map Desc.steal }).wake thief
  (s2.bump (0x3128 + 0x40 * dieOf thief) ds.length).bump 0x3018 (countIf (·.vesper) ds)

/-- The tiles of steps 1 and 2 of Table 03-4 that lie on the die. -/
def probeNear (t : Nat) : List Nat :=
  let steps : List (Int × Int) := [(-1, 0), (0, 1), (1, 0), (0, -1), (-2, 0), (-1, 1), (0, 2), (1, 1), (2, 0), (1, -1), (0, -2), (-1, -1)]
  steps.filterMap fun o =>
    let r : Int := rowOfTile t + o.1
    let c : Int := colOfTile t + o.2
    if 0 ≤ r ∧ r < 12 ∧ 0 ≤ c ∧ c < 12 then some (dieOf t * 144 + (r * 12 + c).toNat) else none

/-- The tile of a die with the most eligible descriptors, lowest index on ties (steps 3 to 6). -/
def State.richest (s : State) (die thief : Nat) : Nat :=
  ((List.range 144).foldl (fun (b : Nat × Nat) i =>
    let t := die * 144 + i
    let n := if t = thief then 0 else (s.eligibles t thief).length
    if b.2 < n then (t, n) else b) (die * 144, 0)).1

/-- The first victim of the probe order that hands something over. -/
def State.probeOrder (s : State) (thief : Nat) : Option (Nat × List Desc) :=
  let d := dieOf thief
  (probeNear thief ++ [d, d ^^^ 1, d ^^^ 2, d ^^^ 3].map fun k => s.richest k thief).findSome? fun v =>
    if v = thief then none
    else match s.handed v thief with | [] => none | ds => some (v, ds)

/-- May the tile probe: idle, in service, awake, and not waiting after a failed order (R67, R68)? -/
def TileState.mayProbe (x : TileState) : Bool :=
  !x.isolated && !x.retained && x.queue.isEmpty && x.noTask && !x.probed

/-- STEAL_PROBE: one whole probe order of an idle tile (R68). -/
def execStealProbe (t : TileId) (s : State) : Host.Outcome State Fault Refusal :=
  let x := s.tile t.val
  if !x.mayProbe then .next s
  else
    match s.probeOrder t.val with
    | some (v, ds) => .next (s.steal v t.val ds)
    | none => .next ((s.setTile t.val { x with probed := true }).bump (0x3130 + 0x40 * dieOf t.val) 1)

/-- PROBE_SERVE: a victim serves one probe of a thief that probes (R69): the victim is the first of the thief's order that
hands something over, as every earlier one has answered NONE (R68). -/
def execProbeServe (victim thief : TileId) (s : State) : Host.Outcome State Fault Refusal :=
  if !(s.tile thief.val).mayProbe then .next s
  else
    match s.probeOrder thief.val with
    | some (v, ds) => if v = victim.val then .next (s.steal v thief.val ds) else .next s
    | none => .next s

/-! ### Suspension (R72) -/

/-- VESPER_SUSPEND: a tile that runs a Noon task suspends it for a Vesper descriptor: each engine stops its Noon word at a
suspension point (R72). -/
def execVesperSuspend (t : TileId) (s : State) : Host.Outcome State Fault Refusal :=
  let x := s.tile t.val
  if x.noon.isSome && !x.suspended && !x.isolated && x.queue.any (·.vesper) then .next (s.suspendNoon t.val) else .next s

/-- NOON_RESUME: no Vesper task runs or is queued; the banks return, latches are reloaded, and the Noon task and its words go
on from where they stopped (R72, R99, R133, R235). -/
def execNoonResume (t : TileId) (s : State) : Host.Outcome State Fault Refusal :=
  let x := s.tile t.val
  if x.suspended && x.vesper.isNone && !x.queue.any (·.vesper) && !x.isolated then
    .next (((s.setTile t.val { x.restoreBanks with suspended := false }).wake t.val).beginWords t.val false)
  else .next s

/-! ### Isolation (R79) -/

/-- Move descriptors one by one off an isolated tile, each to the nearest in-service tile of the die with room for it: the
state and the packages of those that no tile takes. That a full queue is passed over, and that a descriptor which no queue of
the die takes is lost, is the model's choice (DESIGN CHOICE, log 116). -/
def State.moveDescs (s : State) (t : Nat) : List Desc → State × List Nat
  | [] => (s, [])
  | d :: ds =>
    match nearestThat t fun u => !(s.tile u).isolated && (s.tile u).room d.vesper with
    | some u => (s.enterQueue u d).moveDescs t ds
    | none => let r := s.moveDescs t ds; (r.1, d.tag :: r.2)

/-- The packages that lose a task with a tile: running there, or pinned to it (R79). -/
def State.lostWith (s : State) (t : Nat) : List Nat :=
  let x := s.tile t
  let tagOf (c : Option Ctx) : List Nat := match c with | some c => [c.desc.tag] | none => []
  (tagOf x.noon ++ tagOf x.vesper ++ (x.queue.filter fun d => !d.portable).map Desc.tag ++
    (s.pkgs.filter fun p => p.running && p.tasks.any fun d => d.home == t && !d.portable && !p.written.contains (d.kernel, d.index)).map
      (·.tag)).eraseDups

/-- Abandon packages lost with a tile, naming the task where one ran there. -/
def State.abandonOn (s : State) (code t : Nat) (ran : List Desc) : List Nat → State
  | [] => s
  | g :: gs =>
    (match ran.find? fun (d : Desc) => d.tag == g with
     | some d => s.abandon g code t d.kernel d.index true
     | none => s.abandon g code t 0 0 true).abandonOn code t ran gs

/-- A tile raises a hardware fault and is isolated (R79): recorded, its PORTABLE descriptors moved, packages abandoned; the
CONTROL wire fires (R74). The record names the task that ran, the Vesper one where the tile held both, and offset 0; with no
task, KERNEL_ID, TASK_INDEX and PACKAGE_TAG 0 (DESIGN CHOICE, log 117: R82 says nothing of a fault that is no task's). -/
def State.isolate (s : State) (t code : Nat) : State :=
  let x := s.tile t
  if x.isolated then s
  else
    let ran := (x.vesper.map (·.desc)).toList ++ (x.noon.map (·.desc)).toList
    let d := ran.headD ⟨0, 0, 0, 0⟩
    let w : W64 × W64 := (BitVec.ofNat 64 (code + t * 2 ^ 16 + d.kernel * 2 ^ 26 + d.index * 2 ^ 42 + d.tag * 2 ^ 58), 0)
    let lost := s.lostWith t
    let move := x.queue.filter (·.portable)
    let s1 := ((s.record 0x3800 16 w).logEvent code ((x.vesper.orElse fun _ => x.noon).map (·.job)) w).points 150
    let s2 := s1.setTile t { x with isolated := true, isoCode := code, queue := [], retained := false, woken := false }
    let r := s2.moveDescs t move
    (r.1.abandonOn code t ran (lost ++ r.2).eraseDups).wakeAll (s.tiles.map (·.1))

/-- SUSPEND_OVERRUN: F-3205 (R79). -/
def execSuspendOverrun (t : TileId) (s : State) : Host.Outcome State Fault Refusal :=
  let x := s.tile t.val
  if x.noon.isSome && !x.suspended && x.queue.any (·.vesper) then .next (s.isolate t.val 0x3205) else .next s

/-- RETENTION_WAKE_FAILURE: a tile that a wire woke from retention has not issued since; F-3206 (R77). -/
def execRetentionWakeFailure (t : TileId) (s : State) : Host.Outcome State Fault Refusal :=
  if (s.tile t.val).woken then .next (s.isolate t.val 0x3206) else .next s

/-! ### Wires and retention (R74 to R76) -/

/-- Is a tile in service one that waits under R75 or is in retention? -/
def TileState.rests (x : TileState) : Bool :=
  let w (c : Option Ctx) : Bool := match c with | some c => c.waiting | none => false
  !x.isolated && (x.retained || x.probed || w x.noon || w x.vesper)

/-- The tile that SURPLUS fires for a rich tile: of the waiting or retained tiles of the die for which it holds
STEAL_WAKE_THRESHOLD eligible Noon descriptors, the nearest, lowest index on ties (Table 03-6). -/
def State.surplusTarget (s : State) (u : Nat) : Option Nat :=
  nearestThat u fun t => (s.tile t).rests && decide (s.cfg.stealWake ≤ countIf (fun d => !d.vesper) (s.eligibles u t))

/-- Does SURPLUS fire at a tile: is it the one that some rich tile of its die would have fired? -/
def State.surplusFor (s : State) (t : Nat) : Bool :=
  (List.range 144).any fun i => s.surplusTarget (dieOf t * 144 + i) == some t

/-- WAKE_WIRE: every waiting engine of the tile rechecks (R74); SURPLUS (wire 1) fires only where its condition holds. In safe mode
every tile is held in retention (R442). -/
def execWakeWire (t : TileId) (wire : Fin 6) (s : State) : Host.Outcome State Fault Refusal :=
  if s.start.phase == .safe || (s.tile t.val).isolated || (wire == 1 && !s.surplusFor t.val) then .next s else .next (s.wake t.val)

/-- Is every engine of the tile waiting (R76)? -/
def TileState.allWait (x : TileState) : Bool :=
  let w (c : Option Ctx) : Bool := match c with | some c => c.rests | none => true
  w x.noon && w x.vesper && (!x.noTask || x.probed)

/-- RETENTION_ENTRY (R76). -/
def execRetentionEntry (t : TileId) (s : State) : Host.Outcome State Fault Refusal :=
  let x := s.tile t.val
  if x.allWait && x.queue.isEmpty && !x.isolated && !x.retained then
    .next ((s.setTile t.val { x with retained := true, woken := false }).bump (0x3138 + 0x40 * dieOf t.val) 1)
  else .next s

/-! ### Status refresh (R80, R414) -/

/-- TILE_BUSY words from the tiles' percentages. -/
def State.setBusy (s : State) : List (Nat × Nat) → State
  | [] => s
  | (t, p) :: r =>
    let k := 0x3200 + 8 * (t / 8)
    let o := (s.word k).toNat
    (if t < 576 then s.setWord k (BitVec.ofNat 64 (o - fld o (8 * (t % 8)) 8 * 2 ^ (8 * (t % 8)) + min p 100 * 2 ^ (8 * (t % 8)))) else s).setBusy r

/-- Every TILE_BUSY word cleared. -/
def State.clearBusy (s : State) : Nat → State
  | 0 => s
  | n + 1 => (s.setWord (0x3200 + 8 * n) 0).clearBusy n

/-- STATUS_REFRESH of a block: at a 1-second boundary, of both published values, or every 1 ms while a session holds an unlock, of
the exact one, in the blocks of the rules that R414 lists. A module held in reset refreshes nothing (R459). The 1 ms
refreshes raise SNAPSHOT_SEQ like the others, so that a reader who holds no unlock sees it rise by more than one from one
boundary to the next (DESIGN CHOICE, log 118: R81 does not say). -/
def execStatusRefresh (block : Fin 12) (ms : Bool) (busy : List (Nat × Nat)) (s : State) : Host.Outcome State Fault Refusal :=
  if s.start.phase == .off || (ms && (s.unlockLevel == 0 || !msBlock block.val)) then .next s
  else
    let s1 := match seqWord block.val with | some k => s.bump k 1 | none => s
    if ms then .next (s1.publishMs block.val)
    else
      let s2 := if block = 3 then (s1.clearBusy 72).setBusy busy else s1
      .next (s2.publishBoth block.val)

end Sys2Proof.Machine
end

