-- ==== Sys2Proof/Machine/Memory.lean ====
section
/-!
DEFINITION. The stacked memory: channel requests, the check code, refresh, scrub and repair, failed channels and heat
(R189 to R201, R211, R212).
-/
namespace Sys2Proof.Machine

/-! ### Channels and stacks (R14) -/

/-- The stack of a channel. -/
def stackOf (ch : Nat) : Nat := dieOf ch * 6 + rowOfTile ch / 4 * 2 + colOfTile ch / 6

/-- The number of a channel within its stack. -/
def inStack (ch : Nat) : Nat := rowOfTile ch % 4 * 6 + colOfTile ch % 6

/-- The refresh interval of a channel's stack in ns (R196). -/
def State.refreshInterval (s : State) (ch : Nat) : Nat := if Sp.get false s.mem.slow (stackOf ch) then 64000000 else 32000000

/-- Is a refresh of a bank of the channel due: could it be put off by another 2 us, the spacing of R192, only beyond its
interval (R189, R196; DEDUCED, log 119)? -/
def State.refreshDue (s : State) (ch : Nat) : Bool :=
  s.mem.refreshedAt.any fun e => e.1 / 2 ^ 16 == ch && decide (e.2 - 1 + s.refreshInterval ch ≤ s.now + 2000)

/-! ### Corrected beats and repair (R194, R197 to R199) -/

/-- Do a row's corrected errors call for its repair: two different scrub passes, or three different beats (R198)? -/
def repairDue (es : List (Nat × Nat × Nat × Nat)) : Bool :=
  decide (2 ≤ ((es.map fun e => e.2.2.2).filter (fun p => p != 0)).eraseDups.length) ||
    decide (3 ≤ (es.map fun e => e.2.2.1).eraseDups.length)

/-- The row of a channel that holds a beat. -/
def rowKey (ch b : Nat) : Nat := ch * 2 ^ 27 + Config.rowOf b % 2 ^ 27

/-- Repair a row: to a spare row, or, with none left, its frame counts as retired (R198, R199). The channel is degraded
when its last spare row is used. -/
def State.repairRow (s : State) (ch b : Nat) : State :=
  let used := Sp.get 0 s.mem.spares ch
  let row := Config.rowOf b
  let es := s.mem.ceRows.filter fun e => !(e.1 == ch && e.2.1 == row)
  if used < 1024 then
    let s1 := ({ s with mem := { s.mem with ceRows := es, spares := Sp.put 0 s.mem.spares ch (used + 1),
                                            repaired := Sp.put false s.mem.repaired (rowKey ch b) true } }.bump 0x1020 1).points 2
    if used + 1 = 1024 then s1.points 100 else s1
  else { s with mem := { s.mem with ceRows := es, retired := Sp.put false s.mem.retired (ch * 2048 + b / 65536) true } }

/-- A beat was corrected and written back: counted, and its row is repaired when due (R194, R198); `pass`: the scrub pass
that found it, plus one, or 0. -/
def State.corrected (s : State) (ch b pass : Nat) : State :=
  let e : Nat × Nat × Nat × Nat := (ch, Config.rowOf b, b, pass)
  let es := if s.mem.ceRows.contains e then s.mem.ceRows else s.mem.ceRows ++ [e]
  let s1 := { s with mem := { s.mem with ceRows := es } }.bump 0x1010 1
  if repairDue (es.filter fun x => x.1 == ch && x.2.1 == Config.rowOf b) then s1.repairRow ch b else s1

/-- A beat is found uncorrectable from now on. -/
def State.poisonBeat (s : State) (ch b : Nat) : State :=
  { s with mem := { s.mem with poison := Sp.put false s.mem.poison (ch * 2 ^ 27 + b) true } }

/-- The bytes of the sums at four places each after FP32 patterns are added in order (R211). -/
def State.sumBytes (s : State) : List Place → List Nat → List Byte
  | p0 :: p1 :: p2 :: p3 :: ps, x :: xs =>
    leBytes 4 (addF32 (leNat ([p0, p1, p2, p3].map s.byteAt)) x) ++ s.sumBytes ps xs
  | _, _ => []

/-- An atomic operation of Table 07-19 on a 64-bit word (R212); `none`: a reserved code. -/
def atomicOp (aop old x store : Nat) : Option Nat :=
  match aop with
  | 0 => some ((old + x) % 2 ^ 64)
  | 1 => some (old &&& x)
  | 2 => some (old ||| x)
  | 3 => some (old ^^^ x)
  | 4 => some (if sgn 64 old ≤ sgn 64 x then old else x)
  | 5 => some (if sgn 64 old ≤ sgn 64 x then x else old)
  | 6 => some x
  | 7 => some (if old = x then store else old)
  | 8 => some (old / 2 ^ 32 * 2 ^ 32 + addF32 (old % 2 ^ 32) (x % 2 ^ 32))
  | _ => none

/-! ### Requests to a channel (R189) -/

/-- The request served next: Vesper before Noon, within a class the requesters in rotation, within a requester the
oldest (R189). -/
def nextRequest (turn : Bool → Nat) (qs : List ChReq) : Option ChReq :=
  let v := qs.any (·.vesper)
  let mine := qs.filter fun q => q.vesper == v
  let ahead (q : ChReq) : Bool := decide (turn v ≤ q.requester)
  let rs := if mine.any ahead then mine.filter ahead else mine
  match leastBy (fun (q : ChReq) => q.requester) rs with
  | none => none
  | some q => rs.find? fun x => x.requester == q.requester

/-- Bytes a request covers. -/
def chLen : ChOp → Nat
  | .read n => n
  | .write d => d.length
  | .accumulate xs => 4 * xs.length
  | .atomic _ _ _ => 8

/-- The beats a request reads: every beat of a read, accumulate or atomic, the beats a write covers in part (R195). -/
def chReadBeats (q : ChReq) : List Nat :=
  let a := q.addr.toNat
  let n := chLen q.op
  let bs := (List.range (cdiv (a % 32 + n) 32)).map (a / 32 + ·)
  match q.op with
  | .write _ => bs.filter fun b => decide (b * 32 < a) || decide (a + n < b * 32 + 32)
  | _ => bs

/-- The places of a request in its channel. -/
def chPlaces (ch : Nat) (q : ChReq) : List Place :=
  (List.range (chLen q.op)).map fun i => .dram (ch * 2 ^ 32 + q.addr.toNat + i)

/-- What the check code makes of a beat (R193): no erroneous symbol is clean, any one is corrected, any two are detected, and
a beat of a wrong address is uncorrectable; for more than two the rule fixes nothing. -/
inductive BeatCheck where
  | clean | corrected | uncorrectable | open'
  deriving DecidableEq, Repr

@[inherit_doc BeatCheck] def beatCheck (e : BeatErr) : BeatCheck :=
  if e.wrongAddress then .uncorrectable
  else
    match e.symbols.eraseDups.length with
    | 0 => .clean
    | 1 => .corrected
    | 2 => .uncorrectable
    | _ => .open'

/-- A beat of the channel is read (R193, R194). A beat with more than two erroneous symbols is found uncorrectable or
miscorrected into data that nothing constrains: a free value says which (log 120). -/
def State.observeBeat (s : State) (ch pass : Nat) (b : Nat) (e : BeatErr) : State :=
  if Sp.get false s.mem.poison (ch * 2 ^ 27 + b) then s
  else
    match beatCheck e with
    | .clean => s
    | .corrected => s.corrected ch b pass
    | .uncorrectable => s.poisonBeat ch b
    | .open' =>
      if s.free.getLsbD 0 then s.drawn.poisonBeat ch b
      else
        let bs := (List.range 32).map fun i => BitVec.ofNat 8 (s.free.toNat / 2 ^ (8 + 8 * i))
        ({ s.drawn with mem := { s.mem with dram := Mem.setBytes s.mem.dram (ch * 2 ^ 32 + 32 * b) bs } }).corrected ch b pass

/-- The beats that a request reads come from the DRAM, each with its errors. -/
def State.observeAll (s : State) (ch : Nat) : List Nat → List BeatErr → State
  | b :: bs, e :: es => (s.observeBeat ch 0 b e).observeAll ch bs es
  | _, _ => s

/-- A request takes its effect in the DRAM: the code it meets, if any (R194, R195, R211, R212). -/
def State.serve (s : State) (ch : Nat) (q : ChReq) : Option Nat × State :=
  let ps := chPlaces ch q
  match q.op with
  | .read _ => (match s.readPlaces ps with | (.error f, s1) => (some f, s1) | (.ok _, s1) => (none, s1))
  | .write d => s.writePlaces (List.zip ps d) 3
  | .accumulate xs => s.modifyPlaces (List.zip ps (s.sumBytes ps (xs.map (·.toNat))))
  | .atomic aop x store =>
    match atomicOp aop.toNat (leNat (ps.map s.byteAt)) x.toNat store.toNat with
    | some v => s.modifyPlaces (List.zip ps (leBytes 8 v))
    | none => (none, s)

/-- The task that issued a request raises a code at the word it stands at. -/
def State.faultOf (s : State) (q : ChReq) (code : Nat) : State :=
  match q.task with
  | none => s
  | some (t, v) => (match s.ctx? t.val v with | some c => s.faultTask t.val v code c.off | none => s)

/-- Every waiting request of a failed channel raises F-1304 (R200). -/
def State.refuseAll (s : State) : List ChReq → State
  | [] => s
  | q :: qs => (s.faultOf q 0x1304).refuseAll qs

/-- Can a request be one of the channel: its bytes lie in it, and its operation is aligned and defined? -/
def chOk (q : ChReq) : Bool :=
  decide (q.addr.toNat + chLen q.op ≤ 2 ^ 32) && decide (0 < chLen q.op) &&
  (match q.op with
   | .accumulate _ => q.addr.toNat % 4 == 0
   | .atomic aop _ _ => q.addr.toNat % 8 == 0 && decide (aop.toNat ≤ 8)
   | _ => true)

/-- What a request passes through the crossings of its channel (R449, R450): the burst that it writes, which lies in the write slots
before its command is issued; the command, 16 bytes whose layout is the model's (log 121); and the beats that it reads, in items of
the crossing's width. -/
def State.dramItems (s : State) (ch : Nat) (q : ChReq) : State :=
  let kind := match q.op with | .read _ => 0 | .write _ => 1 | .accumulate _ => 2 | .atomic _ _ _ => 3
  let s1 := match q.op with | .write d => s.across (dramWrite ch) d | _ => s
  let s2 := s1.across (dramCmd ch) (leBytes 8 q.addr.toNat ++ leBytes 8 (kind + chLen q.op * 2 ^ 8))
  s2.across (dramRead ch) ((chReadBeats q).flatMap fun b => Mem.bytes s.mem.dram (ch * 2 ^ 32 + 32 * b) 32)

/-- A request whose read data overran: the read is reissued once, and a second overrun delivers its first beat as
uncorrectable, whatever the DRAM holds there (R453). -/
def State.serveOver (s : State) (ch : Nat) (q : ChReq) : Option Nat × State :=
  match chReadBeats q with
  | [] => s.serve ch q
  | b :: _ =>
    let s1 := s.dramOverruns ch q.overruns.val
    if q.overruns.val < 2 then s1.serve ch q
    else
      let k := ch * 2 ^ 27 + b
      let r := (s1.poisonBeat ch b).serve ch q
      (r.1, { r.2 with mem := { r.2.mem with poison := Sp.put false r.2.mem.poison k (Sp.get false s.mem.poison k) } })

/-- CHANNEL_REQUEST: the controller serves one of the waiting requests (R189). A refresh that is due goes first, so that
nothing is served before it; a failed channel accepts none, and every request raises F-1304 (R200). Nothing is served while the
module is held in reset or runs without its channels (R442, R459). -/
def execChannelRequest (ch : TileId) (waiting : List ChReq) (s : State) : Host.Outcome State Fault Refusal :=
  if !s.alive then .next s
  else if Sp.get false s.mem.failed ch.val then .next (s.refuseAll waiting)
  else if s.refreshDue ch.val then .next s
  else
    match nextRequest (fun v => Sp.get 0 s.mem.turn (ch.val * 2 + bit v)) waiting with
    | none => .next s
    | some q =>
      if !chOk q then .refused .illFormed
      else
        let s1 := { s with mem := { s.mem with turn := Sp.put 0 s.mem.turn (ch.val * 2 + bit q.vesper) (q.requester + 1) } }
        match ((s1.dramItems ch.val q).observeAll ch.val (chReadBeats q) q.errors).serveOver ch.val q with
        | (none, s2) => .next s2
        | (some f, s2) => .next (s2.faultOf q f)

/-! ### Failed channels (R200) -/

/-- The packages that have a frame mapped in a channel. -/
def State.pkgsOn (s : State) (ch : Nat) : List Nat :=
  (s.pkgs.filter fun p => match s.job? p.job with
    | some j => j.pages.any fun g => !g.window && g.place / 2048 == ch
    | none => false).map (·.tag)

/-- A channel fails (R200): its data is lost, its crossings are reset (R454), and its packages are abandoned as a hardware
failure. -/
def State.failChannel (s : State) (ch : Nat) : State :=
  if Sp.get false s.mem.failed ch then s
  else
    let lost := s.pkgsOn ch
    let keep (e : Nat × Byte) : Bool := e.1 / 2 ^ 32 != ch
    let s1 := { s with mem := { s.mem with failed := Sp.put false s.mem.failed ch true, dram := s.mem.dram.filter keep,
                                            poison := s.mem.poison.filter fun e => e.1 / 2 ^ 27 != ch } }.resetCrossings (dramCrossings ch)
    let s2 := ((s1.logEvent 0x1304 none (0, 0)).immediate 0x1304).abandonAll 0x1304 0x3FF true lost
    -- an immediate input that leaves no channel in service withdraws the module (R335)
    if 576 ≤ s2.mem.failed.length then s2.withdraw else s2

/-- REFRESH of a bank's rows: performed in time, its bank is noted; one that came too late is F-1303 and fails the channel
(R196). -/
def execRefresh (ch : TileId) (bank : Nat) (overdue : Bool) (s : State) : Host.Outcome State Fault Refusal :=
  if !s.alive || Sp.get false s.mem.failed ch.val then .next s
  else if overdue then .next ((s.logEvent 0x1303 none (0, 0)).failChannel ch.val)
  else .next { s with mem := { s.mem with refreshedAt := Sp.put 0 s.mem.refreshedAt (ch.val * 2 ^ 16 + bank % 2 ^ 16) (s.now + 1) } }

/-- CHANNEL_FAIL (R200). -/
def execChannelFail (ch : TileId) (s : State) : Host.Outcome State Fault Refusal := .next (if s.alive then s.failChannel ch.val else s)

/-- PATROL_SCRUB reads the channel's next beat (R197): corrected data is written back, and an uncorrectable beat is left as it
is, counted and recorded. -/
def execPatrolScrub (ch : TileId) (e : BeatErr) (s : State) : Host.Outcome State Fault Refusal :=
  if !s.alive || Sp.get false s.mem.failed ch.val then .next s
  else
    let b := Sp.get 0 s.mem.scrubPos ch.val
    let pass := Sp.get 0 s.mem.scrubPass ch.val
    let wrap := decide (b + 1 = 2 ^ 27)
    let s1 := { s with mem := { s.mem with scrubPos := Sp.put 0 s.mem.scrubPos ch.val (if wrap then 0 else b + 1),
                                            scrubPass := Sp.put 0 s.mem.scrubPass ch.val (pass + bit wrap) } }
    let s2 := (if wrap then s1.bump 0x1028 1 else s1).observeBeat ch.val (pass + 1) b e
    if Sp.get false s2.mem.poison (ch.val * 2 ^ 27 + b) then .next (s2.ueFound (ch.val * 2 ^ 27 + b) 1) else .next s2

/-! ### Heat (R196, R201) -/

/-- A reading as it is shown (Table 08-6): 0 to 255. -/
def shown (x : Int) : Nat := min x.toNat 255

/-- STACK_SENSOR_READ: the two sensors of a stack (R196, R201). -/
def execStackSensorRead (stack : Fin 24) (a b : Celsius) (s : State) : Host.Outcome State Fault Refusal :=
  let hot := max a b
  let k := stack.val
  let m := s.mem
  let since := if hot ≤ 81 then (if Sp.get 0 m.coolSince k = 0 then s.now + 1 else Sp.get 0 m.coolSince k) else 0
  -- while the hold lasts, refresh continues at 32 ms on every stack (R201)
  -- since when every sensor of the module has read 90 degrees or below (R201)
  let temps := Sp.put 0 m.temp k (shown hot)
  let below := if temps.any (fun e => decide (90 < e.2)) then 0 else if m.below = 0 then s.now + 1 else m.below
  let slow := if 84 ≤ hot ∨ m.hold = true then false
    else if since ≠ 0 ∧ since - 1 + 1000000000 ≤ s.now then true else Sp.get false m.slow k
  let s1 := { s with mem := { m with temp := temps, below := below, tempMax := Sp.put 0 m.tempMax k (max (Sp.get 0 m.tempMax k) (shown hot)),
                                     coolSince := Sp.put 0 m.coolSince k since, slow := Sp.put false m.slow k slow } }
  if s.start.phase = .off then .next s
  else if 97 ≤ hot then
    let s2 := ({ s1 with mem := { s1.mem with hold := true, slow := [] } }.logEvent 0x1301 none (0, 0)).immediate 0x1301
    .next (s2.abandonAll 0x1301 0x3FF true s2.running)
  else .next s1

/-- An immediate input whose condition has passed (R334). -/
def State.clearImmediate (s : State) (code : Nat) : State :=
  { s with health := { s.health with immediate := s.health.immediate.filter (· != code) } }

/-- THERMAL_HOLD_RELEASE (R201): every sensor has read 90 degrees or below for 10 s. -/
def execThermalHoldRelease (s : State) : Host.Outcome State Fault Refusal :=
  if s.mem.hold && s.mem.below != 0 && s.passed (s.mem.below - 1) 10000000000 then .next ({ s with mem := { s.mem with hold := false } }.clearImmediate 0x1301)
  else .next s

end Sys2Proof.Machine
end

