-- ==== Sys2Proof/Machine/Buckets.lean ====
section
/-!
DEFINITION. Gradient buckets at their holder: regions, granule records, contributions, crediting and closing (R298 to
R306, R310).
-/
namespace Sys2Proof.Machine

/-! ### Bytes of the module's own pages -/

/-- Where a byte of space 0x00 of a job lies here, whatever its key allows: the controllers' own view. -/
def JobCtx.dramPlace (j : JobCtx) (a : Nat) : Option Place :=
  (j.pages.find? fun p => !p.window && p.vpage == fld a 21 21).map fun p =>
    .dram (p.place / 2048 * 2 ^ 32 + p.place % 2048 * 2 ^ 21 + fld a 0 21)

/-- Has the channel of a place failed (R200)? -/
def State.lostPlace (s : State) : Place → Bool
  | .dram k => Sp.get false s.mem.failed (k / 2 ^ 32)
  | .scratch _ _ => false

/-- A byte as the module's own controllers read it: a free value in an uncorrectable beat, which is delivered poisoned
(R194, log 124); 0 of a failed channel, whose data is lost. -/
def State.ownByte (s : State) (p : Place) : Byte :=
  if s.poisonAt p then Config.poisoned p.beat s.free.toNat
  else if s.lostPlace p then 0 else s.byteAt p

/-- Bytes of a job's memory as the module's own controllers read them; a page that is not mapped gives zeros. -/
def State.peek (s : State) (job : BitVec 16) (a : Nat) : Nat → List Byte
  | 0 => []
  | n + 1 =>
    (match (s.job? job).bind fun j => j.dramPlace a with | some p => s.ownByte p | none => 0) :: s.peek job (a + 1) n

/-- The places of bytes of a job's memory that the module's own controllers reach. -/
def State.ownPlaces (s : State) (job : BitVec 16) (a n : Nat) : List Place :=
  match s.job? job with
  | none => []
  | some j => (List.range n).filterMap fun i => j.dramPlace (a + i)

/-- An access of the module's own controllers to a failed channel raises F-1304 (R200). -/
def State.meetLost (s : State) (ps : List Place) : State :=
  if ps.any s.lostPlace then s.logEvent 0x1304 none (0, 0) else s

/-- What a read of the module's own controllers leaves: every uncorrectable beat is counted and recorded (R194). No task
issued it, so that none raises F-1101 (log 124). -/
def State.looked (s : State) (job : BitVec 16) (a n : Nat) : State :=
  let ps := s.ownPlaces job a n
  (s.ueAll 0 (s.badOf ps)).meetLost ps

/-- Write bytes of a job's memory as the module's own controllers do, each beat as R195 has it: one that is uncorrectable and
written in part stays and is counted, a whole one is cleared. A page that is not mapped and a failed channel take nothing. -/
def State.poke (s : State) (job : BitVec 16) (a : Nat) (bs : List Byte) : State :=
  match s.job? job with
  | none => s
  | some j =>
    let ws := ((List.range bs.length).zip bs).filterMap fun x => (j.dramPlace (a + x.1)).map fun p => (p, x.2)
    ((s.writePlaces (ws.filter fun w => !s.lostPlace w.1) 3).2).meetLost (ws.map (·.1))

/-- A 64-bit word of a job's memory. -/
def State.peekWord (s : State) (job : BitVec 16) (a : Nat) : Nat := leNat (s.peek job a 8)

/-! ### Buckets (R298, R300) -/

/-- Bytes of a bucket's sum region. -/
def Bucket.bytes (b : Bucket) : Nat := 4 * b.elements

/-- Granules of a bucket. -/
def Bucket.granuleCount (b : Bucket) : Nat := cdiv b.elements 1024

/-- Offset of a set's sum region within the device. -/
def Bucket.base (b : Bucket) (i : Bool) : Nat := fld (pget b.sums i).toNat 0 42

/-- A bucket of a job. -/
def JobCtx.bucket? (j : JobCtx) (id : Nat) : Option Bucket := j.buckets.find? (·.id == id)

/-- Update a bucket. -/
def State.updBucket (s : State) (job : BitVec 16) (id : Nat) (f : Bucket → Bucket) : State :=
  s.updJob job fun j => { j with buckets := updFirst (·.id == id) f j.buckets }

/-- The sum region that `n` bytes at an address of space 0x00 meet: its bucket and set. -/
def JobCtx.region? (j : JobCtx) (a n : Nat) : Option (Bucket × Bool) :=
  let o := fld a 0 42
  let meets (b : Bucket) (i : Bool) : Bool := decide (o < b.base i + b.bytes ∧ b.base i < o + max n 1)
  j.buckets.findSome? fun b => if meets b false then some (b, false) else if meets b true then some (b, true) else none

/-- The set of step n (R298). -/
def setOf (n : Nat) : Bool := n % 2 == 1

/-- The steps that the sets of a bucket take after step n: n + 1 and n + 2 (R298, R299). -/
def stepsAfter (n : Nat) : Nat × Nat := pset (pset (0, 0) (setOf (n + 1)) (n + 1)) (setOf (n + 2)) (n + 2)

/-- The two words of a granule record. -/
def State.granule (s : State) (job : BitVec 16) (b : Bucket) (i : Bool) (g : Nat) : Nat × Nat :=
  let a := (pget b.granules i).toNat + 16 * g
  (s.peekWord job a, s.peekWord job (a + 8))

/-- What a read of a granule record leaves of an uncorrectable beat (R194). -/
def State.sawGranule (s : State) (job : BitVec 16) (b : Bucket) (i : Bool) (g : Nat) : State := s.looked job ((pget b.granules i).toNat + 16 * g) 16

/-- Write a granule record. -/
def State.setGranule (s : State) (job : BitVec 16) (b : Bucket) (i : Bool) (g : Nat) (w : Nat × Nat) : State :=
  s.poke job ((pget b.granules i).toNat + 16 * g) (leBytes 8 w.1 ++ leBytes 8 w.2)

/-- COUNT of a granule record's second word (Table 12-3). -/
def gCount (w : Nat) : Nat := fld w 0 14
/-- NONFINITE. -/
def gNonfinite (w : Nat) : Bool := flag w 14
/-- OPEN. -/
def gOpen (w : Nat) : Nat := fld w 15 15
/-- TORN. -/
def gTorn (w : Nat) : Bool := flag w 30

/-- The second word of a granule record. -/
def gWord (count : Nat) (nonfinite : Bool) (opened : Nat) (torn : Bool) : Nat :=
  count % 2 ^ 14 + bit nonfinite * 2 ^ 14 + opened % 2 ^ 15 * 2 ^ 15 + bit torn * 2 ^ 30

/-! ### Closing (R304, R306, R307, R310) -/

/-- How a bucket closes. -/
inductive Closing where
  /-- Every granule is full. -/
  | full
  /-- Its deadline has passed. -/
  | deadline
  /-- STEP_CLOSE_LIMIT has passed. -/
  | limit
  /-- CHECK_GRACE after its main bucket. -/
  | grace
  deriving DecidableEq, Repr

/-- One granule at the close: TORN where OPEN is non-zero; counts; whether it sets GRAD_NONFINITE. -/
def State.closeGranule (s : State) (job : BitVec 16) (b : Bucket) (i : Bool) (g : Nat) : Bool × State :=
  let w := s.granule job b i g
  let s := s.sawGranule job b i g
  let torn := decide (0 < gOpen w.2)
  let s1 := if torn then (s.setGranule job b i g (w.1, gWord (gCount w.2) (gNonfinite w.2) (gOpen w.2) true)).bump 0x5050 1 else s
  let s2 := if w.1 = 0 then s1.bump 0x5058 1 else s1
  (gNonfinite w.2 && !torn && w.1 != 0, s2)

/-- Granules g, g + 1, … at the close. -/
def State.closeGranules (s : State) (job : BitVec 16) (b : Bucket) (i : Bool) (g : Nat) : Nat → Bool × State
  | 0 => (false, s)
  | n + 1 =>
    let r := s.closeGranule job b i g
    let q := r.2.closeGranules job b i (g + 1) n
    (r.1 || q.1, q.2)

/-- The duration after which an open bucket closes, in us (R305, R306): DEADLINE_US, or max(DEADLINE_FLOOR, 1.25 F + 4 V) with
each operation rounded in FP32 (log 96). -/
def State.deadline (s : State) (b : Bucket) : Rat :=
  if b.deadlineUs ≠ 0 then b.deadlineUs
  else
    let a := FF.fp32.add (FF.fp32.mul (f32 b.f.toNat) (.fin false 5 (-2))) (FF.fp32.mul (f32 b.v.toNat) (.fin false 1 2))
    let low := FV.ofInt (s.cfg.deadlineFloor * 100)
    (if a.lt low then low else a).toRat

/-- Has the deadline of a set of a bucket passed, measured from its OPEN (R305)? -/
def State.pastDeadline (s : State) (b : Bucket) (i : Bool) : Bool :=
  pget b.st i == 1 && decide (s.deadline b * 1000 ≤ ((s.now - pget b.openedAt i : Nat) : Rat))

/-- A duration of ns in microseconds, FP32. -/
def usOf (ns : Nat) : Nat := toF32 (FF.fp32.ofRat ((ns : Rat) / 1000))

/-- The estimates after a close (R306), each operation rounded in FP32. -/
def estimates (how : Closing) (f v ns : Nat) : Nat × Nat :=
  let F := f32 f
  let V := f32 v
  let eighth (x : FV) : FV := FF.fp32.mul x (.fin false 1 (-3))
  match how with
  | .full =>
    let d := f32 (usOf ns)
    let e := FF.fp32.add d F.neg
    (toF32 (FF.fp32.add F (eighth e)), toF32 (FF.fp32.add V (eighth (FF.fp32.add e.abs V.neg))))
  | .deadline => (toF32 (FF.fp32.mul F (.fin false 9 (-3))), v)
  | _ => (f, v)

/-- Close a set of a bucket (R304). -/
def State.closeBucket (s : State) (job : BitVec 16) (b : Bucket) (i : Bool) (how : Closing) : State :=
  if pget b.st i = 2 then s
  else
    let r := s.closeGranules job b i 0 b.granuleCount
    let e := if b.deadlineUs = 0 then estimates how b.f.toNat b.v.toNat (s.now - pget b.openedAt i) else (b.f.toNat, b.v.toNat)
    let s1 := r.2.updBucket job b.id fun b =>
      { b with st := pset b.st i 2, full := pset b.full i (how == .full), f := BitVec.ofNat 32 e.1, v := BitVec.ofNat 32 e.2,
               closedAt := pset b.closedAt i s.now, added := b.added.filter (·.set != i) }
    let s2 := if r.1 && b.checkOf.isNone then s1.updJob job fun j => { j with gradFlag := pset j.gradFlag i true } else s1
    match how with
    | .full => s2.bump 0x5030 1
    | .deadline => s2.bump 0x5038 1
    | .limit => s2.bump 0x5038 1
    | .grace => s2

/-- Has every granule of a set COUNT = EXPECTED? -/
def State.bucketFull (s : State) (job : BitVec 16) (expected : Nat) (b : Bucket) (i : Bool) : Bool :=
  (List.range b.granuleCount).all fun g => gCount (s.granule job b i g).2 == expected

/-! ### Contributions (R301 to R303) -/

/-- Element size of an ACCUMULATE frame. -/
def accSize (f : Frame) : Nat := if f.variant.toNat % 2 = 1 then 2 else 4

/-- The sent elements widened to FP32 (R211). -/
def accElems (f : Frame) : List Nat :=
  (chunks (accSize f) f.payload.length f.payload).map fun c => if accSize f = 2 then leNat c * 65536 else leNat c

/-- Bytes of sums that a frame reaches. -/
def accBytes (f : Frame) : Nat := 4 * (f.payload.length / accSize f)

/-- Offset of a transfer's first sum within the region, where it lies in the region. -/
def contribStart (b : Bucket) (i : Bool) (f : Frame) : Option Nat :=
  let o := fld f.addr.toNat 0 42 - b.base i
  let back := f.offset.toNat * 4 / accSize f
  if b.base i ≤ fld f.addr.toNat 0 42 ∧ back ≤ o then some (o - back) else none

/-- Does what the frame shows of its transfer keep R301: whole granules of one bucket, at most two? -/
def contribOk (b : Bucket) (i : Bool) (f : Frame) : Bool :=
  match contribStart b i f with
  | none => false
  | some st =>
    let stop := fld f.addr.toNat 0 42 - b.base i + accBytes f
    st % 4096 == 0 && decide (stop ≤ b.bytes) && decide (cdiv (stop - st) 4096 ≤ 2) && decide (0 < accBytes f) &&
      (!f.last || stop % 4096 == 0 || stop == b.bytes)

/-- Granules that a frame shows its transfer to cover: the first, how many, and how many up to the frame's own end. -/
def contribGranules (b : Bucket) (i : Bool) (f : Frame) : Nat × Nat × Nat :=
  match contribStart b i f with
  | none => (0, 0, 0)
  | some st =>
    let stop := fld f.addr.toNat 0 42 - b.base i + accBytes f
    (st / 4096, cdiv (stop - st + bit (!f.last)) 4096, cdiv (stop - st) 4096)

/-- Pair and role of the sender of a frame in BACKUP mode (R297). -/
def JobCtx.roleOf (j : JobCtx) (g : GradBlock) (f : Frame) : Option (Nat × Bool) :=
  let dev := match j.remap.find? (·.2 == f.src.toNat) with | some x => x.1 | none => f.src.toNat
  if g.backup then g.pairs[dev]? else none

/-- Is the frame the losing copy of R304? -/
def Bucket.loses (b : Bucket) (i : Bool) (r : Option (Nat × Bool)) : Bool :=
  match r with
  | none => false
  | some (p, backup) => b.claims.any fun c => c.1 == i && c.2.1 == p && c.2.2 != backup

/-- Is the frame discarded under the first point of R303? -/
def JobCtx.discards (j : JobCtx) (g : GradBlock) (b : Bucket) (i : Bool) (f : Frame) : Bool :=
  f.xfer.toNat / 2 ^ 22 != pget b.steps i % 4 || pget b.st i == 2 || b.loses i (j.roleOf g f)

/-- The pair that the first transfer of a member claims in a set (R304). -/
def Bucket.claimOf (b : Bucket) (i : Bool) (r : Option (Nat × Bool)) : Option (Nat × Bool) :=
  r.filter fun q => !b.claims.any fun c => c.1 == i && c.2.1 == q.1

/-- An idle bucket opens; a pair's first transfer claims it (R303, R304). -/
def State.openBucket (s : State) (job : BitVec 16) (b : Bucket) (i : Bool) (r : Option (Nat × Bool)) : State :=
  let s1 := if pget b.st i = 0 then s.updBucket job b.id fun b => { b with st := pset b.st i 1, openedAt := pset b.openedAt i s.now } else s
  match b.claimOf i r with
  | none => s1
  | some (p, backup) =>
    let s2 := s1.updBucket job b.id fun b => { b with claims := b.claims ++ [(i, p, backup)] }
    if backup then s2.bump 0x5048 1 else s2

/-- Change the second word of granule records. -/
def State.mapGranules (s : State) (job : BitVec 16) (b : Bucket) (i : Bool) (f : Nat → Nat → Nat) : List Nat → State
  | [] => s
  | g :: gs => let w := s.granule job b i g; ((s.sawGranule job b i g).setGranule job b i g (w.1, f g w.2)).mapGranules job b i f gs

/-- OPEN of a record's second word, one higher. -/
def openUp (w : Nat) : Nat := gWord (gCount w) (gNonfinite w) (gOpen w + 1) (gTorn w)

/-- OPEN one lower. -/
def openDown (w : Nat) : Nat := gWord (gCount w) (gNonfinite w) (gOpen w - 1) (gTorn w)

/-- n granules from one on. -/
def granulesFrom (g n : Nat) : List Nat := (List.range n).map (g + ·)

/-- Is a begun transfer the one of a frame, in a set? -/
def beganKey (i : Bool) (f : Frame) (x : OpenContrib) : Bool :=
  x.set == i && x.src == f.src.toNat && x.vesper == f.vesper && x.xfer == f.xfer.toNat

/-- Is an added frame one of a frame's transfer? -/
def addedKey (i : Bool) (f : Frame) (x : AddedFrame) : Bool :=
  x.set == i && x.src == f.src.toNat && x.vesper == f.vesper && x.xfer == f.xfer.toNat

/-- Granules that the transfer of its first frame covers: what the frame shows, and where that leaves a second one open, what its
sender has fixed (log 125). -/
def coveredBy (b : Bucket) (i : Bool) (f : Frame) : Nat :=
  let c := contribGranules b i f
  if f.last then c.2.1 else max c.2.1 (min (min 2 f.covers) (b.granuleCount - c.1))

/-- The first frame of a transfer raises OPEN in each granule that the transfer covers (R303); a later frame that reaches a granule
that none has announced raises it there. -/
def State.beginContrib (s : State) (job : BitVec 16) (b : Bucket) (i : Bool) (f : Frame) : State :=
  let c := contribGranules b i f
  match b.begun.find? (beganKey i f) with
  | none =>
    let n := coveredBy b i f
    (s.updBucket job b.id fun b =>
      { b with begun := b.begun ++ [⟨i, f.src.toNat, f.vesper, f.xfer.toNat, c.1, n, c.2.2⟩] }).mapGranules job b i (fun _ => openUp) (granulesFrom c.1 n)
  | some x =>
    (s.updBucket job b.id fun b => { b with begun := updFirst (beganKey i f) (fun x =>
      { x with raised := max x.raised c.2.1, covered := max x.covered c.2.2 }) b.begun }).mapGranules
        job b i (fun _ => openUp) (granulesFrom (x.first + x.raised) (c.2.1 - x.raised))

/-- Is an FP32 pattern an infinity or a NaN? -/
def notFinite (x : Nat) : Bool := fld x 23 8 == 255

/-- Mark the granules whose sums among `n` from element `e` on are not finite. -/
def State.markNonfinite (s : State) (job : BitVec 16) (b : Bucket) (i : Bool) (e : Nat) : List Nat → State
  | [] => s
  | x :: xs =>
    (if notFinite x then
      let g := e / 1024
      let w := s.granule job b i g
      (s.sawGranule job b i g).setGranule job b i g (w.1, gWord (gCount w.2) true (gOpen w.2) (gTorn w.2))
     else s).markNonfinite job b i (e + 1) xs

/-- Credit a transfer in granules (R303): COUNT and WEIGHT rise. -/
def State.creditGranules (s : State) (job : BitVec 16) (b : Bucket) (i : Bool) (weight : Nat) : List Nat → State
  | [] => s
  | g :: gs =>
    let w := s.granule job b i g
    let sum := FF.fp64.enc ((FF.fp64.dec w.1).add (f32 weight))
    ((s.sawGranule job b i g).setGranule job b i g (sum, gWord (gCount w.2 + 1) (gNonfinite w.2) (gOpen w.2) (gTorn w.2))).creditGranules job b i weight gs

/-- A transfer is no longer one that is begun and not credited; with none left in its set, no frame can be undone. -/
def Bucket.settled (b : Bucket) (i : Bool) (f : Frame) : Bucket :=
  let rest := eraseFirst (beganKey i f) b.begun
  { b with begun := rest, added := if rest.any (·.set == i) then b.added else b.added.filter (·.set != i) }

/-- The transfer of a frame is credited in its bucket: COUNT and WEIGHT rise in the granules it covers, OPEN falls where it was
raised (R303), and the bucket closes on full count. -/
def State.credit (s : State) (job : BitVec 16) (id : Nat) (i : Bool) (f : Frame) : State :=
  match s.job? job with
  | none => s
  | some j =>
    match j.bucket? id, j.grad with
    | some b, some g =>
      (match b.begun.find? (beganKey i f) with
       | none => s
       | some x =>
         if pget b.st i ≠ 1 then s
         else
           let s1 := ((s.updBucket job id fun b => b.settled i f).creditGranules
             job b i f.aux.toNat (granulesFrom x.first x.covered)).mapGranules job b i (fun _ => openDown) (granulesFrom x.first x.raised)
           if s1.bucketFull job g.expected b i then
             (match (s1.job? job).bind fun j => j.bucket? id with | some b => s1.closeBucket job b i .full | none => s1)
           else s1)
    | _, _ => s

/-! ### A transfer that breaks R301 changes nothing -/

/-- Add the elements of a frame again, noting the sums that it finds. -/
def State.addAgain (s : State) (job : BitVec 16) (b : Bucket) (x : AddedFrame) : AddedFrame × State :=
  let a := b.base x.set + x.off
  let old := s.peek job a (4 * x.elems.length)
  let new := ((chunks 4 old.length old).zip x.elems).flatMap fun c => leBytes 4 (addF32 (leNat c.1) c.2)
  ({ x with before := old }, (s.looked job a (4 * x.elems.length)).poke job a new)

/-- The same for several frames, in order. -/
def State.addAllAgain (s : State) (job : BitVec 16) (b : Bucket) : List AddedFrame → List AddedFrame × State
  | [] => ([], s)
  | x :: xs =>
    let r := s.addAgain job b x
    let q := r.2.addAllAgain job b xs
    (r.1 :: q.1, q.2)

/-- Does a granule hold a sum that is not finite? Such a sum never becomes finite again, so that this is NONFINITE. -/
def State.unfinite (s : State) (job : BitVec 16) (b : Bucket) (i : Bool) (g : Nat) : Bool :=
  let bs := s.peek job (b.base i + 4096 * g) (min 4096 (b.bytes - 4096 * g))
  (chunks 4 bs.length bs).any fun c => notFinite (leNat c)

/-- The claims that fall with a transfer that is taken out: pair, backup. -/
def Bucket.lostClaims (b : Bucket) (i : Bool) (f : Frame) (rest : List AddedFrame) : List (Nat × Bool) :=
  ((b.added.filter (addedKey i f)).filterMap (·.claim)).filter fun _ => !rest.any (·.src == f.src.toNat)

/-- The bucket as it stands when a transfer is taken out of it: the set is OPEN since the first frame that is left, and a claim
stays only where a frame of the member that made it is left. -/
def Bucket.without (b : Bucket) (i : Bool) (f : Frame) (rest : List AddedFrame) : Bucket :=
  let mine := b.added.filter (addedKey i f)
  let b1 := b.settled i f
  let lost := b.lostClaims i f rest
  let b2 := { b1 with claims := b1.claims.filter fun c => !(c.1 == i && lost.contains (c.2.1, c.2.2)),
                      added := b1.added.filter (·.set != i) ++ (if b1.begun.any (·.set == i) then rest else []) }
  if !mine.any (·.opener) then b2
  else
    match rest with
    | [] => { b2 with st := pset b2.st i 0 }
    | x :: _ => { b2 with openedAt := pset b2.openedAt i x.at' }

/-- A transfer that is found to break R301 is taken out again: every frame since its first is undone, the others' are added
anew, and its OPEN and the BACKUP_CLAIMS that it raised fall. -/
def State.takeOut (s : State) (job : BitVec 16) (b : Bucket) (i : Bool) (f : Frame) : State :=
  match b.begun.find? (beganKey i f) with
  | none => s
  | some x =>
    let trail := b.added.filter (·.set == i)
    let s1 := trail.reverse.foldl (fun (s : State) a => s.poke job (b.base i + a.off) a.before) s
    let r := s1.addAllAgain job b (trail.filter fun a => !addedKey i f a)
    let s2 := r.2.mapGranules job b i (fun g w =>
      let w := openDown w
      gWord (gCount w) (r.2.unfinite job b i g) (gOpen w) (gTorn w)) (granulesFrom x.first x.raised)
    let won := countIf (·.2) (b.lostClaims i f r.1)
    (s2.setWord 0x5048 (s2.word 0x5048 - BitVec.ofNat 64 won)).updBucket job b.id fun b => b.without i f r.1

end Sys2Proof.Machine
end

