-- ==== Sys2Proof/Machine/Secure.lean ====
section
/-!
DEFINITION. Chrysalis: step records, the copies and reads of the securing engine, preparation and promotion (R322 to R332).
-/
namespace Sys2Proof.Machine

/-! ### The job's devices -/

/-- The device numbers of a job: 0 to JOB_DEVICES - 1, or this device alone (log 32). -/
def State.jobDevices (s : State) (j : JobCtx) : List Nat := if j.devices = 1 then [s.deviceOf j] else List.range j.devices

/-- The value that the sequencer has noted of a count; 0 before it notes any (R299, R308). -/
def JobCtx.seenAt (j : JobCtx) (i : Nat) : BitVec 32 := Sp.get 0#32 j.seen i

/-- How far a count has risen since the sequencer noted it. -/
def JobCtx.rise (j : JobCtx) (i : Nat) : Nat := (Sp.get 0#32 j.counts i - j.seenAt i).toNat

/-- The sequencer notes the present values of counts. -/
def State.note (s : State) (job : BitVec 16) (is : List Nat) : State :=
  s.updJob job fun j => { j with seen := is.foldl (fun m i => Sp.put 0#32 m i (Sp.get 0#32 j.counts i)) j.seen }

/-- The class of the job's transfers: that of the training package whose blocks are in force (R328), and that of the package
itself, which is Noon, in a restore (R386). -/
def State.jobVesper (s : State) (job : BitVec 16) : Bool :=
  match s.pkgs.find? fun p => p.job == job && p.kind == 3 with
  | some p => p.vesper
  | none => match s.job? job with | some j => j.vesper | none => false

/-- Update the Chrysalis state of a job. -/
def State.updChrys (s : State) (job : BitVec 16) (f : Chrys → Chrys) : State := s.updJob job fun j => { j with chrys := j.chrys.map f }

/-! ### The step record (R326, R327) -/

/-- RECORD_BYTES. -/
def Chrys.recordBytes (c : Chrys) : Nat := 64 + 32 * c.cursors + 18464 + 16 * c.shape.1 + 8 * c.shape.2

/-- R of Table 13-1. -/
def Chrys.recordStride (c : Chrys) : Nat := upTo c.recordBytes 4096

/-- Address of record slot k. -/
def Chrys.slot (c : Chrys) (k : Nat) : Nat := c.recordAddr.toNat + k * c.recordStride

/-- Offset of the stream entries. -/
def Chrys.streamsAt (c : Chrys) : Nat := 64 + 32 * c.cursors

/-- Offset of the norm entries. -/
def Chrys.normsAt (c : Chrys) : Nat := c.streamsAt + 18464

/-- Offset of the bucket estimates. -/
def Chrys.estimatesAt (c : Chrys) : Nat := c.normsAt + 16 * c.shape.1

/-- The header (Table 13-3) of step n with generation g. -/
def recordHeader (j : JobCtx) (c : Chrys) (device n g : Nat) : List Byte :=
  leBytes 8 n ++ leBytes 8 (g % 2 ^ 32 + j.id.toNat * 2 ^ 32 + device % 2 ^ 14 * 2 ^ 48 + c.level % 4 * 2 ^ 62) ++
    leBytes 8 (j.lossScale.toNat + j.clean % 65536 * 2 ^ 32 + min j.skips 1024 * 2 ^ 48 + j.lastFlags % 8 * 2 ^ 59) ++
    leBytes 8 (c.cursors + c.shape.1 * 2 ^ 6 + c.shape.2 * 2 ^ 22) ++ leBytes 32 c.recordBytes

/-- The 577 random-stream entries. -/
def State.streamEntries (s : State) (j : JobCtx) : List Byte :=
  ((List.range 576).flatMap fun t => leBytes 16 (s.tile t).streamK.toNat ++ leBytes 16 (s.tile t).streamC.toNat) ++
    leBytes 16 j.streamK.toNat ++ leBytes 16 j.streamC.toNat

/-- The bucket estimates, in table order. -/
def estimateEntries (j : JobCtx) : List Byte := j.buckets.flatMap fun b => leBytes 4 b.f.toNat ++ leBytes 4 b.v.toNat

/-- The first part of the step record of step n is written into slot n mod 2 (R327); g: its generation, or 0. -/
def State.writeRecordHead (s : State) (job : BitVec 16) (n g : Nat) : State :=
  match s.job? job with
  | none => s
  | some j =>
    match j.chrys with
    | none => s
    | some c =>
      let a := c.slot (n % 2)
      (((s.looked job c.cursorAddr.toNat (32 * c.cursors)).poke job a (recordHeader j c (s.deviceOf j) n g ++ s.peek job c.cursorAddr.toNat (32 * c.cursors) ++ s.streamEntries j)).poke
        job (a + c.estimatesAt) (estimateEntries j))

/-- GENERATION of a record that has been written: the one that secures its step after all (R326). -/
def State.writeGeneration (s : State) (job : BitVec 16) (n g : Nat) : State :=
  match (s.job? job).bind (·.chrys) with
  | none => s
  | some c => s.poke job (c.slot (n % 2) + 8) (leBytes 4 g)

/-- Copy within the module's own memory. -/
def State.copyOwn (s : State) (job : BitVec 16) (src dst n : Nat) : State := (s.looked job src n).poke job dst (s.peek job src n)

/-- Bytes of the norm entries. -/
def Chrys.normBytes (c : Chrys) : Nat := 16 * c.shape.1

/-- Under SKIP the norm entries of step n are +0 (R314, R327). -/
def State.zeroRecordNorms (s : State) (job : BitVec 16) (n : Nat) : State :=
  match (s.job? job).bind (·.chrys) with
  | some c => s.poke job (c.slot (n % 2) + c.normsAt) (List.replicate c.normBytes 0#8)
  | none => s

/-- The norm table is +0 before any accumulate of the step that runs: the device that holds it clears it (R314, log 78). -/
def State.clearNorms (s : State) (j : JobCtx) (g : GradBlock) : State :=
  if s.plays j (fld g.normAddr.toNat 42 14) then s.poke j.id g.normAddr.toNat (List.replicate (16 * g.layers) 0#8) else s

/-! ### Copies and reads -/

/-- Cut a copy into transfers of at most 0x60_0000 bytes. -/
def cutOut (c : CopyOut) : List CopyOut :=
  (List.range (cdiv c.bytes 0x600000)).map fun i =>
    { c with addr := c.addr + i * 0x600000, src := c.src + i * 0x600000, bytes := min 0x600000 (c.bytes - i * 0x600000) }

/-- Cut a read likewise. -/
def cutIn (c : CopyIn) : List CopyIn :=
  (List.range (cdiv c.bytes 0x600000)).map fun i =>
    { c with addr := c.addr + i * 0x600000, dests := c.dests.map (· + i * 0x600000), bytes := min 0x600000 (c.bytes - i * 0x600000) }

/-- Send copies while R256 lets them leave: those left, the transfers opened, and the state. -/
def State.pumpOut (s : State) (job : BitVec 16) (v : Bool) : List CopyOut → List CopyOut × List Nat × State
  | [] => ([], [], s)
  | c :: cs =>
    let ch := if v then 1 else 16
    let n := frameCount v c.bytes
    if s.holdsBack c.hall ch n then (c :: cs, [], s)
    else
      let data := if c.data.isEmpty then s.peek job c.src c.bytes else c.data
      let s := if c.data.isEmpty then s.looked job c.src c.bytes else s
      let o := s.openXfer ⟨0, none, v, job, c.hall, ch, 0, 0, 0, 0, none, 0, none, n, 0, 0, v⟩
      let sig : Option SigExt := c.sig.map fun r => ⟨BitVec.ofNat 32 r, 1, BitVec.ofNat 32 data.length⟩
      let f0 := Frame.plain 0 v ch c.hall s.hall job o.1
      let r := (o.2.sendAll (dataFrames f0 c.addr 2 sig data)).pumpOut job v cs
      (r.1, o.1 :: r.2.1, r.2.2)

/-- Send reads while R256 lets them leave. -/
def State.pumpIn (s : State) (job : BitVec 16) (v : Bool) : List CopyIn → List CopyIn × List (Nat × CopyIn) × State
  | [] => ([], [], s)
  | c :: cs =>
    let ch := if v then 1 else 16
    if s.holdsBack c.hall ch 1 then (c :: cs, [], s)
    else
      let o := s.openXfer ⟨0, none, v, job, c.hall, ch, 1, 0, c.bytes, 0, none, 0, none, 1, 0, 0, v⟩
      let f := { Frame.plain 1 v ch c.hall s.hall job o.1 with addr := BitVec.ofNat 64 c.addr, aux := BitVec.ofNat 32 c.bytes }
      let r := (o.2.sendAll [f]).pumpIn job v cs
      (r.1, (o.1, c) :: r.2.1, r.2.2)

/-- Send on of what the engine of a job has waiting. -/
def State.pump (s : State) (job : BitVec 16) : State :=
  match (s.job? job).bind (·.chrys) with
  | none => s
  | some c =>
    let v := s.jobVesper job
    let a := s.pumpOut job v c.toSend
    let b := a.2.2.pumpIn job v c.toRead
    b.2.2.updChrys job fun c => { c with toSend := a.1, waits := c.waits ++ a.2.1, toRead := b.1, folds := c.folds ++ b.2.1 }

/-- Is everything the engine sent answered? -/
def Chrys.quiet (c : Chrys) : Bool := c.toSend.isEmpty && c.toRead.isEmpty && c.waits.isEmpty && c.folds.isEmpty

/-- Bytes of a read reach their places. -/
def State.foldIn (s : State) (x : Xfer) (off : Nat) (bs : List Byte) : State :=
  match ((s.job? x.job).bind (·.chrys)).bind fun c => c.folds.find? (·.1 == x.id) with
  | none => s
  | some (_, c) => c.dests.foldl (fun (s : State) d =>
      s.poke x.job (d + off) (if c.xored then List.zipWith (· ^^^ ·) bs (s.peek x.job (d + off) bs.length) else bs)) s

/-! ### Preparation (R328, R329) -/

/-- G of the generation in preparation. -/
def Chrys.nextGen (c : Chrys) : Nat := (c.gen + 1).toNat

/-- Chunk size C of a parity tensor. -/
def Tensor.chunk (t : Tensor) : Nat := cdiv t.groupBytes (7 * 4096) * 4096

/-- Bitmap size B. -/
def Tensor.bitmap (t : Tensor) : Nat := upTo (cdiv t.chunk 32768) 16

/-- The holder of chunk c of member m. -/
def holderOf (m c : Nat) : Nat := (m + c + 1) % 8

/-- The chunk of member m that member h holds. -/
def heldChunk (h m : Nat) : Nat := (h + 16 - m - 1) % 8

/-- Address of member m's bitmap in the parity area at h. -/
def Tensor.bitmapAt (t : Tensor) (h m : Nat) : Nat := t.copy.toNat + 2 * t.chunk + (if m < h then m else m - 1) * t.bitmap

/-- An address with the device that plays it (log 33: the members of a group lay their areas out alike). -/
def atDevice (a d : Nat) : Nat := withDevice (a % 2 ^ 64) d

/-- Does a 4 KiB block of a tensor differ from its shadow (beyond BYTES: no)? -/
def State.changedBlock (s : State) (job : BitVec 16) (t : Tensor) (off : Nat) : Bool :=
  decide (off < t.bytes) && s.peek job (t.base.toNat + off) 4096 != s.peek job (t.shadow.toNat + off) 4096

/-- The 4 KiB blocks of a tensor that differ from its shadow. -/
def State.changedBlocks (s : State) (job : BitVec 16) (t : Tensor) : List Nat :=
  (List.range (t.bytes / 4096)).filter fun i => s.changedBlock job t (4096 * i)

/-- The same for each parity tensor, by TENSOR_ID. -/
def State.changedIn (s : State) (job : BitVec 16) (ts : List Tensor) : List (Nat × List Nat) :=
  (ts.filter fun t => !t.mirror).map fun t => (t.id, s.changedBlocks job t)

/-- Bits of a bitmap as bytes, bit i in bit i mod 8 of byte i div 8. -/
def bitBytes (n : Nat) (bs : List Bool) : List Byte :=
  (List.range n).map fun k => BitVec.ofNat 8 (packBits 1 ((List.range 8).map fun i => bit ((bs[8 * k + i]?).getD false)))

/-- The bitmap of chunk c of a tensor (R329). -/
def State.chunkBitmap (s : State) (job : BitVec 16) (t : Tensor) (c : Nat) : List Byte :=
  bitBytes t.bitmap ((List.range (t.chunk / 4096)).map fun i => s.changedBlock job t (c * t.chunk + i * 4096))

/-- What the device sends for one tensor. -/
def State.secureCopies (s : State) (j : JobCtx) (c : Chrys) (t : Tensor) : List CopyOut :=
  if t.mirror then
    cutOut ⟨j.hallOf t.partner, t.copy.toNat + c.nextGen % 2 * t.bytes, t.base.toNat, t.bytes, [], none⟩
  else
    (List.range 7).map fun k =>
      let h := holderOf t.member k
      let d := (t.group[h]?).getD 0
      let bits := s.chunkBitmap j.id t k
      ⟨j.hallOf d, atDevice (t.bitmapAt h t.member) d, 0, bits.length, bits, some (c.secureCount + 5 + d * 2 ^ 12 + 2 ^ 31)⟩

/-- 4 KiB blocks that a copy of a mirrored tensor sends, and parity blocks compared. -/
def blocksOf (ts : List Tensor) (mirror : Bool) : Nat := sumNat ((ts.filter fun t => t.mirror == mirror).map fun t => t.bytes / 4096)

/-- The copies of a generation: mirrored tensors, bitmaps, and the step record (R328). -/
def State.allCopies (s : State) (j : JobCtx) (c : Chrys) (n : Nat) : List CopyOut :=
  c.tensors.flatMap (s.secureCopies j c) ++
    cutOut ⟨j.hallOf c.recordPartner, c.recordCopy.toNat + c.nextGen % 2 * c.recordStride, c.slot (n % 2), c.recordBytes, [], none⟩

/-- Has the device no XOR left to do as holder? -/
def Chrys.foldsDone (c : Chrys) : Bool := c.folded || c.tensors.all (·.mirror)

/-- A device that is prepared reports itself once to VERDICT_DEVICE (R329, R332). -/
def State.reportPrepared (s : State) (job : BitVec 16) : State :=
  match s.job? job with
  | none => s
  | some j =>
    match j.chrys, j.grad with
    | some c, some g =>
      if c.preparing.isSome && !c.prepared && c.quiet && c.foldsDone && !c.missed then
        (s.updChrys job fun c => { c with prepared := true }).signalTo job g.verdictDevice (c.secureCount + 3) 1
      else s
    | _, _ => s

/-- Does a transfer of the engine that ends with a code leave the generation unfinished: a copy that timed out was never
answered, and a block that was not read was not folded (R329)? -/
def Chrys.misses (c : Chrys) (id code : Nat) : Bool := code != 0 && (code == 0x2202 || c.folds.any (·.1 == id))

/-- A transfer of the engine ends: answered, or with a code. -/
def State.engineDone (s : State) (x : Xfer) (code : Nat) : State :=
  ((s.updChrys x.job fun c =>
    { c with missed := c.missed || c.misses x.id code, waits := c.waits.filter (· != x.id), folds := c.folds.filter (·.1 != x.id) }).pump
      x.job).reportPrepared x.job

/-- Is the transfer one of the engine's? -/
def State.engineOwns (s : State) (x : Xfer) : Bool :=
  x.tile.isNone && (match (s.job? x.job).bind (·.chrys) with
    | some c => c.waits.contains x.id || c.folds.any (·.1 == x.id)
    | none => false)

/-! ### Promotion (R332) -/

/-- The blocks of a list are copied from a tensor into its shadow. -/
def State.copyBlocks (s : State) (job : BitVec 16) (t : Tensor) : List Nat → State
  | [] => s
  | i :: is => (s.copyOwn job (t.base.toNat + 4096 * i) (t.shadow.toNat + 4096 * i) 4096).copyBlocks job t is

/-- The shadows take the live tensors: all of a mirrored one, and of a parity one the blocks set in the bitmaps it sent. -/
def State.promoteTensors (s : State) (job : BitVec 16) (changed : List (Nat × List Nat)) : List Tensor → State
  | [] => s
  | t :: ts =>
    (if t.mirror then s.copyOwn job t.base.toNat t.shadow.toNat t.bytes
     else s.copyBlocks job t (match changed.find? (·.1 == t.id) with | some x => x.2 | none => [])).promoteTensors job changed ts

/-- The generation in preparation is promoted. -/
def State.promote (s : State) (job : BitVec 16) : State :=
  match (s.job? job).bind (·.chrys) with
  | none => s
  | some c =>
    match c.preparing with
    | none => s
    | some n =>
      let s1 := (s.promoteTensors job c.changed c.tensors).copyOwn job (c.slot (n % 2)) (c.slot 2) c.recordBytes
      (s1.updChrys job fun c => { c with committed := n, gen := c.gen + 1, preparing := none, folded := false, prepared := false,
                                         changed := [], due := false }).bump 0x6020 1

/-- The interval of a level (R331). -/
def State.interval (s : State) (c : Chrys) : Nat :=
  min (if c.level = 0 then s.cfg.dayInterval else if c.level = 1 then s.cfg.duskInterval else s.cfg.nightInterval) c.ceiling

/-- A generation is due at step n (R331); one that is due waits to begin. -/
def State.markDue (s : State) (job : BitVec 16) (n : Nat) : State :=
  match (s.job? job).bind (·.chrys) with
  | none => s
  | some c =>
    if c.preparing.isNone && c.pendingStep.isNone && (c.due || decide (c.committed + s.interval c ≤ n)) then
      s.updChrys job fun c => { c with pendingStep := some n }
    else s

/-! ### Restore (R339) -/

/-- The lost devices of a restore block. -/
def Restore.isLost (r : Restore) (d : Nat) : Bool := r.lost.any (·.1 == d)

/-- A surviving device PUTs its report at COORDINATOR with a riding signal to SECURE_COUNT. -/
def State.report (s : State) (p : Pkg) : State :=
  match p.restore, s.job? p.job with
  | some r, some j =>
    (match j.chrys with
     | none => s
     | some c =>
       let d := s.deviceOf j
       if r.isLost d then s
       else
         let co := r.coordinator
         let words := leBytes 8 c.committed ++ leBytes 8 (c.gen.toNat + bit (c.preparing.isSome && c.prepared) * 2 ^ 32)
         let out : CopyOut := ⟨j.hallOf co, atDevice (r.report.toNat + 16 * d) co, 0, 16, words, some (c.secureCount + co * 2 ^ 12 + 2 ^ 31)⟩
         (s.updChrys p.job fun c => { c with toSend := c.toSend ++ [out] }).pump p.job)
  | _, _ => s

end Sys2Proof.Machine
end

