-- ==== Sys2Proof/Machine/Ports.lean ====
section
/-!
DEFINITION. A fabric port below its frames' operations: violations, the frame on the wire, LINK_CTRL frames, port states,
the answer to a frame that fails, links that go down, quarantine (R238, R242, R247, R257 to R259, R267 to R269, R411 to R413,
R453, R454).
-/
namespace Sys2Proof.Machine

/-! ### Violations (R267, R268) -/

/-- A violation's record (R268). -/
def violationWords (p code : Nat) (f : Frame) : W64 × W64 :=
  (BitVec.ofNat 64 (code + p * 2 ^ 16 + f.op.toNat * 2 ^ 22 + f.src.toNat * 2 ^ 26 + f.job.toNat * 2 ^ 40), f.addr)

/-- Timers of the last second. -/
def lastSecond (now : Nat) (ts : List Nat) : List Nat := ts.filter fun t => decide (now < t + 1000000000)

/-- Count a violation on its port, and record it where Table 10-8 says so. Quarantine is the port's own matter. -/
def State.violation (s : State) (p code : Nat) (f : Frame) (rec' : Bool) : State :=
  let x := s.port p
  let s1 := (s.setPort p { x with viol := lastSecond s.now x.viol ++ [s.now] }).bump (0x2130 + 0x40 * p) 1
  if rec' then (s1.record 0x2C00 16 (violationWords p code f)).logEvent code (some f.job) (violationWords p code f)
  else s1.logEvent code (some f.job) (0, 0)

/-! ### Peers and states (R238, R258) -/

/-- The hall number of the module at the other end of a fabric port. -/
def State.peerOf (s : State) (p : Nat) : Nat :=
  withCoord s.hall (p / 10) ((coordOf s.hall (p / 10) + p % 10 + 1) % 11)

/-- The port that a port's cable reaches. -/
def peerPortOf (p : Nat) : Nat := p / 10 * 10 + (9 - p % 10)

/-- Is a port unused: its peer's coordinate lies at or above DIM_SIZE? -/
def State.unusedPort (s : State) (p : Nat) : Bool := decide (s.dimSize (p / 10) ≤ coordOf (s.peerOf p) (p / 10))

/-- Do frames pass on the link: UP, or its peer identified in an attempt or in the 10 s of R260? -/
def Port.linked (x : Port) : Bool := x.st == 2 || (x.st == 1 && x.identified && x.phy)

/-- Is the link one that goes down where it fails: UP, or back after a down event and in its 10 s (R258, R260)? In an attempt it is
down already. -/
def Port.carried (x : Port) : Bool := x.st == 2 || (x.st == 1 && x.restoreAt.isSome)

/-- The states of the ten ports of a dimension. -/
def State.dimStates (s : State) (k : Nat) : List Nat := (List.range 10).map fun i => (s.port (10 * k + i)).st

/-! ### The frame on the wire (R242, R244, R413) -/

/-- A MAC address of the fabric: 02-D7, the hall number, the port number, 00. -/
def macOf (hall port : Nat) : BitVec 48 := BitVec.ofNat 48 (0x02D7 * 2 ^ 32 + hall % 2 ^ 16 * 2 ^ 16 + port % 2 ^ 8 * 2 ^ 8)

/-- Bytes 0 to 21 of a frame that leaves on a port: SC and ES are 0, and the frame is encrypted (Table 16-8). SL is the
length of what MACsec secures where that is below 48 bytes, and otherwise 0 (PRESUMED of IEEE 802.1AE, log 122). -/
def State.headers (s : State) (p : Nat) (f : Frame) : EthHdr :=
  let x := s.port p
  let n := f.wireBytes - 40
  { dst := macOf (s.peerOf p) (peerPortOf p), src := macOf s.hall p, tagType := 0x88E5, tci := 3, an := x.an,
    sl := if n < 48 then BitVec.ofNat 8 n else 0, pn := BitVec.ofNat 32 x.pn, inner := 0x88B5 }

/-- The 22 bytes, standard headers in their own byte order. -/
def wireHdr (h : EthHdr) : List Byte :=
  beBytes 6 h.dst.toNat ++ beBytes 6 h.src.toNat ++ beBytes 2 h.tagType.toNat ++ [BitVec.ofNat 8 (h.tci.toNat * 4 + h.an.toNat), h.sl] ++
    beBytes 4 h.pn.toNat ++ beBytes 2 h.inner.toNat

/-- Header, signal extension and payload (Tables 10-3, 10-4). -/
def wireFrame (f : Frame) : List Byte :=
  leBytes 8 (f.op.toNat + bit f.vesper * 2 ^ 4 + f.channel.toNat * 2 ^ 5 + bit f.sig.isSome * 2 ^ 10 + bit f.last * 2 ^ 11 +
      bit f.nonmin * 2 ^ 12 + f.hops.toNat * 2 ^ 13 + f.dst.toNat * 2 ^ 16 + f.src.toNat * 2 ^ 30 + f.job.toNat * 2 ^ 44 +
      bit f.seqReset * 2 ^ 60 + bit f.detour * 2 ^ 61) ++
    leBytes 8 f.addr.toNat ++
    leBytes 8 (f.xfer.toNat + f.length.toNat * 2 ^ 24 + f.variant.toNat * 2 ^ 37 + f.chanSeq.toNat * 2 ^ 46) ++
    leBytes 8 (f.offset.toNat + f.aux.toNat * 2 ^ 32) ++
    leBytes 8 (f.linkSeq.toNat + f.ackVesper.toNat * 2 ^ 16 + f.ackNoon.toNat * 2 ^ 32 + bit f.ackValid * 2 ^ 48) ++
    (match f.sig with | some g => leBytes 8 (g.countRef.toNat + g.increment.toNat * 2 ^ 32) ++ leBytes 8 g.bytes.toNat | none => []) ++
    f.payload

/-- The AES key of a SAK, and its XPN salt (R411). -/
def sakKey (k : BitVec 352) : BitVec 256 := k.truncate 256
@[inherit_doc sakKey] def sakSalt (k : BitVec 352) : List Byte := leBytes 12 (k.toNat / 2 ^ 256)

/-- The nonce of GCM-AES-XPN: SSCI and PN, each under its part of the salt (R412, R413; PRESUMED of IEEE 802.1AE, log 122). -/
def xpnNonce (k : BitVec 352) (ssci pn : Nat) : List Byte :=
  List.zipWith (fun (a b : Byte) => a ^^^ b) (sakSalt k) (beBytes 4 ssci ++ beBytes 8 pn)

/-- SSCI of the end of a port's link that sends: 1 at the lower hall number, 2 at the higher (R412). -/
def State.ssci (s : State) (p : Nat) (own : Bool) : Nat := if own == decide (s.hall < s.peerOf p) then 1 else 2

/-- A frame from byte 20 on, sealed: ciphertext and ICV (R242, R413). -/
def sealFrame (k : BitVec 352) (ssci pn : Nat) (h : EthHdr) (f : Frame) : List Byte :=
  gcmSeal (sakKey k) (xpnNonce k ssci pn) ((wireHdr h).take 20) ((wireHdr h).drop 20 ++ wireFrame f)

/-- All bytes of a frame before its FCS. -/
def wireBytes (k : BitVec 352) (ssci pn : Nat) (h : EthHdr) (f : Frame) : List Byte := (wireHdr h).take 20 ++ sealFrame k ssci pn h f

/-- The FCS of some bytes: their CRC-32 (Table 10-2). -/
def fcsOf (bs : List Byte) : BitVec 32 := BitVec.ofNat 32 (crc32 bs)

/-- An invalid FCS: any other value (R453). -/
def spoilFcs (v : BitVec 32) (free : BitVec 512) : BitVec 32 := v + BitVec.ofNat 32 (1 + free.toNat % (2 ^ 32 - 1))

/-- Is it the last frame of a request of this module that leaves for the first time? -/
def State.leaves (s : State) (f : Frame) (x : Xfer) : Bool :=
  !f.ackValid && isRequest f.op.toNat && f.src.toNat == s.hall && x.id == f.xfer.toNat && x.job == f.job

/-- A frame leaves for the first time: the time in which its transfer's reply is to come runs from its last frame's leaving (R250). -/
def State.left (s : State) (f : Frame) : State :=
  { s with xfers := s.xfers.map fun x => if s.leaves f x then { x with sentAt := s.now } else x }

/-- A frame leaves: PN, counters, the old receive SA's 1 ms (R412), the share (R262); its bytes pass through the transmit
crossing. `ok`: its FCS is valid (R453). -/
def State.sent (s : State) (p : Nat) (ok : Bool) (f : Frame) : State :=
  let x := s.port p
  let w := s.now / 10000
  let used := if x.share.1 = w then x.share.2 else 0
  let y := { x with pn := x.pn + 1, lastV := f.vesper, ackOwed := false,
                    share := (w, used + (if f.vesper then f.wireBytes else 0)),
                    oldUntil := if x.pn = 1 ∧ x.oldUntil = some 0 then some (s.now + 1000000) else x.oldUntil }
  let h := s.headers p f
  let bs := wireBytes x.key (s.ssci p true) x.pn h f
  let s1 := (((s.setPort p y).across (portTx p) bs).bump (0x2108 + 0x40 * p) f.wireBytes).bump (0x2118 + 0x40 * p) 1
  if ok then s1.emit (.frame p h f x.pn true (bs ++ leBytes 4 (fcsOf bs).toNat))
  else s1.drawn.emit (.frame p h f x.pn false (bs ++ leBytes 4 (spoilFcs (fcsOf bs) s1.free).toNat))

/-- Would the next PN reach 2^64 - 1 (R413)? -/
def Port.spent (x : Port) : Bool := decide (2 ^ 64 - 1 ≤ x.pn)

/-- Is there replay space for a frame: 256 KiB, of which 48 KiB is held for Vesper (R257)? -/
def Port.hasReplay (x : Port) (f : Frame) : Bool :=
  let size (fs : List Frame) : Nat := sumNat (fs.map Frame.wireBytes)
  let noon := size (x.replay.filter fun g => !g.vesper)
  decide (size x.replay + f.wireBytes ≤ 262144) && (f.vesper || decide (noon + f.wireBytes ≤ 262144 - 49152))

/-- The frame as it leaves for the first time: with the next LINK_SEQ of its class and the acknowledgements (R244, R257). -/
def Port.stamp (x : Port) (f : Frame) : Frame :=
  { f with linkSeq := if f.vesper then x.txV else x.txN, ackVesper := x.rxV, ackNoon := x.rxN, ackValid := true }

/-- The port once it has given a stamped frame its LINK_SEQ: the frame stays in the replay buffer (R257). -/
def Port.kept (x : Port) (now : Nat) (f : Frame) : Port :=
  { x with txV := if f.vesper then x.txV + 1 else x.txV, txN := if f.vesper then x.txN else x.txN + 1, replay := x.replay ++ [f],
           ackAt := if x.replay.isEmpty then now else x.ackAt }

/-! ### LINK_CTRL frames (R239, R254, R257, R258) -/

/-- A LINK_CTRL frame of a port. Its class is Vesper, but for a NAK of the Noon sequence; it goes one hop and takes no credit
(log 31). -/
def State.ctrlFrame (s : State) (p kind : Nat) (v : Bool) (aux : Nat) (payload : List Byte) : Frame :=
  { (Frame.plain 0xE v 0 (s.peerOf p) s.hall 0 0).withData payload with
    hops := 1, variant := BitVec.ofNat 9 kind, aux := BitVec.ofNat 32 aux }

/-- May a LINK_CTRL frame leave at once: nothing of its class is to be resent, none waits, and there is replay space? -/
def Port.ctrlReady (x : Port) (f : Frame) : Bool :=
  x.ctrlq.isEmpty && !(x.resend.any fun g => g.vesper == f.vesper) && x.hasReplay f && !x.spent

/-- Send a LINK_CTRL frame, or let it wait. Without HALL_CAK there is no key to protect it with, and no frame is sent unprotected
(R411, R412). -/
def State.ctrl (s : State) (p : Nat) (f : Frame) : State :=
  let x := s.port p
  if s.sec.hallCak.isNone then s
  else if x.ctrlReady f then (s.setPort p (x.kept s.now (x.stamp f))).sent p true (x.stamp f)
  else s.setPort p { x with ctrlq := x.ctrlq ++ [f] }

/-- Send LINK_CTRL frames of one kind on several ports. -/
def State.linkCtrl (s : State) (kind aux : Nat) (payload : List Byte) : List Nat → State
  | [] => s
  | p :: ps => (s.ctrl p (s.ctrlFrame p kind true aux payload)).linkCtrl kind aux payload ps

/-- A change of a port's state: its dimension's peers hear of it (R258). Without HALL_CAK no port leaves TRAINING (R411). -/
def State.setSt (s : State) (p st : Nat) : State :=
  let x := s.port p
  if x.st = st ∨ (x.st = 1 ∧ s.sec.hallCak.isNone) then s
  else
    let s1 := s.setPort p { x with st := st }
    s1.linkCtrl 4 0 ((s1.dimStates (p / 10)).map (BitVec.ofNat 8)) ((List.range 10).map (10 * (p / 10) + ·) |>.filter fun q => (s1.port q).linked)

/-! ### Answers (R247, R267, R480) -/

/-- Answer a frame with an ERROR, logged with its catalogue kind; violations and synchronisation faults are logged where
they are recorded. -/
def State.answer (s : State) (p : Nat) (f : Frame) (code : Nat) : State :=
  let s1 := if kindOf code = 4 ∨ (0x4200 ≤ code ∧ code < 0x4400) then s else s.logEvent code (some f.job) (0, 0)
  s1.sendError p f code

/-! ### A link goes down (R258, R259, R454) -/

/-- A frame has no way: ERROR F-2201 to its source if it is a request (R259). -/
def State.unreachable (s : State) (p : Nat) (f : Frame) : State :=
  if !isRequest f.op.toNat then s
  else if f.src.toNat = s.hall then s.ownError f
  else s.answer p f 0x2201

/-- Frames bound for the link from position to position `t` of dimension k go onto the detour, in order; what is of the link
itself ends with it. -/
def State.detourAll (s : State) (p k t : Nat) : List Frame → State
  | [] => s
  | f :: fs =>
    (if f.op = 0xE then s
     else
       match s.linkTo k t with
       | some (e, d) =>
         let x := s.port e
         let g := { f with detour := d }
         s.setPort e (if f.vesper then { x with txqV := x.txqV ++ [g] } else { x with txqN := x.txqN ++ [g] })
       | none => s.unreachable p f).detourAll p k t fs

/-- A port with nothing of its link left. -/
def Port.cleared (x : Port) : Port :=
  { x with phy := false, identified := false, attempting := false, txV := 0, txN := 0, rxV := 0, rxN := 0, nakV := false,
           nakN := false, replay := [], resend := [], ctrlq := [], txqV := [], txqN := [], ackOwed := false, used := [], owed := [],
           retries := [], seqViol := [], restoreAt := none, fencing := false, fences := [], rekeyAt := none,
           installed := false, peerInstalled := false, peerOffer := none }

/-- A down event: F-2101, reported to the health monitor (R258). -/
def State.downEvent (s : State) : State := (s.logEvent 0x2101 none (0, 0)).points 25

/-- A training attempt fails: the port is DOWN, which is no down event (R258). In row 6 of the start the port trains on (R457). -/
def State.attemptFails (s : State) (p : Nat) : State :=
  let x := s.port p
  let s1 := s.setPort p { x.cleared with attempting := s.start.phase == .starting, downAt := s.now }
  (s1.resetCrossings (portCrossings p)).setSt p (if s.start.phase = .starting then 1 else 0)

/-- A host port goes down (R258): counted, F-2101, reported, and its crossings reset (R454). -/
def State.hostPortDown (s : State) (p : Nat) : State :=
  let x := s.port p
  if !x.phy then s
  else ((s.setPort p { x with phy := false, st := 0, downs := min (x.downs + 1) 8, downAt := s.now }).resetCrossings (portCrossings p)).downEvent

/-- The link of a port fails. One that is up goes down (R258): counted, logged, reported, its crossings reset (R454), and its frames go
onto the detour (R259). In a training attempt the attempt fails. -/
def State.linkLost (s : State) (p : Nat) (quarantine : Bool) : State :=
  let x := s.port p
  if !x.carried && !quarantine then s.attemptFails p
  else
  let held := x.replay.filter (·.vesper) ++ x.replay.filter (fun f => !f.vesper) ++ x.txqV ++ x.txqN
  let s1 := (s.setPort p { x.cleared with downs := min (x.downs + 1) 8, downAt := s.now, st := x.st }).resetCrossings (portCrossings p)
  let s2 := s1.downEvent.setSt p (if quarantine then 3 else 0)
  s2.detourAll p (p / 10) (coordOf (s.peerOf p) (p / 10)) held

/-- Quarantine of a port that has counted QUARANTINE_LIMIT violations within 1 s (R269). -/
def State.police (s : State) (p : Nat) : State :=
  let x := s.port p
  if p < 40 ∧ s.cfg.quarantineLimit ≤ (lastSecond s.now x.viol).length ∧ x.linked then
    (((s.setPort p { x with viol := [] }).logEvent 0x2104 none (0, 0)).points 50).linkLost p true
  else s

end Sys2Proof.Machine
end

