-- ==== Sys2Proof/Machine/Frames.lean ====
section
/-!
DEFINITION. Frames at their destination: trackers, tallies, answers, and the operations of Table 10-5 (R246 to R256, R273,
R279 to R282, R285 to R289, R303).
-/
namespace Sys2Proof.Machine

/-! ### Trackers (R256) -/

/-- What a tracker says of a frame. -/
inductive Track where
  /-- It is applied. -/
  | apply
  /-- A duplicate. -/
  | duplicate
  /-- F-2303. -/
  | ahead
  deriving DecidableEq, Repr

/-- Advance a channel-16 base over the marked frames. -/
def advanceBase : Nat → BitVec 16 → List Nat → BitVec 16 × List Nat
  | 0, b, ms => (b, ms)
  | n + 1, b, ms => if ms.contains 0 then advanceBase n (b + 1) ((ms.filter (· != 0)).map (· - 1)) else (b, ms)

/-- The tracker of a frame's source, class and channel. -/
def trackerKey (f : Frame) (t : Tracker) : Bool := t.src == f.src.toNat && t.vesper == f.vesper && t.channel == f.channel.toNat

/-- Judge a frame by a tracker. -/
def Tracker.judge (t : Tracker) (f : Frame) : Track :=
  let d := (f.chanSeq - t.expect).toNat
  if f.seqReset then .apply
  else if f.channel.toNat = 16 then
    if 2 ^ 15 ≤ d then .duplicate else if 2048 ≤ d then .ahead else if t.marks.contains d then .duplicate else .apply
  else if d = 0 then .apply else if 2 ^ 15 ≤ d then .duplicate else .ahead

/-- The tracker after the frame is applied. -/
def Tracker.after (t : Tracker) (f : Frame) : Tracker :=
  if f.seqReset then { t with expect := f.chanSeq + 1, marks := [] }
  else if f.channel.toNat = 16 then
    let r := advanceBase 2049 t.expect (t.marks ++ [(f.chanSeq - t.expect).toNat])
    { t with expect := r.1, marks := r.2 }
  else { t with expect := t.expect + 1 }

/-- A channel without a tracker yet expects CHAN_SEQ 0. -/
def Tracker.fresh (f : Frame) : Tracker := ⟨f.src.toNat, f.vesper, f.channel.toNat, 0, []⟩

/-- Judge a frame in its job context. -/
def JobCtx.judge (j : JobCtx) (f : Frame) : Track := ((j.trackers.find? (trackerKey f)).getD (Tracker.fresh f)).judge f

/-- Move the tracker past a frame. -/
def State.trackOn (s : State) (f : Frame) : State :=
  s.updJob f.job fun j =>
    if j.trackers.any (trackerKey f) then { j with trackers := updFirst (trackerKey f) (·.after f) j.trackers }
    else { j with trackers := j.trackers ++ [(Tracker.fresh f).after f] }

/-! ### Tallies (R279 to R281) -/

/-- The tally of a frame's transfer. -/
def tallyKey (f : Frame) (t : OpenTally) : Bool :=
  t.src == f.src.toNat && t.job == f.job && t.vesper == f.vesper && t.xfer == f.xfer.toNat

/-- Tallies that are open: those of answered transfers are not (R281). -/
def State.openTallies (s : State) : Nat := countIf (fun t => !t.bad) s.tallies

/-- Is there no free tally for the frame (R281)? -/
def State.noTally (s : State) (f : Frame) : Bool := !(s.tallies.any (tallyKey f)) && decide (65536 ≤ s.openTallies)

/-- The transfer of a frame is known: `bad`: as one that is answered at once, which opens no tally. -/
def State.enterTally (s : State) (f : Frame) (bad : Bool) : State :=
  if s.tallies.any (tallyKey f) then s
  else { s with tallies := s.tallies ++ [(⟨f.src.toNat, f.job, f.vesper, f.xfer.toNat, 0, none, none, bad, 0⟩ : OpenTally)] }

/-- Open a tally if the transfer has none; TALLIES_OPEN_MAX follows. -/
def State.openTally (s : State) (f : Frame) : State :=
  if s.tallies.any (tallyKey f) then s
  else
    let s1 := s.enterTally f false
    s1.setWord 0x4028 (BitVec.ofNat 64 (max ((s.word 0x4028).toNat / 2 ^ 32) s1.openTallies * 2 ^ 32))

/-- A frame's bytes enter the tally of its transfer; `bad`: the transfer is answered with an error. -/
def State.addTally (s : State) (f : Frame) (bad : Bool) : State :=
  let more (t : OpenTally) : OpenTally :=
    { t with applied := t.applied + f.length.toNat, sig := f.sig.orElse fun _ => t.sig,
             len := if f.last then some (f.offset.toNat + f.length.toNat) else t.len, bad := t.bad || bad,
             signalAt := if f.sig.isSome then s.now else t.signalAt }
  let s1 := if bad then s.enterTally f true else s.openTally f
  { s1 with tallies := updFirst (tallyKey f) more s1.tallies }

/-- Has the tally reached its transfer's length, or the BYTES of its signal? -/
def OpenTally.whole (t : OpenTally) : Bool :=
  match t.sig with
  | some g => t.applied == g.bytes.toNat
  | none => (match t.len with | some n => t.applied == n | none => false)

/-- Close the tally of a transfer. -/
def State.closeTally (s : State) (f : Frame) : State := { s with tallies := eraseFirst (tallyKey f) s.tallies }

/-- A parked increment goes with its tally once the source has raised F-2202 for its transfer: E2E_TIMEOUT after the signal
came, which is the transfer's last frame (R250, R280; this module's E2E_TIMEOUT stands for the source's, log 95). -/
def State.expireTallies (s : State) : State :=
  let past (t : OpenTally) : Bool := t.sig.isSome && decide (t.signalAt + s.cfg.e2eTimeout * 1000000 ≤ s.now)
  { s with tallies := s.tallies.filter fun t => !past t }

/-! ### Answers (R247, R279, R281) -/

/-- Has the transfer of a frame been answered with an ERROR? -/
def State.answered (s : State) (f : Frame) : Bool := s.tallies.any fun t => tallyKey f t && t.bad

/-- An answered transfer is forgotten once all of it has come. -/
def State.forget (s : State) (f : Frame) : State :=
  match s.tallies.find? (tallyKey f) with
  | some t => if t.whole then s.closeTally f else s
  | none => s

/-- A frame of a transfer fails: its ERROR is the transfer's one reply, which closes its tally, and its increment is never
applied (R247, R279, R281). An ERROR that R267 does not send leaves the tally open without the frame's bytes. -/
def State.failFrame (s : State) (p : Nat) (f : Frame) (code : Nat) : State :=
  if s.answered f then (s.addTally f true).forget f
  else if s.errorHeld p then (s.openTally f).answer p f code
  else ((s.addTally f true).answer p f code).forget f

/-- Number and send the reply frames of a request. -/
def State.replyAll (s : State) : List Frame → State
  | [] => s
  | f :: fs => (s.sendReply f).replyAll fs

/-- A frame of a transfer has been applied: its tally rises; when it is whole the increment is applied and then the reply
goes (R279, R280). -/
def State.applied (s : State) (p : Nat) (f : Frame) (reply : List Frame) : State :=
  let s1 := s.addTally f false
  match s1.tallies.find? (tallyKey f) with
  | none => s1
  | some t =>
    if t.bad then s1.forget f
    else if !t.whole then (if f.sig.isSome then s1.bump 0x4020 1 else s1)
    else
      match t.sig with
      | none => (s1.closeTally f).replyAll reply
      | some g =>
        match s1.raiseCount f.job (refIndex g.countRef.toNat) g.increment.toNat f.src.toNat with
        | (some c, s2) => if s2.errorHeld p then s2.answer p f c else (s2.closeTally f).answer p f c
        | (none, s2) => (s2.closeTally f).replyAll reply

/-! ### Taking a frame from a port's inbox -/

/-- Take a frame that waits at a port: its operation is the one of Table 10-5. -/
def State.takeFrame (s : State) (p : Nat) (op : BitVec 4) (f : Frame) : Option State :=
  let x := s.port p
  if f.op = op ∧ x.inbox.contains f then some (s.setPort p { x with inbox := eraseFirst (· == f) x.inbox }) else none

/-- The count that a frame's signal names; 0: none. -/
def Frame.countIndex (f : Frame) : Nat := match f.sig with | some g => refIndex g.countRef.toNat | none => 0

/-- VALUE of that count before the frame, and the increment that the frame brings (R295). -/
def JobCtx.signalled (j : JobCtx) (f : Frame) : Nat × Nat :=
  match f.sig with
  | some g => ((Sp.get 0#32 j.counts (refIndex g.countRef.toNat)).toNat, g.increment.toNat)
  | none => (0, 0)

/-- A request at its destination: the context, then the tracker, decide whether `act` runs (R208, R256, R281). A frame whose
context does not exist is a translation fault found here (R213); one ahead of its tracker is a violation (R267, R269); one
that finds no free tally is recorded under R295. On channels 0 to 15 the first frame of a transfer ends the memory of an
answered one that had its XFER_ID. -/
def State.request (s : State) (p : Nat) (f : Frame) (act : State → State) : State :=
  let s := s.expireTallies
  match s.job? f.job with
  | none => (s.countXlate 0x1202).failFrame p f 0x1202
  | some j =>
    match j.judge f with
    | .duplicate => s.bump 0x2010 1
    | .ahead => ((s.violation p 0x2303 f true).failFrame p f 0x2303).police p
    | .apply =>
      let s1 := if f.channel.toNat ≤ 15 && f.offset == 0 && s.answered f then s.closeTally f else s
      if s1.noTally f then (s1.syncFault 0x4103 (Frame.countIndex f) f.src.toNat f.job (j.signalled f).1 (j.signalled f).2).sendError p f 0x4103
      else act (s1.trackOn f)

/-- The command that applies a request frame. -/
def onRequest (op : BitVec 4) (p : PortId) (f : Frame) (s : State) (act : State → State) : Host.Outcome State Fault Refusal :=
  match s.takeFrame p.val op f with
  | none => .next s
  | some s1 => .next (s1.request p.val f act)

/-! ### WRITE and MULTICAST -/

/-- Write a frame's payload at its address (R207, R247). -/
def State.writeFrame (s : State) (p : Nat) (f : Frame) : State :=
  match s.writeMem f.job .remote f.vesper f.addr.toNat f.payload with
  | (some c, s1) => s1.failFrame p f c
  | (none, s1) => s1.applied p f [ackFor s1 f]

/-- WRITE (R247). -/
def execWriteFrame (p : PortId) (f : Frame) (s : State) : Host.Outcome State Fault Refusal :=
  onRequest 0 p f s fun s => s.writeFrame p.val f

/-- MULTICAST at a member (R248, R282). -/
def execMulticastFrame (p : PortId) (f : Frame) (s : State) : Host.Outcome State Fault Refusal :=
  onRequest 9 p f s fun s => s.writeFrame p.val f

/-! ### READ -/

/-- Words of the status space as a tile or another module reads them (R203, R414). -/
def State.statusBytes (s : State) (a n : Nat) : List Byte :=
  (List.range (n / 8)).flatMap fun i => leBytes 8 (s.readStatus false (fld a 0 42 + 8 * i)).toNat

/-- The bytes a READ asks for. -/
def State.readFor (s : State) (f : Frame) : Except Nat (List Byte) × State :=
  let a := f.addr.toNat
  if fld a 56 8 = 2 then
    match s.job? f.job with
    | some j => if s.plays j (fld a 42 14) then (.ok (s.statusBytes a f.aux.toNat), s) else (.error 0x1202, s.countXlate 0x1202)
    | none => (.error 0x1202, s.countXlate 0x1202)
  else s.readMem f.job .remote f.vesper a f.aux.toNat

/-- The READ_DATA frames of a reply (R246, R247). -/
def readReply (s : State) (f : Frame) (bs : List Byte) : List Frame :=
  (dataFrames (Frame.plain 2 f.vesper f.channel.toNat f.src.toNat s.hall f.job f.xfer.toNat) 0 0 none bs)

/-- READ (R247). -/
def execReadFrame (p : PortId) (f : Frame) (s : State) : Host.Outcome State Fault Refusal :=
  onRequest 1 p f s fun s =>
    match s.readFor f with
    | (.error c, s1) => s1.answer p.val f c
    | (.ok bs, s1) => s1.replyAll (readReply s1 f bs)

/-! ### ACCUMULATE (R211, R303) -/

/-- Discard a contribution: counted, and treated as applied (R303). -/
def State.dropLate (s : State) (p : Nat) (f : Frame) : State := (s.bump 0x5040 1).applied p f [ackFor s f]

/-- Add a frame's elements into the sums at its address. -/
def State.addFrame (s : State) (ps : List Place) (f : Frame) : Option Nat × State :=
  s.modifyPlaces (List.zip ps (s.sumBytes ps (accElems f)))

/-- What is noted of a frame that is added to a set (R301). -/
def State.noteAdded (s : State) (b : Bucket) (i : Bool) (r : Option (Nat × Bool)) (ps : List Place) (f : Frame) : AddedFrame :=
  ⟨i, f.src.toNat, f.vesper, f.xfer.toNat, fld f.addr.toNat 0 42 - b.base i, accElems f, ps.map s.byteAt, s.now, pget b.st i == 0, b.claimOf i r⟩

/-- A contribution to a bucket, in the order of R303. A frame that shows its transfer to break R301, and every later one of a
transfer that has been answered, changes nothing, and what the transfer had added is taken out. -/
def State.contribute (s : State) (p : Nat) (f : Frame) (j : JobCtx) (g : GradBlock) (b : Bucket) (i : Bool) (ps : List Place) : State :=
  if j.discards g b i f then s.dropLate p f
  else if s.answered f || !contribOk b i f then (s.takeOut f.job b i f).failFrame p f 0x5102
  else
    let note := s.noteAdded b i (j.roleOf g f) ps f
    let s1 := ((s.openBucket f.job b i (j.roleOf g f)).beginContrib f.job b i f).updBucket f.job b.id fun b => { b with added := b.added ++ [note] }
    match s1.addFrame ps f with
    | (some c, s2) => s2.failFrame p f c
    | (none, s2) =>
      let e := (fld f.addr.toNat 0 42 - b.base i) / 4
      let sums := (chunks 4 ps.length ps).map fun q => leNat (q.map s2.byteAt)
      let s3 := s2.markNonfinite f.job b i e sums
      let done : Bool := match (s3.addTally f false).tallies.find? (tallyKey f) with | some t => t.whole && !t.bad | none => false
      let s4 := if done then s3.credit f.job b.id i f else s3
      s4.applied p f [ackFor s4 f]

/-- An ACCUMULATE frame is applied. -/
def State.accumulateFrame (s : State) (p : Nat) (f : Frame) : State :=
  match s.places f.job .remote .accumulate f.vesper f.addr.toNat (accBytes f) with
  | .error c => (s.countXlate c).failFrame p f c
  | .ok ps =>
    match s.job? f.job with
    | none => s
    | some j =>
      match j.grad, j.region? f.addr.toNat (accBytes f) with
      | some g, some (b, i) => s.contribute p f j g b i ps
      | _, _ =>
        match s.addFrame ps f with
        | (some c, s1) => s1.failFrame p f c
        | (none, s1) => s1.applied p f [ackFor s1 f]

/-- ACCUMULATE (R303). -/
def execAccumulateFrame (p : PortId) (f : Frame) (s : State) : Host.Outcome State Fault Refusal :=
  onRequest 3 p f s fun s => s.accumulateFrame p.val f

/-! ### ATOMIC and SIGNAL -/

/-- The ATOMIC_DATA reply with the old value. -/
def atomicReply (s : State) (f : Frame) (old : Nat) : Frame :=
  (Frame.plain 5 f.vesper f.channel.toNat f.src.toNat s.hall f.job f.xfer.toNat).withData (leBytes 8 old)

/-- An ATOMIC is carried out (R212). -/
def State.atomicFrame (s : State) (p : Nat) (f : Frame) : State :=
  match s.places f.job .remote .atomic f.vesper f.addr.toNat 8 with
  | .error c => (s.countXlate c).failFrame p f c
  | .ok ps =>
    let old := leNat (ps.map s.byteAt)
    match atomicOp (fld f.variant.toNat 0 4) old (leNat (f.payload.take 8)) (leNat (f.payload.drop 8)) with
    | none => s
    | some v =>
      match s.modifyPlaces (List.zip ps (leBytes 8 v)) with
      | (some c, s1) => s1.failFrame p f c
      | (none, s1) => s1.applied p f [atomicReply s1 f old]

/-- ATOMIC (R212). -/
def execAtomicFrame (p : PortId) (f : Frame) (s : State) : Host.Outcome State Fault Refusal :=
  onRequest 4 p f s fun s => s.atomicFrame p.val f

/-- SIGNAL (R279). -/
def execSignalFrame (p : PortId) (f : Frame) (s : State) : Host.Outcome State Fault Refusal :=
  onRequest 6 p f s fun s => s.applied p.val f [ackFor s f]

/-! ### Barriers (R285 to R288) -/

/-- The group record a barrier frame carries. -/
def frameGroup (f : Frame) : W64 × W64 :=
  (BitVec.ofNat 64 (leNat (f.payload.take 8)), BitVec.ofNat 64 (leNat (f.payload.drop 8)))

/-- The device number of a frame's source in a job. -/
def JobCtx.sourceDevice (j : JobCtx) (f : Frame) : Nat :=
  match j.remap.find? (·.2 == f.src.toNat) with | some x => x.1 | none => f.src.toNat

/-- The code that a barrier frame meets, if any (R283 to R285). -/
def State.barrierFault (s : State) (j : JobCtx) (b : Barrier) (f : Frame) : Option Nat :=
  let e := BitVec.ofNat 16 (fld f.aux.toNat 0 16)
  let g := frameGroup f
  if e ≠ b.epoch ∧ e ≠ b.epoch + 1 then some 0x4305
  else if s.groupBad (s.deviceOf j) g.1.toNat g.2.toNat then some 0x4303
  else
    let held := if e = b.epoch then b.group else b.group1
    if held.isSome && held != some g then some 0x4301 else none

/-- A barrier frame is checked; one that passes reaches `act` with the slot, its state and whether it is of the next
epoch. -/
def State.barrierFrameIn (s : State) (p : Nat) (f : Frame) (act : JobCtx → Nat → Barrier → Bool → State → State) : State :=
  match s.job? f.job with
  | none => s
  | some j =>
    let slot := fld f.variant.toNat 0 6
    let b := j.barrier slot
    match s.barrierFault j b f with
    | some c => (s.syncFault c slot f.src.toNat f.job b.epoch.toNat 0).failFrame p f c
    | none => act j slot b (BitVec.ofNat 16 (fld f.aux.toNat 0 16) != b.epoch) (s.applied p f [ackFor s f])

/-- How a slot keeps a BARRIER_RELEASE that has come: as a tree frame of level 4. -/
def releaseMark (later : Bool) (j : JobCtx) (f : Frame) : Bool × Bool × Nat × Nat := (later, true, 4, j.sourceDevice f)

/-- BARRIER_ARRIVE counts a frame, which fixes the epoch's group if it is the first (R284, R286). -/
def execBarrierArriveFrame (p : PortId) (f : Frame) (s : State) : Host.Outcome State Fault Refusal :=
  onRequest 7 p f s fun s => s.barrierFrameIn p.val f fun j slot b later s =>
    let g := frameGroup f
    let entry := (later, flag f.aux.toNat 18, fld f.aux.toNat 16 2, j.sourceDevice f)
    let b1 := { b with frames := if b.frames.contains entry then b.frames else b.frames ++ [entry] }
    let b2 := if later then { b1 with group1 := some g } else { b1 with group := some g }
    (s.setBarrier f.job slot b2).barrierRun f.job slot 12

/-- BARRIER_RELEASE releases the epoch and passes down the tree (R287); one of the next epoch is counted against it and waits
there (R285). -/
def execBarrierReleaseFrame (p : PortId) (f : Frame) (s : State) : Host.Outcome State Fault Refusal :=
  onRequest 8 p f s fun s => s.barrierFrameIn p.val f fun j slot b later s =>
    let g := frameGroup f
    let b1 := { b with frames := if b.frames.contains (releaseMark later j f) then b.frames else b.frames ++ [releaseMark later j f] }
    (s.setBarrier f.job slot (if later then { b1 with group1 := some g } else { b1 with group := some g })).barrierRun f.job slot 12

/-! ### Notices (R249, R361, R380, R390) -/

/-- The connections of hosts whose packages of the job are held: FAULT goes to each (R390). -/
def State.jobHosts (s : State) (job : BitVec 16) : List Pkg :=
  (s.pkgs.filter (·.job == job)).foldl (fun (a : List Pkg) p => if a.any fun q => q.conn == p.conn then a else a ++ [p]) []

/-- Forward a notice of a peer to the job's host connections. -/
def State.forwardNotice (s : State) (kind code device : Nat) (words : List W64) : List Pkg → State
  | [] => s
  | p :: ps => (s.originate p.conn p.hostKey (.notice kind code device words)).forwardNotice kind code device words ps

/-- The 32-byte record a NOTICE carries, as words. -/
def noticeWords (f : Frame) : List W64 := (chunks 8 4 f.payload).map fun c => BitVec.ofNat 64 (leNat c)

/-- A notice of one kind is taken, acknowledged and acted on. -/
def onNotice (kind : Nat) (p : PortId) (f : Frame) (s : State) (act : JobCtx → State → State) : Host.Outcome State Fault Refusal :=
  if fld f.variant.toNat 0 4 ≠ kind then .next s
  else onRequest 0xA p f s fun s =>
    let s1 := s.applied p.val f [ackFor s f]
    match s1.job? f.job with | some j => act j s1 | none => s1

/-- NOTICE FAULT goes on to the hosts of the job (R390). -/
def execNoticeFault (p : PortId) (f : Frame) (s : State) : Host.Outcome State Fault Refusal :=
  onNotice 1 p f s fun j s => s.forwardNotice 1 (fld f.aux.toNat 0 16) (j.sourceDevice f) (noticeWords f) (s.jobHosts f.job)

/-- NOTICE LATE is received (R361). -/
def execNoticeLate (p : PortId) (f : Frame) (s : State) : Host.Outcome State Fault Refusal :=
  onNotice 2 p f s fun _ s => s

/-- NOTICE HEALTH is received (R334). -/
def execNoticeHealth (p : PortId) (f : Frame) (s : State) : Host.Outcome State Fault Refusal :=
  onNotice 3 p f s fun _ s => s

/-! ### Replies (R247, R248, R250) -/

/-- The transfer a reply answers: the unanswered one that its XFER_ID names, whichever module answers (R247, R267). -/
def replyKey (f : Frame) (x : Xfer) : Bool := x.id == f.xfer.toNat

/-- The task of a transfer, if it still runs: tile, class, control state. -/
def State.xferTask (s : State) (x : Xfer) : Option (Nat × Ctx) :=
  match x.tile with
  | none => none
  | some t => (s.ctx? t x.ctx).bind fun c => if c.words.any fun w => w.waits.contains x.id then some (t, c) else none

/-- The word of a transfer no longer waits for it; `code`: the first ERROR of a MULTICAST. -/
def State.releaseWord (s : State) (x : Xfer) (code : Nat) : State :=
  match x.tile with
  | none => s
  | some t => s.updCtx t x.ctx fun c =>
    let upd (w : EngWord) : EngWord := { w with waits := w.waits.filter (· != x.id), err := if w.err = 0 then code else w.err }
    { c with words := updFirst (fun w => w.waits.contains x.id) upd c.words }

/-- A transfer of the securing or restore engine is answered; a restore package that meets a failing module is
abandoned (R342). -/
def State.engineXfer (s : State) (x : Xfer) (code : Nat) : State :=
  if !s.engineOwns x then s
  else
    let s1 := s.engineDone x code
    match s1.pkgs.find? fun p => p.job == x.job && p.kind == 3 && p.running with
    | some p =>
      if code = 0 then s1
      else
        let dev := match s1.job? x.job with | some j => (match j.remap.find? (·.2 == x.dst) with | some e => e.1 | none => x.dst) | none => x.dst
        let step := match (s1.job? x.job).bind (·.chrys) with | some c => c.committed | none => 0
        (s1.chrEvent 0x6301 s1.health.level dev 0 x.job step).abandon p.tag 0x6301 0x3FF 0 0 false
    | none => s1

/-- A transfer is answered: it is no longer outstanding, and a MULTICAST whose last member has answered completes with
the code of its first ERROR (R248). -/
def State.endXfer (s : State) (x : Xfer) (code : Nat) : State :=
  let s1 := { s with xfers := eraseFirst (fun y => y.id == x.id) s.xfers }
  match s.xferTask x with
  | none => s1.engineXfer x code
  | some (t, c) =>
    let w := c.words.find? fun w => w.waits.contains x.id
    let others : Bool := match w with | some w => !(w.waits.filter (· != x.id)).isEmpty | none => false
    let first := match w with | some w => if w.err = 0 then code else w.err | none => code
    let s2 := s1.releaseWord x code
    if first ≠ 0 ∧ (x.op ≠ 9 ∨ !others) then s2.faultRemote t x.ctx first x.off.toNat else s2.beginWords t x.ctx

/-- A reply that answers no unanswered transfer of this module is discarded, and changes no tracker (F-2304, R267). -/
def State.strayReply (s : State) (p : Nat) (f : Frame) : State := (s.violation p 0x2304 f false).police p

/-- A reply at its requester: the tracker of its channel judges it, then it is applied to the transfer it names, if that is one that it
can answer (R256, R267). -/
def State.replyIn (s : State) (p : Nat) (f : Frame) (fits : Xfer → Bool) (act : Xfer → State → State) : State :=
  let go (past : State → State) : State :=
    match s.xfers.find? (replyKey f) with
    | none => s.strayReply p f
    | some x => if fits x then act x (past s) else s.strayReply p f
  match s.job? f.job with
  | none => go fun s => s
  | some j =>
    match j.judge f with
    | .duplicate => s.bump 0x2010 1
    | .ahead => (s.violation p 0x2303 f true).police p
    | .apply => go fun s => s.trackOn f

/-- The command that takes a reply frame. -/
def onReply (op : BitVec 4) (p : PortId) (f : Frame) (s : State) (fits : Xfer → Bool) (act : Xfer → State → State) :
    Host.Outcome State Fault Refusal :=
  match s.takeFrame p.val op f with
  | none => .next s
  | some s1 => .next (s1.replyIn p.val f fits act)

/-- Bytes of a record reach the buffer of the word that reads it (R130, R132), in the order in which they are sent. -/
def EngWord.fill (w : EngWord) (into : Nat) (bs : List Byte) : EngWord :=
  { w with bufs := if into = 1 then (w.bufs.1 ++ bs, w.bufs.2) else (w.bufs.1, w.bufs.2 ++ bs) }

/-- Write reply bytes at the LOCAL of a word whose task still runs, into the record that it reads, or where the module's
engine asked for them. -/
def State.writeLocal (s : State) (x : Xfer) (off : Nat) (bs : List Byte) : State :=
  match s.xferTask x with
  | none => s.foldIn x off bs
  | some (t, _) =>
    if x.into = 0 then let y := s.tile t; s.setTile t { y with scratch := Mem.setBytes y.scratch (x.addr + off) bs }
    else s.updCtx t x.ctx fun c => { c with words := updFirst (fun w => w.waits.contains x.id) (fun w => w.fill x.into bs) c.words }

/-- The count that a GET raises here when its last byte is written (R185, R274); a code it meets is the task's. -/
def State.getDone (s : State) (x : Xfer) : State :=
  match x.sig with
  | none => s.endXfer x 0
  | some (r, i) =>
    match s.raiseCount x.job (refIndex r.toNat) i.toNat 0x3FFF with
    | (some c, s1) => s1.endXfer x c
    | (none, s1) => s1.endXfer x 0

/-- Does a READ_DATA frame bring bytes that a transfer asked for? -/
def readFits (f : Frame) (x : Xfer) : Bool := x.op == 1 && decide (f.offset.toNat + f.payload.length ≤ x.bytes)

/-- READ_DATA is written for the requesting GET (R247). -/
def execReadDataFrame (p : PortId) (f : Frame) (s : State) : Host.Outcome State Fault Refusal :=
  onReply 2 p f s (readFits f) fun x s =>
      let n := f.payload.length
      let s1 := s.writeLocal x f.offset.toNat f.payload
      if x.got + n = x.bytes then s1.getDone x
      else { s1 with xfers := updFirst (replyKey f) (fun y => { y with got := y.got + n }) s1.xfers }

/-- ATOMIC_DATA writes the old value at LOCAL (R247). -/
def execAtomicDataFrame (p : PortId) (f : Frame) (s : State) : Host.Outcome State Fault Refusal :=
  onReply 5 p f s (fun _ => true) fun x s => (s.writeLocal x 0 (f.payload.take 8)).endXfer x 0

/-- ACK completes the transfer, or its member of a MULTICAST (R247, R248). -/
def execAckFrame (p : PortId) (f : Frame) (s : State) : Host.Outcome State Fault Refusal :=
  onReply 0xB p f s (fun _ => true) fun x s => s.endXfer x 0

/-- The current epoch of a slot that a barrier frame of this module was sent for has found no way: it fails at once (R289). -/
def State.barrierCut (s : State) (x : Xfer) (code : Nat) : State :=
  if code = 0x2201 ∧ (x.op = 7 ∨ x.op = 8) then
    match s.job? x.job with
    | some j => if (j.barrier (fld x.addr 0 6)).epoch.toNat = fld x.bytes 0 16 then s.barrierFail x.job (fld x.addr 0 6) else s
    | none => s
  else s

/-- ERROR: the requesting task raises the code it carries; the channel's next frame resets its tracker (R247, R256). -/
def execErrorFrame (p : PortId) (f : Frame) (s : State) : Host.Outcome State Fault Refusal :=
  onReply 0xC p f s (fun _ => true) fun x s =>
    let code := fld f.aux.toNat 0 16
    let s1 := s.resetSeq x.job x.dst x.vesper x.channel
    (s1.endXfer x code).barrierCut x code

/-- Does a frame of a request transfer of this module still wait at an exit port, never sent? -/
def State.waitsToLeave (s : State) (x : Xfer) : Bool :=
  (List.range 40).any fun p => ((s.port p).txqV ++ (s.port p).txqN).any fun f => s.leaves f x

/-- TRANSFER_TIMEOUT (R250): no reply came within E2E_TIMEOUT of the last frame's leaving; the task raises F-2202, which is logged where no
task is left to raise it (R480), and a tally of this module's own for the transfer goes with its parked increment (R280). -/
def execTransferTimeout (xfer : Nat) (s : State) : Host.Outcome State Fault Refusal :=
  match s.xfers.find? (·.id == xfer) with
  | none => .next s
  | some x =>
    let mine (t : OpenTally) : Bool := t.src == s.hall && t.job == x.job && t.vesper == x.vesper && t.xfer == x.id
    if s.waitsToLeave x || !s.passed x.sentAt (s.cfg.e2eTimeout * 1000000) then .next s
    else
      let s1 := { s with tallies := s.tallies.filter (fun t => !mine t) }.bump 0x2020 1
      .next ((if (s1.xferTask x).isNone then s1.logEvent 0x2202 (some x.job) (0, 0) else s1).endXfer x 0x2202)

end Sys2Proof.Machine
end

