-- ==== Sys2Proof/Machine/Parse.lean ====
section
/-!
DEFINITION. The work package as bytes: header, sections, kernels, landing, groups, restore block, cost table, gradient block
and Chrysalis block (R205, R277, R297 to R300, R324, R325, R355, R386 to R389, Tables 13-6, 15-7 to 15-9).
-/
namespace Sys2Proof.Machine

/-- The little-endian number of n bytes at an offset; bytes beyond the end are 0. -/
def numAt (d : List Byte) (off n : Nat) : Nat := leNat ((d.drop off).take n)

/-- The 64-bit word at an offset. -/
def wordAt (d : List Byte) (off : Nat) : Nat := numAt d off 8

/-- Bytes of a span. -/
def spanOf (d : List Byte) (off n : Nat) : List Byte := (d.drop off).take n

/-! ### Header and section table (R386) -/

/-- A work-package header (Table 15-7). -/
structure PkgHead where
  /-- KIND. -/
  kind : Nat
  /-- CLASS Vesper. -/
  vesper : Bool
  /-- JOB_END. -/
  jobEnd : Bool
  /-- JOB_ID. -/
  job : BitVec 16
  /-- STEP_COUNT. -/
  steps : Nat
  /-- FAULT_NOTIFY. -/
  notify : Nat
  /-- JOB_DEVICES. -/
  devices : Nat
  /-- SEED. -/
  seed : W64
  /-- Sections: type, offset, bytes. -/
  sections : List (Nat × Nat × Nat)
  deriving DecidableEq, Repr

/-- Is a number a device number, or "none"? -/
def deviceOrNone (d : Nat) : Bool := decide (d ≤ 14640) || d == 0x3FFF

/-- The header's own fields are as Table 15-7 has them. -/
def headOk (d : List Byte) (pid total : Nat) : Bool :=
  let w0 := wordAt d 0
  let w1 := wordAt d 8
  let w3 := wordAt d 24
  let kind := fld w0 8 2
  fld w0 0 8 == 1 && (decide (kind ≤ 1) || !flag w0 10) && fld w0 12 8 == pid && decide (1 ≤ fld w0 36 24) &&
    (kind == 1 || fld w0 36 24 == 1) && fld w0 60 4 == 0 && deviceOrNone (fld w1 0 14) && decide (1 ≤ fld w1 14 5 ∧ fld w1 14 5 ≤ 16) &&
    decide (1 ≤ fld w1 19 14 ∧ fld w1 19 14 ≤ 14641) && fld w1 33 31 == 0 && (kind == 1 || kind == 2 || wordAt d 16 == 0) &&
    fld w3 0 27 == total && fld w3 27 37 == 0 && wordAt d 32 == 0 && wordAt d 40 == 0 && wordAt d 48 == 0 && wordAt d 56 == 0

/-- The section entries. -/
def sectionsOf (d : List Byte) (n : Nat) : List (Nat × Nat × Nat) :=
  (List.range n).map fun i => (fld (wordAt d (64 + 16 * i)) 0 8, fld (wordAt d (72 + 16 * i)) 0 32, fld (wordAt d (72 + 16 * i)) 32 32)

/-- Every pair of a list satisfies a relation. -/
def allPairs {α : Type} (r : α → α → Bool) : List α → Bool
  | [] => true
  | x :: xs => xs.all (r x) && allPairs r xs

/-- Two spans do not overlap. -/
def apart (a b : Nat × Nat) : Bool := decide (a.1 + a.2 ≤ b.1 ∨ b.1 + b.2 ≤ a.1 ∨ a.2 = 0 ∨ b.2 = 0)

/-- The section table is as R386 has it. -/
def sectionsOk (d : List Byte) (n total : Nat) : Bool :=
  let ss := sectionsOf d n
  decide (64 + 16 * n ≤ total) && (List.range n).all (fun i => fld (wordAt d (64 + 16 * i)) 8 56 == 0) &&
    ss.all (fun s => decide (1 ≤ s.1 ∧ s.1 ≤ 11) && s.2.1 % 16 == 0 && decide (s.2.1 + s.2.2 ≤ total)) &&
    allPairs (fun s t => s.1 != t.1 && apart s.2 t.2) ss

/-- The header and its sections, where they have their form. -/
def parseHead (d : List Byte) (pid total : Nat) : Option PkgHead :=
  let w0 := wordAt d 0
  let w1 := wordAt d 8
  if d.length = total ∧ 64 ≤ total ∧ headOk d pid total ∧ sectionsOk d (fld w1 14 5) total then
    some ⟨fld w0 8 2, flag w0 10, flag w0 11, BitVec.ofNat 16 (fld w0 20 16), fld w0 36 24, fld w1 0 14, fld w1 19 14,
      BitVec.ofNat 64 (wordAt d 16), sectionsOf d (fld w1 14 5)⟩
  else none

/-- A section's offset and bytes. -/
def PkgHead.sect (h : PkgHead) (ty : Nat) : Option (Nat × Nat) := (h.sections.find? (·.1 == ty)).map (·.2)

/-- A section's content; empty where it is absent. -/
def PkgHead.body (h : PkgHead) (d : List Byte) (ty : Nat) : List Byte :=
  match h.sect ty with | some s => spanOf d s.1 s.2 | none => []

/-! ### Kernels and tasks (R387) -/

/-- A kernel entry (Table 15-9). -/
def kernelAt (b : List Byte) (o : Nat) : Kernel :=
  let w0 := wordAt b o
  let w1 := wordAt b (o + 8)
  ⟨fld w0 0 16, fld w0 16 2, fld w1 0 32, fld w1 32 17, (List.range (min (fld w0 18 3) 4)).map fun i =>
    (numAt b (o + 16 + 12 * i) 4, numAt b (o + 20 + 12 * i) 4, numAt b (o + 24 + 12 * i) 4)⟩

/-- A kernel entry's fields have their form. -/
def kernelForm (b : List Byte) (o : Nat) : Bool :=
  let w0 := wordAt b o
  let w1 := wordAt b (o + 8)
  decide (fld w0 18 3 ≤ 4) && fld w0 21 43 == 0 && decide (1 ≤ fld w1 32 17 ∧ fld w1 32 17 ≤ 65536) && fld w1 49 15 == 0

/-- A task descriptor. -/
def taskAt (b : List Byte) (o : Nat) : Desc :=
  ⟨BitVec.ofNat 64 (wordAt b o), BitVec.ofNat 64 (wordAt b (o + 8)), BitVec.ofNat 64 (wordAt b (o + 16)), BitVec.ofNat 64 (wordAt b (o + 24))⟩

/-- The kernels. -/
def kernelsOf (b : List Byte) : List Kernel := (List.range (b.length / 64)).map fun i => kernelAt b (64 * i)

/-- The tasks. -/
def tasksOf (b : List Byte) : List Desc := (List.range (b.length / 32)).map fun i => taskAt b (32 * i)

/-- KERNELS and TASKS have their form (R387). -/
def kernelsOk (kb tb : List Byte) : Bool :=
  let ks := kernelsOf kb
  let ts := tasksOf tb
  kb.length % 64 == 0 && tb.length % 32 == 0 && (List.range ks.length).all (fun i => kernelForm kb (64 * i)) &&
    allPairs (fun (a b : Kernel) => a.id != b.id) ks &&
    ks.all fun k => decide (k.first + k.count ≤ ts.length) && (List.range k.count).all fun i =>
      match ts[k.first + i]? with | some t => t.kernel == k.id && t.index == i | none => false

/-! ### Landing (R389) -/

/-- A LANDING section. -/
def landingOf (b : List Byte) : Landing :=
  let n := fld (wordAt b 0) 0 7
  let m := fld (wordAt b 0) 7 16
  ⟨(List.range n).map fun i => let w := wordAt b (8 + 8 * i); (fld w 0 21, fld w 21 21),
   (List.range m).map fun i =>
     let w0 := wordAt b (8 + 8 * n + 16 * i)
     let w1 := wordAt b (16 + 8 * n + 16 * i)
     ⟨fld w0 0 21, fld w0 21 21, fld w0 42 6, fld w0 48 12, fld w1 0 32, fld w1 32 9, fld w1 41 12⟩⟩

/-- A LANDING section's own form: counts, zero bits, PAGES within the slot, one landed count per slot. -/
def landingForm (b : List Byte) : Bool :=
  let w := wordAt b 0
  let n := fld w 0 7
  let m := fld w 7 16
  let x := landingOf b
  decide (8 ≤ b.length) && decide (1 ≤ n ∧ n ≤ 64 ∧ 1 ≤ m) && fld w 23 41 == 0 && b.length == 8 + 8 * n + 16 * m &&
    (List.range n).all (fun i => fld (wordAt b (8 + 8 * i)) 42 22 == 0) &&
    (List.range m).all (fun i => fld (wordAt b (8 + 8 * n + 16 * i)) 60 4 == 0 && fld (wordAt b (16 + 8 * n + 16 * i)) 53 11 == 0) &&
    x.layers.all (fun l => match x.slots[l.slot]? with
      | some s => decide (l.pages ≤ s.2)
      | none => false) &&
    allPairs (fun (a c : Layer) => a.slot != c.slot || a.landed == c.landed) x.layers

/-! ### Groups (R248) -/

/-- The groups of a GROUPS section: none where the section breaks its form. Fuel: the section's length. -/
def groupsFrom (b : List Byte) : Nat → Nat → Option (List (Nat × List Nat))
  | _, 0 => some []
  | o, k + 1 =>
    if b.length ≤ o then some []
    else
      let w := wordAt b o
      let n := fld w 9 14
      let ms := (List.range n).map fun i => numAt b (o + 8 + 2 * i) 2
      let next := o + 8 + upTo (2 * n) 8
      if n = 0 ∨ 14641 < n ∨ fld w 23 41 ≠ 0 ∨ b.length < next ∨ ms.any (fun m => decide (14640 < m)) then none
      else (groupsFrom b next k).map fun gs => (fld w 0 9, ms) :: gs

/-- The groups of a section. -/
def groupsOf (b : List Byte) : Option (List (Nat × List Nat)) := groupsFrom b 0 (b.length + 1)

/-! ### Restore block (Table 13-6) -/

/-- A restore block, where it has its form. -/
def restoreOf? (b : List Byte) : Option Restore :=
  let w := wordAt b 0
  let n := fld w 14 8
  let es := (List.range n).map fun i => wordAt b (16 + 8 * i)
  if b.length = 16 + 8 * n ∧ 1 ≤ n ∧ fld w 0 14 ≤ 14640 ∧ fld w 22 42 = 0 ∧ wordAt b 8 % 16 = 0 ∧
      es.all (fun e => decide (fld e 0 14 ≤ 14640 ∧ fld e 14 14 ≤ 14640) && fld e 29 35 == 0) then
    some ⟨fld w 0 14, BitVec.ofNat 64 (wordAt b 8), es.map fun e => (fld e 0 14, fld e 14 14, flag e 28), 0⟩
  else none

/-! ### Cost table (R355) -/

/-- A stage entry. -/
def stageAt (b : List Byte) (o : Nat) : Stage :=
  let w := wordAt b o
  ⟨fld w 0 4, fld w 4 10, fld w 14 16, fld w 30 14, flag w 44, wordAt b (o + 8)⟩

/-- A stage entry's form (Table 14-2). -/
def stageOk (b : List Byte) (o : Nat) : Bool :=
  let w := wordAt b o
  let k := fld w 0 4
  decide (1 ≤ k ∧ k ≤ 4) && fld w 45 19 == 0 && (decide (2 < k) || decide (fld w 4 10 ≤ 575)) && (k != 1 || decide (1 ≤ fld w 14 16)) &&
    (k != 3 || decide (fld w 30 14 ≤ 14640))

/-- A cost table, where it has its form. -/
def costOf? (b : List Byte) : Option Cost :=
  let w := wordAt b 0
  let n := fld w 8 9
  let m := fld w 17 10
  let p := fld w 27 6
  let so := 32
  let lo := so + 16 * n
  let po := lo + 16 * m
  let loads := (List.range m).map fun i => (fld (wordAt b (lo + 16 * i)) 0 10, numAt b (lo + 16 * i + 8) 4, numAt b (lo + 16 * i + 12) 4)
  let ports := (List.range p).map fun i => let x := wordAt b (po + 8 * i); (fld x 0 6, fld x 6 42)
  if b.length = po + 8 * p ∧ fld w 0 8 = 1 ∧ 1 ≤ n ∧ n ≤ 256 ∧ 1 ≤ m ∧ m ≤ 576 ∧ p ≤ 40 ∧ 1 ≤ fld w 33 10 ∧ fld w 33 10 ≤ 576 ∧
      fld w 43 21 = 0 ∧ 10000 ≤ wordAt b 8 ∧ wordAt b 8 ≤ 2 ^ 40 ∧ deviceOrNone (fld (wordAt b 16) 0 14) ∧ fld (wordAt b 16) 14 50 = 0 ∧
      wordAt b 24 = 0 ∧ (List.range n).all (fun i => stageOk b (so + 16 * i)) ∧
      (List.range m).all (fun i => decide (fld (wordAt b (lo + 16 * i)) 0 10 ≤ 575) && fld (wordAt b (lo + 16 * i)) 10 54 == 0) ∧
      allPairs (fun (x y : Nat × Nat × Nat) => x.1 != y.1) loads ∧
      (List.range p).all (fun i => decide (fld (wordAt b (po + 8 * i)) 0 6 ≤ 39) && fld (wordAt b (po + 8 * i)) 48 16 == 0) ∧
      allPairs (fun (x y : Nat × Nat) => x.1 != y.1) ports then
    some ⟨(List.range n).map fun i => stageAt b (so + 16 * i), loads, ports, fld w 33 10, wordAt b 8, fld (wordAt b 16) 0 14⟩
  else none

/-! ### Gradient block (R297 to R300) -/

/-- The pair table. -/
def pairsOf (d : List Byte) (off n : Nat) : List (Nat × Bool) :=
  (List.range n).map fun i => let w := numAt d (off + 4 * i) 4; (fld w 0 14, flag w 14)

/-- Is a pair table as R297 has it? -/
def pairsOk (d : List Byte) (off n expected : Nat) : Bool :=
  let ps := pairsOf d off n
  decide (off + 4 * n ≤ d.length) && (List.range n).all (fun i => fld (numAt d (off + 4 * i) 4) 15 17 == 0) &&
    ps.all (fun p => decide (p.1 < expected)) && (List.range expected).all fun k =>
      (ps.filter fun p => p.1 == k && !p.2).length == 1 && decide ((ps.filter fun p => p.1 == k && p.2).length ≤ 1)

/-- A bucket entry (Table 12-2), idle, with the seeds of R306. -/
def bucketAt (b : List Byte) (o : Nat) (f v : BitVec 32) : Bucket :=
  let w0 := wordAt b o
  let w1 := wordAt b (o + 8)
  let w (k : Nat) : W64 := BitVec.ofNat 64 (wordAt b (o + 8 * k))
  ⟨fld w0 0 16, fld w0 16 25, fld w0 41 10, if flag w0 51 then some (fld w1 0 16) else none, fld w1 16 16, fld w1 32 32, (w 2, w 3), (w 4, w 5),
    (0, 0), (0, 0), (false, false), f, v, [], [], [], (0, 0), (0, 0), (false, false), 0⟩

/-- A bucket entry's own form. -/
def bucketForm (b : List Byte) (o : Nat) : Bool :=
  let w0 := wordAt b o
  let w1 := wordAt b (o + 8)
  let n := fld w0 16 25
  decide (1 ≤ n ∧ n ≤ 16777216) && (!flag w0 51 || n == 4096) && decide (fld w0 41 10 ≤ 575) && fld w0 52 12 == 0 &&
    (flag w0 51 || fld w1 0 16 == 0xFFFF) && wordAt b (o + 16) % 4096 == 0 && wordAt b (o + 24) % 4096 == 0 &&
    wordAt b (o + 32) % 16 == 0 && wordAt b (o + 40) % 16 == 0

/-- The gradient block and buckets of a section, where they have their form; JOB_DEVICES entries stand in the pair table. -/
def gradientOf? (d b : List Byte) (devices : Nat) (f v : BitVec 32) : Option (GradBlock × List Bucket) :=
  let w0 := wordAt b 0
  let w1 := wordAt b 8
  let n := fld w1 0 16
  let backup := flag w0 0
  let pt := wordAt b 24
  let bs := (List.range n).map fun i => bucketAt b (32 + 48 * i) f v
  if b.length = 32 + 48 * n ∧ 1 ≤ fld w0 1 14 ∧ fld w0 1 14 ≤ 14641 ∧ fld w0 15 14 ≤ 14640 ∧ fld w0 29 12 ≤ 4090 ∧ fld w0 57 7 = 0 ∧
      1 ≤ fld w1 16 16 ∧ fld w1 32 32 = 0 ∧ wordAt b 16 / 2 ^ 56 = 0 ∧ wordAt b 16 % 16 = 0 ∧
      (if backup then pairsOk d pt devices (fld w0 1 14) else pt == 0 && fld w0 1 14 == devices) ∧ (List.range n).all (fun i => bucketForm b (32 + 48 * i)) ∧
      allPairs (fun (x y : Bucket) => x.id != y.id) bs then
    some (⟨backup, fld w0 1 14, fld w0 15 14, fld w0 29 12, fld w0 41 16, fld w1 16 16, BitVec.ofNat 64 (wordAt b 16),
      if backup then pairsOf d pt devices else []⟩, bs)
  else none

/-! ### Chrysalis block (R324, R325) -/

/-- A parity group: members in bits [13:0] of 16-bit entries. -/
def parityGroup (d : List Byte) (o : Nat) : List Nat := (List.range 8).map fun k => numAt d (o + 2 * k) 2

/-- The method of a tensor: the one that it has in the context, which does not change; else the one that its size and its
CHANGE_SEED give it (R323). -/
def mirrored (c : Cfg) (old : List (Nat × Bool)) (id bytes seed : Nat) : Bool :=
  match old.find? (·.1 == id) with
  | some t => t.2
  | none => decide (bytes ≤ c.mirrorSizeMax * 2 ^ 20 ∨ c.mirrorChangeMin ≤ seed)

/-- The tensor entry at an offset (Table 13-2), with its method; `old`: the methods of the context. -/
def tensorAt (c : Cfg) (old : List (Nat × Bool)) (d : List Byte) (o groups : Nat) : Tensor :=
  let w0 := wordAt d o
  let bytes := fld (wordAt d (o + 16)) 0 40
  let mirror := mirrored c old (fld w0 0 16) bytes (fld w0 16 7)
  ⟨fld w0 0 16, mirror, fld w0 23 14, if mirror then [] else parityGroup d (groups + 16 * fld w0 37 10), fld w0 47 3,
    BitVec.ofNat 64 (wordAt d (o + 8)), bytes, BitVec.ofNat 64 (wordAt d (o + 24)), BitVec.ofNat 64 (wordAt d (o + 32)), fld (wordAt d (o + 40)) 0 40⟩

/-- Is an address one of space 0x00 that names this device (0x3FFF or its own number)? -/
def ownAddr (own a : Nat) : Bool := decide (a / 2 ^ 56 = 0) && (fld a 42 14 == 0x3FFF || fld a 42 14 == own)

/-- Is an address one of space 0x00 at another device of the job (Tables 13-1 and 13-2)? -/
def addrAt (dev a : Nat) : Bool := decide (a / 2 ^ 56 = 0) && fld a 42 14 == dev

/-- A tensor entry's own form (Table 13-2, R325). -/
def tensorForm (c : Cfg) (old : List (Nat × Bool)) (d : List Byte) (o groups own : Nat) : Bool :=
  let w0 := wordAt d o
  let t := tensorAt c old d o groups
  decide (o + 48 ≤ d.length) && decide (fld w0 16 7 ≤ 100) && fld w0 50 14 == 0 && ownAddr own t.base.toNat && t.base.toNat % 4096 == 0 &&
    decide (4096 ≤ t.bytes) && t.bytes % 4096 == 0 && fld (wordAt d (o + 16)) 40 24 == 0 && ownAddr own t.shadow.toNat && t.shadow.toNat % 4096 == 0 &&
    fld (wordAt d (o + 40)) 40 24 == 0 &&
    (if t.mirror then decide (t.partner ≤ 14640) && t.partner != own && addrAt t.partner t.copy.toNat && t.groupBytes == 0
     else ownAddr own t.copy.toNat && decide (t.bytes ≤ t.groupBytes) && decide (groups + 16 * fld w0 37 10 + 16 ≤ d.length) &&
       t.group.all (fun m => decide (m ≤ 14640)) && allPairs (fun (a b : Nat) => a != b) t.group && t.group[t.member]? == some own)

/-- The tensors of a block. -/
def tensorsOf (c : Cfg) (old : List (Nat × Bool)) (d : List Byte) (table groups n : Nat) : List Tensor :=
  (List.range n).map fun i => tensorAt c old d (table + 48 * i) groups

/-- The own secured areas: address within the device, bytes. -/
def Chrys.areas (c : Chrys) : List (Nat × Nat) :=
  let off (a : Nat) : Nat := a % 2 ^ 42
  (c.tensors.flatMap fun t =>
    let chunk := cdiv t.groupBytes (7 * 4096) * 4096
    let own : List (Nat × Nat) := [(off t.base.toNat, t.bytes), (off t.shadow.toNat, t.bytes)]
    if t.mirror then own else own ++ [(off t.copy.toNat, 2 * chunk + 7 * upTo (cdiv chunk 32768) 16)]) ++
  [(off c.recordAddr.toNat, 3 * upTo (64 + 32 * c.cursors + 18464 + 16 * c.shape.1 + 8 * c.shape.2) 4096)]

/-- The block of a section (Table 13-1) with nothing secured yet, its ALLOW_SHARED_FEED, and whether R324 and R325 hold;
shape: LAYERS and BUCKET_COUNT of the job; `old`: the tensors of the context. -/
def chrysOf (c : Cfg) (old : List (Nat × Bool)) (d b : List Byte) (own : Nat) (shape : Nat × Nat) : Chrys × Bool × Bool :=
  let w0 := wordAt b 0
  let w2 := wordAt b 16
  let n := fld w0 45 16
  let table := numAt b 72 4
  let groups := numAt b 76 4
  let keys := BitVec.ofNat 256 (numAt b 40 32)
  let x : Chrys :=
    { ceiling := fld w0 0 16, secureCount := fld w0 17 12, evalEvery := fld w0 29 16, recordAddr := BitVec.ofNat 64 (wordAt b 8),
      recordPartner := fld w2 0 14, cursors := fld w2 14 6, recordCopy := BitVec.ofNat 64 (wordAt b 24), cursorAddr := BitVec.ofNat 64 (wordAt b 32),
      stateKeys := keys, tensors := tensorsOf c old d table groups n, committed := 0, gen := 0, preparing := none, folded := false, prepared := false,
      missed := false, changed := [],
      due := true, level := 0, pendingStep := none, toSend := [], toRead := [], waits := [], folds := [], evalStep := 0, shape := shape }
  let ok : Bool := b.length == 80 && decide (1 ≤ x.ceiling) && decide (x.secureCount ≤ 4090) && fld w0 61 3 == 0 &&
    ownAddr own x.recordAddr.toNat && x.recordAddr.toNat % 4096 == 0 && decide (x.recordPartner ≤ 14640) && x.recordPartner != own &&
    decide (x.cursors ≤ 32) && fld w2 20 44 == 0 && addrAt x.recordPartner x.recordCopy.toNat && x.recordCopy.toNat % 4096 == 0 &&
    ownAddr own x.cursorAddr.toNat && x.cursorAddr.toNat % 16 == 0 &&
    (List.range n).all (fun i => tensorForm c old d (table + 48 * i) groups own) && allPairs (fun (s t : Tensor) => s.id != t.id) x.tensors &&
    allPairs apart x.areas
  (x, flag w0 16, ok)

end Sys2Proof.Machine
end

