-- ==== Sys2Proof/Machine/Power.lean ====
section
/-!
DEFINITION. Monarch: energy windows, grants, supply, heat, the blades; and the timer of the LATE notice (R348 to R354,
R361, R362, R370, R465, R466). Monarch runs from row 5 of a start on (R456): before it, in safe mode and in reset its commands
have no effect.
-/
namespace Sys2Proof.Machine

/-! ### Energy windows (R348 to R351) -/

/-- POWER_LIMIT in use for one window, in uJ. -/
def State.windowLimit (s : State) : Nat := s.powerLimit * 10

/-- The peak of one window in uJ: 2,600 W, or 1,500 W while a blade pair is lost (R348, R466). -/
def State.windowPeak (s : State) : Nat := if s.power.anyLost then 15000 else 26000

/-- The Vesper reserve of one window in uJ; it follows the configured POWER_LIMIT (R349, R466). -/
def State.vesperReserve (s : State) : Rat := (s.cfg.vesperPowerShare * s.cfg.powerLimit * 10 : Nat) / (200 : Rat)

/-- Energy of the previous 99,999 windows; those before the first count as the configured POWER_LIMIT (R460). -/
def State.pastEnergy (s : State) : Nat := sumNat s.power.past + (99999 - s.power.past.length) * (s.cfg.powerLimit * 10)

/-- The largest fixed energy of the previous 100 windows; those before the first count as 600 W. -/
def PowerState.fixedPart (p : PowerState) : Nat := p.fixed.foldl max (if p.fixed.length < 100 then 6000 else 0)

/-- A tile's ewma. -/
def State.ewmaOf (s : State) (t : Nat) : Rat := match (s.tile t).ewma with | some x => x | none => (s.cfg.monarchSeed : Rat)

/-- The larger of two. -/
def ratMax (a b : Rat) : Rat := if a ≤ b then b else a

/-- The demand p(t) from u and the updated ewma (R351). -/
def demand (ewma : Rat) (u : Nat) (stopped : Bool) : Rat := (if stopped then 5 / 4 else 1) * ratMax u ewma

/-- Every tile's u in the window just ended. -/
def energyOf (es : List (Nat × Nat)) (t : Nat) : Nat := match es.find? (·.1 == t) with | some x => x.2 | none => 0

/-- The predictor moves and the tile's demand is what it is granted, until it is scaled. -/
def State.predict (s : State) (es : List (Nat × Nat)) : Nat → State
  | 0 => s
  | t + 1 =>
    let x := s.tile t
    let u := energyOf es t
    let e := s.ewmaOf t + (u - s.ewmaOf t) / 16
    (s.setTile t { x with ewma := some e, grant := demand e u x.stopped, stopped := false }).predict es t

/-- Halvings of a die's grants (R353). -/
def State.halved (s : State) (t : Nat) : Rat := 1 / (2 : Rat) ^ (Sp.get 0 s.power.halvings (t / 144))

/-- Grants are scaled. -/
def State.scaleGrants (s : State) (k : Rat) : Nat → State
  | 0 => s
  | t + 1 => (s.setTile t { s.tile t with grant := (s.tile t).grant * k * s.halved t }).scaleGrants k t

/-- Sum of the tiles' demands. -/
def State.demands (s : State) : Rat := (List.range 576).foldl (fun a t => a + (s.tile t).grant) 0

/-- Did a tile of the die stop on its grant in the window just ended? -/
def State.dieStopped (s : State) (d : Nat) : Bool := s.tiles.any fun x => x.1 / 144 == d && x.2.stopped

/-- Each die's history of stops takes the window just ended. -/
def State.pushStops (s : State) : Sp (List Bool) :=
  (List.range 4).foldl (fun m d => Sp.put [] m d ((s.dieStopped d :: Sp.get [] m d).take 100)) s.power.stops

/-- A window's energy enters the means over 1 s and 10 ms; a 1-second mean more than 2 % above POWER_LIMIT is recorded. -/
def State.countWindow (s : State) (e : Nat) : State :=
  let p := s.power
  let sec := (p.second.1 + e, p.second.2 + 1)
  let ten := (p.tenMs.1 + e, p.tenMs.2 + 1)
  let endS := decide (100000 ≤ sec.2)
  let endT := decide (1000 ≤ ten.2)
  let s1 := { s with power := { p with second := if endS then (0, 0) else sec, tenMs := if endT then (0, 0) else ten,
                                       means := (if endS then sec.1 / 1000000 else p.means.1, if endT then ten.1 / 10000 else p.means.2) } }
  if endS ∧ s.powerLimit * 1020000 < sec.1 then s1.logEvent 0xA104 none (0, 0) else s1

/-- The window just ended enters Monarch's history: run_above and hold (R349). -/
def State.pastWindow (s : State) (e fixed : Nat) : State :=
  let p := s.power
  let beyond := decide (s.windowLimit < e)
  let run := if beyond then p.runAbove + 1 else 0
  let s1 := if beyond then s.bump 0xA030 1 else s
  { s1 with power := { s1.power with past := (e :: p.past).take 99999, fixed := (fixed :: p.fixed).take 100, stops := s.pushStops,
                                     runAbove := if run = 2000 then 0 else run, hold := if run = 2000 then 2000 else p.hold } }

/-- The cap of the window that starts, in uJ, and the window's hold (R349). -/
def State.capOf (s : State) : Int × Nat :=
  let c : Int := (s.powerLimit * 1000000 : Int) - s.pastEnergy
  let h := if 0 < s.power.hold then min c s.windowLimit else c
  (min h s.windowPeak, s.power.hold - 1)

/-- The scale of the grants. -/
def scaleOf (noon sum : Rat) : Rat := if sum ≤ noon ∨ sum = 0 then 1 else noon / sum

/-- MONARCH_WINDOW: the energies of the tiles and the fixed part in the window just ended, in uJ; then the grants of the
window that starts. -/
def execMonarchWindow (energies : List (Nat × Nat)) (fixed : Nat) (s : State) : Host.Outcome State Fault Refusal :=
  if !s.alive then .next s
  else
  let e := fixed + sumNat ((List.range 576).map (energyOf energies))
  let s1 := (s.pastWindow e fixed).countWindow e
  let c := s1.capOf
  let s2 := ({ s1 with power := { s1.power with hold := c.2 } }).predict energies 576
  let noon := ratMax 0 ((c.1 : Rat) - s2.power.fixedPart - s2.vesperReserve)
  let k := scaleOf noon s2.demands
  let s3 := s2.scaleGrants k 576
  .next (if k < 1 then s3.bump 0xA038 1 else s3)

/-- GRANT_EXHAUSTED: the Noon task's count reaches the grant and the tile's engines stop until the next window (R350). A
Vesper task's energy never stops the tile. -/
def execGrantExhausted (t : TileId) (s : State) : Host.Outcome State Fault Refusal :=
  let x := s.tile t.val
  if x.noon.isNone || x.suspended || x.vesper.isSome || x.stopped then .next s
  else .next { s.setTile t.val { x with stopped := true } with power := { s.power with throttledAt := s.now + 1 } }

/-! ### Supply and heat (R352, R353) -/

/-- Is a die under the heat rule: a logic sensor at 101 degrees or above, or a stack above it at 93 or above? -/
def State.dieHot (s : State) (d : Nat) : Bool :=
  decide (101 ≤ Sp.get 0 s.power.temp d) || s.mem.temp.any fun x => x.1 / 6 == d && decide (93 ≤ x.2)

/-- Set a die's supply. -/
def State.setSupply (s : State) (d mv : Nat) : State :=
  { s with power := { s.power with supply := Sp.put s.cfg.supplyStart s.power.supply d mv } }

/-- SUPPLY_STEP: the demand rule (R352). Under the heat rule the supply moves by that rule alone (log 39). A supply that F-A102 had
found low is in regulation again (log 135). -/
def execSupplyStep (d : DieId) (s0 : State) : Host.Outcome State Fault Refusal :=
  let s := { s0 with power := { s0.power with under := Sp.put false s0.power.under d.val false } }
  let f := countIf id (Sp.get [] s.power.stops d.val)
  let v := s.supply d.val
  if !s.alive then .next s0
  else if s.dieHot d.val then .next s
  else if 10 < f then .next (s.setSupply d.val (max 540 (v - 5)))
  else if f < 1 then .next (s.setSupply d.val (min 660 (v + 5)))
  else .next s

/-- Have all logic sensors read 95 degrees or below? -/
def State.logicCool (s : State) : Bool := s.power.temp.all fun x => decide (x.2 ≤ 95)

/-- The hold of R353 ends once every logic sensor has read 95 degrees or below for 10 s. -/
def State.coolTimer (s : State) : State :=
  let p := s.power
  if !s.logicCool then { s with power := { p with coolSince := 0 } }
  else if p.coolSince = 0 then { s with power := { p with coolSince := s.now + 1 } }
  else if p.coolSince - 1 + 10000000000 ≤ s.now then { s with power := { p with heatHold := false } }
  else s

/-- LOGIC_SENSOR_READ: the hottest of a die's 16 sensors (R353). -/
def execLogicSensorRead (d : DieId) (temp : Celsius) (s : State) : Host.Outcome State Fault Refusal :=
  if !s.alive then .next s
  else
  let p := s.power
  let k := d.val
  let x := shown temp
  let s1 := { s with power := { p with temp := Sp.put 0 p.temp k x, tempMax := Sp.put 0 p.tempMax k (max (Sp.get 0 p.tempMax k) x) } }
  let s2 :=
    if s1.dieHot k then s1.setSupply k (max 540 (s1.supply k - 10))
    else { s1 with power := { s1.power with halvings := Sp.put 0 s1.power.halvings k 0 } }
  let s3 := s2.coolTimer
  if 106 ≤ temp then
    let s4 := { s3 with power := { s3.power with heatHold := true } }.logEvent 0xA101 none (0, 0)
    .next (s4.abandonAll 0xA101 0x3FF true s4.running)
  else .next s3

/-- HEAT_GRANT_HALVE: at 0.54 V a die under the heat rule has its Noon grants halved (R353). -/
def execHeatGrantHalve (d : DieId) (s : State) : Host.Outcome State Fault Refusal :=
  if s.alive && s.dieHot d.val && s.supply d.val == 540 then
    .next { s with power := { s.power with halvings := Sp.put 0 s.power.halvings d.val (Sp.get 0 s.power.halvings d.val + 1) } }
  else .next s

/-- The packages a failing supply of die `d` affects: those with a task on a tile of the die, a descriptor in its queue, or an
unwritten pinned descriptor of which it is the home (DESIGN CHOICE, log 128). -/
def State.workOnDie (s : State) (d : Nat) : List Nat :=
  ((List.range 144).flatMap fun i => s.lostWith (d * 144 + i) ++ (s.tile (d * 144 + i)).queue.map Desc.tag).eraseDups

/-- SUPPLY_UNDER: a die's sensed supply falls below 0.53 V, a hardware failure that abandons the packages it affects (R352,
R370, R479). -/
def execSupplyUnder (d : DieId) (s : State) : Host.Outcome State Fault Refusal :=
  if !s.alive then .next s
  else
    let s1 := { s with power := { s.power with under := Sp.put false s.power.under d.val true } }
    .next ((s1.logEvent 0xA102 none (0, 0)).abandonAll 0xA102 0x3FF true (s.workOnDie d.val))

/-! ### Blades (R370, R465, R466) -/

/-- Is a blade voltage in 0.1 V inside 40 to 60 V? -/
def voltsOk (volts : Nat) : Bool := decide (400 ≤ volts ∧ volts ≤ 600)

/-- INPUT_OUT_OF_RANGE: the blade voltage lies outside 40 to 60 V, and PWR_OK falls at once (R458); once it has lasted for more than
1 ms it is a hardware failure of the whole module that abandons every running package (R370, R479; log 128). The same reading
inside the range ends the condition (log 40). -/
def execInputOutOfRange (r : VoltReading) (s : State) : Host.Outcome State Fault Refusal :=
  let ok := voltsOk r.volts
  let s1 := { s with start := { s.start with input := ok } }
  if s.start.phase = .off then .next s1
  else
    let s2 := { s1 with power := { s1.power with volts := r.volts, inputBad := !ok && (r.lasted || s.power.inputBad) } }
    .next (if ok || !r.lasted then s2 else (s2.logEvent 0xA103 none (0, 0)).abandonAll 0xA103 0x3FF true s2.running)

/-- BLADE_SENSE: the currents of both pairs are read. -/
def execBladeSense (a b : Nat) (s : State) : Host.Outcome State Fault Refusal :=
  if s.start.phase = .off then .next s else .next { s with power := { s.power with blade := (a, b) } }

/-- Current of a pair. -/
def PowerState.pair (p : PowerState) (k : Fin 2) : Nat := if k = 0 then p.blade.1 else p.blade.2

/-- Is a pair lost? -/
def PowerState.isLost (p : PowerState) (k : Fin 2) : Bool := if k = 0 then p.lost.1 else p.lost.2

/-- A pair is lost, or no longer. -/
def PowerState.setLost (p : PowerState) (k : Fin 2) (x : Bool) : PowerState :=
  { p with lost := if k = 0 then (x, p.lost.2) else (p.lost.1, x) }

/-- BLADE_PAIR_LOST: a pair carries less than 5 % while the total exceeds 5 A; that it has for 10 ms is the event (R466). -/
def execBladePairLost (pair : Fin 2) (s : State) : Host.Outcome State Fault Refusal :=
  let p := s.power
  let total := p.blade.1 + p.blade.2
  if s.start.phase ≠ .off ∧ p.pair pair * 20 < total ∧ 50 < total ∧ !p.isLost pair then
    .next (({ s with power := p.setLost pair true }.logEvent 0xA105 none (0, 0)).points 25)
  else .next s

/-- BLADE_PAIR_RESTORED: the lost pair carries at least 40 % of the total; that it has for 1 s is the event (R466). -/
def execBladePairRestored (pair : Fin 2) (s : State) : Host.Outcome State Fault Refusal :=
  let p := s.power
  if p.isLost pair ∧ (p.blade.1 + p.blade.2) * 40 ≤ p.pair pair * 100 then .next { s with power := p.setLost pair false }
  else .next s

/-! ### The LATE timer (R361, R362) -/

/-- Does a task of a package run at a tile? -/
def State.runsTask (s : State) (tag : Nat) : Bool :=
  s.tiles.any fun x => match x.2.vesper with | some c => c.desc.tag == tag | none => false

/-- The cause of a timer LATE and its FAULT. Two things are free here (log 41): whether a task that still runs has by now gone
beyond kappa * COST_S, as its waves are stated at its end alone, and whether a WAIT stage has exceeded its bound, which is not
among what the module checks (R355). -/
def State.lateCause (s : State) (p : Pkg) : Nat × Nat :=
  let waits : Bool := match p.cost with | some c => c.stages.any (·.kind == 4) | none => false
  let other : Nat × Nat :=
    if p.overran || (s.runsTask p.tag && s.free.getLsbD 1) then (2, 0) else if waits && s.free.getLsbD 0 then (3, 0) else (1, 0xA301)
  match s.power.hardware with
  | some (code, at_) => if p.acceptedAt ≤ at_ then (1, code) else other
  | none => other

/-- Has a package's timer fired, D - 5 us after acceptance (R361)? -/
def State.lateDue (s : State) (p : Pkg) : Bool := match p.cost with | some c => s.passed p.acceptedAt (c.duration - 5000) | none => true

/-- LATE_TIMER: D - 5 us after acceptance the package has not ended. -/
def execLateTimer (tag : Nat) (s : State) : Host.Outcome State Fault Refusal :=
  match s.pkg? tag with
  | none => .next s
  | some p =>
    if !p.vesper || p.late || !s.lateDue p then .next s
    else
      let c := s.lateCause p
      let s1 := if c.2 = 0xA301 then s.drawn.logEvent 0xA301 (some p.job) (0, 0) else s.drawn
      .next (s1.sendLate tag c.1 c.2)

end Sys2Proof.Machine
end

