-- ==== Sys2Proof/Machine/Admission.lean ====
section
/-!
DEFINITION. The admission unit: stage bounds and the tests for a Vesper package (R265, R355 to R358).
-/
namespace Sys2Proof.Machine

/-- hop(l) of R265 in ns. -/
def hopNs (l : Nat) : Rat := 11.08 + 160 + 5 * l

/-- retry(l) of R265. -/
def retryNs (l : Nat) : Rat := 2 * hopNs l + 600

/-- One detour allowance (Table 14-3). -/
def detourNs : Rat := hopNs 100 + retryNs 100 + 420

/-- VESPER_SHARE x 800 Gb/s in bits per ns. -/
def State.shareRate (s : State) : Rat := (s.cfg.vesperShare : Rat) / 200 * 800

/-- Dimensions in which this module and a destination differ. -/
def State.hopsTo (s : State) (dst : Nat) : Nat := (s.openDims dst).length

/-- LENGTH_M of the first link of a dimension-ordered route, and whether the port shows a detour there (R259). -/
def State.firstLink (s : State) (dst : Nat) : Nat × Bool :=
  match s.openDims dst with
  | [] => (0, false)
  | k :: _ => let p := portTo k (coordOf s.hall k) (coordOf dst k); ((s.port p).lengthM, !s.up p)

/-- Bound of a FABRIC stage (Table 14-3). -/
def State.fabricBound (s : State) (dst amount : Nat) (acked : Bool) : Rat :=
  let n := s.hopsTo dst
  let x := s.firstLink dst
  let links : Rat := if n = 0 then 0 else (hopNs x.1 + retryNs x.1) + ((n : Rat) - 1) * (hopNs 100 + retryNs 100)
  let mid : Rat := ((n : Rat) - 1) * 420
  let middle : Rat := if n = 0 then 0 else mid
  let first : Rat := 600 + links + middle + 400
  let more : Rat := ((cdiv amount 960 : Nat) - 1 : Nat) * (8864 / s.shareRate)
  let detours : Rat := ((bit x.2 + (n - 1) : Nat) : Rat) * detourNs
  let reply : Rat := if acked then 400 + links + middle + 400 + (n : Rat) * detourNs else 0
  first + more + 305 + detours + reply

/-- A held package's loads, with its calibration factor, duration and time since acceptance. -/
structure Load where
  /-- The cost table. -/
  cost : Cost
  /-- kappa at acceptance. -/
  kappa : Rat
  /-- Elapsed ns. -/
  elapsed : Nat
  deriving DecidableEq, Repr

/-- COST_S_TOTAL of a package on a tile. -/
def Cost.on (c : Cost) (t : Nat) : Nat := sumNat ((c.loads.filter (·.1 == t)).map (·.2.1))

/-- CHANNEL_KIB of a package on a channel. -/
def Cost.kib (c : Cost) (t : Nat) : Nat := sumNat ((c.loads.filter (·.1 == t)).map (·.2.2))

/-- ahead(t): COST_S_TOTAL of the others. -/
def aheadOf (others : List Load) (t : Nat) : Nat := sumNat (others.map fun o => o.cost.on t)

/-- Bound of one stage in ns (Table 14-3). -/
def State.stageBound (s : State) (j : Nat → Nat) (kappa : Rat) (others : List Load) (g : Stage) : Rat :=
  if g.kind = 1 then
    let a : Nat := 1162 + 2 + s.cfg.vesperStealLimit
    (kappa * g.amount + kappa * aheadOf others g.place + (g.tasks * a : Nat)) * 0.52 / 0.98
  else if g.kind = 2 then 305 + ((g.amount + sumNat (others.map fun o => o.cost.kib g.place * 1024) : Nat) : Rat) / 222.7
  else if g.kind = 3 then s.fabricBound (j g.dst) g.amount g.acked
  else g.amount

/-- T of R356: the sum over the stages. -/
def State.boundOf (s : State) (j : Nat → Nat) (c : Cost) (kappa : Rat) (others : List Load) : Rat :=
  c.stages.foldl (fun a g => a + s.stageBound j kappa others g) 0

/-- kappa as a rational. -/
def kappaRat (k : BitVec 32) : Rat := (f32 k.toNat).toRat

/-- The held Vesper packages with a cost table, with the map from device to hall number of their jobs. -/
def State.vesperLoads (s : State) : List (Load × (BitVec 16)) :=
  s.pkgs.filterMap fun p => if p.vesper then p.cost.map fun c => (⟨c, kappaRat p.kappa, s.elapsed p⟩, p.job) else none

/-- The hall number of a device of a job, whether or not its context exists. -/
def State.hallIn (s : State) (job : BitVec 16) (d : Nat) : Nat := match s.job? job with | some j => j.hallOf d | none => d

/-- Does a package meet test 3: its bound, recomputed with the others, fits in what is left of its duration? -/
def State.stillFits (s : State) (all : List (Load × BitVec 16)) (i : Nat) : Bool :=
  match all[i]? with
  | none => true
  | some x =>
    let others := (all.take i ++ all.drop (i + 1)).map (·.1)
    decide (s.boundOf (s.hallIn x.2) x.1.cost x.1.kappa others + 5000 ≤ (x.1.cost.duration : Rat) - x.1.elapsed)

/-- Test 4 for a tile. -/
def State.tileFits (s : State) (all : List Load) (t : Nat) : Bool :=
  decide (all.foldl (fun (a : Rat) x => a + x.kappa * x.cost.on t * 0.52 / x.cost.duration) 0 ≤ (s.cfg.vesperTileShare : Rat) / 200)

/-- Test 6 for a port. -/
def State.portFits (s : State) (all : List Load) (p : Nat) : Bool :=
  decide (all.foldl (fun (a : Rat) x => a + (sumNat ((x.cost.ports.filter (·.1 == p)).map (·.2)) * 8 : Nat) / (x.cost.duration : Rat)) 0 ≤ s.shareRate)

/-- A bound in whole ns, not below it (log 44). -/
def ceilNs (x : Rat) : Nat := (cdiv x.num.toNat x.den)

/-- The tests of R357 for a new package of a job, in order: the first failing code and T; with no code, T. A broken table
is F-A206 before them. -/
def State.enrol (s : State) (job : BitVec 16) (cost : Option Cost) : Option Nat × Nat :=
  match cost with
  | none => (some 0xA206, 0)
  | some c =>
    if 16 ≤ countIf (·.vesper) s.pkgs then (some 0xA201, 0)
    else
      let held := s.vesperLoads
      let me : Load × BitVec 16 := (⟨c, kappaRat s.power.kappa, 0⟩, job)
      let all := held ++ [me]
      let loads := all.map (·.1)
      let t := s.boundOf (s.hallIn job) c me.1.kappa (held.map (·.1))
      let n := ceilNs t
      if (c.duration : Rat) < t + 5000 then (some 0xA202, n)
      else if !(List.range all.length).all (s.stillFits all) then (some 0xA203, n)
      else if !(List.range 576).all (s.tileFits loads) then (some 0xA204, n)
      else if (s.cfg.vesperPowerShare : Rat) / 200 * s.cfg.powerLimit < (sumNat (loads.map (·.cost.tilesMax)) : Rat) * 4.5 then (some 0xA205, n)
      else if !(List.range 40).all (s.portFits loads) then (some 0xA206, n)
      else (none, n)

end Sys2Proof.Machine
end

