-- ==== Sys2Proof/Machine/Accept.lean ====
section
/-!
DEFINITION. The checks of a work package in the order of R385, and its acceptance (R204 to R209, R240, R277, R299, R325,
R337, R338, R358, R385 to R389, R402, R405).
-/
namespace Sys2Proof.Machine

/-- A package whose structure is as R386 to R389 have it. -/
structure Parsed where
  /-- Header. -/
  head : PkgHead
  /-- Kernels. -/
  kernels : List Kernel
  /-- Tasks. -/
  tasks : List Desc
  /-- LANDING. -/
  landing : Option Landing
  /-- GROUPS. -/
  groups : List (Nat × List Nat)
  /-- RESTORE. -/
  restore : Option Restore
  /-- The bytes. -/
  data : List Byte
  deriving DecidableEq, Repr

/-! ### Structure (R386 to R389) -/

/-- Page-map words of a package. -/
def mapWords (b : List Byte) : List Nat := (List.range (b.length / 8)).map fun i => wordAt b (8 * i)

/-- Are the sections that the kind asks for present (Table 15-8)? -/
def PkgHead.required (h : PkgHead) (first : Bool) : Bool :=
  let has (ty : Nat) : Bool := (h.sect ty).isSome
  (h.kind == 3 || (has 1 && has 2)) && (has 1 == has 2) && (!first || (has 3 && has 4)) && (h.kind != 1 || (has 8 && has 9)) &&
    (h.kind != 3 || (has 9 && has 10)) && (!h.vesper || has 11)

/-- The pages named by a LANDING section lie in the page map, and its groups exist (R389). -/
def landingKnown (x : Landing) (vpages groups : List Nat) : Bool :=
  let inMap (v n : Nat) : Bool := (List.range n).all fun i => vpages.contains (v + i)
  x.slots.all (fun s => inMap s.1 s.2) && x.layers.all fun l => inMap l.vpage l.pages && groups.contains l.grantGroup

/-- The structure of a package; none: F-7301. -/
def State.parsePkg (s : State) (d : List Byte) (pid total : Nat) : Option Parsed :=
  match parseHead d pid total with
  | none => none
  | some h =>
    let j := s.job? h.job
    let kb := h.body d 1
    let tb := h.body d 2
    let lb := h.body d 7
    let gs := groupsOf (h.body d 6)
    let rs := restoreOf? (h.body d 10)
    let vps := (match j with | some j => (j.pages.filter fun p => !p.window).map (·.vpage) | none => []) ++
      ((mapWords (h.body d 3)).filter fun w => !flag w 21).map fun w => fld w 0 21
    let gids := (match j with | some j => j.groups.map (·.1) | none => []) ++ (match gs with | some g => g.map (·.1) | none => [])
    let sizes : Bool := (h.body d 3).length % 8 == 0 && (h.body d 5).length % 8 == 0 && ((h.sect 4).isNone || (h.body d 4).length == 192)
    let same : Bool := match j with | some j => j.devices == h.devices | none => true
    let lands : Bool := (h.sect 7).isNone || (landingForm lb && landingKnown (landingOf lb) vps gids)
    let filled : Bool := h.kind == 0 || h.kind == 3 || !kb.isEmpty
    if h.required j.isNone && sizes && same && lands && filled && gs.isSome && (h.kind != 3 || rs.isSome) && kernelsOk kb tb then
      some ⟨h, kernelsOf kb, tasksOf tb, if (h.sect 7).isSome then some (landingOf lb) else none, gs.getD [], if h.kind = 3 then rs else none, d⟩
    else none

/-! ### Pages (R205, R206, R209) -/

/-- An entry's own form (Table 08-5). -/
def entryOk (w : Nat) : Bool :=
  decide (fld w 22 10 ≤ 575) && decide (fld w 32 2 ≤ 2) && (flag w 21 || fld w 32 2 == 0) && fld w 44 20 == 0

/-- Scratchpad page of a window entry. -/
def windowPlace (w : Nat) : Nat := fld w 22 10 * 3 + fld w 32 2

/-- Does an entry name the page of another? -/
def samePage (w : Nat) (p : Page) : Bool := p.window == flag w 21 && p.vpage == fld w 0 21

/-- F-1204 for one entry against the context's pages, all window pages of the module, and the entries before it. -/
def mapFault (own all : List Page) (earlier : List Nat) (w : Nat) : Bool :=
  let repeated (x : Nat) : Bool := fld x 0 22 == fld w 0 22
  if !entryOk w then true
  else if own.any (fun p => samePage w p && p.entry.toNat != w) || earlier.any (fun x => repeated x && x != w) then true
  else if own.any (samePage w) || earlier.any repeated then false
  else flag w 21 && (all.any (fun p => p.window && p.place == windowPlace w) || earlier.any fun x => flag x 21 && windowPlace x == windowPlace w)

/-- Does any entry of a map break R205 or R206? -/
def mapBad (own all : List Page) : List Nat → List Nat → Bool
  | _, [] => false
  | earlier, w :: ws => mapFault own all earlier w || mapBad own all (earlier ++ [w]) ws

/-- The lowest free frame of a channel that is not retired. -/
def State.freeFrame (s : State) (used : List Nat) (ch : Nat) : Option Nat :=
  if Sp.get false s.mem.failed ch then none
  else ((List.range 2046).find? fun f => !used.contains (ch * 2048 + f) && !Sp.get false s.mem.retired (ch * 2048 + f)).map (ch * 2048 + ·)

/-- The frame of a DRAM page: of its channel, else of the nearest channel of the die; whether it spilled (R206). -/
def State.frameFor (s : State) (used : List Nat) (home : Nat) : Option (Nat × Bool) :=
  match s.freeFrame used home with
  | some f => some (f, false)
  | none =>
    let cs := ((List.range 144).map (· + dieOf home * 144)).filter fun c => (s.freeFrame used c).isSome
    (leastBy (fun c => manhattan home c) cs).bind fun c => (s.freeFrame used c).map fun f => (f, true)

/-- Place the entries of a map that are not mapped yet: the new pages and the spills; none: F-1205. -/
def State.placePages (s : State) (own : List Page) : List Nat → List Page → List Nat → Option (List Page × Nat)
  | _, _, [] => some ([], 0)
  | used, new, w :: ws =>
    if own.any (samePage w) || new.any (samePage w) then s.placePages own used new ws
    else
      let mk (place : Nat) : Page := ⟨flag w 21, fld w 0 21, fld w 34 8, flag w 43, place, BitVec.ofNat 64 w⟩
      if flag w 21 then
        (s.placePages own used (new ++ [mk (windowPlace w)]) ws).map fun r => (mk (windowPlace w) :: r.1, r.2)
      else
        match s.frameFor used (fld w 22 10) with
        | none => none
        | some (f, sp) => (s.placePages own (used ++ [f]) (new ++ [mk f]) ws).map fun r => (mk f :: r.1, r.2 + bit sp)

/-- Every page of the module. -/
def State.allPages (s : State) : List Page := s.jobs.flatMap (·.pages)

/-! ### Count pairs (R277) -/

/-- Does a count-table entry break R277 against the pairs before it? -/
def pairBad (ps : List (Nat × Nat × Nat)) (w : Nat) : Bool :=
  let p := fld w 0 12
  let c := fld w 12 12
  let n := fld w 24 31
  p == c || c % 576 != p % 576 || n == 0 || fld w 55 9 != 0 ||
    (!ps.contains (p, c, n) && ps.any fun x => x.1 == p || x.2.1 == p || x.1 == c || x.2.1 == c)

/-- The pairs after a count table; none: F-4102. -/
def addPairs : List (Nat × Nat × Nat) → List Nat → Option (List (Nat × Nat × Nat))
  | ps, [] => some ps
  | ps, w :: ws =>
    if pairBad ps w then none
    else
      let x := (fld w 0 12, fld w 12 12, fld w 24 31)
      addPairs (if ps.contains x then ps else ps ++ [x]) ws

/-- The entry of a count table that conflicts first. -/
def firstConflict : List (Nat × Nat × Nat) → List Nat → Option Nat
  | _, [] => none
  | ps, w :: ws => if pairBad ps w then some w else firstConflict ((addPairs ps [w]).getD ps) ws

/-! ### Gradient and Chrysalis (R297 to R300, R325, R337, R338) -/

/-- The device number that this module will play for the package. -/
def State.playedDevice (s : State) (p : Parsed) : Nat :=
  match p.restore.bind fun r => r.lost.find? (·.2.1 == s.hall) with
  | some x => x.1
  | none => match s.job? p.head.job with | some j => s.deviceOf j | none => s.hall

/-- Does a region lie in DRAM pages of the context whose HOME is a tile? -/
def regionHomed (pages : List Page) (own tile a n : Nat) : Bool :=
  ownAddr own a && (List.range (cdiv (a % 2 ^ 21 + n) (2 ^ 21))).all fun i =>
    pages.any fun p => !p.window && p.vpage == fld a 21 21 + i && fld p.entry.toNat 22 10 == tile

/-- Regions of a bucket: address within the device, bytes. -/
def Bucket.regions (b : Bucket) : List (Nat × Nat) :=
  let n := 4 * b.elements
  let g := 16 * cdiv b.elements 1024
  [(b.sums.1.toNat % 2 ^ 42, n), (b.sums.2.toNat % 2 ^ 42, n), (b.granules.1.toNat % 2 ^ 42, g), (b.granules.2.toNat % 2 ^ 42, g)]

/-- The rules of R298 and R300 over all buckets. -/
def bucketsOk (pages : List Page) (own : Nat) (bs : List Bucket) : Bool :=
  bs.all (fun b => regionHomed pages own b.tile b.sums.1.toNat (4 * b.elements) && regionHomed pages own b.tile b.sums.2.toNat (4 * b.elements) &&
    regionHomed pages own b.tile b.granules.1.toNat (16 * cdiv b.elements 1024) &&
    regionHomed pages own b.tile b.granules.2.toNat (16 * cdiv b.elements 1024)) &&
  allPairs apart (bs.flatMap (·.regions)) &&
  bs.all fun b => match b.checkOf with
    | none => true
    | some m => match bs.find? (·.id == m) with
      | some x => x.checkOf.isNone && b.tile / 144 != x.tile / 144
      | none => false

/-- DEADLINE_SEED in us. -/
def State.seedF (s : State) : BitVec 32 := BitVec.ofNat 32 (toF32 (FV.ofInt (s.cfg.deadlineSeed * 1000)))

/-- DEADLINE_SEED / 4 in us. -/
def State.seedV (s : State) : BitVec 32 := BitVec.ofNat 32 (toF32 (FV.ofInt (s.cfg.deadlineSeed * 250)))

/-- The gradient block of a package: none where it has none or breaks its form. -/
def State.gradOf (s : State) (p : Parsed) : Option (GradBlock × List Bucket) :=
  if (p.head.sect 8).isSome then gradientOf? p.data (p.head.body p.data 8) p.head.devices s.seedF s.seedV else none

/-- LAYERS and BUCKET_COUNT for the step record: of the package's gradient block, else of the context's, else free (log 45). -/
def State.shapeFor (s : State) (p : Parsed) : Nat × Nat :=
  match s.gradOf p with
  | some g => (g.1.layers, g.2.length)
  | none => match (s.job? p.head.job).bind (·.chrys) with
    | some c => c.shape
    | none => (1 + s.free.toNat % 65535, s.free.toNat / 2 ^ 16 % 65536)

/-- The methods that the secured tensors of a context have (R323). -/
def State.knownMethods (s : State) (job : BitVec 16) : List (Nat × Bool) := match s.job? job with | some j => j.methods | none => []

/-- The methods of a context after a block: that of a tensor which has none yet is new. -/
def JobCtx.withMethods (j : JobCtx) (ts : List Tensor) : JobCtx :=
  { j with methods := j.methods ++ (ts.filter fun t => !j.methods.any (·.1 == t.id)).map fun t => (t.id, t.mirror) }

/-- The Chrysalis block of a package. -/
def State.chrysIn (s : State) (p : Parsed) : Chrys × Bool × Bool :=
  chrysOf s.cfg (s.knownMethods p.head.job) p.data (p.head.body p.data 9) (s.playedDevice p) (s.shapeFor p)

/-- Halls of the partners that R337 compares, with the remap that the package installs. -/
def State.partnerHalls (s : State) (p : Parsed) (c : Chrys) : List Nat :=
  let own := s.playedDevice p
  let hallOf (d : Nat) : Nat := match p.restore.bind fun r => r.lost.find? (·.1 == d) with | some x => x.2.1 | none => s.hallIn p.head.job d
  (c.recordPartner :: c.tensors.flatMap fun t => if t.mirror then [t.partner] else t.group.filter (· != own)).map hallOf

/-- Shared pairings (R336, R337). -/
def State.sharedPairs (s : State) (hs : List Nat) : Nat :=
  countIf (fun h => let d := Sp.get 15 s.cfg.feedMap h; d == 15 || s.health.domain == 15 || d == s.health.domain) hs

/-- Does the kind use the Chrysalis section? -/
def Parsed.secures (p : Parsed) : Bool := p.head.kind == 1 || p.head.kind == 3

/-! ### The checks (R385) -/

/-- The first code of a list of checks. -/
def firstCode : List (Bool × Nat) → Option Nat
  | [] => none
  | (b, c) :: xs => if b then some c else firstCode xs

/-- A wait that names no count of this module (R388). -/
def State.waitForeign (s : State) (p : Parsed) (r : Nat) : Bool :=
  countRefBad r || !(refDevice r == 0x3FFF || refDevice r == s.playedDevice p)

/-- Steps 1 to 4 of R385 after the structure, and F-7303: the first failing code. -/
def State.declineCode (s : State) (conn : BitVec 32) (pid : Nat) (p : Parsed) : Option Nat :=
  let h := p.head
  let j := s.job? h.job
  let own := match j with | some j => j.pages | none => []
  let ws := mapWords (h.body p.data 3)
  let used := ((s.allPages).filter fun q => !q.window).map (·.place)
  let placed := s.placePages own used [] ws
  let pages := own ++ (match placed with | some x => x.1 | none => [])
  let pins := countIf (·.pin) s.allPages + (match placed with | some x => countIf (·.pin) x.1 | none => 0)
  let pairs := addPairs (match j with | some j => j.pairs | none => []) (mapWords (h.body p.data 5))
  let ch := s.chrysIn p
  let halls := s.partnerHalls p ch.1
  let committed := match j.bind (·.chrys) with | some c => c.gen.toNat | none => 0
  -- a module that a SPARE entry names holds no generation of the job yet (R338, R340)
  let spare := match p.restore with | some r => r.lost.any (·.2.1 == s.hall) | none => false
  firstCode [
    (s.pkgs.any (fun q => q.conn == conn && q.pid == pid), 0x7302),
    (s.sec.zeroing.isSome, 0x8203),
    (s.sec.tenant.isNone, 0x8201),
    (match s.sec.tenant with | some t => decide (h.job.toNat < t.jobFirst ∨ t.jobLast < h.job.toNat) | none => false, 0x8205),
    (s.health.withdrawn, 0x6105),
    (s.mem.hold, 0x1301),
    (s.power.heatHold, 0xA101),
    (mapBad own s.allPages [] ws, 0x1204),
    (j.isNone && decide (8 ≤ s.jobs.length), 0x1205),
    (placed.isNone, 0x1205),
    (decide (64 < pins), 0x1207),
    (p.kernels.any fun k => k.waits.any fun w => s.waitForeign p w.1, 0x4101),
    (pairs.isNone, 0x4102),
    (h.kind == 1 && (match s.gradOf p with | some g => !bucketsOk pages (s.playedDevice p) g.2 | none => true), 0x5101),
    (p.secures && !ch.2.2, 0x6101),
    (p.secures && !ch.2.1 && decide (0 < s.sharedPairs halls), 0x6102),
    (h.kind == 3 && s.pkgs.any (fun q => q.job == h.job), 0x6104),
    (h.kind == 3 && !spare && committed == 0, 0x6303),
    (!h.vesper && decide (4 ≤ countIf (fun q => !q.vesper) s.pkgs), 0x7303)]

/-- The count that a decline with F-4101 or F-4102 records under R295: its index, and its VALUE here; the VALUE of another
module's count is a free value (log 97). -/
def State.syncIndex (s : State) (p : Parsed) (code : Nat) : Option (Nat × Nat) :=
  let j := s.job? p.head.job
  let value (i : Nat) : Nat := match j with | some j => (Sp.get 0#32 j.counts i).toNat | none => 0
  if code = 0x4101 then
    (p.kernels.findSome? fun k => k.waits.findSome? fun w => if s.waitForeign p w.1 then some (refIndex w.1) else none).map
      fun i => (i, s.free.toNat % 2 ^ 32)
  else if code = 0x4102 then
    (firstConflict (match j with | some j => j.pairs | none => []) (mapWords (p.head.body p.data 5))).map fun w => (fld w 0 12, value (fld w 0 12))
  else none

/-- The whole verdict on a package: a code, or none, and T (R385). -/
def State.judge (s : State) (conn : BitVec 32) (pid : Nat) (p : Parsed) : Option Nat × Nat :=
  match s.declineCode conn pid p with
  | some c => (some c, 0)
  | none => if p.head.vesper then s.enrol p.head.job (costOf? (p.head.body p.data 11)) else (none, 0)

/-! ### Acceptance -/

/-- A fresh context (R204, R273, R283). -/
def freshJob (job : BitVec 16) (devices : Nat) (lossScale : BitVec 32) : JobCtx :=
  { id := job, localRights := [], remoteRights := [], hostRights := [], pages := [], remap := [], groups := [], counts := [], watch := [],
    pairs := [], barriers := [], outbound := [], inbox := [], hostWaiters := [], trackers := [], tx := [], devices := devices, streamK := 0,
    streamC := 0, step := 0, steps := 0, stepAt := 0, stepping := false, grad := none, buckets := [], estimates := [], normsDue := none,
    vesper := false, gradFlag := (false, false),
    checkFlag := (false, false), rounded := false, formed := 0, verdict := none, seen := [], lossScale := lossScale, clean := 0, skips := 0,
    lastFlags := 0, chrys := none, flips := [], verdicts := 0, landedAt := [], skipped := [], methods := [], restored := [], keySlots := [], sealed := 0, m4 := 0, host := (0, 0) }

/-- LOSS_SCALE_SEED as FP32. -/
def State.seedScale (s : State) : BitVec 32 := BitVec.ofNat 32 (toF32 (.fin false 1 s.cfg.lossSeed))

/-- Zero a frame, poison included. -/
def State.zeroFrame (s : State) (place : Nat) : State :=
  { s with mem := { s.mem with dram := s.mem.dram.filter (fun e => e.1 / 2 ^ 21 != place), poison := s.mem.poison.filter (fun e => e.1 / 65536 != place) } }

/-- Zero a scratchpad page but for the save area (R59, R205). -/
def State.zeroWindow (s : State) (place : Nat) : State :=
  let x := s.tile (place / 3)
  s.setTile (place / 3) { x with scratch := x.scratch.filter fun e => e.1 / 2 ^ 21 != place % 3 || decide (0x560000 ≤ e.1 ∧ e.1 < 0x5A0000) }

/-- Zero the new pages that ask for it. -/
def State.zeroPages (s : State) : List Page → State
  | [] => s
  | p :: ps => (if flag p.entry.toNat 42 then (if p.window then s.zeroWindow p.place else s.zeroFrame p.place) else s).zeroPages ps

/-- Groups of a context after a GROUPS section. -/
def addGroups (gs new : List (Nat × List Nat)) : List (Nat × List Nat) := gs.filter (fun g => !new.any (·.1 == g.1)) ++ new

/-- Streams of the tiles when a training package creates its context (R54). -/
def State.seedTiles (s : State) (seed : W64) (device : Nat) : Nat → State
  | 0 => s
  | t + 1 =>
    (s.setTile t { s.tile t with streamK := BitVec.ofNat 128 (seed.toNat + t * 2 ^ 64 + device % 2 ^ 14 * 2 ^ 74), streamC := 0 }).seedTiles seed device t

/-- A bucket of a new block: its estimates are kept as long as the context lasts (R306), and the state of its sets where its
regions stay; otherwise its sets take the steps after step n. -/
def JobCtx.keepBucket (j : JobCtx) (b : Bucket) : Bucket :=
  match j.buckets.find? (·.id == b.id) with
  | some o =>
    let b1 := { b with f := o.f, v := o.v, mismatch := o.mismatch }
    if o.elements == b.elements && o.sums == b.sums && o.granules == b.granules then
      { b1 with st := o.st, openedAt := o.openedAt, closedAt := o.closedAt, full := o.full, claims := o.claims, begun := o.begun,
                added := o.added, steps := o.steps, checked := o.checked }
    else { b1 with steps := stepsAfter j.step }
  | none =>
    let b1 := { b with steps := stepsAfter j.step }
    match j.estimates.find? (·.1 == b.id) with
    | some e => { b1 with f := e.2.1, v := e.2.2 }
    | none => b1

/-- The estimates of buckets that a new block does not list. -/
def JobCtx.leftEstimates (j : JobCtx) (new : List Bucket) : List (Nat × BitVec 32 × BitVec 32) :=
  let gone (id : Nat) : Bool := !new.any (·.id == id)
  (j.buckets.filter fun b => gone b.id).map (fun b => (b.id, b.f, b.v)) ++
    j.estimates.filter fun e => gone e.1 && !j.buckets.any (·.id == e.1)

/-- A new Chrysalis block with the securing state of the one in force. -/
def keepChrys (old : Option Chrys) (new : Chrys) : Chrys :=
  match old with
  | none => new
  | some o =>
    { new with committed := o.committed, gen := o.gen, preparing := o.preparing, folded := o.folded, prepared := o.prepared, due := o.due,
               level := o.level, pendingStep := o.pendingStep, toSend := o.toSend, toRead := o.toRead, waits := o.waits, folds := o.folds,
               missed := o.missed, changed := o.changed, evalStep := o.evalStep }

/-- Zero every shadow and every parity area of tensors (R325). -/
def State.zeroTensors (s : State) (job : BitVec 16) : List Tensor → State
  | [] => s
  | t :: ts =>
    let s1 := s.poke job t.shadow.toNat (List.replicate t.bytes 0#8)
    (if t.mirror then s1 else s1.poke job t.copy.toNat (List.replicate (2 * t.chunk + 7 * t.bitmap) 0#8)).zeroTensors job ts

/-- At acceptance every shadow, every parity area and every record slot of the block is zeroed (R325). -/
def State.zeroSecured (s : State) (job : BitVec 16) (c : Chrys) : State :=
  (s.zeroTensors job c.tensors).poke job c.recordAddr.toNat (List.replicate (3 * c.recordStride) 0#8)

/-- Is a tensor's shadow and parity area one that is in force with the same bytes? -/
def sameTensor (a b : Tensor) : Bool :=
  a.id == b.id && a.shadow == b.shadow && a.bytes == b.bytes && (a.mirror || (a.copy == b.copy && a.groupBytes == b.groupBytes))

/-- A survivor of a restore is to restore itself from its shadows and its record (R328): only areas that are not in force are
zeroed (log 46). -/
def State.zeroNew (s : State) (job : BitVec 16) (o c : Chrys) : State :=
  let s1 := s.zeroTensors job (c.tensors.filter fun t => !o.tensors.any (sameTensor t))
  if o.recordAddr = c.recordAddr ∧ o.recordStride = c.recordStride then s1
  else s1.poke job c.recordAddr.toNat (List.replicate (3 * c.recordStride) 0#8)

/-- Buckets with the estimates of a record, in table order; a bucket beyond them keeps its own (R341). -/
def loadEstimates : List (BitVec 32 × BitVec 32) → List Bucket → List Bucket
  | e :: es, b :: bs => { b with f := e.1, v := e.2 } :: loadEstimates es bs
  | _, bs => bs

/-- The blocks of a training package come into force. -/
def State.installBlocks (s : State) (job : BitVec 16) (vesper : Bool) (b : GradBlock × List Bucket × Option Chrys) : State :=
  match s.job? job with
  | none => s
  | some j =>
    let c := b.2.2.map (keepChrys j.chrys)
    -- a context that has been restored takes its estimates from the step record (R341)
    s.updJob job fun j => { j with grad := some b.1, buckets := loadEstimates j.restored (b.2.1.map j.keepBucket), restored := [],
                                   estimates := j.leftEstimates b.2.1, chrys := c, vesper := vesper }

/-- The securing state when a restore begins: what the engine had waiting is dropped, and with it a preparation that is not
complete (R339). -/
def Chrys.restart (c : Chrys) : Chrys :=
  let c1 := { c with toSend := [], toRead := [], waits := [], folds := [], missed := false }
  if c.prepared then c1 else { c1 with preparing := none, folded := false, changed := [] }

/-- A restore package installs its remap, zeroes counts and barriers and recreates trackers (R338); with the counts, what is
measured from them starts anew: the steps, the landings and what is passed on (R27, R28). The flags of the step that it ends go
with it (R307), and so do the disagreements (R318). -/
def JobCtx.restart (j : JobCtx) (r : Restore) : JobCtx :=
  { j with remap := j.remap.filter (fun e => !r.isLost e.1) ++ r.lost.map (fun x => (x.1, x.2.1)), counts := [], barriers := [], trackers := [],
           tx := [], seen := [], steps := 0, verdicts := 0, flips := [], landedAt := [], skipped := [], verdict := none, stepping := false,
           buckets := j.buckets.map fun b => { b with mismatch := 0 },
           gradFlag := (false, false), checkFlag := (false, false), normsDue := none, chrys := j.chrys.map (·.restart) }

/-- The lowest tag that no held package has (Table 03-3). -/
def State.freeTag (s : State) : Nat := ((List.range 20).find? fun t => !s.pkgs.any (·.tag == t)).getD 19

/-- The context of an accepted package: created or extended. -/
def State.contextFor (s : State) (p : Parsed) (conn : BitVec 32) (key : BitVec 256) : State :=
  let h := p.head
  let own := s.playedDevice p
  let isNew := (s.job? h.job).isNone
  let s1 := if isNew then { s with jobs := s.jobs ++ [freshJob h.job h.devices s.seedScale] } else s
  let s2 := if isNew ∧ h.kind = 1 then
      (s1.seedTiles h.seed own 576).updJob h.job fun j => { j with streamK := BitVec.ofNat 128 (h.seed.toNat + 0x3FF * 2 ^ 64), streamC := 0 }
    else s1
  let old := match s.job? h.job with | some j => j.pages | none => []
  let used := (s.allPages.filter fun q => !q.window).map (·.place)
  let placed := (s.placePages old used [] (mapWords (h.body p.data 3))).getD ([], 0)
  let rb := h.body p.data 4
  let hasRights := (h.sect 4).isSome
  let pairs (j : JobCtx) : List (Nat × Nat × Nat) := (addPairs j.pairs (mapWords (h.body p.data 5))).getD j.pairs
  let s3 := s2.updJob h.job fun j =>
    { j with pages := j.pages ++ placed.1, pairs := pairs j, groups := addGroups j.groups p.groups,
             localRights := if hasRights then spanOf rb 0 64 else j.localRights, remoteRights := if hasRights then spanOf rb 64 64 else j.remoteRights,
             hostRights := if hasRights then spanOf rb 128 64 else j.hostRights, host := (conn, key),
             m4 := BitVec.ofNat 512 (leNat (sha512 (leBytes 64 j.m4.toNat ++ sha512 p.data))) }
  (s3.zeroPages placed.1).bump 0x1030 placed.2

/-- The blocks of an accepted package: in force at once, unless another training package of the job is held (log 43). -/
def State.blocksFor (s : State) (p : Parsed) : Option (GradBlock × List Bucket × Option Chrys) :=
  if p.head.kind = 1 then (s.gradOf p).map fun g => (g.1, g.2, some (s.chrysIn p).1) else none

/-- The shadows, parity areas and record slots of an accepted block are zeroed (R325). -/
def State.zeroAccepted (s : State) (job : BitVec 16) (c : Option Chrys) : State :=
  match c with
  | some c => (s.updJob job (·.withMethods c.tensors)).zeroSecured job c
  | none => s

/-- Restore packages bring their Chrysalis block and restart the context (R338). -/
def State.restoreContext (s : State) (p : Parsed) (shape : Nat × Nat) : State :=
  match p.restore with
  | none => s
  | some r =>
    let job := p.head.job
    let c0 := (chrysOf s.cfg (s.knownMethods job) p.data (p.head.body p.data 9) (s.playedDevice p) shape).1
    let old := (s.job? job).bind (·.chrys)
    let c := keepChrys old c0
    let s1 := s.updJob job fun j => { j.withMethods c.tensors with chrys := some c }
    let s2 := match old with
      | some o => if r.isLost (s.playedDevice p) then s1.zeroSecured job c else s1.zeroNew job o c
      | none => s1.zeroSecured job c
    s2.updJob job fun j => j.restart r

/-- The package as held. -/
def State.heldPkg (s : State) (p : Parsed) (conn : BitVec 32) (key : BitVec 256) (pid t tag : Nat)
    (blocks : Option (GradBlock × List Bucket × Option Chrys)) : Pkg :=
  let h := p.head
  { tag := tag, vesper := h.vesper, kind := h.kind, pid := pid, job := h.job, jobEnd := h.jobEnd, stepCount := h.steps, faultNotify := h.notify,
    seed := h.seed, conn := conn, hostKey := key, kernels := p.kernels, tasks := p.tasks,
    landing := if h.kind = 1 then p.landing else none, cost := if h.vesper then costOf? (h.body p.data 11) else none, restore := p.restore,
    acceptedAt := s.now, t := t, kappa := s.power.kappa, running := false, step := 0, untold := [], ready := [], written := [], ended := [],
    overran := false, late := false, blocks := blocks }

/-- Acceptance: the module records the package as held (R358). -/
def State.admitPkg (s : State) (p : Parsed) (conn : BitVec 32) (key : BitVec 256) (pid t : Nat) : State :=
  let h := p.head
  let shape := s.shapeFor p
  let blocks := s.blocksFor p
  let later := s.pkgs.any fun q => q.job == h.job && q.kind == 1
  let tag := s.freeTag
  let s1 := (s.contextFor p conn key).drawn
  let s2 := s1.restoreContext p shape
  let s3 := match blocks with
    | some b =>
      let s2 := s2.zeroAccepted h.job b.2.2
      if later then s2 else s2.installBlocks h.job h.vesper b
    | none => s2
  let s4 := { s3 with pkgs := s3.pkgs ++ [s.heldPkg p conn key pid t tag (if later then blocks else none)] }
  let shared := if p.secures then s.sharedPairs (s.partnerHalls p (s.chrysIn p).1) else 0
  ((s4.bump 0x7048 1).bump 0x6048 shared).bump 0xA108 (bit h.vesper)

end Sys2Proof.Machine
end

