-- ==== Sys2Proof/Machine/Packages.lean ====
section
/-!
DEFINITION. Work packages at run time: the step sequencers, steps, layer flips and the end of a package (R20 to R29, R65,
R299, R302, R387, R390).
-/
namespace Sys2Proof.Machine

/-- The descriptor of a task of a kernel (R387). -/
def Pkg.task (p : Pkg) (k : Kernel) (i : Nat) : Option Desc := if i < k.count then p.tasks[k.first + i]? else none

/-- Under SKIP the update kernels count as ended (R309). -/
def JobCtx.skips_ (j : JobCtx) (k : Kernel) : Bool :=
  j.isUpdate k && (match j.verdict with | some v => v != 1 | none => false)

/-- Is a wait of a kernel reached in step i of the package (R275, Table 15-9)? A wait on VERDICT_COUNT + 4 is one for an APPLY
verdict of this step besides (R309). -/
def JobCtx.waitReached (j : JobCtx) (i : Nat) (w : Nat × Nat × Nat) : Bool :=
  let verdictWait : Bool := match j.grad with | some g => refIndex w.1 == g.verdictCount + 4 | none => false
  j.reachedAt (refIndex w.1) ((w.2.1 + i * w.2.2) % 2 ^ 32) && (!verdictWait || j.verdict == some 1)

/-- Does a kernel have a task that reads a layer's working weights? -/
def Kernel.reads (job : BitVec 16) (k : Kernel) (l : Nat) : Bool := (List.range k.count).any fun i => Config.readsLayer job.toNat k.id i l

/-- Verdicts that the layers must have passed on before a kernel of the running step may read them: all but the step's own. -/
def JobCtx.passedBefore (j : JobCtx) : Nat := j.verdicts - bit j.verdict.isSome

/-- Is a kernel held for a layer that it reads: one that has neither flipped nor been left unchanged for the verdict of the
step before (R29), or one whose flip its die has not been told of (R22)? -/
def Pkg.layerHeld (p : Pkg) (j : JobCtx) (k : Kernel) : Bool :=
  match p.landing with
  | none => false
  | some x => (List.range x.layers.length).any fun l =>
      k.reads p.job l && (decide (Sp.get 0 j.flips l < j.passedBefore) || p.untold.contains (k.die, some l))

/-- The step whose weights are on their way, counted as the verdicts are: the one that runs, or the last one to end. -/
def JobCtx.current (j : JobCtx) : Nat := j.verdicts + bit j.verdict.isNone

/-- Has every task of the step from which a layer's new weights come ended that reads its old ones (R28)? That is the step of
the layer's next passing: once a later one has begun, they have. -/
def Pkg.readersEnded (p : Pkg) (j : JobCtx) (l : Nat) : Bool :=
  let n := Sp.get 0 j.flips l + 1
  if n = j.current then
    p.kernels.all fun k => (List.range k.count).all fun i => !Config.readsLayer p.job.toNat k.id i l || p.ended.contains (k.id, i)
  else decide (n < j.current)

/-- Is an evaluation window open for the job, in which no task of the next step becomes ready (R343)? -/
def State.windowOpen (s : State) (job : BitVec 16) : Bool := (s.window? job).isSome

/-- Does a job hold an evaluation package? -/
def State.holdsEval (s : State) (job : BitVec 16) : Bool := s.pkgs.any fun p => p.job == job && p.kind == 2

/-- Has a window to open after the last step of the job before the next step may begin: a scheduled one that has not opened yet,
or one for an export whose snapshot is not taken (R343, R344)? -/
def State.windowDue (s : State) (job : BitVec 16) : Bool :=
  match s.job? job with
  | none => false
  | some j =>
    match j.chrys with
    | none => false
    | some c => j.verdict.isSome && ((c.evalEvery != 0 && j.step % c.evalEvery == 0 && c.evalStep != j.step + 1) ||
        s.imagos.any fun q => q.job == job && q.last.isNone)

/-- Has every earlier step's generation been promoted, so that update kernels may become ready (R332)? -/
def JobCtx.promotedFor (j : JobCtx) : Bool :=
  match j.chrys with
  | some c => c.preparing.isNone && (c.pendingStep.isNone || c.pendingStep == some j.step)
  | none => true

/-- May a package's graph be walked: that of a RESTORE once its record is loaded (R341, log 98)? -/
def Pkg.walks (p : Pkg) : Bool := p.kind != 3 || (match p.restore with | some r => r.stage == 6 | none => false)

/-- May a kernel become ready now (R21, R22, R29, R341, R343)? -/
def State.kernelMayStart (s : State) (d : Nat) (p : Pkg) (k : Kernel) : Bool :=
  p.running && p.walks && decide (1 ≤ p.step) && k.die == d && !p.ready.contains k.id && !p.untold.contains (d, none) &&
  !(p.kind == 1 && s.windowOpen p.job) &&
  (match s.job? p.job with
   | none => k.waits.isEmpty
   | some j => !j.skips_ k && !p.layerHeld j k && (!j.isUpdate k || j.promotedFor) && k.waits.all (j.waitReached (p.step - 1)))

/-- KERNEL_READY (R21). -/
def execKernelReady (d : DieId) (tag : Nat) (kernel : BitVec 16) (s : State) : Host.Outcome State Fault Refusal :=
  match s.pkg? tag with
  | none => .next s
  | some p =>
    match p.kernel? kernel.toNat with
    | none => .next s
    | some k => if s.kernelMayStart d.val p k then .next (s.updPkg tag fun p => { p with ready := p.ready ++ [k.id] }) else .next s

/-- Does a ready Vesper kernel of the die have a task that could be written now (R65)? -/
def State.vesperFirst (s : State) (d : Nat) : Bool :=
  s.pkgs.any fun p => p.vesper && p.running && p.kernels.any fun k =>
    k.die == d && p.ready.contains k.id && (List.range k.count).any fun i =>
      !p.written.contains (k.id, i) &&
        (match p.task k i with | some x => (s.tile x.home).room true | none => false)

/-- Is every earlier task of the kernel with the same home written (R65)? -/
def Pkg.inOrder (p : Pkg) (k : Kernel) (i home : Nat) : Bool :=
  (List.range i).all fun n => p.written.contains (k.id, n) ||
    (match p.task k n with | some x => x.home != home | none => true)

/-- The fault of a descriptor as the sequencer copies it: what R61 checks, and that its CLASS is its package's (R24). -/
def Pkg.descBad (p : Pkg) (k : Kernel) (d : Desc) : Option Nat :=
  match d.bad (some k.die) with
  | some f => some f
  | none => if d.vesper = p.vesper then none else some 0x3201

/-- SEQUENCER_WRITE: one descriptor is checked and written once room exists (R61, R65). The record of one that is refused
names HOME_TILE modulo 1,024 and offset 0, as R82 says nothing of a fault that the sequencer finds (DESIGN CHOICE, log 117).
One pinned to an isolated tile ends its package (R79). -/
def execSequencerWrite (d : DieId) (tag : Nat) (kernel : BitVec 16) (index : Nat) (s : State) : Host.Outcome State Fault Refusal :=
  match s.pkg? tag with
  | none => .next s
  | some p =>
    match p.kernel? kernel.toNat with
    | none => .next s
    | some k =>
      match p.task k index with
      | none => .next s
      | some x =>
        if !p.running || k.die != d.val || !p.ready.contains k.id || p.written.contains (k.id, index) || !p.inOrder k index x.home then .next s
        else
          match p.descBad k x with
          | some f =>
            let w : W64 × W64 := (BitVec.ofNat 64 (f + x.home % 1024 * 2 ^ 16 + k.id * 2 ^ 26 + index * 2 ^ 42 + tag * 2 ^ 58), 0)
            .next (((s.record 0x3800 16 w).logAs 1 f (some p.job) w).abandon tag f (x.home % 1024) k.id index false)
          | none =>
            match s.homeFor x with
            | none => .next (s.losePinned tag x)
            | some h =>
              if !(s.tile h).room x.vesper || (!p.vesper && s.vesperFirst d.val) then .next s
              else .next ((s.enterQueue h (x.withTag tag)).updPkg tag fun p => { p with written := p.written ++ [(k.id, index)] })

/-! ### The norm entries of a step (R314, R327) -/

/-- Have the update kernels of step n ended, or is its verdict SKIP (R322)? -/
def State.updatesEnded (s : State) (j : JobCtx) (n : Nat) : Bool :=
  if n < j.step then true
  else match j.verdict with
    | none => false
    | some v => v != 1 || (match s.pkgs.find? fun p => p.job == j.id && p.kind == 1 && p.running with
        | none => true
        | some p => p.kernels.all fun k => !j.isUpdate k || (List.range k.count).all fun i => p.ended.contains (k.id, i))

/-- Has every layer been updated by its owner for the last verdict, as its flip here shows (R28, R314)? -/
def State.layersCame (s : State) (j : JobCtx) : Bool :=
  match (s.pkgs.find? fun p => p.job == j.id && p.kind == 1 && p.running).bind (·.landing) with
  | some x => (List.range x.layers.length).all fun l => decide (j.verdicts ≤ Sp.get 0 j.flips l)
  | none => true

/-- Is the norm table of step n complete (R314): its updates have ended here, and every owner's layers have come (DEDUCED, log
78)? -/
def State.normsComplete (s : State) (j : JobCtx) (n : Nat) : Bool := s.updatesEnded j n && s.layersCame j

/-- The norm entries of a step are written once its table is complete (R327): copied here, or read from the device that holds
it. -/
def State.settleNorms (s : State) (job : BitVec 16) : State :=
  match s.job? job with
  | none => s
  | some j =>
    match j.normsDue, j.chrys, j.grad with
    | some n, some c, some g =>
      let here := s.plays j (fld g.normAddr.toNat 42 14)
      let dest := c.slot (n % 2) + c.normsAt
      if !s.normsComplete j n || (!here && c.preparing.isSome) then s
      else
        let s1 := s.updJob job fun j => { j with normsDue := none }
        if here then s1.copyOwn job g.normAddr.toNat dest c.normBytes
        else
          let read : List CopyIn := cutIn ⟨j.hallOf (fld g.normAddr.toNat 42 14), g.normAddr.toNat, c.normBytes, [dest], false⟩
          (s1.updChrys job fun c => { c with toRead := c.toRead ++ read }).pump job
    | _, _, _ => s

/-! ### Landing slots (R27 to R29) -/

/-- Members of a multicast group. -/
def JobCtx.group (j : JobCtx) (g : Nat) : List Nat := match j.groups.find? (·.1 == g) with | some x => x.2 | none => []

/-- A slot becomes free for a layer: its landed count is noted and the grants go out (R27). -/
def State.freeSlot (s : State) (job : BitVec 16) (l : Layer) : State :=
  match s.job? job with
  | none => s
  | some j =>
    let s1 := s.updJob job fun j => { j with landedAt := Sp.put 0#32 j.landedAt l.landed (Sp.get 0#32 j.counts l.landed) }
    s1.signalAll job l.grant 1 (j.group l.grantGroup)

/-- Layers of a slot, in order, with their numbers. -/
def Landing.ofSlot (x : Landing) (slot : Nat) : List (Nat × Layer) :=
  ((List.range x.layers.length).zip x.layers).filter fun l => l.2.slot == slot

/-- The layer that uses a slot after layer `l`, cyclically (R27). -/
def Landing.after (x : Landing) (slot l : Nat) : Option Layer :=
  let ls := x.ofSlot slot
  match ls.find? fun q => decide (l < q.1) with
  | some q => some q.2
  | none => (ls.head?).map (·.2)

/-- A layer has flipped or been left unchanged: it passes its slot on (R28, R29). -/
def State.passSlot (s : State) (job : BitVec 16) (x : Landing) (l : Nat) (y : Layer) : State :=
  let s1 := s.updJob job fun j => { j with flips := Sp.put 0 j.flips l (Sp.get 0 j.flips l + 1) }
  match x.after y.slot l with
  | some n => s1.freeSlot job n
  | none => s1

/-- Exchange the frames of two page ranges of space 0x00 (R210). -/
def swapPages (a b n : Nat) (ps : List Page) : List Page :=
  let place (v : Nat) : Option Nat := (ps.find? fun p => !p.window && p.vpage == v).map (·.place)
  ps.map fun p =>
    if p.window then p
    else if a ≤ p.vpage ∧ p.vpage < a + n then { p with place := (place (p.vpage - a + b)).getD p.place }
    else if b ≤ p.vpage ∧ p.vpage < b + n then { p with place := (place (p.vpage - b + a)).getD p.place }
    else p

/-- Is it a layer's turn in its slot (R27): the slot's lower layers have passed it on once more than this one, its higher ones as
often? -/
def JobCtx.slotTurn (j : JobCtx) (x : Landing) (l slot : Nat) : Bool :=
  let n := Sp.get 0 j.flips l
  (x.ofSlot slot).all fun q => Sp.get 0 j.flips q.1 == n + bit (decide (q.1 < l))

/-- Layers whose turn comes under a SKIP verdict are left unchanged, in layer order (R29). -/
def State.passSkipped (s : State) (job : BitVec 16) (x : Landing) : List (Nat × Layer) → State
  | [] => s
  | (l, y) :: r =>
    (match s.job? job with
     | some j => if j.skipped.contains (Sp.get 0 j.flips l + 1) && j.slotTurn x l y.slot then s.passSlot job x l y else s
     | none => s).passSkipped job x r

/-- The same for every SKIP verdict that some layer has still to see. -/
def State.passSkips (s : State) (job : BitVec 16) (x : Landing) : Nat → State
  | 0 => s
  | n + 1 => (s.passSkipped job x ((List.range x.layers.length).zip x.layers)).passSkips job x n

/-- Every SKIP verdict is passed on as far as the turns have come (R29); those that every layer has seen are forgotten. -/
def State.settleSkips (s : State) (job : BitVec 16) (x : Landing) : State :=
  match s.job? job with
  | some j => (s.passSkips job x j.skipped.length).updJob job fun j =>
      { j with skipped := j.skipped.filter fun n => (List.range x.layers.length).any fun l => decide (Sp.get 0 j.flips l < n) }
  | none => s

/-- An event of the lead sequencer is told to dies 1 to 3 (R22). -/
def Pkg.tell (p : Pkg) (e : Option Nat) : Pkg := { p with untold := p.untold ++ [(1, e), (2, e), (3, e)] }

/-- LAYER_FLIP (R28): the layer's turn in its slot has come, every task of the step that reads its old weights has ended, and the
slot has landed since it became free for the layer. Dies 1 to 3 hold the kernels that read it until they are told (R22). The last
flip of a step lets the record take the norms (R327). -/
def execLayerFlip (tag : Nat) (layer : Nat) (s : State) : Host.Outcome State Fault Refusal :=
  match s.pkg? tag with
  | none => .next s
  | some p =>
    match p.landing, s.job? p.job with
    | some x, some j =>
      (match x.layers[layer]? with
       | none => .next s
       | some y =>
         let rise := ((Sp.get 0#32 j.counts y.landed) - (Sp.get 0#32 j.landedAt y.landed)).toNat
         if p.running && !j.skipped.contains (Sp.get 0 j.flips layer + 1) && j.slotTurn x layer y.slot && p.readersEnded j layer && decide (y.total ≤ rise) then
           let b := match x.slots[y.slot]? with | some q => q.1 | none => y.vpage
           let s1 := (s.updJob p.job fun j => { j with pages := swapPages y.vpage b y.pages j.pages }).passSlot p.job x layer y
           .next (((s1.updPkg tag (·.tell (some layer))).settleSkips p.job x).settleNorms p.job)
         else .next s)
    | _, _ => .next s

/-! ### Steps -/

/-- Have all tasks of the step been written and ended, counting skipped kernels as ended? -/
def State.tasksDone (s : State) (p : Pkg) : Bool :=
  let skip (k : Kernel) : Bool := match s.job? p.job with | some j => j.skips_ k | none => false
  (p.kernels.all fun k => skip k || (List.range k.count).all fun i => p.written.contains (k.id, i)) &&
  !(s.tiles.any fun x =>
    let own (c : Option Ctx) : Bool := match c with | some c => c.desc.tag == p.tag | none => false
    x.2.queue.any (fun d => d.tag == p.tag) || own x.2.noon || own x.2.vesper)

/-- Is the running step of a package over? For TRAINING the verdict must have come (R390). -/
def State.stepOver (s : State) (p : Pkg) : Bool :=
  s.tasksDone p && (p.kind != 1 || (match s.job? p.job with | some j => j.verdict.isSome | none => true))

/-- The set of step n takes it from now on, where it has not been cleared after an earlier one (R298). -/
def Bucket.atStep (b : Bucket) (n : Nat) : Bucket := { b with steps := pset b.steps (setOf n) (max n (pget b.steps (setOf n))) }

/-- The step number moves on and the step's flags are cleared (R299, R307, R308). A step that ended with its package, before
any verdict, leaves nothing to pass on. -/
def JobCtx.nextStep (j : JobCtx) (now : Nat) : JobCtx :=
  { j with flips := if j.verdict.isNone then (j.flips.map fun x => (x.1, min x.2 j.verdicts)).filter (·.2 != 0) else j.flips, step := j.step + 1, steps := j.steps + 1, stepAt := now, stepping := true, buckets := j.buckets.map fun b => b.atStep (j.step + 1),
           gradFlag := pset j.gradFlag (j.step % 2 == 1) false, checkFlag := pset j.checkFlag (j.step % 2 == 1) false, rounded := false, verdict := none }

/-- The sequencers begin walking the graph; those of dies 1 to 3 wait for the control message, which goes after the ones that are
still on their way (R20, R22). -/
def State.beginStep (s : State) (tag : Nat) : State :=
  match s.pkg? tag with
  | none => s
  | some p =>
    let s1 := s.updPkg tag fun p =>
      { p.tell none with running := true, step := p.step + 1, ready := [], written := [], ended := [] }
    if p.kind = 1 then s1.updJob p.job (·.nextStep s.now) else s1

/-- In the first step after the counts were zero every slot is free for its first layer (R27). -/
def State.firstGrants (s : State) (p : Pkg) : State :=
  match p.landing, s.job? p.job with
  | some x, some j =>
    if p.kind = 1 ∧ j.steps = 0 then
      ((List.range x.slots.length).filterMap fun i => (x.ofSlot i).head?).foldl (fun (s : State) l => s.freeSlot p.job l.2) s
    else s
  | _, _ => s

/-- Does a package's context hold a training package? -/
def State.hasTraining (s : State) (job : BitVec 16) : Bool := s.pkgs.any fun p => p.job == job && p.kind == 1

/-- May a held package start (R23)? -/
def State.mayStart (s : State) (p : Pkg) : Bool :=
  let running := s.pkgs.filter fun q => !q.vesper && q.running
  let first (f : Pkg → Bool) : Bool := match s.pkgs.find? (fun q => !q.vesper && !q.running && f q) with | some q => q.tag == p.tag | none => false
  if p.running || s.health.withdrawn || s.start.phase != .ready then false
  else if p.vesper then (if p.kind = 2 then s.windowOpen p.job else p.kind != 1 || (!s.windowOpen p.job && !s.windowDue p.job))
  else if p.kind = 2 then
    s.windowOpen p.job && first (fun q => q.kind == 2 && q.job == p.job) &&
      running.all fun q => q.kind == 1 && q.job == p.job && s.stepOver q
  else running.isEmpty && !s.windowOpen p.job && !(p.kind == 1 && s.windowDue p.job) && !(s.eval.any fun e => s.holdsEval e.job) &&
    first (fun q => q.kind != 2 || !s.hasTraining q.job)

/-- The streams of the tiles in an evaluation package (R343, Table 15-7). -/
def State.evalStreams (s : State) (seed : W64) : Nat → State
  | 0 => s
  | t + 1 => (s.setTile t { s.tile t with streamK := BitVec.ofNat 128 (seed.toNat + t * 2 ^ 64), streamC := 0 }).evalStreams seed t

/-- Is an ACCUMULATE of the step before the last one unanswered, so that the next step may not begin (R302)? -/
def State.unpaced (s : State) (p : Pkg) : Bool :=
  p.kind == 1 && (match s.job? p.job with
    | some j => s.xfers.any fun x => x.job == p.job && x.step == some (j.step - 1) && decide (1 ≤ j.step)
    | none => false)

/-- PACKAGE_START (R23, R302). A package of kind RESTORE walks no graph: a survivor reports (R339). -/
def execPackageStart (tag : Nat) (s : State) : Host.Outcome State Fault Refusal :=
  match s.pkg? tag with
  | none => .next s
  | some p =>
    if !s.mayStart p || s.unpaced p then .next s
    else
      let s0 := match p.blocks with | some b => s.installBlocks p.job p.vesper b | none => s
      let s1 := if p.kind = 2 then s0.evalStreams p.seed 576 else s0
      let s2 := (s1.firstGrants p).beginStep tag
      .next (if p.kind = 3 then s2.report p else s2)

/-- STEP_START (R20, R302, R343): the step before is over with every window that is due after it, and no ACCUMULATE of two steps
before is unanswered. -/
def execStepStart (tag : Nat) (s : State) : Host.Outcome State Fault Refusal :=
  match s.pkg? tag with
  | none => .next s
  | some p =>
    if p.running && p.kind == 1 && decide (p.step < p.stepCount) && s.stepOver p && !s.windowOpen p.job && !s.windowDue p.job && !s.unpaced p then .next ((s.settleNorms p.job).beginStep tag)
    else .next s

/-- SEQUENCER_CONTROL_MESSAGE (R22): the oldest message on its way to the sequencer of die 1, 2 or 3 reaches it, and with it only
its own event; the messages to one die keep their order (log 136). -/
def execSequencerControlMessage (d : DieId) (tag : Nat) (s : State) : Host.Outcome State Fault Refusal :=
  .next (s.updPkg tag fun p => { p with untold := eraseFirst (·.1 == d.val) p.untold })

/-- Did a Vesper package end within its requested duration (R358)? -/
def State.onTime (s : State) (p : Pkg) : Bool :=
  match p.cost with | some c => decide (s.elapsed p ≤ c.duration) | none => true

/-- Has the step record of a training package's last step been completed (R390)? -/
def State.recordDone (s : State) (p : Pkg) : Bool := p.kind != 1 || (match s.job? p.job with | some j => j.normsDue.isNone | none => true)

/-- PACKAGE_COMPLETE (R390): COMPLETE is sent and the package is no longer held. It ends once its COMPLETE can be handed to the
host port, or is placed in the queue of a connection that is not OPEN (R358). -/
def execPackageComplete (tag : Nat) (s : State) : Host.Outcome State Fault Refusal :=
  match s.pkg? tag with
  | none => .next s
  | some p =>
    let s0 := if p.kind = 1 then s.settleNorms p.job else s
    if p.running && p.step == p.stepCount && p.kind != 3 && s.stepOver p && s0.recordDone p && s0.handsOver p.conn then
      let ok := s.onTime p
      let s1 := s0.originate p.conn p.hostKey (.complete p.pid p.job p.step (s.elapsed p) ok)
      let s2 := (if p.vesper && ok then s1.bump 0xA120 1 else s1).bump 0x7058 1
      .next (s2.removePkg tag)
    else .next s

end Sys2Proof.Machine
end

