-- ==== Sys2Proof/Machine/Gradient.lean ====
section
/-!
DEFINITION. The step's gradient exchange: closing by time, the sampled check, the verdict round and its outcome, and
clearing (R304, R305, R307 to R309, R312, R315 to R318, R327, R330).
-/
namespace Sys2Proof.Machine

/-! ### Closing by time (R304, R305, R317) -/

/-- The set of a main bucket whose deadline has passed (R304, R305). -/
def State.dueSet (s : State) (b : Bucket) : Option Bool :=
  if b.checkOf.isSome then none else if s.pastDeadline b false then some false else if s.pastDeadline b true then some true else none

/-- BUCKET_DEADLINE: an open main bucket closes once its deadline has passed (R305). -/
def execBucketDeadline (job : BitVec 16) (bucket : Nat) (s : State) : Host.Outcome State Fault Refusal :=
  match (s.job? job).bind fun j => j.bucket? bucket with
  | none => .next s
  | some b =>
    match s.dueSet b with
    | some i => .next (s.closeBucket job b i .deadline)
    | none => .next s

/-- Close one set of several buckets. -/
def State.closeAll (s : State) (job : BitVec 16) (i : Bool) (how : Closing) : List Bucket → State
  | [] => s
  | b :: bs => (s.closeBucket job b i how).closeAll job i how bs

/-- Has STEP_CLOSE_LIMIT passed since the sequencers began the running step (R304)? -/
def State.pastCloseLimit (s : State) (j : JobCtx) : Bool := j.stepping && decide (j.stepAt + s.cfg.stepCloseLimit * 1000000 ≤ s.now)

/-- STEP_CLOSE_LIMIT: every unclosed bucket of the running step closes, open or idle (R304). -/
def execStepCloseLimit (job : BitVec 16) (s : State) : Host.Outcome State Fault Refusal :=
  match s.job? job with
  | none => .next s
  | some j => if s.pastCloseLimit j then .next (s.closeAll job (setOf j.step) .limit j.buckets) else .next s

/-- The main bucket of a check bucket. -/
def JobCtx.mainOf (j : JobCtx) (b : Bucket) : Option Bucket := b.checkOf.bind j.bucket?

/-- The check bucket of a main bucket. -/
def JobCtx.checkFor (j : JobCtx) (b : Bucket) : Option Bucket := j.buckets.find? fun c => c.checkOf == some b.id

/-- Has CHECK_GRACE passed since a set of the main bucket closed, while the check bucket's is not closed (R317)? -/
def State.pastGrace (s : State) (m b : Bucket) (i : Bool) : Bool :=
  pget m.st i == 2 && pget b.st i != 2 && pget m.steps i == pget b.steps i && decide (pget m.closedAt i + s.cfg.checkGrace * 100000 ≤ s.now)

/-- CHECK_GRACE: a check bucket closes some time after its main bucket (R317). -/
def execCheckGrace (job : BitVec 16) (bucket : Nat) (s : State) : Host.Outcome State Fault Refusal :=
  match s.job? job with
  | none => .next s
  | some j =>
    match j.bucket? bucket with
    | none => .next s
    | some b =>
      match j.mainOf b with
      | none => .next s
      | some m =>
        if s.pastGrace m b false then .next (s.closeBucket job b false .grace)
        else if s.pastGrace m b true then .next (s.closeBucket job b true .grace)
        else .next s

/-! ### The sampled check (R316, R318) -/

/-- The sampled element of block k of a bucket in step n (R316). -/
def sampledElement (j : JobCtx) (b : Bucket) (n k : Nat) : Nat :=
  let len := min 4096 (b.elements - 4096 * k)
  4096 * k + streamAt j.streamK.toNat n b.id k % 4096 % len

/-- Do two FP32 sums agree (R318)? -/
def sumsAgree (x y : FV) : Bool :=
  match x, y with
  | .nan, .nan => true
  | .inf a, .inf b => a == b
  | .fin n1 m1 e1, .fin n2 m2 e2 =>
    let a : FV := .fin n1 m1 e1
    let b : FV := .fin n2 m2 e2
    let big := if a.abs.lt b.abs then b.abs else a.abs
    !((big.mul (.fin false 1 (-16))).add (.fin false 1 (-24))).lt (a.add b.neg).abs
  | _, _ => false

/-- What the check tile's reads of blocks leave (R194): each compares a main sum with a check element. -/
def State.checkReads (s : State) (j : JobCtx) (b c : Bucket) (i : Bool) (n : Nat) : List Nat → State
  | [] => s
  | k :: ks => ((s.looked j.id (b.base i + 4 * sampledElement j b n k) 4).looked j.id (c.base i + 4 * k) 4).checkReads j b c i n ks

/-- The first block of a bucket whose sums disagree in step n. -/
def State.disagreement (s : State) (j : JobCtx) (b c : Bucket) (i : Bool) (n : Nat) : Option Nat :=
  (List.range (cdiv b.elements 4096)).find? fun k =>
    !sumsAgree (f32 (leNat (s.peek j.id (b.base i + 4 * sampledElement j b n k) 4))) (f32 (leNat (s.peek j.id (c.base i + 4 * k) 4)))

/-- Does the check of a bucket run: full counts, and every pair claimed by its primary (R318)? -/
def checkRuns (g : GradBlock) (b c : Bucket) (i : Bool) : Bool :=
  pget b.full i && pget c.full i && (!g.backup || b.claims.all fun x => x.1 != i || !x.2.2)

/-- A bucket whose sums disagree (R318): recorded, 200 points; twice in a row is F-5302. -/
def State.mismatchAt (s : State) (j : JobCtx) (b : Bucket) (i : Bool) (n k : Nat) : State :=
  let s1 := (s.updJob j.id fun j => { j with checkFlag := pset j.checkFlag i true }).updBucket j.id b.id fun b => { b with mismatch := n + 1 }
  let s2 := ((s1.logEvent 0x5301 (some j.id) (0, 0)).points 200).bump 0x5078 1
  let s3 := s2.setWord 0x5088 (BitVec.ofNat 64 (b.id + k % 4096 * 2 ^ 16 + n % 2 ^ 36 * 2 ^ 28))
  if b.mismatch = n ∧ n ≠ 0 then
    ((s3.logEvent 0x5302 (some j.id) (0, 0)).immediate 0x5302).abandonAll 0x5302 b.tile true
      ((s3.pkgs.filter fun p => p.job == j.id && p.kind == 1 && p.running).map (·.tag))
  else s3

/-- CHECK_COMPARE of a main bucket's set of the running step, once both buckets are closed (R318). A check that agrees or does not
run ends a row of disagreements. -/
def execCheckCompare (job : BitVec 16) (bucket : Nat) (s : State) : Host.Outcome State Fault Refusal :=
  match s.job? job with
  | none => .next s
  | some j =>
    match j.bucket? bucket, j.grad with
    | some b, some g =>
      (match j.checkFor b with
       | none => .next s
       | some c =>
         let i := setOf j.step
         if pget b.st i ≠ 2 ∨ pget c.st i ≠ 2 ∨ pget b.checked i ∨ !j.stepping then .next s
         else
           let s1 := s.updBucket job b.id fun b => { b with checked := pset b.checked i true }
           if !checkRuns g b c i then .next ((s1.bump 0x5070 1).updBucket job b.id fun b => { b with mismatch := 0 })
           else
             let r := s.disagreement j b c i j.step
             let s2 := (s1.bump 0x5068 1).checkReads j b c i j.step (List.range (match r with | some k => k + 1 | none => cdiv b.elements 4096))
             match r with
             | some k => .next (s2.mismatchAt j b i j.step k)
             | none => .next (s2.updBucket job b.id fun b => { b with mismatch := 0 }))
    | _, _ => .next s

/-! ### The verdict round (R308, R330) -/

/-- Have all tasks of LOSS_KERNEL ended? -/
def State.lossEnded (s : State) (job : BitVec 16) (g : GradBlock) : Bool :=
  match s.pkgs.find? fun p => p.job == job && p.kind == 1 && p.running with
  | none => false
  | some p => match p.kernel? g.lossKernel with
    | some k => (List.range k.count).all fun i => p.ended.contains (k.id, i)
    | none => true

/-- Is a bucket ready for the verdict: closed for this step, its check ended, and its other set cleared after the step before
(R308)? -/
def JobCtx.bucketReady (j : JobCtx) (b : Bucket) : Bool :=
  let i := setOf j.step
  pget b.st i == 2 && decide (j.step < pget b.steps (!i)) && (b.checkOf.isSome || (j.checkFor b).isNone || pget b.checked i)

/-- VERDICT_ROUND: the flags, the level votes, and then the arrival go to VERDICT_DEVICE (R308, R330). -/
def execVerdictRound (job : BitVec 16) (s : State) : Host.Outcome State Fault Refusal :=
  match s.job? job with
  | none => .next s
  | some j =>
    match j.grad with
    | none => .next s
    | some g =>
      if !j.stepping || j.rounded || !s.lossEnded job g || !j.buckets.all j.bucketReady then .next s
      else
        let i := setOf j.step
        let v := g.verdictCount
        let send (b : Bool) (k : Nat) (s : State) : State := if b then s.signalTo job g.verdictDevice k 1 else s
        let s1 := send (pget j.checkFlag i) (v + 2) (send (pget j.gradFlag i) (v + 1) (send (decide (0 < j.rise (v + 5))) v s))
        let s2 := match j.chrys with
          | some c => send (s.health.level == 2) (c.secureCount + 1) (send (decide (1 ≤ s.health.level)) c.secureCount s1)
          | none => s1
        -- the norm table is +0 before any device can accumulate into it for this step (R314, log 78)
        let s3 := ((send true (v + 3) (s2.clearNorms j g))).note job [v + 5]
        .next (s3.updJob job fun j => { j with rounded := true })

/-- VERDICT_FORM at VERDICT_DEVICE: every arrival has come; the level, then the verdict, go to every device (R308, R330). -/
def execVerdictForm (job : BitVec 16) (s : State) : Host.Outcome State Fault Refusal :=
  match s.job? job with
  | none => .next s
  | some j =>
    match j.grad with
    | none => .next s
    | some g =>
      let v := g.verdictCount
      if s.deviceOf j ≠ g.verdictDevice ∨ j.rise (v + 3) ≠ j.devices then .next s
      else
        let flags := bit (decide (0 < j.rise v)) + 2 * bit (decide (0 < j.rise (v + 1))) + 4 * bit (decide (0 < j.rise (v + 2)))
        let ds := s.jobDevices j
        let s1 := match j.chrys with
          | some c =>
            let l := if 0 < j.rise (c.secureCount + 1) then 2 else if 0 < j.rise c.secureCount then 1 else 0
            (s.signalAll job (c.secureCount + 2) (1 + l) ds).note job [c.secureCount, c.secureCount + 1]
          | none => s
        let s2 := (s1.signalAll job (v + 4) (1 + 2 * flags) ds).note job [v, v + 1, v + 2, v + 3]
        .next (s2.updJob job fun j => { j with formed := j.formed + 1 })

/-! ### The verdict (R309, R315, R327) -/

/-- A power of two as FP32. -/
def pow2 (e : Int) : FV := .fin false 1 e

/-- Loss scale and clean-step count after a verdict (R315). -/
def State.nextScale (s : State) (j : JobCtx) (flags : Nat) : BitVec 32 × Nat :=
  let x := f32 j.lossScale.toNat
  if flags = 0 then
    if s.cfg.lossInterval ≤ j.clean + 1 then
      let d := x.mul (pow2 1)
      (BitVec.ofNat 32 (toF32 (if (pow2 s.cfg.lossMax).lt d then pow2 s.cfg.lossMax else d)), 0)
    else (j.lossScale, j.clean + 1)
  else if flag flags 1 && !flag flags 0 then
    let d := x.mul (pow2 (-1))
    (BitVec.ofNat 32 (toF32 (if d.lt (pow2 s.cfg.lossMin) then pow2 s.cfg.lossMin else d)), 0)
  else (j.lossScale, 0)

/-- The counters of a verdict (Table 12-6). -/
def State.countVerdict (s : State) (flags : Nat) : State :=
  if flags = 0 then s.bump 0x5008 1
  else
    (((s.bump 0x5010 1).bump 0x5018 (bit (flag flags 0))).bump 0x5020 (bit (flag flags 1))).bump 0x5028 (bit (flag flags 2))

/-- Under SKIP every layer of the running package is left unchanged when its turn comes (R29, R309). -/
def State.skipLayers (s : State) (job : BitVec 16) : State :=
  match s.pkgs.find? fun p => p.job == job && p.kind == 1 && p.running with
  | some p => (match p.landing with
    | some x => (s.updJob job fun j => { j with skipped := j.skipped ++ [j.verdicts] }).settleSkips job x
    | none => s)
  | none => s

/-- VERDICT_RECEIVE: the verdict and the level are learnt, the step record's first part is written, and SKIP_LIMIT
consecutive skips abandon the package (R308, R309, R315, R327). -/
def execVerdictReceive (job : BitVec 16) (s : State) : Host.Outcome State Fault Refusal :=
  match s.job? job with
  | none => .next s
  | some j =>
    match j.grad with
    | none => .next s
    | some g =>
      let v := j.rise (g.verdictCount + 4)
      if !j.rounded || j.verdict.isSome || v == 0 then .next s
      else
        let flags := (v - 1) / 2 % 8
        let q := s.nextScale j flags
        let skips := if flags = 0 then 0 else j.skips + 1
        let s1 := (s.updJob job fun j =>
          { j with verdict := some v, normsDue := if flags = 0 then some j.step else none, verdicts := j.verdicts + 1, lossScale := q.1, clean := q.2, skips := skips, lastFlags := flags,
                   stepping := false }).note job [g.verdictCount + 4]
        let s2 := match j.chrys with
          | some c => (s1.updChrys job fun x => { x with level := j.rise (c.secureCount + 2) - 1 }).note job [c.secureCount + 2]
          | none => s1
        let s3 := (s2.countVerdict flags).markDue job j.step
        let gen := match (s3.job? job).bind (·.chrys) with
          | some c => if c.pendingStep = some j.step then c.nextGen else 0
          | none => 0
        let s4 := s3.writeRecordHead job j.step gen
        let s5 := if flags = 0 then s4 else (s4.zeroRecordNorms job j.step).skipLayers job
        if s.cfg.skipLimit ≤ skips then
          .next ((s5.logEvent 0x5201 (some job) (0, 0)).abandonAll 0x5201 0x3FF false
            ((s5.pkgs.filter fun p => p.job == job && p.kind == 1 && p.running).map (·.tag)))
        else .next s5

/-! ### Clearing (R312) -/

/-- A set of a bucket is cleared and idle again: every sum +0, every granule record zero; it takes the step after next. -/
def State.clearSet (s : State) (job : BitVec 16) (b : Bucket) (i : Bool) : State :=
  ((s.poke job (b.base i) (List.replicate b.bytes 0#8)).poke job (pget b.granules i).toNat (List.replicate (16 * b.granuleCount) 0#8)).updBucket job
    b.id fun b =>
      { b with st := pset b.st i 0, full := pset b.full i false, checked := pset b.checked i false, steps := pset b.steps i (pget b.steps i + 2),
               claims := b.claims.filter (·.1 != i), begun := b.begun.filter (·.set != i), added := b.added.filter (·.set != i) }

/-- May a set be cleared: it is closed and its step has its verdict, or it still holds a step before (R312)? -/
def JobCtx.clearable (j : JobCtx) (b : Bucket) (i : Bool) : Bool :=
  let n := pget b.steps i
  decide (n < j.step) || (n == j.step && pget b.st i == 2 && j.verdict.isSome)

/-- The set that is cleared next: that of the older step. -/
def JobCtx.clearNext (j : JobCtx) (b : Bucket) : Option Bool :=
  let i := decide (b.steps.2 < b.steps.1)
  if j.clearable b i then some i else if j.clearable b (!i) then some (!i) else none

/-- BUCKET_CLEAR (R312); that the update pass has read the set is the event itself. -/
def execBucketClear (job : BitVec 16) (bucket : Nat) (s : State) : Host.Outcome State Fault Refusal :=
  match s.job? job with
  | none => .next s
  | some j =>
    match j.bucket? bucket with
    | none => .next s
    | some b =>
      match j.clearNext b with
      | some i => .next (s.clearSet job b i)
      | none => .next s

end Sys2Proof.Machine
end

