-- ==== Sys2Proof/Machine/Chrysalis.lean ====
section
/-!
DEFINITION. Chrysalis commands: a generation's preparation, folding, commit and promotion (R328 to R332), the health
monitor (R333 to R335) and restore (R338 to R342).
-/
namespace Sys2Proof.Machine

/-! ### A generation (R328, R329, R332) -/

/-- What the comparison of parity tensors with their shadows leaves of uncorrectable beats (R194). -/
def State.compared (s : State) (job : BitVec 16) : List Tensor → State
  | [] => s
  | t :: ts => (if t.mirror then s else (s.looked job t.base.toNat t.bytes).looked job t.shadow.toNat t.bytes).compared job ts

/-- The due generation begins: parity blocks are compared, copies and bitmaps are sent. -/
def State.prepare (s : State) (j : JobCtx) (c : Chrys) (n : Nat) : State :=
  let s1 := ((s.compared j.id c.tensors).bump 0x6038 (blocksOf c.tensors false)).bump 0x6028 (blocksOf c.tensors true)
  let out := s1.allCopies j c n
  let changed := s1.changedIn j.id c.tensors
  ((s1.updChrys j.id fun c => { c with preparing := some n, pendingStep := none, folded := false, prepared := false, missed := false,
                                       changed := changed, toSend := out }).pump j.id).reportPrepared j.id

/-- May the due generation of step n begin: nothing is under way, and the step's update kernels have ended and its record is
whole (R322, R327)? -/
def State.mayPrepare (s : State) (j : JobCtx) (c : Chrys) (n : Nat) : Bool := c.quiet && s.updatesEnded j n && j.normsDue != some n

/-- GENERATION_PREPARE (R328): the due generation begins, or what it still has to send goes on. -/
def execGenerationPrepare (job : BitVec 16) (s : State) : Host.Outcome State Fault Refusal :=
  let s := s.settleNorms job
  match s.job? job with
  | none => .next s
  | some j =>
    match j.chrys with
    | none => .next s
    | some c =>
      match c.preparing, c.pendingStep with
      | none, some n => if s.mayPrepare j c n then .next (s.prepare j c n) else .next (s.pump job)
      | _, _ => .next (s.pump job)

/-- Bitmap bit i. -/
def bitmapBit (bs : List Byte) (i : Nat) : Bool := (nth 0#8 bs (i / 8)).getLsbD (i % 8)

/-- The reads of a holder for one member of a parity tensor: for each set bit the block of the live tensor and of its
shadow, both XORed into slot G mod 2. -/
def State.foldReads (s : State) (j : JobCtx) (c : Chrys) (t : Tensor) (m : Nat) : List CopyIn :=
  let h := t.member
  let d := (t.group[m]?).getD 0
  let k := heldChunk h m
  let bits := s.peek j.id (t.bitmapAt h m) t.bitmap
  let slot := t.copy.toNat + c.nextGen % 2 * t.chunk
  ((List.range (t.chunk / 4096)).filter (bitmapBit bits)).flatMap fun i =>
    let off := k * t.chunk + 4096 * i
    [⟨j.hallOf d, atDevice (t.base.toNat + off) d, 4096, [slot + 4096 * i], true⟩,
     ⟨j.hallOf d, atDevice (t.shadow.toNat + off) d, 4096, [slot + 4096 * i], true⟩]

/-- The other members of a group. -/
def Tensor.others (t : Tensor) : List Nat := (List.range 8).filter (· != t.member)

/-- What a holder's reads of its bitmaps leave of uncorrectable beats (R194). -/
def State.bitmapReads (s : State) (job : BitVec 16) : List Tensor → State
  | [] => s
  | t :: ts => (s.looked job (t.copy.toNat + 2 * t.chunk) (7 * t.bitmap)).bitmapReads job ts

/-- A holder copies slot (G - 1) mod 2 of each parity tensor into slot G mod 2. -/
def State.copySlots (s : State) (job : BitVec 16) (c : Chrys) : List Tensor → State
  | [] => s
  | t :: ts => (s.copyOwn job (t.copy.toNat + (c.nextGen + 1) % 2 * t.chunk) (t.copy.toNat + c.nextGen % 2 * t.chunk) t.chunk).copySlots job c ts

/-- PARITY_FOLD (R329): every bitmap of the generation has come to this holder. -/
def execParityFold (job : BitVec 16) (s : State) : Host.Outcome State Fault Refusal :=
  match s.job? job with
  | none => .next s
  | some j =>
    match j.chrys with
    | none => .next s
    | some c =>
      let ts := c.tensors.filter fun t => !t.mirror
      if c.preparing.isNone || c.folded then .next (s.pump job)
      else if ts.isEmpty || decide (j.rise (c.secureCount + 5) < 7 * ts.length) then .next s
      else
        let reads := ts.flatMap fun t => t.others.flatMap (s.foldReads j c t)
        let s1 := (((s.bitmapReads job ts).copySlots job c ts).bump 0x6030 (reads.length / 2)).note job [c.secureCount + 5]
        .next (((s1.updChrys job fun c => { c with folded := true, toRead := c.toRead ++ reads }).pump job).reportPrepared job)

/-- GENERATION_COMMIT at VERDICT_DEVICE (R332). -/
def execGenerationCommit (job : BitVec 16) (s : State) : Host.Outcome State Fault Refusal :=
  match s.job? job with
  | none => .next s
  | some j =>
    match j.chrys, j.grad with
    | some c, some g =>
      if s.deviceOf j ≠ g.verdictDevice ∨ j.rise (c.secureCount + 3) ≠ j.devices then .next s
      else .next ((s.signalAll job (c.secureCount + 4) 1 (s.jobDevices j)).note job [c.secureCount + 3])
    | _, _ => .next s

/-- A verdict that came before the promotion may make the next generation due; its record then names it (R326, R331). -/
def State.dueAfter (s : State) (job : BitVec 16) (n : Nat) : State :=
  let s1 := s.markDue job n
  match (s1.job? job).bind (·.chrys) with
  | some c => if c.pendingStep = some n then s1.writeGeneration job n c.nextGen else s1
  | none => s1

/-- GENERATION_PROMOTE (R332): the commit has come. -/
def execGenerationPromote (job : BitVec 16) (s : State) : Host.Outcome State Fault Refusal :=
  match s.job? job with
  | none => .next s
  | some j =>
    match j.chrys with
    | none => .next s
    | some c =>
      match c.preparing with
      | none => .next s
      | some n =>
        if j.rise (c.secureCount + 4) = 0 then .next s
        else
          let s1 := (s.promote job).note job [c.secureCount + 4]
          -- the last step that has had its verdict, which may be over
          let m := j.step - bit j.verdict.isNone
          .next (if n < m then s1.dueAfter job m else s1)

/-! ### The health monitor (R333, R334) -/

/-- Retry events of all ports. -/
def State.retryEvents (s : State) : W64 := (List.range 42).foldl (fun a p => a + s.word (0x2120 + 0x40 * p)) 0#64

/-- Stacks and dies whose hottest sensor costs a point this second. -/
def State.hotPoints (s : State) : Nat :=
  countIf (fun x => decide (90 ≤ x.2)) s.mem.temp + countIf (fun x => decide (100 ≤ x.2)) s.power.temp

/-- A natural number as a score. -/
def scoreOf (n : Nat) : FV := .fin false n 0

/-- Is the score at or above a number of points? -/
def reaches (score : BitVec 32) (n : Nat) : Bool := !(f32 score.toNat).lt (scoreOf n)

/-- An FP32 magnitude in units of 2^-149. -/
def f32Units (c : Nat) : Nat := if fld c 23 8 = 0 then fld c 0 23 else (2 ^ 23 + fld c 0 23) * 2 ^ (fld c 23 8 - 1)

/-- Is an FP32 magnitude at most S * 2^(-1/H): is 2 x^H at most S^H (R333)? -/
def decayed (s h c : Nat) : Bool := decide (2 * f32Units c ^ h ≤ f32Units s ^ h)

/-- The bits of the largest magnitude, up to that of S, that a test admits, from bit `k` - 1 down. -/
def largestCode (f : Nat → Bool) : Nat → Nat → Nat
  | 0, c => c
  | k + 1, c => largestCode f k (if f (c + 2 ^ k) then c + 2 ^ k else c)

/-- S * 2^(-1/H) in FP32: one of the two neighbours of the exact product, which is irrational; which one, the rule does not say
(log 11). -/
def decayOf (score : BitVec 32) (h : Nat) : Nat :=
  let s := fld score.toNat 0 31
  let c := largestCode (fun c => decide (c ≤ s) && decayed s h c) 31 0
  if c < s ∧ Config.decayUp score h = true then c + 1 else c

/-- The score of the next second (R333). -/
def nextScore (score : BitVec 32) (halfLife points : Nat) : BitVec 32 :=
  BitVec.ofNat 32 (addF32 (decayOf score halfLife) (toF32 (scoreOf points)))

/-- The level follows the score (R334). -/
def State.followScore (s : State) : State :=
  let h := s.health
  let up := if reaches h.score s.cfg.nightThreshold then 2 else if reaches h.score s.cfg.duskThreshold then 1 else 0
  if h.level < up then s.setLevel up
  else
    let t := if h.level = 2 then s.cfg.nightThreshold else s.cfg.duskThreshold
    let low := h.level != 0 && (f32 h.score.toNat).lt ((scoreOf t).mul (pow2 (-1)))
    if !low then { s with health := { h with lowSince := 0 } }
    else if h.lowSince = 0 then { s with health := { h with lowSince := s.now + 1 } }
    else if h.lowSince - 1 + s.cfg.levelHold * 1000000000 ≤ s.now ∧ !(h.level == 2 && !h.immediate.isEmpty) then s.setLevel (h.level - 1)
    else s

/-- HEALTH_TICK: one boundary of a second of a module that runs (R333, R460). -/
def execHealthTick (s : State) : Host.Outcome State Fault Refusal :=
  if !s.alive then .next s
  else
  let h := s.health
  let ce := (s.word 0x1010 - h.base.1).toNat / 65536
  let re := (s.retryEvents - h.base.2).toNat / 1024
  let p := h.points + ce + re + s.hotPoints
  let base : W64 × W64 := (h.base.1 + BitVec.ofNat 64 (ce * 65536), h.base.2 + BitVec.ofNat 64 (re * 1024))
  .next ({ s with health := { h with score := nextScore h.score s.cfg.riskHalfLife p, points := 0, base := base } }.followScore)

/-- DIE_LOST: the module withdraws (R335). -/
def execDieLost (_d : DieId) (s : State) : Host.Outcome State Fault Refusal := .next s.withdraw

/-! ### Restore (R339 to R342) -/

/-- The running restore package of a job with its context and Chrysalis state. -/
def State.restoreOf (s : State) (job : BitVec 16) : Option (Pkg × Restore × JobCtx × Chrys) :=
  match s.pkgs.find? fun p => p.job == job && p.kind == 3 && p.running with
  | none => none
  | some p =>
    match p.restore, s.job? job with
    | some r, some j => j.chrys.map fun c => (p, r, j, c)
    | _, _ => none

/-- The stage of the restore moves. -/
def State.setStage (s : State) (tag n : Nat) : State :=
  s.updPkg tag fun p => { p with restore := p.restore.map fun r => { r with stage := n } }

/-- The reports at COORDINATOR: device, step, G. -/
def State.reports (s : State) (r : Restore) (j : JobCtx) : List (Nat × Nat × Nat) :=
  ((s.jobDevices j).filter fun d => !r.isLost d).map fun d =>
    (d, s.peekWord j.id (r.report.toNat + 16 * d), s.peekWord j.id (r.report.toNat + 16 * d + 8) % 2 ^ 32)

/-- Is generation g above y, both modulo 2^32 (R489)? -/
def genAbove (g y : Nat) : Bool := decide (0 < (g + 2 ^ 32 - y) % 2 ^ 32 ∧ (g + 2 ^ 32 - y) % 2 ^ 32 < 2 ^ 31)

/-- The report with the highest G. -/
def best : List (Nat × Nat × Nat) → Nat × Nat
  | [] => (0, 0)
  | [(_, n, g)] => (n, g)
  | (_, n, g) :: xs => let y := best xs; if genAbove g y.2 then (n, g) else y

/-- RESTORE_GATHER at COORDINATOR: every survivor has reported; g and its step go to every device (R339). Where the PUT
writes is not stated: the place of the device's own report (log 34). -/
def execRestoreGather (job : BitVec 16) (s : State) : Host.Outcome State Fault Refusal :=
  match s.restoreOf job with
  | none => .next s
  | some (p, r, j, c) =>
    if s.deviceOf j ≠ r.coordinator ∨ r.stage ≠ 0 ∨ j.rise c.secureCount < j.devices - r.lost.length then .next s
    else
      let x := best (s.reports r j)
      let out (d : Nat) : CopyOut :=
        ⟨j.hallOf d, atDevice (r.report.toNat + 16 * d) d, 0, 16, leBytes 8 x.1 ++ leBytes 8 x.2, some (c.secureCount + 1 + d * 2 ^ 12 + 2 ^ 31)⟩
      let s1 := s.looked job r.report.toNat (16 * j.devices)
      .next ((((s1.setStage p.tag 1).note job [c.secureCount]).updChrys job fun c => { c with toSend := c.toSend ++ (s.jobDevices j).map out }).pump job)

/-- Where the g that comes from COORDINATOR lies. -/
def State.sentAt (s : State) (r : Restore) (j : JobCtx) : Nat := r.report.toNat + 16 * s.deviceOf j

/-- The g that has come from COORDINATOR. -/
def State.sentGen (s : State) (r : Restore) (j : JobCtx) : Nat := s.peekWord j.id (s.sentAt r j + 8) % 2 ^ 32

/-- Every live tensor takes its shadow. -/
def State.revert (s : State) (job : BitVec 16) : List Tensor → State
  | [] => s
  | t :: ts => (s.copyOwn job t.shadow.toNat t.base.toNat t.bytes).revert job ts

/-- RESTORE_APPLY at a survivor: g - 1 with a prepared g promotes it; then every shadow is copied into its live tensor and
a preparation above g is discarded (R339). -/
def execRestoreApply (job : BitVec 16) (s : State) : Host.Outcome State Fault Refusal :=
  match s.restoreOf job with
  | none => .next s
  | some (p, r, j, c) =>
    if r.isLost (s.deviceOf j) || decide (2 ≤ r.stage) || j.rise (c.secureCount + 1) == 0 then .next s
    else
      let g := s.sentGen r j
      let s0 := s.looked job (s.sentAt r j) 16
      let s1 := if (c.gen + 1).toNat = g ∧ c.preparing.isSome ∧ c.prepared then s0.promote job else s0
      let s2 := s1.revert job c.tensors
      .next (((s2.updChrys job fun c => { c with preparing := none, pendingStep := none, folded := false, prepared := false }).note job
        [c.secureCount + 1]).setStage p.tag 2)

/-- Where the copies that a device holds are read: a lost device that is READABLE is its own module, whose hall number is
its device number (log 35). -/
def sourceHall (r : Restore) (j : JobCtx) (d : Nat) : Nat := if r.lost.any (fun x => x.1 == d && x.2.2) then d else j.hallOf d

/-- Is a device lost and not READABLE? -/
def Restore.gone (r : Restore) (d : Nat) : Bool := r.lost.any fun x => x.1 == d && !x.2.2

/-- An address on a device, named as its own module takes it. -/
def ownAt (a : Nat) : Nat := atDevice a 0x3FFF

/-- Reads of a whole area into one's own places. -/
def area (hall a n : Nat) (dests : List Nat) : List CopyIn := cutIn ⟨hall, ownAt a, n, dests, false⟩

/-- BYTES of a member's tensor as a holder takes it: its own entry's, and of another member what no block of this device says, a
free value up to GROUP_BYTES (log 33). -/
def Tensor.bytesOf (t : Tensor) (job : BitVec 16) (m : Nat) : Nat :=
  if m = t.member then t.bytes
  else 4096 * (1 + Config.memberBlocks job.toNat t.id ((t.group[m]?).getD 0) % (max 1 (t.groupBytes / 4096)))

/-- Bytes of a member's chunk at an offset: those at or beyond BYTES read as zero and are not read (R329). -/
def Tensor.chunkLen (t : Tensor) (job : BitVec 16) (m off : Nat) : Nat := min t.chunk (t.bytesOf job m - off)

/-- Is a tensor of a spare's device lost for good (Table 13-8)? -/
def Tensor.doubleLost (t : Tensor) (r : Restore) : Bool :=
  if t.mirror then r.gone t.partner
  else t.others.any fun m => r.gone ((t.group[m]?).getD 0)

/-- What a spare reads for one tensor of the device it plays (R340): all areas of a READABLE module; the partner's slot; or,
as holder, the seven other members' shadows into its parity slot. -/
def spareReads (r : Restore) (j : JobCtx) (readable : Bool) (d g : Nat) (t : Tensor) : List CopyIn :=
  if readable then
    area d t.shadow.toNat t.bytes [t.base.toNat, t.shadow.toNat] ++
      (if t.mirror then [] else area d t.copy.toNat (2 * t.chunk + 7 * t.bitmap) [t.copy.toNat])
  else if t.mirror then
    if r.gone t.partner then [] else area (sourceHall r j t.partner) (t.copy.toNat + g % 2 * t.bytes) t.bytes [t.base.toNat, t.shadow.toNat]
  else
    t.others.flatMap fun m =>
      let x := (t.group[m]?).getD 0
      let off := heldChunk t.member m * t.chunk
      let n := t.chunkLen j.id m off
      if r.gone x then [] else cutIn ⟨sourceHall r j x, ownAt (t.shadow.toNat + off), n, [t.copy.toNat + g % 2 * t.chunk], true⟩

/-- The lost member of a parity group whose chunk a surviving holder rebuilds, where it is the only one gone. -/
def Tensor.lostMember (t : Tensor) (r : Restore) : Option Nat :=
  match t.others.filter fun m => r.gone ((t.group[m]?).getD 0) with
  | [m] => some m
  | _ => none

/-- A holder's reads for a lost member's chunk: the six other members' shadow chunks, into its free slot. -/
def holderReads (r : Restore) (j : JobCtx) (g : Nat) (t : Tensor) : List CopyIn :=
  match if t.mirror then none else t.lostMember r with
  | none => []
  | some m =>
    (t.others.filter (· != m)).flatMap fun q =>
      let x := (t.group[q]?).getD 0
      let off := heldChunk t.member q * t.chunk
      cutIn ⟨sourceHall r j x, ownAt (t.shadow.toNat + off), t.chunkLen j.id q off, [t.copy.toNat + (g + 1) % 2 * t.chunk], true⟩

/-- What a holder writes to the spare: the rebuilt chunk, into live tensor and shadow (log 33). -/
def holderWrites (r : Restore) (j : JobCtx) (g : Nat) (t : Tensor) : List CopyOut :=
  match if t.mirror then none else t.lostMember r with
  | none => []
  | some m =>
    let d := (t.group[m]?).getD 0
    let off := heldChunk t.member m * t.chunk
    let n := t.chunkLen j.id m off
    [t.base.toNat, t.shadow.toNat].flatMap fun a => cutOut ⟨j.hallOf d, atDevice (a + off) d, t.copy.toNat + (g + 1) % 2 * t.chunk, n, [], none⟩

/-- What a device that mirrored to a lost one rewrites at the spare: its shadows, and its record (R340). -/
def mirrorWrites (r : Restore) (j : JobCtx) (c : Chrys) (g : Nat) : List CopyOut :=
  (c.tensors.flatMap fun t =>
    if t.mirror && r.isLost t.partner then cutOut ⟨j.hallOf t.partner, t.copy.toNat + g % 2 * t.bytes, t.shadow.toNat, t.bytes, [], none⟩ else []) ++
  (if r.isLost c.recordPartner then
    cutOut ⟨j.hallOf c.recordPartner, c.recordCopy.toNat + g % 2 * c.recordStride, c.slot 2, c.recordBytes, [], none⟩ else [])

/-- The holder's working slot starts from its slot g mod 2; a spare's parity slot starts from zero. -/
def State.primeSlots (s : State) (r : Restore) (job : BitVec 16) (spare : Bool) (g : Nat) : List Tensor → State
  | [] => s
  | t :: ts =>
    let s1 :=
      if t.mirror then s
      else if spare then s.poke job (t.copy.toNat + g % 2 * t.chunk) (List.replicate t.chunk 0#8)
      else if (t.lostMember r).isSome then s.copyOwn job (t.copy.toNat + g % 2 * t.chunk) (t.copy.toNat + (g + 1) % 2 * t.chunk) t.chunk
      else s
    s1.primeSlots r job spare g ts

/-- The first half of the refill: reads are sent, and what mirrored to the lost device is rewritten. -/
def State.refillReads (s : State) (p : Pkg) (r : Restore) (j : JobCtx) (c : Chrys) : State :=
  let d := s.deviceOf j
  let g := s.sentGen r j
  let spare := r.isLost d
  let readable := spare && !r.gone d
  let reads :=
    if spare then
      (c.tensors.flatMap (spareReads r j readable d g)) ++
        (if readable then area d c.recordAddr.toNat (3 * c.recordStride) [c.recordAddr.toNat]
         else if r.gone c.recordPartner then []
         else area (sourceHall r j c.recordPartner) (c.recordCopy.toNat + g % 2 * c.recordStride) c.recordBytes [c.slot 2])
    else c.tensors.flatMap (holderReads r j g)
  let s1 := (s.looked j.id (s.sentAt r j) 16).primeSlots r j.id (spare && !readable) g (if readable then [] else c.tensors)
  let out := if spare then [] else mirrorWrites r j c g
  ((s1.updChrys j.id fun c => { c with toRead := reads, toSend := out, gen := BitVec.ofNat 32 g }).setStage p.tag 3).pump j.id

/-- What a double loss takes, as this device's block shows it: device and TENSOR_ID. At a spare, its device's tensors and, with
TENSOR_ID 0 (log 36), its step record; at a survivor, the tensors of a parity group of its own that has lost two members
(Table 13-8). -/
def lostTensors (r : Restore) (c : Chrys) (d : Nat) : List (Nat × Nat) :=
  if r.gone d then
    ((c.tensors.filter fun t => t.doubleLost r).map fun t => (d, t.id)) ++ (if r.gone c.recordPartner then [(d, 0)] else [])
  else if r.isLost d then []
  else
    (c.tensors.filter fun t => !t.mirror).flatMap fun t =>
      let gone := (t.group.filter (· != d)).filter r.gone
      if 2 ≤ gone.length then gone.map fun m => (m, t.id) else []

/-- Each tensor lost has a record of its own (R346). -/
def State.recordLosses (s : State) (job : BitVec 16) (n : Nat) : List (Nat × Nat) → State
  | [] => s
  | (d, t) :: ts => (s.chrEvent 0x6302 s.health.level d t job n).recordLosses job n ts

/-- SPARE_REFILL (R340): a spare that knows g, or a survivor that has applied it, refills in two halves; each half ends when
all it sent is answered. A double loss ends the package with F-6302 (R342). -/
def execSpareRefill (job : BitVec 16) (s : State) : Host.Outcome State Fault Refusal :=
  match s.restoreOf job with
  | none => .next s
  | some (p, r, j, c) =>
    let d := s.deviceOf j
    let may : Bool := if r.isLost d then decide (r.stage ≤ 1) && j.rise (c.secureCount + 1) != 0 else r.stage == 2
    if may then .next (s.refillReads p r j c)
    else if r.stage = 3 ∨ r.stage = 4 then
      if !c.quiet then .next (s.pump job)
      else if r.stage = 3 then
        -- a spare's own shadows stand now: what its device mirrored to another lost one is rewritten from them
        let g := s.sentGen r j
        let out := if r.isLost d then mirrorWrites r j c g else c.tensors.flatMap (holderWrites r j g)
        .next ((((s.looked job (s.sentAt r j) 16).updChrys job fun c => { c with toSend := out }).setStage p.tag 4).pump job)
      else
        let x := lostTensors r c d
        if x.isEmpty then .next (s.setStage p.tag 5)
        else .next (((s.looked job (c.slot 2) 8).recordLosses job (s.peekWord job (c.slot 2)) x).abandon p.tag 0x6302 0x3FF 0 0 false)
    else .next s

/-- Load the tiles' streams from a record. -/
def State.loadStreams (s : State) (job : BitVec 16) (a : Nat) : Nat → State
  | 0 => s
  | t + 1 =>
    let e := s.peek job (a + 32 * t) 32
    (s.setTile t { s.tile t with streamK := BitVec.ofNat 128 (leNat (e.take 16)), streamC := BitVec.ofNat 128 (leNat (e.drop 16)) }).loadStreams job a t

/-- The bucket estimates of the record in slot 2, in table order: F and V (R326). -/
def State.recordEstimates (s : State) (job : BitVec 16) (c : Chrys) : List (BitVec 32 × BitVec 32) :=
  (List.range c.shape.2).map fun k =>
    let w := s.peekWord job (c.slot 2 + c.estimatesAt + 8 * k)
    (BitVec.ofNat 32 w, BitVec.ofNat 32 (w / 2 ^ 32))

/-- Clear both sets of every bucket. -/
def State.clearSets (s : State) (job : BitVec 16) : List Bucket → State
  | [] => s
  | b :: bs => ((s.clearSet job b false).clearSet job b true).clearSets job bs

/-- Load the record of slot 2 (R341): streams, cursor table, loss scale, counts of R315, estimates; the next step is c + 1. -/
def State.loadRecord (s : State) (j : JobCtx) (c : Chrys) : State :=
  let a := c.slot 2
  let w (k : Nat) : Nat := s.peekWord j.id (a + 8 * k)
  let e := s.peek j.id (a + c.streamsAt + 32 * 576) 32
  let s1 := ((s.looked j.id a c.recordBytes).loadStreams j.id (a + c.streamsAt) 576).poke j.id c.cursorAddr.toNat (s.peek j.id (a + 64) (32 * c.cursors))
  let s2 := s1.clearSets j.id j.buckets
  s2.updJob j.id fun q =>
    { q with streamK := BitVec.ofNat 128 (leNat (e.take 16)), streamC := BitVec.ofNat 128 (leNat (e.drop 16)),
             lossScale := BitVec.ofNat 32 (w 2 % 2 ^ 32), clean := fld (w 2) 32 16, skips := fld (w 2) 48 11, lastFlags := fld (w 2) 59 3,
             buckets := (loadEstimates (s.recordEstimates j.id c) q.buckets).map fun b => { b with steps := stepsAfter (w 0), mismatch := 0 },
             restored := if q.buckets.isEmpty then s.recordEstimates j.id c else [], step := w 0, stepping := false, rounded := false, verdict := none, formed := 0, seen := [],
             chrys := q.chrys.map fun c => { c with committed := w 0, level := fld (w 1) 62 2, due := true, pendingStep := none } }

/-- A restore package ends (R341). -/
def State.restoreEnds (s : State) (p : Pkg) : State :=
  (((s.originate p.conn p.hostKey (.complete p.pid p.job p.step (s.elapsed p) false)).bump 0x6050 1).bump 0x7058 1).removePkg p.tag

/-- RESTORE_RELOAD (R341): the refill is complete, and the device loads its record. The package's own kernels then convert the
restored master weights and multicast every layer (log 98); the next such command, which says that every layer has arrived, ends the
package once they have ended. -/
def execRestoreReload (job : BitVec 16) (s : State) : Host.Outcome State Fault Refusal :=
  match s.restoreOf job with
  | none => .next s
  | some (p, r, j, c) =>
    if r.stage = 6 then (if s.tasksDone p then .next (s.restoreEnds p) else .next s)
    else if r.stage ≠ 5 then .next s
    else .next ((s.loadRecord j c).setStage p.tag 6)

end Sys2Proof.Machine
end

