-- ==== Sys2Proof/Machine/Evaluation.lean ====
section
/-!
DEFINITION. Evaluation windows and Imago exports (R343 to R345, R417).
-/
namespace Sys2Proof.Machine

/-! ### Imago (R344, R345, R417) -/

/-- A text as bytes. -/
def ascii (t : String) : List Byte := t.toList.map fun c => BitVec.ofNat 8 c.toNat

/-- What an export holds after the step record: number, address of the bytes, bytes. -/
def State.imagoParts (s : State) (j : JobCtx) (c : Chrys) (owned : Bool) : List (Nat × Nat × Nat) :=
  if owned then c.tensors.map fun t => (t.id, t.base.toNat, t.bytes)
  else match s.pkgs.findSome? fun p => if p.job == j.id && p.kind == 1 then p.landing else none with
    | none => []
    | some x => ((List.range x.layers.length).zip x.layers).map fun l => (l.1, ownAt (l.2.vpage * 2 ^ 21), l.2.pages * 2 ^ 21)

/-- Entries and bytes of the plaintext after the step record. A layer's working weights are E4M3 (R313); the format of a secured
tensor stands in no block of the package, so its code is a free value (log 37). Reads that meet uncorrectable beats are counted
and recorded. -/
def State.imagoBody (s : State) (job : BitVec 16) (owned : Bool) : List (Nat × Nat × Nat) → List Byte × State
  | [] => ([], s)
  | (k, a, n) :: xs =>
    let fmt := if owned then s.free.toNat % 16 else 4
    let e := leBytes 8 (k % 65536 + fmt * 2 ^ 16) ++ leBytes 8 n ++ leBytes 16 0
    let r := ((bif owned then s.drawn else s).looked job a n).imagoBody job owned xs
    (e ++ s.peek job a n ++ r.1, r.2)

/-- Pieces of at most n bytes. -/
def cut (n : Nat) (bs : List Byte) : List (List Byte) := (List.range (cdiv bs.length n)).map fun i => (bs.drop (i * n)).take n

/-- The segments of one piece, each of at most 8,176 bytes. -/
def imagoSegments (piece : Nat) (job : BitVec 16) (bs : List Byte) : List OMsg :=
  let xs := cut 8176 bs
  ((List.range xs.length).zip xs).map fun x => .imagoSegment piece (x.1 * 8176) (x.1 + 1 == xs.length) job x.2

/-- The messages of an export of step n, whose E is fresh (R417). -/
def State.imagoMessages (s : State) (j : JobCtx) (c : Chrys) (q : ImagoReq) : List OMsg × State :=
  let n := j.step
  let parts := s.imagoParts j c q.owned
  let b := (s.looked j.id (c.slot (n % 2)) c.recordBytes).imagoBody j.id q.owned parts
  let plain := s.peek j.id (c.slot (n % 2)) c.recordBytes ++ b.1
  let e := freshSecret b.2.freeCtr
  let s1 := b.2.drawn
  let chunks := cut (2 ^ 20) plain
  let head := leBytes 8 (1 + bit q.owned * 2 ^ 8 + j.id.toNat * 2 ^ 9 + s.deviceOf j % 2 ^ 14 * 2 ^ 25) ++ leBytes 8 n ++
    leBytes 8 (parts.length + chunks.length * 2 ^ 32) ++ leBytes 8 plain.length
  let key := hkdf (leBytes 32 (x25519 e q.recipient).toNat) (leBytes 16 Config.serial.toNat) (ascii "KRV IMAGO" ++ head)
  let header := head ++ leBytes 32 (x25519Public e).toNat
  let sealedOnes := ((List.range chunks.length).zip chunks).flatMap fun x => imagoSegments x.1 j.id (gcmSeal key (leBytes 12 x.1) header x.2)
  (imagoSegments 0xFFFFFFFF j.id header ++ sealedOnes, s1)

/-- Send messages in order. -/
def State.sendMsgs (s : State) (id : BitVec 32) : List OMsg → State
  | [] => s
  | m :: ms => (s.sendMsg id m).sendMsgs id ms

/-- The snapshot of an export is taken and all its segments queued; the export notes the last message's SEQ. -/
def State.snapshot (s : State) (j : JobCtx) (c : Chrys) (q : ImagoReq) : State :=
  let x := s.imagoMessages j c q
  let s1 := x.2.sendMsgs q.conn x.1
  let last := match s1.conn? q.conn with | some k => some (k.txNext - 1) | none => none
  { s1 with imagos := updFirst (fun y => y == q) (fun y => { y with last := last }) s1.imagos }

/-- Has the host acknowledged every chunk of an export? -/
def State.imagoDone (s : State) (q : ImagoReq) : Bool :=
  match q.last, s.conn? q.conn with
  | some n, some k => !(k.unacked.any fun u => u.seq == n)
  | _, _ => false

/-! ### Windows (R343) -/

/-- Is the step of the job over, with every layer passed on and nothing due, so that a window may open after it? -/
def State.betweenSteps (s : State) (j : JobCtx) (c : Chrys) : Bool :=
  j.verdict.isSome && !j.stepping && c.preparing.isNone && c.pendingStep.isNone &&
  (match s.pkgs.find? fun p => p.job == j.id && p.kind == 1 && p.running with
   | none => true
   | some p => s.stepOver p && (match p.landing with
     | none => true
     | some x => (List.range x.layers.length).all fun l => decide (j.verdicts ≤ Sp.get 0 j.flips l)))

/-- Does the Noon order come to an evaluation package whose context holds no training package? -/
def State.evalHead (s : State) (job : BitVec 16) : Bool :=
  !s.hasTraining job && !(s.pkgs.any fun p => !p.vesper && p.running) &&
  (match s.pkgs.find? fun p => !p.vesper with | some p => p.kind == 2 && p.job == job | none => false)

/-- The streams of all tiles, as saved at the opening. -/
def State.savedStreams (s : State) : List (Nat × BitVec 128 × BitVec 128) :=
  (List.range 576).map fun t => (t, (s.tile t).streamK, (s.tile t).streamC)

/-- Streams return to their state at the opening. -/
def State.returnStreams (s : State) : List (Nat × BitVec 128 × BitVec 128) → State
  | [] => s
  | (t, k, c) :: xs => (s.setTile t { s.tile t with streamK := k, streamC := c }).returnStreams xs

/-- The windows that are left when that of a job closes. One that opened while it was open takes its saved streams over, to
return them at its own close (log 137). -/
def leftWindows (job : BitVec 16) (saved : List (Nat × BitVec 128 × BitVec 128)) : List EvalWin → List EvalWin
  | [] => []
  | e :: es => if e.job = job then (match es with | [] => [] | x :: r => { x with saved := saved } :: r) else e :: leftWindows job saved es

/-- Is a job's window the one that opened last? -/
def State.lastWindow (s : State) (job : BitVec 16) : Bool := match s.eval.getLast? with | some e => e.job == job | none => false

/-- The window of a job closes: streams return, unless a window that opened later is still open, and it is counted. -/
def State.closeWindow (s : State) (job : BitVec 16) : State :=
  match s.window? job with
  | none => s
  | some e =>
    let s1 := if s.lastWindow job then s.returnStreams e.saved else s
    ({ s1 with eval := leftWindows job e.saved s1.eval }).bump 0x6058 1

/-- The windows of several jobs close. -/
def State.closeWindows (s : State) : List EvalWin → State
  | [] => s
  | e :: es => (s.closeWindow e.job).closeWindows es

/-- The step of a scheduled window is noted, so that it opens once. -/
def State.noteWindow (s : State) (j : JobCtx) : State := s.updChrys j.id fun c => { c with evalStep := j.step + 1 }

/-- Open a window: with an export the snapshot is taken; with nothing held it closes at once. -/
def State.openWindow (s : State) (j : JobCtx) (c : Chrys) (q : Option ImagoReq) : State :=
  let s1 := (match q with | some q => s.snapshot j c q | none => s).noteWindow j
  let s2 := { s1 with eval := s1.eval ++ [⟨j.id, s.savedStreams, s.now, q.isSome⟩] }
  if q.isNone && !s.holdsEval j.id then s2.closeWindow j.id else s2

/-- EVAL_WINDOW_OPEN (R343): after a step, or at once for an evaluation package at the head; either takes an export that waits. -/
def execEvalWindowOpen (job : BitVec 16) (s : State) : Host.Outcome State Fault Refusal :=
  match s.job? job with
  | none => .next s
  | some j =>
    if s.windowOpen job then .next s
    else
      match j.chrys with
      | some c =>
        let q := s.imagos.find? fun q => q.job == job && q.last.isNone
        let scheduled : Bool := c.evalEvery != 0 && j.step % c.evalEvery == 0 && c.evalStep != j.step + 1
        if (s.betweenSteps j c && (scheduled || q.isSome)) || s.evalHead job then .next (s.openWindow j c q) else .next s
      | none => if s.evalHead job then .next { s with eval := s.eval ++ [⟨job, s.savedStreams, s.now, false⟩] } else .next s

/-- EVAL_WINDOW_CLOSE: the evaluation packages held for the window have ended, and the host has acknowledged every chunk of
an export (R343, R344). -/
def execEvalWindowClose (job : BitVec 16) (s : State) : Host.Outcome State Fault Refusal :=
  match s.window? job with
  | none => .next s
  | some e =>
    if s.holdsEval job then .next s
    else if !e.imago then .next (s.closeWindow job)
    else match s.imagos.find? fun q => q.job == job && q.last.isSome with
      | none => .next (s.closeWindow job)
      | some q =>
        if s.imagoDone q then .next (({ s with imagos := eraseFirst (fun y => y == q) s.imagos }.bump 0x6060 1).closeWindow job)
        else .next s

/-- EVAL_WINDOW_OVERRUN: EVAL_WINDOW_LIMIT after the opening the window's packages are abandoned with F-6401 and it closes;
the limit does not apply to a window with an export (R343, R344). -/
def execEvalWindowOverrun (job : BitVec 16) (s : State) : Host.Outcome State Fault Refusal :=
  match s.window? job with
  | none => .next s
  | some e =>
    if e.imago ∨ !s.passed e.openedAt (s.cfg.evalLimit * 1000000000) then .next s
    else
      let step := match s.job? job with | some j => j.step | none => 0
      let s1 := s.chrEvent 0x6401 s.health.level s.hall 0 job step
      .next ((s1.abandonAll 0x6401 0x3FF false ((s1.pkgs.filter fun p => p.job == job && p.kind == 2).map (·.tag))).closeWindow job)

/-- An export whose connection fails ends with F-6502, and the window that was open for it closes (R344). -/
def State.abortImago (s : State) (q : ImagoReq) : State :=
  let step := match s.job? q.job with | some j => j.step | none => 0
  let s1 := s.chrEvent 0x6502 s.health.level s.hall 0 q.job step
  match s1.window? q.job with
  | some e => if e.imago && q.last.isSome then s1.closeWindow q.job else s1
  | none => s1

end Sys2Proof.Machine
end

