-- ==== Sys2Proof/Machine/Log.lean ====
section
/-!
DEFINITION. The configuration flash as an array of bytes (R421), and the log in it: records, ring, scan, writer and replay
(R481 to R486).
-/
namespace Sys2Proof.Machine

/-! ### Flash -/

/-- Bytes of the flash: an unlisted byte is erased, 0xFF. -/
def flashRead (f : Sp Byte) (off n : Nat) : List Byte := (List.range n).map fun i => Sp.get 0xFF#8 f (off + i)

/-- Erase a span. -/
def flashErase (f : Sp Byte) (off n : Nat) : Sp Byte := f.filter fun e => decide (e.1 < off ∨ off + n ≤ e.1)

/-- Program bytes: bits change from 1 to 0 only. -/
def flashProgram (f : Sp Byte) (off : Nat) : List Byte → Sp Byte
  | [] => f
  | b :: bs => flashProgram (Sp.put 0xFF#8 f off (Sp.get 0xFF#8 f off &&& b)) (off + 1) bs

/-- Bytes whose bits are undefined after a failed operation: each takes a free value of its own, from number n on (R447, log 3). -/
def flashSpoil (f : Sp Byte) (n off : Nat) : Nat → Sp Byte
  | 0 => f
  | k + 1 => flashSpoil (Sp.put 0xFF#8 f off ((Config.freeValue n).truncate 8)) (n + 1) (off + 1) k

/-! ### Records (Table 20-4) -/

/-- A log record with its LOG_SEQ: 64 bytes. -/
def recordBytes (seq starts : Nat) (r : LogRec) : List Byte :=
  let w2 := starts % 2 ^ 32 + r.code % 2 ^ 16 * 2 ^ 32 + r.kind % 8 * 2 ^ 48 + bit r.job.isSome * 2 ^ 51
  let w3 := r.repeats + r.dropped * 2 ^ 32 + (match r.job with | some j => j.toNat | none => 0) * 2 ^ 48
  let d := leBytes 8 seq ++ leBytes 8 r.uptime.toNat ++ leBytes 8 w2 ++ leBytes 8 w3 ++ leBytes 8 r.detail.1.toNat ++ leBytes 8 r.detail.2.toNat ++
    leBytes 8 r.tenant.toNat
  d ++ leBytes 8 (crc32 d)

/-- Is a programmed slot whole: does CHECK hold? -/
def slotOk (b : List Byte) : Bool := leNat ((b.drop 56).take 4) == crc32 (b.take 56)

/-- Flash offset of a sector of the ring (R483). -/
def logSector (i : Nat) : Nat := i / 496 * 2 ^ 27 + 0x6100000 + i % 496 * 65536

/-- "SEPTLOG1" as a word. -/
def logMagic : Nat := 0x31474F4C54504553

/-- Header of a sector. -/
def logHeader (seq : Nat) : List Byte :=
  let d := leBytes 8 logMagic ++ leBytes 8 seq ++ leBytes 40 0
  d ++ leBytes 8 (crc32 d)

/-- SECTOR_SEQ of a sector with a valid header. -/
def sectorSeqOf (f : Sp Byte) (i : Nat) : Option Nat :=
  let b := flashRead f (logSector i) 64
  if leNat (b.take 8) = logMagic ∧ slotOk b then some (leNat ((b.drop 8).take 8)) else none

/-- The sectors of the ring that hold any programmed byte. -/
def usedSectors (f : Sp Byte) : List Nat :=
  (f.filterMap fun e =>
    let o := e.1 % 2 ^ 27
    if 0x6100000 ≤ o then some (e.1 / 2 ^ 27 * 496 + (o - 0x6100000) / 65536) else none).eraseDups

/-- The programmed slots of a sector, in rising order. -/
def usedSlots (f : Sp Byte) (i : Nat) : List Nat :=
  (f.filterMap fun e => if logSector i + 64 ≤ e.1 ∧ e.1 < logSector i + 65536 then some ((e.1 - logSector i) / 64) else none).eraseDups

/-- The records of a sector whose CHECK is correct: LOG_SEQ, bytes. -/
def sectorRecords (f : Sp Byte) (i : Nat) : List (Nat × List Byte) :=
  (usedSlots f i).filterMap fun k =>
    let b := flashRead f (logSector i + 64 * k) 64
    if slotOk b then some (leNat (b.take 8), b) else none

/-- Put a pair into a list that rises by first part. -/
def insertRising (x : Nat × Nat) : List (Nat × Nat) → List (Nat × Nat)
  | [] => [x]
  | y :: ys => if x.1 ≤ y.1 then x :: y :: ys else y :: insertRising x ys

/-- Sectors with valid headers: SECTOR_SEQ and ring index, by rising SECTOR_SEQ. -/
def validSectors (f : Sp Byte) : List (Nat × Nat) :=
  ((usedSectors f).filterMap fun i => (sectorSeqOf f i).map fun q => (q, i)).foldr insertRising []

/-- The greatest number of a list, plus one; 0 of an empty list. -/
def succMax : List Nat → Nat
  | [] => 0
  | x :: xs => max (x + 1) (succMax xs)

/-- The scan of R484. -/
def State.logScan (s : State) : State :=
  let f := s.img.flash
  let vs := validSectors f
  let recs := vs.map fun v => (v.2, sectorRecords f v.2)
  let seqs := recs.flatMap fun r => r.2.map (·.1)
  let bad := sumNat (vs.map fun v => (usedSlots f v.2).length) - seqs.length
  let pos := vs.getLast?.map fun v => (v.2, max 1 (succMax (usedSlots f v.2)))
  -- the next record's LOG_SEQ stands for the first of a last sector that holds no whole record yet
  let firsts := recs.filterMap fun r => match r.2 with
    | x :: _ => some (r.1, BitVec.ofNat 64 x.1)
    | [] => if pos.map (·.1) = some r.1 then some (r.1, BitVec.ofNat 64 (succMax seqs)) else none
  { s with log := { s.log with next := BitVec.ofNat 64 (succMax seqs), pos := pos, sectors := firsts, scanned := true,
                               sectorSeq := BitVec.ofNat 64 (match vs.getLast? with | some v => v.1 | none => 0) } }.bump 0x0720 bad

/-! ### The writer (R482, R483) -/

/-- The writer begins a sector of the ring: erased, headed, and the next one erased. -/
def State.beginSector (s : State) (i : Nat) : State :=
  let f := flashErase s.img.flash (logSector i) 65536
  let f := flashProgram f (logSector i) (logHeader (s.log.sectorSeq.toNat + 1))
  let n := (i + 1) % 992
  { s with img := { s.img with flash := flashErase f (logSector n) 65536 },
           log := { s.log with pos := some (i, 1), sectorSeq := s.log.sectorSeq + 1,
                               sectors := (s.log.sectors.filter fun e => e.1 != i && e.1 != n) ++ [(i, s.log.next)] } }

/-- Where the next record goes: the state has a sector in use with a free slot. -/
def State.roomForRecord (s : State) : State :=
  match s.log.pos with
  | none => s.beginSector 0
  | some (i, k) => if k < 1024 then s else s.beginSector ((i + 1) % 992)

/-- Put words into consecutive status words. -/
def State.setWords (s : State) (k : Nat) : List Nat → State
  | [] => s
  | w :: ws => (s.setWord k (BitVec.ofNat 64 w)).setWords (k + 8) ws

/-- The eight words of a record. -/
def recordWords (b : List Byte) : List Nat := (List.range 8).map fun i => leNat ((b.drop (8 * i)).take 8)

/-- The bytes of a record pass through the flash interface, whose clock runs for their transfer (R450, R452); between the operations of a
staging they pass unseen (log 121). -/
def State.flashPass (s : State) (b : List Byte) : State := if s.clockRuns .flash then s else s.restartAt flashIn b

/-- Program a record into the ring, place it in LOG_LIVE and pass it (R482, R485). -/
def State.logOut (s : State) (r : LogRec) : State :=
  let s1 := s.roomForRecord
  let q := s1.log.next.toNat
  let b := recordBytes q s1.start.starts.toNat r
  match s1.log.pos with
  | none => s1
  | some (i, k) =>
    let s2 := { s1 with img := { s1.img with flash := flashProgram s1.img.flash (logSector i + 64 * k) b },
                        log := { s1.log with pos := some (i, k + 1) } }.setWords (0x0800 + 64 * (q % 16)) (recordWords b)
    { s2 with log := { s2.log with next := s2.log.next + 1 } }.flashPass b

/-- LOG_WRITE (R482): the oldest queued record moves to flash, at most 32 in any 1 s, after the scan. -/
def execLogWrite (s : State) : Host.Outcome State Fault Refusal :=
  let taken := s.log.taken.filter fun t => decide (s.now < t + 1000000000)
  match s.log.queue with
  | [] => .next s
  | r :: rs =>
    if s.log.scanned ∧ taken.length < 32 then
      .next ({ s with log := { s.log with queue := rs, taken := taken ++ [s.now] } }.logOut r)
    else .next s

/-! ### Replay (R486) -/

/-- LOG_SEQ of the oldest record retained (Table 20-5). -/
def State.logOldest (s : State) : W64 := match s.log.sectors with | (_, n) :: _ => n | [] => s.log.next

/-- The bytes of a retained record; zeros where none is retained. -/
def State.logRecord (s : State) (q : Nat) : List Byte :=
  match (s.log.sectors.filter fun e => decide (e.2.toNat ≤ q)).getLast? with
  | none => leBytes 64 0
  | some e => match (sectorRecords s.img.flash e.1).find? (·.1 == q) with | some r => r.2 | none => leBytes 64 0

/-- Show 16 records from LOG_SEQ q in LOG_REPLAY; places beyond the newest read zero. -/
def State.replayShow (s : State) (q : W64) : State :=
  let ws := (List.range 16).flatMap fun i => if q.toNat + i < s.log.next.toNat then recordWords (s.logRecord (q.toNat + i)) else List.replicate 8 0
  { s with log := { s.log with replay := some q } }.setWords 0x0C00 ws

/-- The first unlock begins. -/
def State.replayStart (s : State) : State := s.replayShow s.logOldest

/-- The last unlock ends. -/
def State.replayEnd (s : State) : State := { s with log := { s.log with replay := none } }.setWords 0x0C00 (List.replicate 128 0)

/-- LOG_REPLAY_ADVANCE (R486). -/
def execLogReplayAdvance (s : State) : Host.Outcome State Fault Refusal :=
  match s.log.replay with
  | none => .next s
  | some q => .next (if (q + 16).toNat < s.log.next.toNat then s.replayShow (q + 16) else s.replayStart)

/-- A bind or a release notes LOG_SEQ_NEXT in BIND_SEQ. -/
def State.noteBind (s : State) : State := { s with log := { s.log with bindSeq := s.log.next } }

end Sys2Proof.Machine
end

