-- ==== Sys2Proof/Machine/Connections.lean ====
section
/-!
DEFINITION. Host connections: violations and quarantine (R391, R392), acknowledgement and closing (R377 to R380), and the
data, signal, status and package messages (R382 to R385, R390).
-/
namespace Sys2Proof.Machine

/-! ### Measurements, unlocks and stagings that end with a connection -/

/-- Extend M5 with an event (Table 16-4): 1 bind, 2 release, 3 level 1, 4 level 2, 5 unlock ended. -/
def State.m5Event (s : State) (code : Nat) : State :=
  { s with sec := { s.sec with m5 := BitVec.ofNat 512 (leNat (sha512 (leBytes 64 s.sec.m5.toNat ++ leBytes 8 code ++ leBytes 8 s.now))) } }

/-- The unlock of a session ends (R416). -/
def State.endUnlock (s : State) (id : BitVec 32) : State :=
  match s.conn? id with
  | none => s
  | some c =>
    if c.unlock.isSome then
      let s1 := (s.updConn id fun c => { c with unlock := none }).m5Event 5
      if s1.unlockLevel = 0 then s1.replayEnd else s1
    else s

/-- An error answers the fragments that wait. -/
def State.answerAll (s : State) (id : BitVec 32) (code : Nat) : List (W64 × Nat × List Byte) → State
  | [] => s
  | x :: xs => (s.errorReply id x.1 code).answerAll id code xs

/-- A staging ends: its code and cause are kept (Table 17-13); with a code, it is logged and answers the fragments that wait. -/
def State.stageEnd (s : State) (code cause : Nat) : State :=
  match s.img.staging with
  | none => s
  | some g =>
    let s1 := { s with img := { s.img with staging := none, outcome := (code, cause, g.bank, g.got) } }
    if code = 0 then s1 else (s1.logEvent code none (0, 0)).answerAll g.conn code g.pend

/-- The staging of a connection ends with F-9306 (R445). -/
def State.stageAbort (s : State) (id : BitVec 32) : State :=
  match s.img.staging with
  | some g => if g.conn = id then s.stageEnd 0x9306 0 else s
  | none => s

/-! ### Closing (R377, R379, R380) -/

/-- Is a message one that the module originates for a package (R380)? -/
def OMsg.forPackage : OMsg → Bool
  | .accept .. => true
  | .decline .. => true
  | .complete .. => true
  | .notice k _ _ _ => k != 3
  | .signalOut .. => true
  | _ => false

/-- What was not acknowledged of the messages for packages goes to the queue of the HOST_KEY (log 47). -/
def State.requeue (s : State) (key : BitVec 256) : List Unacked → State
  | [] => s
  | u :: us => (if u.msg.forPackage then s.enq key u.msg else s).requeue key us

/-- An export of a connection that ends: complete where every chunk is acknowledged, else F-6502 (R344). -/
def State.endImago (s : State) (q : ImagoReq) : State :=
  if s.imagoDone q then
    let s1 := s.bump 0x6060 1
    if s1.holdsEval q.job then { s1 with eval := updFirst (fun e => e.job == q.job) (fun e => { e with imago := false }) s1.eval }
    else s1.closeWindow q.job
  else s.abortImago q

/-- The same for a list of exports. -/
def State.endEach (s : State) : List ImagoReq → State
  | [] => s
  | q :: qs => (s.endImago q).endEach qs

/-- Every export of a connection ends. -/
def State.endImagos (s : State) (id : BitVec 32) : State :=
  ({ s with imagos := s.imagos.filter (·.conn != id) }).endEach (s.imagos.filter (·.conn == id))

/-- A connection becomes CLOSED. -/
def State.closed (s : State) (id : BitVec 32) : State :=
  match s.conn? id with
  | none => s
  | some c =>
    let s1 := (((s.endUnlock id).endImagos id).stageAbort id).requeue c.hostKey c.unacked
    { s1 with conns := s1.conns.filter (·.id != id), assemblies := s1.assemblies.filter (·.conn != id) }

/-- Several connections become CLOSED. -/
def State.closeAllConns (s : State) : List (BitVec 32) → State
  | [] => s
  | c :: cs => (s.closed c).closeAllConns cs

/-- A connection fails (R379): F-7201 is recorded. -/
def State.connFailed (s : State) (id : BitVec 32) : State :=
  match s.conn? id with
  | none => s
  | some c => (s.hostFault 0x7201 c.port 0 id c.addr).closed id

/-- CLOSING ends once every message of the module is acknowledged (Table 15-5). -/
def State.closeIfDone (s : State) (id : BitVec 32) : State :=
  match s.conn? id with
  | some c => if c.st = 3 ∧ c.unacked.isEmpty then s.closed id else s
  | none => s

/-! ### Violations and quarantine (R391, R392) -/

/-- Is a source quarantined? -/
def State.isQuarantined (s : State) (source : BitVec 128) : Bool := s.quarantined.any (·.1 == source)

/-- A recorded violation counts against its source; HOST_QUARANTINE_LIMIT of them within 1 s quarantine it. F-7101 and F-7105 are
counted in MALFORMED (Tables 15-6 and 15-7; log 130). -/
def State.hostViolation (s : State) (h : KHdr) (code : Nat) : State :=
  let s1 := (s.bump 0x7030 (bit (code == 0x7101 || code == 0x7105))).hostFault code h.port h.type.toNat h.conn h.source
  let recent := (s1.hostViol ++ [(h.source, s1.now)]).filter fun v => decide (s1.now < v.2 + 1000000000)
  let s2 : State := { s1 with hostViol := recent }
  if s.cfg.hostQuarantine ≤ countIf (fun v => v.1 == h.source) recent ∧ !s.isQuarantined h.source then
    (({ s2 with quarantined := s2.quarantined ++ [(h.source, s.now)] }.bump 0x7040 1).hostFault 0x7106 h.port h.type.toNat h.conn h.source).closeAllConns
      ((s2.conns.filter fun (c : Conn) => c.addr == h.source).map fun (c : Conn) => c.id)
  else s2

/-! ### Acknowledgement (R378, R290) -/

/-- An acknowledged signal message lets the next of its number go. -/
def State.ackSignals (s : State) (id : BitVec 32) : List Unacked → State
  | [] => s
  | u :: us =>
    (match u.msg with
     | .signalOut job n _ _ => (match (s.job? job).bind fun (j : JobCtx) =>
           j.outbound.find? fun (e : Nat × OutSig) => e.1 == n && e.2.sent == some (id, u.seq) with
       | some _ => s.markSent job n none
       | none => s)
     | _ => s).ackSignals id us

/-- The ACK and WINDOW of an authenticated datagram. -/
def State.takeAck (s : State) (id : BitVec 32) (ack : W64) (window : Nat) : State :=
  match s.conn? id with
  | none => s
  | some c =>
    if (c.txNext - c.ack).toNat < (ack - c.ack).toNat then s
    else
      let gone (u : Unacked) : Bool := decide ((u.seq - c.ack).toNat < (ack - c.ack).toNat)
      let s1 := s.updConn id fun c => { c with ack := ack, window := window, unacked := c.unacked.filter fun u => !gone u }
      (s1.ackSignals id (c.unacked.filter gone)).flush id

/-- The queue of a HOST_KEY is sent on its next connection (R380). -/
def State.sendQueued (s : State) (id : BitVec 32) : List OMsg → State
  | [] => s
  | m :: ms =>
    let seq := match s.conn? id with | some c => c.txNext | none => 0
    ((match m with | .signalOut job n _ _ => s.markSent job n (some (id, seq)) | _ => s).sendMsg id m).sendQueued id ms

/-- The first authenticated sealed datagram opens a PENDING connection (Table 15-5). -/
def State.openPending (s : State) (id : BitVec 32) : State :=
  match s.conn? id with
  | none => s
  | some c =>
    if c.st ≠ 1 then s
    else
      let q := match s.hostQueues.find? (·.1 == c.hostKey) with | some x => x.2 | none => []
      ({ s.updConn id fun c => { c with st := 2 } with hostQueues := s.hostQueues.filter (·.1 != c.hostKey) }).sendQueued id q

/-! ### Answers -/

/-- The outcome of a request: a REPLY of status 0, or an error REPLY (R391). -/
def State.outcome (s : State) (id : BitVec 32) (ref : W64) (code : Nat) : State :=
  if code = 0 then s.sendMsg id (.reply ref 0) else s.errorReply id ref code

/-- Record a host fault that a message of an authenticated connection raises. -/
def State.connFault (s : State) (id : BitVec 32) (type code : Nat) : State :=
  match s.conn? id with
  | some c => s.hostFault code c.port type id c.addr
  | none => s

/-- Record a security fault of a session. -/
def State.sessionFault (s : State) (id : BitVec 32) (code : Nat) : State :=
  match s.conn? id with
  | some c => s.secFault code c.role id
  | none => s

/-- Record a code that a message is answered with, in the record of the chapter that owns it. -/
def State.noteCode (s : State) (id : BitVec 32) (type code : Nat) (job : Option (BitVec 16)) : State :=
  if code / 0x1000 = 7 then s.connFault id type code
  else if code / 0x1000 = 8 then s.sessionFault id code
  else if code / 0x1000 = 6 then s.chrEvent code s.health.level s.hall 0 (job.getD 0) 0
  else s.logAs (kindOf code) code job (0, 0)

/-! ### PUT and GET (R382, R410) -/

/-- Does a host address name this module's memory, within one 2 MiB page, in an existing context (log 48)? -/
def State.hostAddrOk (s : State) (job : BitVec 16) (a n : Nat) : Bool :=
  match s.job? job with
  | none => false
  | some j => decide (fld a 56 8 ≤ 1) && s.plays j (fld a 42 14) && decide (a % 2 ^ 21 + n ≤ 2 ^ 21)

/-- PUT: the code it is answered with, and the state. -/
def State.hostPut (s : State) (job : BitVec 16) (a : Nat) (data : List Byte) : Nat × State :=
  if !s.hostAddrOk job a data.length then (0x7304, s)
  else let r := s.writeMem job .host false a data; (r.1.getD 0, r.2)

/-- Is the page of an address sealed (R410)? -/
def State.sealedPage (s : State) (job : BitVec 16) (a : Nat) : Bool :=
  match s.job? job with
  | none => false
  | some j => match j.pages.find? fun p => p.window == (fld a 56 8 == 1) && p.vpage == fld a 21 21 with
    | some p => j.sealed.getLsbD p.key
    | none => false

/-- The GET_DATA messages of a read, piece by piece, until a fault ends it. -/
def State.getPieces (s : State) (job : BitVec 16) (a n : Nat) (ref : W64) (id : BitVec 32) : Nat → Nat → State
  | _, 0 => s
  | i, k + 1 =>
    let off := i * 8176
    let len := min 8176 (n - off)
    let r := s.readMem job .host false (a + off) len
    match r.1 with
    | .error code => (r.2.noteCode id 0x21 code (some job)).sendMsg id (.getData ref off true code [])
    | .ok bs =>
      let s1 := r.2.sendMsg id (.getData ref off (decide (n ≤ off + len)) 0 bs)
      s1.getPieces job a n ref id (i + 1) k

/-- GET (R382, R410): its page is translated before it is found sealed; a piece that meets a fault ends it, and the messages before
that one stand. -/
def State.hostGet (s : State) (id : BitVec 32) (ref : W64) (job : BitVec 16) (a n : Nat) : State :=
  if !s.hostAddrOk job a n then (s.connFault id 0x21 0x7304).sendMsg id (.getData ref 0 true 0x7304 [])
  else
    match s.places job .host .read false a 1, s.sealedPage job a with
    | .ok _, true => (s.sessionFault id 0x8305).sendMsg id (.getData ref 0 true 0x8305 [])
    | _, _ => s.getPieces job a n ref id 0 (cdiv n 8176)

/-! ### SIGNAL_IN (R291, R292, R383) -/

/-- A numbered signal enters the inbox; the HOST wire fires at each tile that waits on it. -/
def State.inboxSignal (s : State) (job : BitVec 16) (n : Nat) (payload : W64) : State :=
  match s.job? job with
  | none => s
  | some j =>
    let full : Bool := match j.inbox.find? (·.1 == n) with | some e => e.2.1 == 0xFFFFFFFF#32 | none => false
    let inbox := if j.inbox.any (·.1 == n) then
        updFirst (·.1 == n) (fun e => (n, if e.2.1 = 0xFFFFFFFF#32 then e.2.1 else e.2.1 + 1, payload)) j.inbox
      else j.inbox ++ [(n, 1, payload)]
    let s1 := (s.updJob job fun j => { j with inbox := inbox }).wakeAll ((j.hostWaiters.filter (·.1 == n)).map (·.2.1))
    bif full then s1.bump 0x4048 1 else s1

/-- SIGNAL_IN: the code it is answered with, and the state. -/
def State.hostSignal (s : State) (job : BitVec 16) (count : Bool) (n : Nat) (w1 : W64) : Nat × State :=
  match s.job? job with
  | none => (0x7304, s)
  | some j =>
    if !count then (0, (s.inboxSignal job n w1).bump 0x4038 1)
    else
      let r := fld w1.toNat 0 32
      if countRefBad r || !s.plays j (refDevice r) then (0x3605, s)
      else
        let x := (s.bump 0x4038 1).raiseCount job (refIndex r) (fld w1.toNat 32 32) 0x3FFF
        (x.1.getD 0, x.2)

/-! ### STATUS_READ (R384) -/

/-- STATUS_DATA. -/
def State.statusData (s : State) (id : BitVec 32) (ref : W64) (off words : Nat) : State :=
  let unlocked : Bool := match s.conn? id with | some c => c.unlock.isSome | none => false
  s.sendMsg id (.statusData ref off words 0 ((List.range words).map fun i => s.readStatus unlocked (off + 8 * i)))

/-! ### SUBMIT and ABANDON (R385, R390) -/

/-- Record the code of a DECLINE: one that is of kind HARDWARE elsewhere is of kind DECLINE here (R479). -/
def State.noteDecline (s : State) (id : BitVec 32) (code : Nat) (job : BitVec 16) : State :=
  if kindOf code = 2 then s.logAs 3 code (some job) (0, 0) else s.noteCode id 0x10 code (some job)

/-- DECLINE of a code that has been recorded: counted and sent. -/
def State.declined (s : State) (id : BitVec 32) (ref : W64) (pid : Nat) (job : BitVec 16) (code t : Nat) : State :=
  let s1 := s.bump 0x7050 1
  (if code / 0x100 = 0xA2 then s1.bump 0xA110 1 else s1).sendMsg id (.decline ref pid job code t)

/-- DECLINE: recorded, counted and sent. -/
def State.decline (s : State) (id : BitVec 32) (ref : W64) (pid : Nat) (job : BitVec 16) (code t : Nat) : State :=
  (s.noteDecline id code job).declined id ref pid job code t

/-- DECLINE of a package: F-4101 and F-4102 are recorded under R295. -/
def State.declinePkg (s : State) (id : BitVec 32) (ref : W64) (pid : Nat) (p : Parsed) (code t : Nat) : State :=
  match s.syncIndex p code with
  | some (i, v) => ((bif code == 0x4101 then s.drawn else s).syncFault code i 0x3FFF p.head.job v 0).declined id ref pid p.head.job code t
  | none => s.decline id ref pid p.head.job code t

/-- The whole package has come: it is judged, and accepted or declined. -/
def State.submitDone (s : State) (id : BitVec 32) (key : BitVec 256) (ref : W64) (pid total : Nat) (d : List Byte) : State :=
  match s.parsePkg d pid total with
  | none => s.decline id ref pid (BitVec.ofNat 16 (fld (wordAt d 0) 20 16)) 0x7301 0
  | some p =>
    match s.judge id pid p with
    | (some code, t) => s.declinePkg id ref pid p code t
    | (none, t) =>
      let pos := if p.head.vesper then 0 else countIf (fun q => !q.vesper) s.pkgs
      (s.admitPkg p id key pid t).sendMsg id (.accept ref pid p.head.job pos p.head.vesper t)

/-- One SUBMIT fragment. -/
def State.submitFragment (s : State) (id : BitVec 32) (ref : W64) (pid off total : Nat) (data : List Byte) : State :=
  let key := match s.conn? id with | some c => c.hostKey | none => 0
  let dropped (s : State) : State := { s with assemblies := s.assemblies.filter (·.conn != id) }
  match s.assemblies.find? (·.conn == id) with
  | none =>
    if off ≠ 0 ∨ total < data.length then s.decline id ref pid 0 0x7301 0
    else if 4 ≤ s.assemblies.length ∨ 2 ^ 28 < sumNat (s.assemblies.map (·.total)) + total then s.decline id ref pid 0 0x7305 0
    else if data.length = total then s.submitDone id key ref pid total data
    else { s with assemblies := s.assemblies ++ [⟨id, pid, total, data⟩] }
  | some a =>
    let d := a.data ++ data
    if off ≠ a.data.length ∨ total ≠ a.total ∨ pid ≠ a.pid ∨ total < d.length then
      (dropped s).decline id ref pid (BitVec.ofNat 16 (fld (wordAt a.data 0) 20 16)) 0x7301 0
    else if d.length = total then (dropped s).submitDone id key ref pid total d
    else { s with assemblies := updFirst (·.conn == id) (fun a => { a with data := d }) s.assemblies }

/-- The held package that an ABANDON of a connection names: one that it submitted, or one that the same host submitted on a connection
that has closed since (R380, R390). -/
def State.abandoned? (s : State) (id : BitVec 32) (pid : Nat) (job : BitVec 16) : Option Pkg :=
  let named := s.pkgs.filter fun p => p.pid == pid && p.job == job
  (named.find? (·.conn == id)).orElse fun _ =>
    match s.conn? id with
    | some c => named.find? fun p => p.hostKey == c.hostKey && (s.conn? p.conn).isNone
    | none => none

/-- ABANDON (R390). -/
def State.hostAbandon (s : State) (id : BitVec 32) (ref : W64) (pid : Nat) (job : BitVec 16) : State :=
  match s.abandoned? id pid job with
  | none => s.sendMsg id (.reply ref 0)
  | some p => ((s.connFault id 0x14 0x7306).abandon p.tag 0x7306 0x3FF 0 0 false).sendMsg id (.reply ref 0)

end Sys2Proof.Machine
end

