-- ==== Sys2Proof/Machine/Keys.lean ====
section
/-!
DEFINITION. The key vault: attestation (R405 to R407), weight keys and unsealing (R408 to R410), tenants, release and zeroing
(R400 to R404), service unlocks (R415, R416), Imago requests (R344), host CAKs and MKA (R413).
-/
namespace Sys2Proof.Machine

/-! ### Attestation (R405 to R407) -/

/-- A certificate in a report: 2-byte length, then the DER (Table 16-5). -/
def chainEntry (c : List Byte) : List Byte := leBytes 2 c.length ++ c

/-- Bytes 0 to 511 of a report (Table 16-5); SILICON_REV is 1 (R461). -/
def State.reportBody (s : State) (challenge : BitVec 256) (job : BitVec 16) (eph : BitVec 256) : List Byte :=
  let j := s.job? job
  let w0 := 1 + 2 ^ 8 + job.toNat * 2 ^ 16 + bit s.sec.tenant.isSome * 2 ^ 32 + s.unlockLevel * 2 ^ 33 + bit j.isSome * 2 ^ 35
  leBytes 8 w0 ++ leBytes 8 s.start.starts.toNat ++ leBytes 8 (match s.sec.tenant with | some t => t.id.toNat | none => 0) ++ leBytes 8 s.now ++
    leBytes 16 Config.serial.toNat ++ leBytes 16 0 ++ leBytes 32 challenge.toNat ++ leBytes 32 (x25519Public eph).toNat ++
    leBytes 64 s.sec.m0.toNat ++ leBytes 64 s.sec.m1.toNat ++ leBytes 64 s.sec.m2.toNat ++ leBytes 64 s.sec.m3.toNat ++
    leBytes 64 (match j with | some j => j.m4.toNat | none => 0) ++ leBytes 64 s.sec.m5.toNat

/-- ATTEST: a signed report, which becomes the connection's live report (R406, R407). -/
def State.attest (s : State) (id : BitVec 32) (ref : W64) (challenge : BitVec 256) (job : BitVec 16) : State :=
  let eph := freshSecret s.freeCtr
  let body := s.reportBody challenge job eph
  let report := body ++ leBytes 64 (ed25519Sign Config.dikSecret body).toNat ++ s.img.chain.flatMap chainEntry
  ((s.drawn.updConn id fun c => { c with report := some (eph, challenge, s.sec.m0, s.sec.m1, s.sec.m3) }).bump 0x8028 1).sendMsg id
    (.attestReport ref report)

/-! ### Blobs (R399, R400, R408) -/

/-- KIND of a blob. -/
def blobKind (b : List Byte) : Nat := numAt b 0 1

/-- EXTENTS of a blob. -/
def blobExtents (b : List Byte) : Nat := numAt b 2 2

/-- The blob's own form: header, length, reserved bits and the values of its fields that name no address. -/
def blobOk (b : List Byte) : Bool :=
  let w0 := wordAt b 0
  let n := blobExtents b
  decide (8 ≤ b.length) && fld w0 8 8 == 1 && fld w0 32 32 == 0 &&
  (if blobKind b = 1 ∨ blobKind b = 2 then
     decide (n ≤ 252) && b.length == 120 + 32 * n && (blobKind b == 1 || (spanOf b 8 112).all (· == 0#8)) &&
     (List.range n).all fun i =>
       let x := 120 + 32 * i
       let bytes := fld (wordAt b (x + 8)) 0 40
       fld (wordAt b (x + 8)) 40 24 == 0 && fld (wordAt b (x + 16)) 32 32 == 0 && decide (16 ≤ bytes) && bytes % 16 == 0
   else if blobKind b = 3 then n == 0 && b.length == 24 + 40 * fld (wordAt b 8) 32 4
   else false)

/-- The extents of a blob: ADDR, BYTES, NONCE_PREFIX, TAG_ADDR. -/
def extentsOf (b : List Byte) : List (W64 × Nat × Nat × W64) :=
  (List.range (blobExtents b)).map fun i =>
    let x := 120 + 32 * i
    (BitVec.ofNat 64 (wordAt b x), fld (wordAt b (x + 8)) 0 40, fld (wordAt b (x + 16)) 0 32, BitVec.ofNat 64 (wordAt b (x + 24)))

/-- The key of the page that holds an address of a context's stacked memory. -/
def JobCtx.pageKey (j : JobCtx) (a : Nat) : Option Nat := (j.pages.find? fun p => !p.window && p.vpage == fld a 21 21).map (·.key)

/-- The virtual pages that a span touches, by an address in each. -/
def pagesOf (a n : Nat) : List Nat := (List.range ((a % 2 ^ 21 + n + 2 ^ 21 - 1) / 2 ^ 21)).map fun i => a + i * 2 ^ 21

/-- Are an extent's pages mapped with keys of the sealed set, and its tags' pages mapped (R409)? -/
def State.extentOk (s : State) (j : JobCtx) (e : BitVec 256) (x : W64 × Nat × Nat × W64) : Bool :=
  let a := x.1.toNat
  let t := x.2.2.2.toNat
  ownAddr (s.deviceOf j) a && ownAddr (s.deviceOf j) t && a % 16 == 0 && t % 16 == 0 &&
  (pagesOf a x.2.1).all (fun p => match j.pageKey p with | some k => e.getLsbD k | none => false) &&
  (pagesOf t (16 * cdiv x.2.1 (2 ^ 20))).all fun p => (j.pageKey p).isSome

/-- A key slot's key. -/
def JobCtx.slotKey (j : JobCtx) (n : Nat) : Option (BitVec 256) := (j.keySlots.find? (·.1 == n)).map (·.2)

/-- Plaintext of a sealed text: as long as the text without its tag. -/
def opened (key : BitVec 256) (nonce aad text tag : List Byte) : Option (List Byte) :=
  gcmOpen key nonce aad (text ++ tag)

/-- The weight key that a kind-1 blob wraps (R409). -/
def Conn.unwrap (c : Conn) (job : BitVec 16) (slot : Nat) (b : List Byte) : Option (BitVec 256) :=
  match c.report with
  | none => none
  | some (eph, ch, m0, m1, m3) =>
    let kek := hkdf (leBytes 32 (x25519 eph (BitVec.ofNat 256 (numAt b 8 32))).toNat) (leBytes 32 ch.toNat)
      (ascii "KRV WRAP" ++ leBytes 64 m0.toNat ++ leBytes 64 m1.toNat ++ leBytes 64 m3.toNat)
    (opened kek (leBytes 12 0) (spanOf b 0 40 ++ leBytes 2 job.toNat ++ leBytes 1 slot) (spanOf b 40 32) (spanOf b 72 16)).map
      fun k => BitVec.ofNat 256 (leNat k)

/-! ### Unsealing (R409) -/

/-- The vault's read of a context's memory. -/
def State.vaultRead (s : State) (j : JobCtx) (a n : Nat) : Except Nat (List Byte) × State :=
  match (List.range n).mapM fun i => j.dramPlace (a + i) with
  | none => (.error 0x8303, s)
  | some ps => s.readPlaces ps

/-- Chunk c of an extent: the code that stops it, or 0, and the state. -/
def State.unsealChunk (s : State) (job : BitVec 16) (key : BitVec 256) (x : W64 × Nat × Nat × W64) (c : Nat) : Nat × State :=
  match s.job? job with
  | none => (0x8303, s)
  | some j =>
    let off := 1048576 * c
    let text := s.vaultRead j (x.1.toNat + off) (min 1048576 (x.2.1 - off))
    let tag := text.2.vaultRead j (x.2.2.2.toNat + 16 * c) 16
    match text.1, tag.1 with
    | .error e, _ => (e, text.2)
    | _, .error e => (e, tag.2)
    | .ok bs, .ok ts =>
      match opened key (leBytes 4 x.2.2.1 ++ leBytes 8 c) [] bs ts with
      | none => (0x8304, tag.2)
      | some p => (0, (tag.2.poke job (x.1.toNat + off) p).bump 0x8038 1)

/-- Chunks of an extent in turn, up to the first that stops. -/
def State.unsealFrom (s : State) (job : BitVec 16) (key : BitVec 256) (x : W64 × Nat × Nat × W64) : List Nat → Nat × State
  | [] => (0, s)
  | c :: cs =>
    let r := s.unsealChunk job key x c
    if r.1 = 0 then r.2.unsealFrom job key x cs else r

/-- The extents in order. -/
def State.unsealAll (s : State) (job : BitVec 16) (key : BitVec 256) : List (W64 × Nat × Nat × W64) → Nat × State
  | [] => (0, s)
  | x :: xs =>
    let r := s.unsealFrom job key x (List.range (cdiv x.2.1 1048576))
    if r.1 = 0 then r.2.unsealAll job key xs else r

/-- UNSEAL_COMPLETE (R409): the oldest unseal of the job runs to its last chunk or to the first that fails, and is answered. -/
def execUnsealComplete (job : BitVec 16) (s : State) : Host.Outcome State Fault Refusal :=
  match s.sec.unseals.find? (·.job == job) with
  | none => .next s
  | some u =>
    let s1 := { s with sec := { s.sec with unseals := eraseFirst (fun y => y.job == job) s.sec.unseals } }
    let r := s1.unsealAll job u.key u.extents
    .next ((if r.1 = 0 then r.2 else r.2.noteCode u.conn 0x52 r.1 (some job)).outcome u.conn u.ref r.1)

/-- An accepted WEIGHT_KEY or UNSEAL blob: the unseal begins, or with no extents is answered at once. -/
def State.beginUnseal (s : State) (id : BitVec 32) (ref : W64) (job : BitVec 16) (key : BitVec 256) (b : List Byte) : State :=
  let s1 := s.bump 0x8030 1
  if blobExtents b = 0 then s1.sendMsg id (.reply ref 0)
  else { s1 with sec := { s1.sec with unseals := s1.sec.unseals ++ [⟨id, ref, job, key, extentsOf b⟩] } }

/-- A refused or malformed key message: recorded and answered. -/
def State.keyRefused (s : State) (id : BitVec 32) (ref : W64) (code : Nat) : State := (s.noteCode id 0x52 code none).errorReply id ref code

/-- WEIGHT_KEY (R408, R409). -/
def State.weightKey (s : State) (id : BitVec 32) (ref : W64) (job : BitVec 16) (slot : Nat) (b : List Byte) : State :=
  if 31 < slot then s.keyRefused id ref 0x8301
  else
    match (s.conn? id).bind fun (c : Conn) => c.unwrap job slot b with
    | none => s.keyRefused id ref 0x8302
    | some key =>
      match s.job? job with
      | none => s.keyRefused id ref 0x8303
      | some j =>
        let e := j.sealed ||| BitVec.ofNat 256 (numAt b 88 32)
        if (extentsOf b).all (s.extentOk j e) then
          (s.updJob job fun j => { j with sealed := e, keySlots := j.keySlots.filter (·.1 != slot) ++ [(slot, key)] }).beginUnseal id ref job key b
        else s.keyRefused id ref 0x8303

/-- UNSEAL (R408, R409). -/
def State.unseal (s : State) (id : BitVec 32) (ref : W64) (job : BitVec 16) (slot : Nat) (b : List Byte) : State :=
  if 31 < slot then s.keyRefused id ref 0x8301
  else
    match s.job? job with
    | none => s.keyRefused id ref 0x8303
    | some j =>
      match j.slotKey slot with
      | none => s.keyRefused id ref 0x8301
      | some key => if (extentsOf b).all (s.extentOk j j.sealed) then s.beginUnseal id ref job key b else s.keyRefused id ref 0x8303

/-! ### Tenants (R400 to R404) -/

/-- The tenant that a grant names. -/
def tenantOf (b : List Byte) : Tenant :=
  { id := BitVec.ofNat 32 (fld (wordAt b 8) 0 32),
    keys := (List.range (fld (wordAt b 8) 32 4)).map fun k => (BitVec.ofNat 256 (numAt b (24 + 40 * k) 32), flag (wordAt b (56 + 40 * k)) 0),
    allowService := flag (wordAt b 8) 36, jobFirst := fld (wordAt b 16) 0 16, jobLast := fld (wordAt b 16) 16 16 }

/-- Does a grant keep Table 16-2? -/
def grantOk (b : List Byte) : Bool :=
  let n := fld (wordAt b 8) 32 4
  fld (wordAt b 8) 37 27 == 0 && fld (wordAt b 16) 32 32 == 0 && decide (n ≤ 8) && (n != 0 || fld (wordAt b 8) 0 32 == 0) &&
  decide (fld (wordAt b 16) 0 16 ≤ fld (wordAt b 16) 16 16) && (List.range n).all fun k => wordAt b (56 + 40 * k) / 2 == 0

/-- SHA-512 of bytes as a register value. -/
def digest (b : List Byte) : BitVec 512 := BitVec.ofNat 512 (leNat (sha512 b))

/-- Every unlock ends (R416). -/
def State.endUnlocks (s : State) : List Conn → State
  | [] => s
  | c :: cs => (s.endUnlock c.id).endUnlocks cs

/-- The module is bound to a tenant (R401, Table 16-4). -/
def State.bind (s : State) (t : Tenant) (m3 : BitVec 512) : State :=
  let s1 := ({ s with sec := { s.sec with tenant := some t, m3 := m3 } }.bump 0x8010 1).m5Event 1
  s1.noteBind.endUnlocks s1.conns

/-- The module is unbound (R403, row 6). -/
def State.unbind (s : State) : State :=
  let s1 := ({ s with sec := { s.sec with tenant := none, m3 := 0 } }.bump 0x8018 1).m5Event 2
  s1.noteBind.endUnlocks s1.conns

/-- Every held package is abandoned with F-8202, each recorded against the operator's session (Table 16-3, row 1). -/
def State.releasePkgs (s : State) (id : BitVec 32) : List Nat → State
  | [] => s
  | t :: ts => ((s.sessionFault id 0x8202).abandon t 0x8202 0x3FF 0 0 false).releasePkgs id ts

/-- Rows 1 to 4 of Table 16-3. Every queue of R380 is a tenant's, as only its hosts submit packages (R402), so that all are
discarded. -/
def State.release (s : State) (id : BitVec 32) : State :=
  let s0 := s.releasePkgs id (s.pkgs.map (·.tag))
  let s1 := s0.closeWindows s0.eval
  let s2 := s1.wakeAll (s1.tiles.map (·.1))
  let s3 := { s2 with imagos := [], sec := { s2.sec with unseals := [] } }
  let s4 := s3.closeAllConns ((s3.conns.filter fun (c : Conn) => c.role == 0).map fun (c : Conn) => c.id)
  { s4 with hostQueues := [],
            conns := s4.conns.map (fun (c : Conn) => { c with report := none }), jobs := [], tallies := [] }

/-- Start zeroing for a grant. -/
def State.beginZeroing (s : State) (id : BitVec 32) (ref : W64) (t : Option Tenant) (m3 : BitVec 512) : State :=
  { s with sec := { s.sec with zeroing := some ⟨id, ref, t, m3, s.now⟩ } }

/-- TENANT_GRANT (R400, R401). -/
def State.tenantGrant (s : State) (id : BitVec 32) (ref : W64) (job : BitVec 16) (slot : Nat) (b : List Byte) : State :=
  let t := tenantOf b
  let done (s : State) : State := (s.bump 0x8030 1).sendMsg id (.reply ref 0)
  if s.sec.zeroing.isSome then s.keyRefused id ref 0x8203
  else if job ≠ 0 ∨ slot ≠ 0 ∨ !grantOk b then s.keyRefused id ref 0x8204
  else
    match s.sec.tenant with
    | none =>
      if t.id = 0 then s.sendMsg id (.reply ref 0)
      else if s.sec.zeroed then done (s.bind t (digest b))
      else s.beginZeroing id ref (some t) (digest b)
    | some old =>
      if t.id = 0 then (s.release id).beginZeroing id ref none 0
      else if t.id ≠ old.id ∨ (s.jobs.any fun j => decide (j.id.toNat < t.jobFirst ∨ t.jobLast < j.id.toNat)) then s.keyRefused id ref 0x8204
      else
        let s1 := { s with sec := { s.sec with tenant := some t, m3 := digest b } }
        done (s1.closeAllConns ((s1.conns.filter fun (c : Conn) => c.role == 0 && !t.keys.any fun k => k.1 == c.hostKey).map fun (c : Conn) => c.id))

/-- Zeroing of one tile (Table 16-3, rows 5 and 6). -/
def TileState.zero (x : TileState) : TileState :=
  { x with queue := [], noon := none, vesper := none, suspended := false, save := none, scratch := [], mat := MatState.start, slots := [],
           ewma := none }

/-- Zeroing of the tiles that are not in their start state. -/
def State.zeroTiles (s : State) : List Nat → State
  | [] => s
  | t :: ts => (s.setTile t (s.tile t).zero).zeroTiles ts

/-- ZEROING_COMPLETE (Table 16-3, rows 5 and 6; R404). -/
def State.zeroed (s : State) : State :=
  match s.sec.zeroing with
  | none => s
  | some z =>
    let s1 := { s with mem := { s.mem with dram := [], poison := [] }, power := { s.power with kappa := BitVec.ofNat 32 (hundredths s.cfg.calSeed) } }
    let s2 := (s1.zeroTiles (s1.tiles.map (·.1))).setWord 0x8020 (BitVec.ofNat 64 ((s.now - z.since) / 1000))
    let s3 := { s2 with sec := { s2.sec with zeroing := none, zeroed := true }, jobs := [], tallies := [] }
    ((match z.tenant with | some t => s3.bind t z.m3 | none => s3.unbind).bump 0x8030 1).sendMsg z.conn (.reply z.ref 0)

/-- KEY_RELEASE by the blob's KIND (R399). -/
def State.keyRelease (s : State) (id : BitVec 32) (ref : W64) (job : BitVec 16) (slot : Nat) (b : List Byte) : State :=
  if !blobOk b then s.keyRefused id ref 0x7101
  else if blobKind b = 1 then s.weightKey id ref job slot b
  else if blobKind b = 2 then s.unseal id ref job slot b
  else s.tenantGrant id ref job slot b

/-! ### Imago requests (R344) -/

/-- Does a session hold IMAGO_EXPORT? -/
def State.mayExport (s : State) (id : BitVec 32) : Bool :=
  match s.conn? id, s.sec.tenant with
  | some c, some t => c.role == 0 && t.keys.contains (c.hostKey, true)
  | _, _ => false

/-- IMAGO_REQUEST: the export waits for the next window. -/
def State.imagoRequest (s : State) (id : BitVec 32) (ref : W64) (job : BitVec 16) (owned : Bool) (recipient : BitVec 256) : State :=
  if s.mayExport id then ({ s with imagos := s.imagos ++ [(⟨id, job, owned, recipient, none⟩ : ImagoReq)] }).sendMsg id (.reply ref 0)
  else (s.noteCode id 0x60 0x6501 (some job)).errorReply id ref 0x6501

/-! ### Unlocks (R415, R416) -/

/-- Why no unlock is open to any session now: a lockout, or the grant forbids it. -/
def State.unlockBar (s : State) : Option Nat :=
  if s.sec.lockout.isSome then some 0x8502
  else match s.sec.tenant with | some t => if t.allowService then none else some 0x8503 | none => none

/-- A failed unlock (R415, R416). -/
def State.unlockFailed (s : State) (id : BitVec 32) (ref : W64) : State :=
  let s1 := (s.bump 0x8048 1).sessionFault id 0x8501
  let n := s1.sec.failures + 1
  let s2 := if s1.cfg.unlockFailLimit ≤ n then
      { s1 with sec := { s1.sec with failures := 0, lockout := some (s1.now + s1.sec.nextLockout * 1000000000), nextLockout := min (2 * s1.sec.nextLockout) 3600 } }
    else { s1 with sec := { s1.sec with failures := n } }
  s2.errorReply id ref 0x8501

/-- An unlock is granted. -/
def State.unlockGranted (s : State) (id : BitVec 32) (ref : W64) (level : Nat) : State :=
  let till := s.now + s.cfg.unlockLifetime * 1000000000
  let s0 := if s.unlockLevel = 0 then s.replayStart else s
  let s1 := s0.updConn id fun c => { c with unlock := some (max level (match c.unlock with | some u => u.1 | none => 0), till) }
  let s2 := { s1 with sec := { s1.sec with failures := 0, nextLockout := 60 } }
  ((s2.bump 0x8040 1).m5Event (level + 2)).sendMsg id (.reply ref 0)

/-- UNLOCK level 1: the password. -/
def State.unlock1 (s : State) (id : BitVec 32) (ref : W64) (password : List Byte) : State :=
  match s.unlockBar with
  | some code => (s.sessionFault id code).errorReply id ref code
  | none =>
    if s.start.phase ≠ .safe ∧ s.cfg.pwHash ≠ [] ∧ sha512 (s.cfg.pwSalt ++ password) = s.cfg.pwHash then s.unlockGranted id ref 1
    else s.unlockFailed id ref

/-- UNLOCK level 2, STEP 0: a challenge. -/
def State.unlock2 (s : State) (id : BitVec 32) (ref : W64) : State :=
  match s.unlockBar with
  | some code => (s.sessionFault id code).errorReply id ref code
  | none =>
    let ch : BitVec 256 := s.free.truncate 256
    (s.drawn.updConn id fun c => { c with challenge := some (ch, s.now) }).sendMsg id (.challenge ref ch Config.serial s.start.starts)

/-- The keys that serve as SERVICE_KEYS (R415, R442). -/
def State.serviceKeysNow (s : State) : List (BitVec 256) := if s.start.phase = .safe then [Config.recoveryKey] else s.cfg.serviceKeys

/-- What a level-2 response signs. -/
def State.unlockText (s : State) (id : BitVec 32) (ch : BitVec 256) : List Byte :=
  ascii "KRV UNLOCK2" ++ leBytes 32 ch.toNat ++ leBytes 16 Config.serial.toNat ++ leBytes 8 s.start.starts.toNat ++ leBytes 4 id.toNat

/-- UNLOCK level 2, STEP 1: a response, which uses the challenge up. -/
def State.unlock2Response (s : State) (id : BitVec 32) (ref : W64) (key : BitVec 256) (sig : BitVec 512) : State :=
  match s.unlockBar with
  | some code => (s.sessionFault id code).errorReply id ref code
  | none =>
    let ok := match (s.conn? id).bind fun (c : Conn) => c.challenge with
      | some (ch, t) => decide (s.now ≤ t + 60000000000) && s.serviceKeysNow.contains key && ed25519Verify key (s.unlockText id ch) sig
      | none => false
    let s1 := s.updConn id fun c => { c with challenge := none }
    if ok then s1.unlockGranted id ref 2 else s1.unlockFailed id ref

/-- UNLOCK_EXPIRY: UNLOCK_LIFETIME after the grant (R416). -/
def execUnlockExpiry (conn : BitVec 32) (s : State) : Host.Outcome State Fault Refusal :=
  match (s.conn? conn).bind fun (c : Conn) => c.unlock with
  | some u => .next (if u.2 ≤ s.now then s.endUnlock conn else s)
  | none => .next s

/-- LOCKOUT_END: the lockout's period has passed (R416). -/
def execLockoutEnd (s : State) : Host.Outcome State Fault Refusal :=
  match s.sec.lockout with
  | some t => .next (if t ≤ s.now then { s with sec := { s.sec with lockout := none } } else s)
  | none => .next s

/-! ### Host CAKs and MKA (R411, R413) -/

/-- A CAK of an 80-byte wrap field, opened with DKA. -/
def unwrapCak (wrap aad : List Byte) (info : String) : Option (BitVec 256) :=
  if wrap.length < 80 then none
  else
    let kek := hkdf (leBytes 32 (x25519 Config.dkaSecret (BitVec.ofNat 256 (numAt wrap 0 32))).toNat) (leBytes 16 Config.serial.toNat) (ascii info)
    (opened kek (leBytes 12 0) aad (spanOf wrap 32 32) (spanOf wrap 64 16)).map fun k => BitVec.ofNat 256 (leNat k)

/-- CAK and CKN of a host port's 96-byte wrap field (R413, Table 16-9). -/
def unwrapHostCak (wrap aad : List Byte) : Option (BitVec 256 × BitVec 128) :=
  (unwrapCak wrap aad "KRV HCAK").map fun k => (k, BitVec.ofNat 128 (numAt wrap 80 16))

/-- Does a host port hold the CAK that a CKN names? -/
def State.holdsCkn (s : State) (port : Fin 2) (ckn : BitVec 128) : Bool :=
  match (if port = 0 then s.sec.hostCak.1 else s.sec.hostCak.2) with
  | some k => k.2 == ckn
  | none => false

/-- MKA_FRAME (R413): the key server's SAK is installed on a host port whose CAK the frame's CKN names, from row 6 of the start on, and
counted in REKEYS (R419, R457). The frame counts in the port's words (R271). -/
def execMkaFrame (port : Fin 2) (an : BitVec 2) (k : MkaKey) (s : State) : Host.Outcome State Fault Refusal :=
  let p := 40 + port.val
  if !(s.port p).phy || !s.alive then .next s
  else
    let s1 := (s.bump (0x2110 + 0x40 * p) k.bytes).bump (0x2128 + 0x40 * p) k.corrected
    let x := s1.port p
    .next (if s1.holdsCkn port k.ckn then
      (s1.bump 0x8050 1).setPort p { x with an := an, oldKey := x.key, key := k.sak.zeroExtend 352, sak := x.sak + 1, pn := 1, saAt := s.now }
    else s1)

end Sys2Proof.Machine
end

