-- ==== Sys2Proof/Machine/Image.lean ====
section
/-!
DEFINITION. The Septia image: verification (R422 to R425), the check of its fields and the clamp report (R429 to R441), and the
choice of a bank at start (R426).
-/
namespace Sys2Proof.Machine

/-! ### Banks, images and state records -/

/-- First flash offset of a bank (R421). -/
def bankBase (b : Bool) : Nat := if b then 2 ^ 27 else 0

/-- Greatest IMAGE_BYTES. -/
def imageMax : Nat := 100663296

/-- IMAGE_BYTES of a bank's header. -/
def imageBytes (f : Sp Byte) (base : Nat) : Nat := leNat (flashRead f (base + 0x0C) 4)

/-- IMAGE_SEQ. -/
def imageSeq (f : Sp Byte) (base : Nat) : Nat := leNat (flashRead f (base + 0x10) 8)

/-- ROLLBACK. -/
def imageRollback (f : Sp Byte) (base : Nat) : Nat := leNat (flashRead f (base + 0x18) 1)

/-- Are all bytes of a span zero? -/
def zeroSpan (d : List Byte) (off n : Nat) : Bool := (spanOf d off n).all (· == 0#8)

/-- Condition 1 of R423 for a header and, where the length stands, its signature block. -/
def headerOk (f : Sp Byte) (base : Nat) : Bool :=
  let h := flashRead f base 128
  let count := numAt h 0x0A 2
  let n := numAt h 0x0C 4
  h.take 8 == ascii "SEPTIA01" && numAt h 8 2 == 1 && decide (n % 16 = 0 ∧ 0x80 + 16 * count + 256 ≤ n ∧ n ≤ imageMax) &&
  zeroSpan h 0x19 7 &&
  (let g := flashRead f (base + n - 256) 256; zeroSpan g 0x21 31 && zeroSpan g 0xC0 64)

/-- The sections of an image, which begins at the bytes' start: SECTION_ID, SECTION_VERSION, OFFSET, BYTES. -/
def imageSections (d : List Byte) : List (Nat × Nat × Nat × Nat) :=
  (List.range (numAt d 0x0A 2)).map fun i =>
    let o := 0x80 + 16 * i
    (numAt d o 2, numAt d (o + 2) 2, numAt d (o + 8) 4, numAt d (o + 12) 4)

/-- The sections that the chapter defines, with their lengths. -/
def knownSections : List (Nat × Nat) :=
  [(0x2000, 16), (0x3000, 16), (0x4000, 8), (0x5000, 24), (0x6000, 32), (0x6100, 7328), (0x7000, 48), (0x8000, 888), (0x9000, 48), (0xA000, 16)]

/-- The section table keeps R424. -/
def tableOk (d : List Byte) : Bool :=
  let n := numAt d 0x0C 4
  let xs := imageSections d
  let top := 0x80 + 16 * numAt d 0x0A 2
  (List.range xs.length).all (fun i => numAt d (0x84 + 16 * i) 4 == 0) &&
  xs.all (fun x => x.2.2.1 % 16 == 0 && decide (top ≤ x.2.2.1 ∧ x.2.2.1 + x.2.2.2 ≤ n - 256) && (x.2.1 == 1 || !knownSections.any (·.1 == x.1))) &&
  allPairs (fun x y => x.1 != y.1 && decide (x.2.2.1 + x.2.2.2 ≤ y.2.2.1 ∨ y.2.2.1 + y.2.2.2 ≤ x.2.2.1)) xs

/-- R423 on the image at a flash offset: the cause of Table 17-14, 0 where it verifies. A KEY_CEILING above 63 counts as 63, so that
the levels stay those of R427 (log 52). -/
def verifyImage (f : Sp Byte) (base fused : Nat) : Nat :=
  if !headerOk f base then 2
  else
    let n := imageBytes f base
    let d := flashRead f base n
    let g := d.drop (n - 256)
    let key := BitVec.ofNat 256 (numAt g 0 32)
    if !tableOk d then 3
    else if sha512 (d.take 0x40 ++ spanOf d 0x80 (n - 256 - 0x80)) != spanOf d 0x40 64 then 4
    else if !ed25519Verify Config.imageKey (ascii "KRV BUILDER" ++ spanOf g 0 33) (BitVec.ofNat 512 (numAt g 0x40 64)) then 5
    else if !ed25519Verify key (ascii "KRV SEPTIA" ++ spanOf d 0x40 64) (BitVec.ofNat 512 (numAt g 0x80 64)) then 6
    else if min (numAt g 0x20 1) 63 < imageRollback f base then 7
    else if imageRollback f base < fused then 8
    else if numAt d 0x20 16 ≠ 0 ∧ numAt d 0x20 16 ≠ Config.serial.toNat then 9
    else 0

/-- First flash offset of a bank's state record. -/
def recordAt (b : Bool) : Nat := bankBase b + 0x6000000

/-- Is the state record of a bank valid (R425)? -/
def recordValid (f : Sp Byte) (b : Bool) : Bool :=
  let r := flashRead f (recordAt b) 0x60
  let h := flashRead f (bankBase b) 0x80
  r.take 8 == ascii "SEPTSTAT" && spanOf r 0x08 4 == spanOf h 0x0C 4 && spanOf r 0x10 8 == spanOf h 0x10 8 && spanOf r 0x20 64 == spanOf h 0x40 64

/-- The state record that staging programs: its first 0x60 bytes. -/
def stageRecord (f : Sp Byte) (b : Bool) : List Byte :=
  let h := flashRead f (bankBase b) 0x80
  ascii "SEPTSTAT" ++ spanOf h 0x0C 4 ++ leBytes 4 0 ++ spanOf h 0x10 8 ++ leBytes 8 0 ++ spanOf h 0x40 64

/-- Zero bits of a 64-bit number, from bit n - 1 down. -/
def zeroBits (x : Nat) : Nat → Nat
  | 0 => 0
  | n + 1 => bit (!flag x n) + zeroBits x n

/-- Tries used. -/
def triesUsed (f : Sp Byte) (b : Bool) : Nat := zeroBits (leNat (flashRead f (recordAt b + 0x60) 8)) 64

/-- Is CONFIRMED set? -/
def confirmed (f : Sp Byte) (b : Bool) : Bool := (flashRead f (recordAt b + 0x68) 8).any (· != 0xFF#8)

/-- Clear the lowest set bit of TRY. -/
def clearTry (f : Sp Byte) (b : Bool) : Sp Byte :=
  let x := leNat (flashRead f (recordAt b + 0x60) 8)
  flashProgram f (recordAt b + 0x60) (leBytes 8 (x &&& (x - 1)))

/-- The examination of a bank: 1 without a valid state record, else the cause of R423. -/
def examine (f : Sp Byte) (fused : Nat) (b : Bool) : Nat := if recordValid f b then verifyImage f (bankBase b) fused else 1

/-! ### The fields (R429 to R441) -/

/-- A check in progress: the settings so far and the clamp report. -/
structure Checking where
  /-- Settings. -/
  cfg : Cfg
  /-- Entries of Table 17-13a. -/
  report : List (W64 × W64)

/-- Add an entry. -/
def Checking.note (c : Checking) (id off kind idx value : Nat) : Checking :=
  { c with report := c.report ++ [(BitVec.ofNat 64 (id + off * 2 ^ 16 + kind * 2 ^ 32 + idx * 2 ^ 36), BitVec.ofNat 64 value)] }

/-- Does a field lie within the section? -/
def covers (b : List Byte) (off w : Nat) : Bool := decide (off + w ≤ b.length)

/-- The nearest step of a number, the lower on ties. -/
def nearestStep (v step : Nat) : Nat := let r := v % step; if 2 * r ≤ step then v - r else v - r + step

/-- A number with its range: its value, and the kind of the event. -/
def rangeOf (v lo hi : Int) (step : Nat) : Int × Nat :=
  if v < lo then (lo, 1) else if hi < v then (hi, 1)
  else if v.toNat % step = 0 ∨ step = 1 then (v, 0) else ((nearestStep v.toNat step : Nat), 2)

/-- A numeric field (Clamp): DEFAULTED beyond a short section. -/
def Checking.num (c : Checking) (b : List Byte) (id off w : Nat) (signed : Bool) (lo hi : Int) (step : Nat) (put : Cfg → Int → Cfg) : Checking :=
  if !covers b off w then c.note id off 4 0 0
  else
    let raw := numAt b off w
    let r := rangeOf (if signed then sgn (8 * w) raw else (raw : Int)) lo hi step
    let c1 := if r.2 = 0 then c else c.note id off r.2 0 raw
    { c1 with cfg := put c1.cfg r.1 }

/-- An unsigned numeric field of step 1. -/
def Checking.nat (c : Checking) (b : List Byte) (id off w lo hi : Nat) (put : Cfg → Nat → Cfg) : Checking :=
  c.num b id off w false lo hi 1 fun g v => put g v.toNat

/-- Reserved bytes: each that is present and not zero is an event. -/
def Checking.reserved (c : Checking) (b : List Byte) (id off : Nat) : Nat → Checking
  | 0 => c
  | n + 1 =>
    let x := numAt b off 1
    (if x = 0 then c else c.note id off 7 0 x).reserved b id (off + 1) n

/-- A field of plain bytes. -/
def Checking.raw (c : Checking) (b : List Byte) (id off w : Nat) (put : Cfg → List Byte → Cfg) : Checking :=
  if !covers b off w then c.note id off 4 0 0 else { c with cfg := put c.cfg (spanOf b off w) }

/-- Bytes beyond a section's length. -/
def Checking.long (c : Checking) (b : List Byte) (id n : Nat) : Checking := if n < b.length then c.note id 0 9 0 0 else c

/-- HALL_POSITION. -/
def Checking.hallPos (c : Checking) (b : List Byte) : Checking :=
  if !covers b 0 4 then c.note 0x2000 0 5 0 0
  else
    match (List.range 4).find? fun i => decide (10 < numAt b i 1) with
    | some i => c.note 0x2000 0 5 i (numAt b 0 4)
    | none => { c with cfg := { c.cfg with hallPos := some (numAt b 0 1, numAt b 1 1, numAt b 2 1, numAt b 3 1) } }

/-- DIM_SIZE, element by element. -/
def Checking.dims (c : Checking) (b : List Byte) : Checking :=
  if !covers b 4 4 then c.note 0x2000 4 4 0 0
  else
    let r (i : Nat) : Int × Nat := rangeOf (numAt b (4 + i) 1) 1 11 1
    let c1 := (List.range 4).foldl (fun (c : Checking) i => if (r i).2 = 0 then c else c.note 0x2000 4 1 i (numAt b (4 + i) 1)) c
    { c1 with cfg := { c1.cfg with dimSize := ((r 0).1.toNat, (r 1).1.toNat, (r 2).1.toNat, (r 3).1.toNat) } }

/-- Is an address IPv6 unicast, not unspecified, loopback or link-local (R437)? The first byte leads. -/
def unicast (a : BitVec 128) : Bool := a != 0 && a != 1 && a.toNat / 2 ^ 120 != 0xFF && a.toNat / 2 ^ 118 != 0x3FA

/-- A host address. -/
def Checking.address (c : Checking) (b : List Byte) (off : Nat) (put : Cfg → BitVec 128 → Cfg) : Checking :=
  if !covers b off 16 then c.note 0x7000 off 5 0 0
  else
    let a := BitVec.ofNat 128 (beNat (spanOf b off 16))
    if unicast a then { c with cfg := put c.cfg a } else c.note 0x7000 off 5 0 (numAt b off 8)

/-- The key slots of a list below its count: the valid keys, and an event for each other. -/
def Checking.keys (c : Checking) (b : List Byte) (off : Nat) : Nat → Nat → List (BitVec 256) × Checking
  | _, 0 => ([], c)
  | k, n + 1 =>
    let a := off + 32 * k
    let key := BitVec.ofNat 256 (numAt b a 32)
    if covers b a 32 && keyValid key then let r := c.keys b off (k + 1) n; (key :: r.1, r.2)
    else (c.note 0x8000 off 6 k (numAt b a 8)).keys b off (k + 1) n

/-- FEED_MAP (R436). -/
def Checking.feedMap (c : Checking) (b : List Byte) : Checking :=
  let m := (List.range 14641).filterMap fun h =>
    let x := if h / 2 < b.length then numAt b (h / 2) 1 / 16 ^ (h % 2) % 16 else 15
    if x = 15 then none else some (h, x)
  let c1 := { c with cfg := { c.cfg with feedMap := m } }
  let c2 := if b.length < 7321 then c1.note 0x6100 b.length 4 0 0 else c1
  let x := numAt b 7320 1
  if x / 16 = 0 then c2 else c2.note 0x6100 7320 7 0 x

/-- OPERATOR_KEY_COUNT as read; 0 where the section lacks it. -/
def operatorCount (b : List Byte) : Nat := numAt b 0 1

/-- Section 0x8000 (R438). -/
def Checking.security (c : Checking) (b : List Byte) : Checking :=
  let n := operatorCount b
  let c := if !covers b 0 1 then c.note 0x8000 0 5 0 0 else if 8 < n then c.note 0x8000 0 1 0 n else c
  let c := c.nat b 0x8000 1 1 0 8 fun g _ => g
  let c := c.nat b 0x8000 2 1 1 16 fun g v => { g with unlockFailLimit := v }
  let c := c.reserved b 0x8000 3 5
  let c := c.nat b 0x8000 8 8 (2 ^ 32) (2 ^ 48) fun g v => { g with rekeyPackets := v }
  let c := c.nat b 0x8000 0x10 4 60 604800 fun g v => { g with rekeyInterval := v }
  let c := c.nat b 0x8000 0x14 4 60 86400 fun g v => { g with unlockLifetime := v }
  let ok := c.keys b 0x18 0 (min n 8)
  let c := { ok.2 with cfg := { ok.2.cfg with operatorKeys := ok.1 } }
  let c := if ok.1.isEmpty && covers b 0 1 then c.note 0x8000 0 5 0 n else c
  let sk := c.keys b 0x118 0 (min (numAt b 1 1) 8)
  let c := { sk.2 with cfg := { sk.2.cfg with serviceKeys := sk.1 } }
  let c := c.raw b 0x8000 0x218 16 fun g x => { g with pwSalt := x }
  let c := c.raw b 0x8000 0x228 64 fun g x => { g with pwHash := if x.all (· == 0#8) then [] else x }
  let c := c.raw b 0x8000 0x268 80 fun g x => { g with hallCakWrap := x }
  let c := c.raw b 0x8000 0x2B8 96 fun g x => { g with hostCak40 := x }
  let c := c.raw b 0x8000 0x318 96 fun g x => { g with hostCak41 := x }
  c.long b 0x8000 888

/-- The fields of one section, in increasing offset (R431 to R440). -/
def Checking.sect (c : Checking) (id : Nat) (b : List Byte) : Checking :=
  match id with
  | 0x2000 =>
    let c := (c.hallPos b).dims b
    let c := c.nat b id 8 1 10 50 fun g v => { g with vesperShare := v }
    let c := c.nat b id 9 1 0 100 fun g v => { g with nonminThreshold := v }
    let c := c.nat b id 10 2 1 1000 fun g v => { g with e2eTimeout := v }
    let c := c.nat b id 12 2 16 65535 fun g v => { g with quarantineLimit := v }
    (c.reserved b id 14 2).long b id 16
  | 0x3000 =>
    let c := c.nat b id 0 1 1 56 fun g v => { g with crossDieMin := v }
    let c := c.nat b id 1 1 1 56 fun g v => { g with stealWake := v }
    let c := c.nat b id 2 2 0 65535 fun g v => { g with vesperStealLimit := v }
    let c := c.nat b id 4 4 256 1048576 fun g v => { g with retentionHoldoff := v }
    (c.reserved b id 8 8).long b id 16
  | 0x4000 =>
    let c := c.nat b id 0 2 1 10000 fun g v => { g with barrierTimeout := v }
    (c.reserved b id 2 6).long b id 8
  | 0x5000 =>
    let c := c.num b id 0 1 true 0 24 1 fun g v => { g with lossSeed := v }
    let c := c.num b id 1 1 true (-16) 0 1 fun g v => { g with lossMin := v }
    let c := c.num b id 2 1 false 8 32 1 fun g v => { g with lossMax := v }
    let c := c.reserved b id 3 1
    let c := c.nat b id 4 2 1 65535 fun g v => { g with lossInterval := v }
    let c := c.nat b id 6 2 1 1024 fun g v => { g with skipLimit := v }
    let c := c.nat b id 8 2 1 10000 fun g v => { g with deadlineSeed := v }
    let c := c.nat b id 10 2 1 10000 fun g v => { g with deadlineFloor := v }
    let c := c.nat b id 12 2 1 1000 fun g v => { g with checkGrace := v }
    let c := c.reserved b id 14 2
    let c := c.nat b id 16 4 10 600000 fun g v => { g with stepCloseLimit := v }
    (c.reserved b id 20 4).long b id 24
  | 0x6000 =>
    let c := c.nat b id 0 2 1 4096 fun g v => { g with mirrorSizeMax := v }
    let c := c.nat b id 2 1 1 100 fun g v => { g with mirrorChangeMin := v }
    let c := c.nat b id 3 1 1 64 fun g v => { g with nightInterval := v }
    let c := c.nat b id 4 2 1 1024 fun g v => { g with dayInterval := v }
    let c := c.nat b id 6 2 1 1024 fun g v => { g with duskInterval := v }
    let c := c.nat b id 8 2 0 10000 fun g v => { g with riskSeed := v }
    let c := c.reserved b id 10 2
    let c := c.nat b id 12 4 60 86400 fun g v => { g with riskHalfLife := v }
    let c := c.nat b id 16 4 1 100000 fun g v => { g with duskThreshold := v }
    let c := c.nat b id 20 4 2 100000 fun g v => { g with nightThreshold := v }
    let c := c.nat b id 24 4 1 86400 fun g v => { g with levelHold := v }
    let c := c.nat b id 28 2 1 3600 fun g v => { g with evalLimit := v }
    (c.reserved b id 30 2).long b id 32
  | 0x6100 => ((c.feedMap b).reserved b id 7321 7).long b id 7328
  | 0x7000 =>
    let c := c.address b 0 fun g a => { g with addr40 := some a }
    let c := c.address b 0x10 fun g a => { g with addr41 := some a }
    let c := c.nat b id 0x20 2 1024 65535 fun g v => { g with udpPort := v }
    let c := c.nat b id 0x22 2 1 3600 fun g v => { g with idleTimeout := v }
    let c := c.nat b id 0x24 1 2 32 fun g v => { g with retryLimit := v }
    let c := c.reserved b id 0x25 1
    let c := c.nat b id 0x26 2 16 65535 fun g v => { g with hostQuarantine := v }
    (c.reserved b id 0x28 8).long b id 48
  | 0x8000 => c.security b
  | 0x9000 =>
    let c := c.nat b id 0 1 0 1 fun g v => { g with strict := v == 1 }
    let c := c.reserved b id 1 15
    (c.raw b id 16 32 fun g x => { g with label := x }).long b id 48
  | 0xA000 =>
    let c := c.num b id 0 2 false 1000 2400 10 fun g v => { g with powerLimit := v.toNat }
    let c := c.nat b id 2 1 10 50 fun g v => { g with vesperPowerShare := v }
    let c := c.nat b id 3 1 10 100 fun g v => { g with vesperTileShare := v }
    let c := c.nat b id 4 1 5 45 fun g v => { g with monarchSeed := v }
    let c := c.reserved b id 5 1
    let c := c.num b id 6 2 false 540 660 5 fun g v => { g with supplyStart := v.toNat }
    let c := c.nat b id 8 2 100 200 fun g v => { g with calSeed := v }
    let c := c.nat b id 10 2 100 400 fun g v => { g with calMax := v }
    (c.reserved b id 12 4).long b id 16
  | _ => c.note id 0 8 0 0

/-- Required fields of a section: their offsets. -/
def requiredIn (id : Nat) : List Nat := if id = 0x2000 then [0] else if id = 0x7000 then [0, 0x10] else if id = 0x8000 then [0] else []

/-- A section that the image does not hold: one entry, then its required fields. -/
def Checking.absent (c : Checking) (id : Nat) : Checking :=
  (requiredIn id).foldl (fun (c : Checking) off => c.note id off 5 0 0) (c.note id 0 4 0 0)

/-- All sections in increasing SECTION_ID. -/
def Checking.all (c : Checking) (d : List Byte) : List Nat → Checking
  | [] => c
  | id :: ids =>
    (match (imageSections d).find? fun (x : Nat × Nat × Nat × Nat) => x.1 == id with
     | some x => c.sect id (spanOf d x.2.2.1 x.2.2.2)
     | none => c.absent id).all d ids

/-- A field as read; 0 where the image does not hold it. -/
def readField (d : List Byte) (id off w : Nat) : Nat :=
  match (imageSections d).find? fun (x : Nat × Nat × Nat × Nat) => x.1 == id with
  | some x => if off + w ≤ x.2.2.2 then numAt d (x.2.2.1 + off) w else 0
  | none => 0

/-- The cross-field rules (R430). -/
def Checking.cross (c : Checking) (d : List Byte) : Checking :=
  let seed := max c.cfg.lossMin (min c.cfg.lossSeed c.cfg.lossMax)
  let c := if seed = c.cfg.lossSeed then c else { c.note 0x5000 0 3 0 (readField d 0x5000 0 1) with cfg := { c.cfg with lossSeed := seed } }
  let c := if c.cfg.duskThreshold < c.cfg.nightThreshold then c
    else
      let c := if c.cfg.duskThreshold = 100000 then
          { c.note 0x6000 16 3 0 (readField d 0x6000 16 4) with cfg := { c.cfg with duskThreshold := 99999 } } else c
      if c.cfg.nightThreshold = c.cfg.duskThreshold + 1 then c
      else { c.note 0x6000 20 3 0 (readField d 0x6000 20 4) with cfg := { c.cfg with nightThreshold := c.cfg.duskThreshold + 1 } }
  let c := if c.cfg.calSeed ≤ c.cfg.calMax then c
    else { c.note 0xA000 10 3 0 (readField d 0xA000 10 2) with cfg := { c.cfg with calMax := c.cfg.calSeed } }
  match c.cfg.hallPos with
  | none => c
  | some (a, b, e, g) =>
    let z := c.cfg.dimSize
    match [(a, z.1), (b, z.2.1), (e, z.2.2.1), (g, z.2.2.2)].findIdx? fun x => decide (x.2 ≤ x.1) with
    | none => c
    | some i => { c.note 0x2000 0 3 i (readField d 0x2000 0 4) with cfg := { c.cfg with hallPos := none } }

/-- The check of an image's fields: the settings in force and the clamp report. -/
def checkFields (d : List Byte) : Cfg × List (W64 × W64) :=
  let ids := sortNat (knownSections.map (·.1) ++ ((imageSections d).map (·.1)).filter fun (i : Nat) => !knownSections.any fun (x : Nat × Nat) => x.1 == i)
  let c := ((⟨Cfg.start, []⟩ : Checking).all d ids).cross d
  (c.cfg, c.report)

/-- KIND of a report entry. -/
def entryKind (e : W64 × W64) : Nat := fld e.1.toNat 32 4

/-- M2 of a report (R441). -/
def reportDigest (r : List (W64 × W64)) : BitVec 512 :=
  BitVec.ofNat 512 (leNat (sha512 (leBytes 8 r.length ++ (r.take 128).flatMap fun e => leBytes 8 e.1.toNat ++ leBytes 8 e.2.toNat)))

/-! ### Choosing a bank (R426) -/

/-- The words of a bank (Table 17-13): check, CONFIRMED, TRIES_USED, BANK_ROLLBACK, BANK_SEQ. -/
def bankStatus (f : Sp Byte) (cause : Nat) (b : Bool) : Nat × Bool × Nat × Nat × W64 :=
  let readable := headerOk f (bankBase b) && cause != 12
  (cause, confirmed f b, triesUsed f b, if readable then imageRollback f (bankBase b) % 64 else 0,
    if readable then BitVec.ofNat 64 (imageSeq f (bankBase b)) else 0)

/-- Banks by IMAGE_SEQ descending, A first on ties. -/
def bankOrder (f : Sp Byte) (bs : List Bool) : List Bool :=
  if imageSeq f (bankBase false) < imageSeq f (bankBase true) then bs.filter (· == true) ++ bs.filter (· == false)
  else bs.filter (· == false) ++ bs.filter (· == true)

/-- Take banks in order: the flash after, the banks rejected as STRICT, and the bank run with its settings and report. -/
def takeBanks (f : Sp Byte) : List Bool → Sp Byte × List Bool × Option (Bool × Cfg × List (W64 × W64))
  | [] => (f, [], none)
  | b :: bs =>
    let f1 := if confirmed f b then f else clearTry f b
    let c := checkFields (flashRead f1 (bankBase b) (imageBytes f1 (bankBase b)))
    if c.1.strict && !c.2.isEmpty then let r := takeBanks f1 bs; (r.1, b :: r.2.1, r.2.2)
    else (f1, [], some (b, c.1, c.2))

/-- Record F-9101 for each of some banks. -/
def State.bankRejects (s : State) : List Bool → State
  | [] => s
  | _ :: bs => (s.logEvent 0x9101 none (0, 0)).bankRejects bs

/-- Cause of a bank; the flash returns an error for the `unread` ones (R423, Table 17-14). -/
def bankCause (f : Sp Byte) (fused : Nat) (unread : List Bool) (b : Bool) : Nat := if unread.contains b then 12 else examine f fused b

/-- The banks that pass their examination. -/
def examinedBanks (f : Sp Byte) (fused : Nat) (unread : List Bool) : List Bool := [false, true].filter fun b => bankCause f fused unread b == 0

/-- Of these, the ones confirmed or with a try left. -/
def eligibleBanks (f : Sp Byte) (fused : Nat) (unread : List Bool) : List Bool :=
  (examinedBanks f fused unread).filter fun b => confirmed f b || decide (triesUsed f b < 3)

/-- The choice: eligible banks in order, then the other examined ones; as `takeBanks` answers. -/
def bankChoice (f : Sp Byte) (fused : Nat) (unread : List Bool) : Sp Byte × List Bool × Option (Bool × Cfg × List (W64 × W64)) :=
  let r := takeBanks f (bankOrder f (eligibleBanks f fused unread))
  if r.2.2.isSome then r
  else
    let q := takeBanks r.1 (bankOrder f ((examinedBanks f fused unread).filter fun b => !r.2.1.contains b))
    (q.1, r.2.1 ++ q.2.1, q.2.2)

/-- BANK_CHECK of a bank after the choice (Table 17-14). -/
def bankCheck (f : Sp Byte) (fused : Nat) (unread : List Bool) (b : Bool) : Nat :=
  let r := bankChoice f fused unread
  if bankCause f fused unread b ≠ 0 then bankCause f fused unread b
  else if r.2.1.contains b then 11
  else if (match r.2.2 with | some x => x.1 == b | none => false) || (eligibleBanks f fused unread).contains b then 0 else 10

/-- No bank runs: safe mode (R442). -/
def State.enterSafe (s : State) : State :=
  { s with cfg := Cfg.start, img := { s.img with bank := none, seq := 0, rollback := 0, clamps := [] },
           sec := { s.sec with m1 := 0, m2 := 0 }, start := { s.start with phase := .safe } }.logEvent 0x9102 none (0, 0)

/-- A bank's image runs with its settings and clamp report (R426, R441); `first`: it was the first in order. -/
def State.runImage (s : State) (b : Bool) (cfg : Cfg) (report : List (W64 × W64)) (first : Bool) : State :=
  let f := s.img.flash
  let base := bankBase b
  let m1 : BitVec 512 := BitVec.ofNat 512 (leNat (sha512 (flashRead f base (imageBytes f base))))
  let s2 := { s with cfg := cfg, img := { s.img with bank := some b, seq := BitVec.ofNat 64 (imageSeq f base), rollback := imageRollback f base, clamps := report },
                     sec := { s.sec with m1 := m1, m2 := reportDigest report } }
  let s3 := if first then s2 else s2.logEvent 0x9103 none (0, 0)
  let s4 := if report.isEmpty then s3 else s3.logEvent 0x9201 none (0, 0)
  -- a HALL_POSITION that R430 makes invalid is a violation of Table 17-5 as well
  if report.any (fun e => entryKind e == 5) || cfg.hallPos.isNone then s4.logEvent 0x9202 none (0, 0) else s4

/-- Choose the image to run, or enter safe mode (R426, R441, R442, Table 17-13); F-9101 is recorded for each bank that fails or is
ineligible, run or not (Table 17-16; log 93); the flash returns an error for the `unread` banks. -/
def State.chooseImage (s : State) (unread : List Bool) : State :=
  let f := s.img.flash
  let check := bankCheck f s.img.fused unread
  let r := bankChoice f s.img.fused unread
  let img := { s.img with flash := r.1, checkA := bankStatus r.1 (check false) false, checkB := bankStatus r.1 (check true) true, staging := none,
                          outcome := (0, 0, false, 0) }
  let s1 := { s with img := img }.bankRejects ([false, true].filter fun b => check b != 0 || !(eligibleBanks f s.img.fused unread).contains b)
  match r.2.2 with
  | none => s1.enterSafe
  | some (b, cfg, report) => s1.runImage b cfg report ((bankOrder f (examinedBanks f s.img.fused unread)).head? == some b)

/-- READY writes CONFIRMED and the rollback level (R427). -/
def State.confirmImage (s : State) : State :=
  match s.img.bank with
  | none => s
  | some b =>
    let f := if confirmed s.img.flash b then s.img.flash else flashProgram s.img.flash (recordAt b + 0x68) (leBytes 8 0)
    { s with img := { s.img with flash := f, fused := max s.img.fused s.img.rollback } }

end Sys2Proof.Machine
end

