-- ==== Sys2Proof/Machine/Staging.lean ====
section
/-!
DEFINITION. Staging an image into the bank not in use (R444, R445, R447), and the flash interface's crossing in it (R450, R452).
-/
namespace Sys2Proof.Machine

/-- Is a bank examined, by its check word? -/
def examinedBy (x : Nat × Bool × Nat × Nat × W64) : Bool := [0, 10, 11].contains x.1

/-- The bank that a staging writes (R444). -/
def State.stageBank (s : State) : Bool :=
  match s.img.bank with
  | some b => !b
  | none =>
    let a := s.img.checkA
    let b := s.img.checkB
    examinedBy b && (!examinedBy a || decide (b.2.2.2.2.toNat < a.2.2.2.2.toNat))

/-- May a session stage (Table 16-1)? -/
def Conn.mayStage (c : Conn) : Bool := c.role == 1 || (c.role == 2 && (match c.unlock with | some u => u.1 == 2 | none => false))

/-- A refused STAGE: recorded and answered. -/
def State.stageRefused (s : State) (id : BitVec 32) (ref : W64) (code : Nat) : State := (s.noteCode id 0x72 code none).errorReply id ref code

/-- A fragment waits for the flash: where it is the next operation its bytes are placed in the slots of the gated interface
(R452). -/
def State.flashGiven (s : State) (first : Bool) (data : List Byte) : State := if first then s.holdAt flashIn data else s

/-- The first fragment of a staging: the target bank's state sector goes first, so that a staging that is cut short before its first
operation ends leaves no valid state record (R444, R445; log 132). What an ended staging had left in the slots is gone with its
operation. -/
def State.stageFirst (s : State) (id : BitVec 32) (ref : W64) (total : Nat) (data : List Byte) : State :=
  if imageMax < total then
    let s1 := s.stageRefused id ref 0x9304
    { s1 with img := { s1.img with outcome := (0x9304, 0, s1.stageBank, 0) } }
  else if total < data.length then s.stageRefused id ref 0x9301
  else
    let b := s.stageBank
    ({ s with img := { s.img with flash := flashErase s.img.flash (recordAt b) 65536,
                                  staging := some ⟨id, b, total, data.length, 1, [(ref, 0, data)]⟩ } }.restartAt flashIn []).flashGiven true data

/-- A STAGE message (R444, R445). -/
def State.stage (s : State) (id : BitVec 32) (ref : W64) (off total : Nat) (data : List Byte) : State :=
  match s.img.staging with
  | some g =>
    if g.conn ≠ id then s.stageRefused id ref 0x9302
    else if off = 0 then (s.stageEnd 0x9306 0).stageFirst id ref total data
    else if off ≠ g.got ∨ total ≠ g.total ∨ total < off + data.length then (s.stageEnd 0x9301 0).errorReply id ref 0x9301
    else { s with img := { s.img with staging := some { g with got := g.got + data.length, pend := g.pend ++ [(ref, off, data)] } } }.flashGiven g.pend.isEmpty data
  | none => if off = 0 then s.stageFirst id ref total data else s.stageRefused id ref 0x9301

/-- Replace the flash. -/
def State.setFlash (s : State) (f : Sp Byte) : State := { s with img := { s.img with flash := f } }

/-- Replace the staging. -/
def State.setStaging (s : State) (g : Staging) : State := { s with img := { s.img with staging := some g } }

/-- Bytes of the target bank that an erase or program may have left undefined. -/
def State.spoil (s : State) (off n : Nat) : State :=
  { s.setFlash (flashSpoil s.img.flash s.freeCtr off n) with freeCtr := s.freeCtr + n }

/-- The sectors that the first fragment erases: the state sector, then the image sectors. -/
def stageErase (f : Sp Byte) (g : Staging) : Sp Byte :=
  flashErase (flashErase f (recordAt g.bank) 65536) (bankBase g.bank) (cdiv g.total 65536 * 65536)

/-- A flash operation of a staging reports an error (F-9305); no valid state record is left. -/
def State.stageFailed (s : State) (g : Staging) (off n : Nat) : State :=
  let base := bankBase g.bank
  let s1 :=
    if g.st = 1 then (s.setFlash (stageErase s.img.flash g)).spoil base (cdiv g.total 65536 * 65536)
    else if g.st = 2 then s.spoil (base + off / 256 * 256) (upTo (off + n) 256 - off / 256 * 256)
    else s.setFlash (flashErase s.img.flash (recordAt g.bank) 65536)
  s1.stageEnd 0x9305 0

/-- The check of a whole staged image: its cause, 0 where it passes (R444, step 3). -/
def State.stageCheck (s : State) (g : Staging) : Nat :=
  let f := s.img.flash
  let base := bankBase g.bank
  let cause := verifyImage f base s.img.fused
  if cause ≠ 0 then cause
  else if s.img.bank.isSome ∧ imageSeq f base ≤ s.img.seq.toNat then 13
  else
    let c := checkFields (flashRead f base (imageBytes f base))
    if c.1.strict && !c.2.isEmpty then 11 else 0

/-- A fragment is programmed: answered, or the whole image checked. -/
def State.stageProgrammed (s : State) (g : Staging) (x : W64 × Nat × List Byte) (rest : List (W64 × Nat × List Byte)) : State :=
  let s1 := s.setFlash (flashProgram s.img.flash (bankBase g.bank + x.2.1) x.2.2)
  if x.2.1 + x.2.2.length < g.total then (s1.setStaging { g with st := 2, pend := rest }).sendMsg g.conn (.reply x.1 0)
  else
    let cause := s1.stageCheck g
    let s2 := s1.setStaging { g with st := 3 }
    if cause = 0 then s2 else s2.stageEnd 0x9303 cause

/-- The flash island takes the bytes of an operation; those of the next then wait in the slots (R452). -/
def State.flashTook (s : State) (data : List Byte) (rest : List (W64 × Nat × List Byte)) : State :=
  let s1 := s.restartAt flashIn data
  match rest with
  | x :: _ => s1.holdAt flashIn x.2.2
  | [] => s1

/-- FLASH_OP_COMPLETE (R444): the oldest operation of the staging ends. -/
def execFlashOpComplete (ok : Bool) (s0 : State) : Host.Outcome State Fault Refusal :=
  match s0.img.staging with
  | none => .next s0
  | some g =>
    let s := match g.pend with | x :: rest => s0.flashTook x.2.2 rest | [] => s0
    match g.pend with
    | [] => .next s
    | x :: rest =>
      if !ok then .next (s.stageFailed g x.2.1 x.2.2.length)
      else if g.st = 1 then .next ((s.setFlash (stageErase s.img.flash g)).stageProgrammed g x rest)
      else if g.st = 2 then .next (s.stageProgrammed g x rest)
      else
        let r := stageRecord s.img.flash g.bank
        let s1 := s.setFlash (flashProgram s.img.flash (recordAt g.bank) r)
        if flashRead s1.img.flash (recordAt g.bank) 0x60 = r then .next (((s1.setStaging { g with pend := rest }).stageEnd 0 0).sendMsg g.conn (.reply x.1 0))
        else .next (s1.stageEnd 0x9305 0)

end Sys2Proof.Machine
end

