-- ==== Sys2Proof/Machine/Hosts.lean ====
section
/-!
DEFINITION. The host transport's commands: datagrams as they arrive (R371 to R378, R391, R392, Table 15-6), OPEN (R377, R398, R399),
the roles (Table 16-1), the application of messages in SEQ order (R378, R381), timers (R379) and ICMPv6 (R371).
-/
namespace Sys2Proof.Machine

/-! ### Arrival -/

/-- Does a port of KHT run, so that frames reach the module through it? -/
def State.portRuns (s : State) (p : Fin 3) : Bool := if p = 2 then s.start.phase != .off else (s.port (40 + p.val)).phy

/-- Is a port of KHT live (R442, R456, R457)? -/
def State.khtPort (s : State) (p : Fin 3) : Bool :=
  if p = 2 then s.start.phase != .off
  else decide (s.start.phase = .ready) && (s.port (40 + p.val)).st == 2

/-- The types that a host sends (Table 15-2). -/
def hostTypes : List Nat := [0x01, 0x03, 0x04, 0x10, 0x14, 0x20, 0x21, 0x30, 0x40, 0x50, 0x52, 0x60, 0x70, 0x72]

/-- The types that only the module sends. -/
def moduleTypes : List Nat := [0x02, 0x05, 0x11, 0x12, 0x13, 0x22, 0x31, 0x41, 0x51, 0x61, 0x71, 0x80]

/-- Is a type sequenced? -/
def sequenced (t : Nat) : Bool := (hostTypes ++ moduleTypes).contains t && t != 0x01 && t != 0x02 && t != 0x04

/-- The types that the service link takes (R375). -/
def serviceTypes : List Nat := [0x01, 0x03, 0x04, 0x40, 0x50, 0x70, 0x72]

/-- The header's bytes (Table 15-1). -/
def headerBytes (h : KHdr) : List Byte :=
  leBytes 1 h.version.toNat ++ leBytes 1 h.type.toNat ++ leBytes 2 h.res0.toNat ++ leBytes 4 h.conn.toNat ++ leBytes 8 h.seq.toNat ++
    leBytes 8 h.ack.toNat ++ leBytes 8 (h.length.toNat + h.window.toNat * 2 ^ 16 + h.res3.toNat * 2 ^ 27) ++ leBytes 8 h.pktNum.toNat

/-- Has the header the values of Table 15-1, its LENGTH that of a payload of `n` bytes? -/
def khtHeaderOk (h : KHdr) (n : Nat) : Bool :=
  h.version == 1 && h.res0 == 0 && h.res3 == 0 && h.length.toNat == n && decide (n ≤ 8192) && decide (h.window.toNat ≤ 1024)

/-- The violation of an authenticated datagram's header, or of its payload (Table 15-6). -/
def headFault (h : KHdr) (payloadOk : Bool) : Option Nat :=
  let t := h.type.toNat
  if !khtHeaderOk h (h.body.length - 16) ∨ !(hostTypes ++ moduleTypes).contains t ∨ (hostTypes.contains t ∧ !payloadOk) then some 0x7101
  else if moduleTypes.contains t ∨ t = 0x01 ∨ (h.port = 2 ∧ !serviceTypes.contains t) then some 0x7105
  else none

/-! ### Roles (R399, Table 16-1) -/

/-- Does a session's role permit a message? -/
def Conn.permits (c : Conn) : HMsg → Bool
  | .bad _ => true
  | .close => true
  | .statusRead .. => true
  | .attest .. => true
  | .submit .. => c.role == 0
  | .abandon .. => c.role == 0
  | .put .. => c.role == 0
  | .get .. => c.role == 0
  | .signalIn .. => c.role == 0
  | .keyRelease _ _ b => if blobKind b = 1 ∨ blobKind b = 2 then c.role == 0 else if blobKind b = 3 then c.role == 1 else c.role != 2
  -- any session without the privilege is answered F-6501 where the request takes effect (R344)
  | .imago .. => true
  | .unlock1 _ => c.role == 1 || c.role == 2
  | .unlock2 => c.role == 1 || c.role == 2
  | .unlock2Response .. => c.role == 1 || c.role == 2
  | .stage .. => c.mayStage

/-- A message that the role does not permit: F-8102, as DECLINE to a SUBMIT; a staging of the session ends (R399, R445). -/
def State.notPermitted (s : State) (id : BitVec 32) (ref : W64) (m : HMsg) : State :=
  match m with
  | .submit pid _ _ _ => s.decline id ref pid 0 0x8102 0
  | .stage .. => ((s.stageAbort id).sessionFault id 0x8102).errorReply id ref 0x8102
  | _ => (s.sessionFault id 0x8102).errorReply id ref 0x8102

/-! ### Application (R378, R381) -/

/-- The outcome of a PUT or SIGNAL_IN: noted (F-4201 and F-4202 are where they arise, R278) and answered. -/
def codeReply (id : BitVec 32) (type : Nat) (ref : W64) (job : BitVec 16) (r : Nat × State) : State :=
  (if r.1 = 0 ∨ r.1 / 0x100 = 0x42 then r.2 else r.2.noteCode id type r.1 (some job)).outcome id ref r.1

/-- A message takes effect. -/
def State.applyMsg (s : State) (id : BitVec 32) (ref : W64) (m : HMsg) : State :=
  match s.conn? id with
  | none => s
  | some c =>
    if !c.permits m then s.notPermitted id ref m
    else
      match m with
      | .bad code => s.errorReply id ref code
      | .close => s.updConn id fun c => { c with st := 3 }
      | .submit pid off total data => s.submitFragment id ref pid off total data
      | .abandon pid job => s.hostAbandon id ref pid job
      | .put job a data => codeReply id 0x20 ref job (s.hostPut job a.toNat data)
      | .get job a n => s.hostGet id ref job a.toNat n
      | .signalIn job count n w1 => codeReply id 0x30 ref job (s.hostSignal job count n w1)
      | .statusRead off words => s.statusData id ref off words
      | .attest ch job => s.attest id ref ch job
      | .keyRelease job slot blob => s.keyRelease id ref job slot blob
      | .imago job owned key => s.imagoRequest id ref job owned key
      | .unlock1 pw => s.unlock1 id ref pw
      | .unlock2 => s.unlock2 id ref
      | .unlock2Response key sig => s.unlock2Response id ref key sig
      | .stage off total data => s.stage id ref off total data

/-- Does a message wait for the zeroing that its own connection began (R401)? -/
def State.waitsZeroing (s : State) (id : BitVec 32) : HMsg → Bool
  | .keyRelease _ _ b => blobKind b == 3 && (match s.sec.zeroing with | some z => z.conn == id | none => false)
  | _ => false

/-- Apply the held messages of an OPEN connection in SEQ order, at most n. -/
def State.applyHeld (s : State) (id : BitVec 32) : Nat → State
  | 0 => s
  | n + 1 =>
    match s.conn? id with
    | none => s
    | some c =>
      match (if c.st = 2 then c.held.find? fun e => e.1 == c.rxNext else none) with
      | none => s
      | some e =>
        if s.waitsZeroing id e.2 then s
        else ((s.updConn id fun c => { c with rxNext := c.rxNext + 1, held := c.held.filter fun x => x.1 != e.1 }).applyMsg id e.1 e.2).applyHeld id n

/-- A sequenced message with SEQ in the window: held, what is due is applied, and the arrival is acknowledged. -/
def State.hold (s : State) (id : BitVec 32) (seq : W64) (m : HMsg) : State :=
  let s1 := s.updConn id fun c => if c.held.any (·.1 == seq) then c else { c with held := c.held ++ [(seq, m)] }
  let n := match s1.conn? id with | some c => c.held.length | none => 0
  (s1.applyHeld id n).sendAck id

/-- Where a SEQ lies: 0 in the window, 1 a duplicate, 2 outside (R378). -/
def Conn.place (c : Conn) (seq : W64) : Nat :=
  if (seq - c.rxNext).toNat < 1024 then 0 else if (c.rxNext - seq).toNat ≤ 2 ^ 20 then 1 else 2

/-- An authenticated datagram is counted on its connection, and its PKT_NUM is used (R394, R398). -/
def State.countedIn (s : State) (c : Conn) (h : KHdr) : State :=
  s.updConn c.id fun c => { c with datagrams := c.datagrams + 1, seenPkts := c.seenPkts ++ [h.pktNum] }

/-- An authenticated datagram that is not discarded: where its sender is, and what it acknowledges (R373, R377, R378). -/
def State.heard (s : State) (c : Conn) (h : KHdr) : State :=
  ((s.openPending c.id).updConn c.id fun c => { c with port := h.port, addr := h.source, udp := h.sourcePort, lastAt := s.now }).takeAck
    c.id h.ack h.window.toNat

/-- An authenticated datagram in violation: recorded; a sequenced one in the window consumes its SEQ and is answered (R391). -/
def State.violated (s : State) (c : Conn) (h : KHdr) (code : Nat) : State :=
  let s1 := s.hostViolation h code
  if sequenced h.type.toNat then
    (match c.place h.seq with
     | 0 => s1.hold c.id h.seq (.bad code)
     | 1 => s1.sendAck c.id
     | _ => s1)
  else if code = 0x7105 then s1.errorReply c.id h.seq code
  else s1

/-- The payload of a message (Table 15-3). -/
def HMsg.payload : HMsg → List Byte
  | .bad _ | .close => []
  | .submit pid off total data => leBytes 8 (pid + off * 2 ^ 8) ++ leBytes 8 total ++ data
  | .abandon pid job => leBytes 8 (pid + job.toNat * 2 ^ 8)
  | .put job a data => leBytes 8 job.toNat ++ leBytes 8 a.toNat ++ data
  | .get job a n => leBytes 8 job.toNat ++ leBytes 8 a.toNat ++ leBytes 8 n
  | .signalIn job count n w1 => leBytes 8 (job.toNat + bit count * 2 ^ 16 + n * 2 ^ 32) ++ leBytes 8 w1.toNat
  | .statusRead off words => leBytes 8 (off + words * 2 ^ 16)
  | .attest ch job => leBytes 32 ch.toNat ++ leBytes 8 job.toNat
  | .keyRelease job slot blob => leBytes 8 (job.toNat + slot * 2 ^ 16 + blob.length * 2 ^ 24) ++ blob
  | .imago job owned key => leBytes 8 (job.toNat + bit owned * 2 ^ 16) ++ leBytes 32 key.toNat
  | .unlock1 pw => leBytes 8 1 ++ leBytes 1 pw.length ++ pw
  | .unlock2 => leBytes 8 2
  | .unlock2Response key sig => leBytes 8 6 ++ leBytes 32 key.toNat ++ leBytes 64 sig.toNat
  | .stage off total data => leBytes 8 off ++ leBytes 8 total ++ data

/-- The payload that a datagram's command names: of a message, or of an ACK, which has none. -/
def payloadOf (m : Option HMsg) : List Byte := match m with | some m => m.payload | none => []

/-- What a sealed datagram of a connection deciphers to under the key of the host's direction; `none`: its tag fails (R372). -/
def Conn.unseal (c : Conn) (h : KHdr) : Option (List Byte) := gcmOpen c.keys.1 (khtNonce h.pktNum.toNat) (headerBytes h) h.body

/-- Would a connection that is elsewhere be a second one on the service link (R375)? -/
def State.crowds (s : State) (c : Conn) (h : KHdr) : Bool := h.port == 2 && c.port != 2 && s.conns.any (·.port == 2)

/-- The violation of an authenticated datagram of a connection (Table 15-6, R375). -/
def State.headCode (s : State) (c : Conn) (h : KHdr) (payloadOk : Bool) : Option Nat :=
  match headFault h payloadOk with
  | some code => some code
  | none => if s.crowds c h then some 0x7105 else none

/-- An authenticated datagram of a connection takes effect, in view of its violation. -/
def State.authentic (s : State) (c : Conn) (h : KHdr) (code : Option Nat) (m : Option HMsg) : State :=
  match code, m with
  | some code, _ => s.violated c h code
  | none, none => s.heard c h
  | none, some m =>
    match c.place h.seq with
    | 0 => (s.heard c h).hold c.id h.seq m
    | 1 => (s.heard c h).sendAck c.id
    | _ => ((s.hostViolation h 0x7104).bump 0x7038 1).sendAck c.id

/-- A datagram of a connection that the port has taken (Table 15-6). One whose payload is not what its command names breaks Table
15-3. A PKT_NUM that repeats in either direction closes the connection (R398). -/
def State.sealed (s : State) (h : KHdr) (payloadOk : Bool) (m : Option HMsg) : State :=
  match (s.conn? h.conn).bind fun c => (c.unseal h).map fun plain => (c, plain) with
  | some (c, plain) =>
    if c.spent || c.seenPkts.contains h.pktNum then s.closed c.id
    else ((s.countedIn c h).authentic c h (s.headCode c h (payloadOk && plain == payloadOf m)) m).closeIfDone c.id
  | none => (s.bump 0x7028 1).hostViolation h 0x7102

/-- A host port's or the service link's receive crossing overruns: the frame is lost (R453). -/
def State.khtOverrun (s : State) (p : Fin 3) : State :=
  if p = 2 then s.overran serviceRx 3 1 0 true else s.portOverrun (40 + p.val) true

/-- The datagram's bytes: what UDP carries. -/
def khtBytes (h : KHdr) : List Byte := headerBytes h ++ h.body

/-- Bytes of the frame that carries a datagram, from the destination address through the FCS: 42 beyond the IPv6 packet (R371). -/
def khtFrameBytes (h : KHdr) : Nat := 90 + (khtBytes h).length

/-- The sum of the 16-bit words of some bytes, the first byte of a word the higher. -/
def sum16 : List Byte → Nat
  | [] => 0
  | [a] => a.toNat * 256
  | a :: b :: bs => a.toNat * 256 + b.toNat + sum16 bs

/-- Is the UDP checksum right: over the pseudo-header of IPv6, the UDP header and the datagram (RFC 768, RFC 8200; 0 is none)? -/
def khtSumOk (h : KHdr) : Bool :=
  let n := 8 + (khtBytes h).length
  let udp := beBytes 2 h.sourcePort.toNat ++ beBytes 2 h.destPort.toNat ++ beBytes 2 n ++ beBytes 2 h.checksum.toNat
  h.checksum != 0 && sum16 (beBytes 16 h.source.toNat ++ beBytes 16 h.dest.toNat ++ beBytes 4 n ++ beBytes 4 h.next.toNat ++ udp ++ (khtBytes h)) % 65535 == 0

/-- Are IPv6 and UDP as R371 asks: next header UDP, which leaves no room for an extension or fragment header, and a right checksum? -/
def khtIpOk (h : KHdr) : Bool := h.next == 17 && khtSumOk h

/-- A frame on a port that runs is counted (R271). -/
def State.frameIn (s : State) (h : KHdr) : State :=
  if h.port = 2 then s else (s.hostRx h.port (khtFrameBytes h)).bump (0x2128 + 0x40 * (40 + h.port.val)) h.corrected

/-- The receive crossing of a port of KHT. -/
def khtRx (p : Fin 3) : Nat := if p = 2 then serviceRx else portRx (40 + p.val)

/-- A frame that a port of KHT has taken reaches the transport (R371, R392, R443, R457). One to another address, or longer than 9,042
bytes, is not the port's (log 126). -/
def State.takeDatagram (s : State) (h : KHdr) (f : State → State) : State :=
  if !s.khtPort h.port || decide (9042 < khtFrameBytes h) then s
  else if s.portAddr h.port ≠ some h.dest then s
  else if s.isQuarantined h.source then s.bump 0x7010 1
  else if !khtIpOk h ∨ h.destPort.toNat ≠ s.cfg.udpPort then s.bump 0x7030 1
  else f (s.bump 0x7010 1)

/-- A frame has come in through a port that runs: counted, its datagram through the receive crossing (R271, R450). -/
def State.inward (s : State) (h : KHdr) : State := (s.frameIn h).across (khtRx h.port) (khtBytes h)

/-- A datagram arrives: what the port does before the transport sees it (R453). -/
def State.arrive (s : State) (h : KHdr) (f : State → State) : State :=
  if !s.portRuns h.port then s
  else if h.overrun then (s.frameIn h).khtOverrun h.port
  else (s.inward h).takeDatagram h f

/-- A command's datagram: one whose TYPE is that of another command is no event of this row. -/
def onDatagram (h : KHdr) (type : Nat) (payloadOk : Bool) (m : Option HMsg) (s : State) : Host.Outcome State Fault Refusal :=
  if hostTypes.contains h.type.toNat ∧ h.type.toNat ≠ type then .refused .illFormed
  else .next (s.arrive h fun s => s.sealed h payloadOk m)

/-! ### OPEN (R377, R398, R399) -/

/-- OPEN payload bytes 0 to 87. -/
def openBytes (role : Byte) (eph key : BitVec 256) (nonce : BitVec 128) : List Byte :=
  leBytes 8 role.toNat ++ leBytes 32 eph.toNat ++ leBytes 32 key.toNat ++ leBytes 16 nonce.toNat

/-- Is a HOST_KEY accepted for a role (Table 16-1)? -/
def State.keyAccepted (s : State) (role : Nat) (key : BitVec 256) : Bool :=
  match role with
  | 0 => s.sec.zeroing.isNone && (match s.sec.tenant with | some t => t.keys.any fun k => k.1 == key | none => false)
  | 1 => s.cfg.operatorKeys.contains key
  | 2 => keyValid key
  | _ => false

/-- OPEN_REPLY of a connection, its signature over header, bytes 0 to 55 and the OPEN payload. -/
def State.openReply (s : State) (path : UdpPath) (id : BitVec 32) (status : Nat) (eph : BitVec 256) (nonce : BitVec 128) (seq ack : W64)
    (payload : List Byte) : State :=
  let pub := x25519Public eph
  let h : OHdr := ⟨2, id, seq, ack, 120, 1024, 0, true⟩
  let body := leBytes 8 (id.toNat + status * 2 ^ 32) ++ leBytes 32 pub.toNat ++ leBytes 16 nonce.toNat
  let sig := ed25519Sign Config.dikSecret (h.bytes ++ body ++ payload)
  s.khtSent (h.bytes ++ body ++ leBytes 64 sig.toNat) (.openReply path h status pub nonce sig) path.port

/-- The two keys of a connection (R398). -/
def connKeys (eph : BitVec 256) (hostEph hostKey : BitVec 256) (hostNonce nonce : BitVec 128) (id : BitVec 32) : BitVec 256 × BitVec 256 :=
  let k := hkdf64 (leBytes 32 (x25519 eph hostEph).toNat) (leBytes 16 hostNonce.toNat ++ leBytes 16 nonce.toNat)
    (ascii "KHT1" ++ leBytes 4 id.toNat ++ leBytes 32 hostKey.toNat ++ leBytes 32 dikPublic.toNat)
  (k.truncate 256, (k >>> 256).truncate 256)

/-- A connection right after its OPEN_REPLY. -/
def freshConn (s : State) (h : KHdr) (id : BitVec 32) (role : Nat) (hostEph key : BitVec 256) (nonce : BitVec 128) (eph : BitVec 256) (mn : BitVec 128)
    (tx : W64) : Conn :=
  { id := id, entry := ((List.range 16).find? fun i => !s.conns.any (·.entry == i)).getD 15, st := 1, role := role, hostKey := key, nonce := nonce,
    eph := (eph, mn), keys := connKeys eph hostEph key nonce mn id, port := h.port, addr := h.source, udp := h.sourcePort, rxNext := h.seq, held := [],
    txNext := tx, ack := tx, window := h.window.toNat, pkt := 1, seenPkts := [], unacked := [], lastAt := s.now, errAt := 0, datagrams := 0,
    report := none, unlock := none, challenge := none }

/-- Does an OPEN need a connection too many: a seventeenth, or a second on the service link (R375, R377)? -/
def State.noRoom (s : State) (p : Fin 3) : Bool := decide (16 ≤ s.conns.length) || (p == 2 && s.conns.any (·.port == 2))

/-- An OPEN whose signature is to be verified. -/
def State.openWith (s : State) (h : KHdr) (role : Byte) (hostEph key : BitVec 256) (nonce : BitVec 128) (sig : BitVec 512) : State :=
  let payload := openBytes role hostEph key nonce
  let n := s.freeCtr
  let eph := freshSecret n
  let path := s.pathTo h.port h.source h.sourcePort
  if !ed25519Verify key (headerBytes h ++ h.body.take 88) sig || !s.keyAccepted role.toNat key || x25519 eph hostEph == 0 then
    (s.bump 0x7028 1).hostViolation h 0x7102
  else if !khtHeaderOk h 152 ∨ h.conn ≠ 0 ∨ h.body ≠ payload ++ leBytes 64 sig.toNat then s.hostViolation h 0x7101
  else
    let all := h.body
    match s.conns.find? fun c => c.st == 1 && c.nonce == nonce && c.hostKey == key with
    | some c => s.openReply path c.id 0 c.eph.1 c.eph.2 c.txNext c.rxNext all
    | none =>
      let mn : BitVec 128 := (Config.freeValue (n + 1)).truncate 128
      let tx : W64 := (Config.freeValue (n + 2)).truncate 64
      let s1 := { s with freeCtr := n + 3 }
      if s.noRoom h.port then (s1.hostFault 0x7103 h.port 1 0 h.source).openReply path 0 0x7103 eph mn tx h.seq all
      else
        let id := BitVec.ofNat 32 s.nextConn
        ({ s1 with nextConn := s.nextConn + 1, conns := s.conns ++ [freshConn s h id role.toNat hostEph key nonce eph mn tx] }).openReply path id 0 eph mn tx h.seq all

/-- OPEN: none is accepted before READY (R457), and at most 64 signatures are verified in any second (R377). -/
def State.openArrives (s : State) (h : KHdr) (role : Byte) (hostEph key : BitVec 256) (nonce : BitVec 128) (sig : BitVec 512) : State :=
  let recent := s.opens.filter fun t => decide (s.now < t + 1000000000)
  if s.start.phase = .starting then s
  else if 64 ≤ recent.length then s.bump 0x7028 1
  else ({ s with opens := recent ++ [s.now] }).openWith h role hostEph key nonce sig

/-- OPEN. -/
def execOpenConn (h : KHdr) (role : Byte) (hostEphemeral hostKey : BitVec 256) (nonce : BitVec 128) (sig : BitVec 512) (s : State) :
    Host.Outcome State Fault Refusal :=
  if h.type ≠ 1 then .refused .illFormed
  else .next (s.arrive h fun s => s.openArrives h role hostEphemeral hostKey nonce sig)

/-- OPEN_PENDING_EXPIRY: 1 s after the OPEN (Table 15-5). -/
def execOpenPendingExpiry (conn : BitVec 32) (s : State) : Host.Outcome State Fault Refusal :=
  .next { s with conns := s.conns.filter fun c => !(c.id == conn && c.st == 1 && s.passed c.lastAt 1000000000) }

/-! ### Messages -/

/-- CLOSE. -/
def execCloseConn (h : KHdr) (s : State) : Host.Outcome State Fault Refusal := onDatagram h 0x03 true (some .close) s

/-- KHT_ACK (R378). -/
def execKhtAck (h : KHdr) (s : State) : Host.Outcome State Fault Refusal := onDatagram h 0x04 true none s

/-- SUBMIT (R385). -/
def execSubmit (h : KHdr) (packageId : BitVec 8) (offset : BitVec 26) (total : BitVec 27) (data : List Byte) (s : State) :
    Host.Outcome State Fault Refusal :=
  onDatagram h 0x10 (decide (1 ≤ data.length ∧ data.length ≤ 8176 ∧ 64 ≤ total.toNat ∧ total.toNat ≤ 2 ^ 26))
    (some (.submit packageId.toNat offset.toNat total.toNat data)) s

/-- ABANDON (R390). -/
def execAbandon (h : KHdr) (packageId : BitVec 8) (job : BitVec 16) (s : State) : Host.Outcome State Fault Refusal :=
  onDatagram h 0x14 true (some (.abandon packageId.toNat job)) s

/-- KHT_PUT (R382). -/
def execKhtPut (h : KHdr) (job : BitVec 16) (addr : BitVec 64) (data : List Byte) (s : State) : Host.Outcome State Fault Refusal :=
  onDatagram h 0x20 (decide (1 ≤ data.length ∧ data.length ≤ 8176)) (some (.put job addr data)) s

/-- KHT_GET (R382). -/
def execKhtGet (h : KHdr) (job : BitVec 16) (addr : BitVec 64) (bytes : BitVec 21) (s : State) : Host.Outcome State Fault Refusal :=
  onDatagram h 0x21 (decide (1 ≤ bytes.toNat ∧ bytes.toNat ≤ 1048576)) (some (.get job addr bytes.toNat)) s

/-- SIGNAL_IN (R383). -/
def execSignalIn (h : KHdr) (job : BitVec 16) (kind : Bool) (number : BitVec 16) (w1 : BitVec 64) (s : State) : Host.Outcome State Fault Refusal :=
  onDatagram h 0x30 (!kind || decide (1 ≤ fld w1.toNat 32 32 ∧ fld w1.toNat 32 32 ≤ 2 ^ 31 - 1)) (some (.signalIn job kind number.toNat w1)) s

/-- STATUS_READ (R384). -/
def execStatusRead (h : KHdr) (offset : BitVec 16) (words : BitVec 10) (s : State) : Host.Outcome State Fault Refusal :=
  onDatagram h 0x40 (decide (offset.toNat % 8 = 0 ∧ 1 ≤ words.toNat ∧ words.toNat ≤ 1022 ∧ offset.toNat + 8 * words.toNat ≤ 0x10000))
    (some (.statusRead offset.toNat words.toNat)) s

/-- ATTEST (R406). -/
def execAttest (h : KHdr) (challenge : BitVec 256) (job : BitVec 16) (s : State) : Host.Outcome State Fault Refusal :=
  onDatagram h 0x50 true (some (.attest challenge job)) s

/-- KEY_RELEASE of kind 1 (R408, R409). -/
def execKeyReleaseWeightKey (h : KHdr) (job : BitVec 16) (slot : BitVec 8) (blob : List Byte) (s : State) : Host.Outcome State Fault Refusal :=
  onDatagram h 0x52 (decide (blob.length ≤ 8184)) (some (.keyRelease job slot.toNat blob)) s

/-- KEY_RELEASE of kind 2 (R408, R409). -/
def execKeyReleaseUnseal (h : KHdr) (job : BitVec 16) (slot : BitVec 8) (blob : List Byte) (s : State) : Host.Outcome State Fault Refusal :=
  onDatagram h 0x52 (decide (blob.length ≤ 8184)) (some (.keyRelease job slot.toNat blob)) s

/-- KEY_RELEASE of kind 3 (R400, R401). -/
def execKeyReleaseTenantGrant (h : KHdr) (job : BitVec 16) (slot : BitVec 8) (blob : List Byte) (s : State) : Host.Outcome State Fault Refusal :=
  onDatagram h 0x52 (decide (blob.length ≤ 8184)) (some (.keyRelease job slot.toNat blob)) s

/-- ZEROING_COMPLETE (R403, R404): a grant that waited on the same connection is then applied. -/
def execZeroingComplete (s : State) : Host.Outcome State Fault Refusal :=
  match s.sec.zeroing with
  | none => .next s
  | some z =>
    let s1 := s.zeroed
    let n := match s1.conn? z.conn with | some c => c.held.length | none => 0
    .next ((s1.applyHeld z.conn n).closeIfDone z.conn)

/-- IMAGO_REQUEST (R344). -/
def execImagoRequest (h : KHdr) (job : BitVec 16) (scope : Bool) (recipient : BitVec 256) (s : State) : Host.Outcome State Fault Refusal :=
  onDatagram h 0x60 true (some (.imago job scope recipient)) s

/-- UNLOCK level 1 (R415). -/
def execUnlockLevel1 (h : KHdr) (password : List Byte) (s : State) : Host.Outcome State Fault Refusal :=
  onDatagram h 0x70 (decide (1 ≤ password.length ∧ password.length ≤ 64)) (some (.unlock1 password)) s

/-- UNLOCK level 2, STEP 0 (R415). -/
def execUnlockLevel2Request (h : KHdr) (s : State) : Host.Outcome State Fault Refusal := onDatagram h 0x70 true (some .unlock2) s

/-- UNLOCK level 2, STEP 1 (R415). -/
def execUnlockLevel2Response (h : KHdr) (key : BitVec 256) (sig : BitVec 512) (s : State) : Host.Outcome State Fault Refusal :=
  onDatagram h 0x70 true (some (.unlock2Response key sig)) s

/-- STAGE (R444). -/
def execStage (h : KHdr) (offset total : BitVec 28) (data : List Byte) (s : State) : Host.Outcome State Fault Refusal :=
  onDatagram h 0x72 (decide (1 ≤ data.length ∧ data.length ≤ 8176 ∧ offset.toNat ≤ 2 ^ 27 ∧ total.toNat ≤ 2 ^ 27))
    (some (.stage offset.toNat total.toNat data)) s

/-! ### Timers (R379, R392) -/

/-- Has a message's timeout passed: 1 ms, doubled with each retransmission, at most 64 ms (R379)? -/
def State.unheard (s : State) (u : Unacked) : Bool := s.passed u.at_ (min (2 ^ u.tries) 64 * 1000000)

/-- KHT_RETRANSMIT (R379): a message sent and not acknowledged in time goes again under a new PKT_NUM, or the connection fails. -/
def execKhtRetransmit (conn : BitVec 32) (seq : BitVec 64) (s : State) : Host.Outcome State Fault Refusal :=
  match (s.conn? conn).bind fun (c : Conn) => c.unacked.find? fun (u : Unacked) => u.seq == seq && u.sent with
  | none => .next s
  | some u =>
    if !s.unheard u then .next s
    else if (s.conn? conn).any Conn.spent then .next (s.closed conn)
    else if s.cfg.retryLimit ≤ u.tries then .next (s.connFailed conn)
    else
      let s1 := (s.updConn conn fun c => { c with unacked := updFirst (·.seq == seq) (fun u => { u with tries := u.tries + 1 }) c.unacked }).bump 0x7020 1
      .next (s1.datagram conn u)

/-- KHT_IDLE_TIMEOUT (R379): no authenticated datagram has come for so long. -/
def execKhtIdleTimeout (conn : BitVec 32) (s : State) : Host.Outcome State Fault Refusal :=
  match s.conn? conn with
  | some c => .next (if 2 ≤ c.st ∧ s.passed c.lastAt (s.cfg.idleTimeout * 1000000000) then s.connFailed conn else s)
  | none => .next s

/-- KHT_IDLE_ACK (R379). -/
def execKhtIdleAck (conn : BitVec 32) (s : State) : Host.Outcome State Fault Refusal :=
  match s.conn? conn with
  | some c => .next (if 2 ≤ c.st ∧ c.sendable.isEmpty then s.sendAck conn else s)
  | none => .next s

/-- HOST_QUARANTINE_END: 60 s after the source's quarantine began (R392). -/
def execHostQuarantineEnd (source : BitVec 128) (s : State) : Host.Outcome State Fault Refusal :=
  .next { s with quarantined := s.quarantined.filter fun q => !(q.1 == source && s.passed q.2 60000000000) }

/-- ICMPV6_REQUEST (R371, R457): neighbour discovery or echo on a host port that is up; `data` is what follows the first 8 bytes
of the ICMPv6 message. An echo reply is as long as the request, an advertisement has one option (log 126). -/
def execIcmpv6Request (port : Fin 2) (echo : Bool) (data : List Byte) (s : State) : Host.Outcome State Fault Refusal :=
  let p : Fin 3 := ⟨port.val, by omega⟩
  if (s.start.phase = .starting ∨ s.start.phase = .ready) ∧ (s.port (40 + port.val)).st = 2 ∧ data.length ≤ 8952 then
    .next (((s.hostRx p (90 + data.length)).hostTx p (if echo then 90 + data.length else 114)).emit (.icmp port echo data))
  else .next s

end Sys2Proof.Machine
end

