-- ==== Sys2Proof/Machine/Links.lean ====
section
/-!
DEFINITION. Fabric ports and links: receiving, forwarding and transmitting frames, credits, link retry, failover, restore,
identity, quarantine and MACsec keys (R238 to R239, R251 to R269, R411 to R413, R453).
-/
namespace Sys2Proof.Machine

/-! ### Keys (R411, R412) -/

/-- Two bytes, little-endian. -/
def le2 (n : Nat) : List Byte := leBytes 2 n

/-- SAK0 of a link (R411). -/
def State.sak0 (s : State) (p : Nat) : BitVec 352 :=
  let own := (s.hall, p)
  let peer := (s.peerOf p, peerPortOf p)
  let ends := if own.1 < peer.1 then [own, peer] else [peer, own]
  match s.sec.hallCak with
  | none => 0
  | some k => hkdf44 (leBytes 32 k.toNat) [] ("KRV SAK0".toList.map (fun c => BitVec.ofNat 8 c.toNat) ++
      ends.flatMap fun e => le2 e.1 ++ le2 e.2)

/-- SAK(n + 1) from both offers (R412). -/
def State.nextSak (s : State) (p : Nat) (x : Port) (peer : BitVec 256 × BitVec 128) : BitVec 352 :=
  let lower := decide (s.hall < s.peerOf p)
  let salt := if lower then leBytes 16 x.offer.2.toNat ++ leBytes 16 peer.2.toNat else leBytes 16 peer.2.toNat ++ leBytes 16 x.offer.2.toNat
  let cak := match s.sec.hallCak with | some k => leBytes 32 k.toNat | none => []
  hkdf44 (leBytes 32 (x25519 x.ephSecret peer.1).toNat ++ cak) salt ("KRV SAK".toList.map fun c => BitVec.ofNat 8 c.toNat)

/-- The SAK under which a frame with an AN is verified: that in use, that offered and installed, or the old one while it is kept
(R412). -/
def State.rxSak (s : State) (p : Nat) (an : BitVec 2) : Option (BitVec 352) :=
  let x := s.port p
  if s.sec.hallCak.isNone then none
  else if an = x.an then some x.key
  else if an = x.an + 1 then (if x.installed then x.peerOffer.map (s.nextSak p x) else none)
  else if an = x.an - 1 then (if x.oldUntil.isSome then some x.oldKey else none)
  else none

/-! ### Receiving (R254, R257, R267) -/

/-- Does the frame break the header rules of Table 10-8, F-2301? -/
def headerBad (f : Frame) : Bool :=
  let op := f.op.toNat
  let ch := f.channel.toNat
  f.reserved || op == 15 || decide (16 < ch) || (ch == 16 && f.vesper) || f.length.toNat != f.payload.length ||
    decide (perFrame f.vesper < f.payload.length) || decide (14640 < f.dst.toNat) || decide (14640 < f.src.toNat) ||
    (match f.sig with | some g => countRefBad g.countRef.toNat | none => false)

/-- Does the frame break its row of Table 10-5? -/
def opBad (f : Frame) : Bool :=
  let op := f.op.toNat
  let a := f.addr.toNat
  let sp := fld a 56 8
  let n := f.payload.length
  let plain := f.variant == 0 && f.aux == 0
  match op with
  | 0x0 => decide (1 < sp) || !plain
  | 0x1 => decide (2 < sp) || f.variant != 0 || n != 0 || f.aux.toNat == 0 || decide (0x600000 < f.aux.toNat) ||
      (sp == 2 && (a % 8 != 0 || f.aux.toNat % 8 != 0))
  | 0x2 => a != 0 || !plain
  | 0x3 => sp != 0 || a % 4 != 0 || decide (1 < f.variant.toNat) || n % accSize f != 0
  | 0x4 => sp != 0 || a % 8 != 0 || decide (8 < f.variant.toNat) || f.aux != 0 || n != 16
  | 0x5 => a != 0 || !plain || n != 8
  | 0x6 => a != 0 || !plain || n != 0 || f.sig.isNone
  | 0x7 => a != 0 || decide (63 < f.variant.toNat) || fld f.aux.toNat 19 13 != 0 || n != 16
  | 0x8 => a != 0 || decide (63 < f.variant.toNat) || fld f.aux.toNat 19 13 != 0 || n != 16
  | 0x9 => sp != 0 || f.aux != 0
  | 0xA => a != 0 || f.variant.toNat == 0 || decide (3 < f.variant.toNat) || fld f.aux.toNat 16 16 != 0 || n != 32
  | 0xB => a != 0 || !plain || n != 0
  | 0xC => a != 0 || f.variant != 0 || fld f.aux.toNat 16 16 != 0 || n != 0
  | 0xD => a != 0 || decide (7 < f.variant.toNat) || n != 0
  | _ => a != 0 || decide (5 < f.variant.toNat) || decide (64 < n)

/-- Is an arrival over port p non-minimal (R253)? -/
def State.nonminimal (s : State) (p : Nat) (f : Frame) : Bool :=
  coordOf s.hall (p / 10) != coordOf f.dst.toNat (p / 10) && !f.detour

/-- Can the dimension-ordered route of a frame use port p (R251, R259)? On the first hop of a detour the frame comes from its
source's position in the dimension, and to another than its destination's. -/
def State.routeUses (s : State) (p : Nat) (f : Frame) : Bool :=
  let k := p / 10
  let src := f.src.toNat
  let dst := f.dst.toNat
  (List.range 4).all (fun i =>
    if i < k then coordOf s.hall i == coordOf dst i
    else if i = k then coordOf src i != coordOf dst i
    else coordOf s.hall i == coordOf src i) &&
  (!f.detour || (coordOf (s.peerOf p) k == coordOf src k && coordOf s.hall k != coordOf dst k))

/-- Does the frame break the route rules, F-2302? -/
def State.routeBad (s : State) (p : Nat) (f : Frame) : Bool :=
  decide (6 < f.hops.toNat) ||
  (if f.channel.toNat = 16 then s.nonminimal p f && f.nonmin else s.nonminimal p f || !s.routeUses p f)

/-- Key of a buffer class of a class. -/
def bufKey (v : Bool) (h : Nat) : Nat := bit v * 8 + h

/-- 64-byte units that a frame occupies. -/
def units (f : Frame) : Nat := cdiv f.wireBytes 64

/-- A buffer becomes free: its credit is owed to the peer (R254). -/
def State.freeBuffer (s : State) (p : Nat) (f : Frame) : State :=
  let x := s.port p
  let k := bufKey f.vesper f.hops.toNat
  s.setPort p { x with owed := Sp.put 0 x.owed k (Sp.get 0 x.owed k + units f) }

/-- One NAK for a class, until its expected frame arrives (R257): AUX names the LINK_SEQ. -/
def State.nak (s : State) (p : Nat) (v : Bool) : State :=
  let x := s.port p
  let want := (if v then x.rxV else x.rxN).toNat
  if v && x.nakV || !v && x.nakN then s
  else
    let s1 := s.setPort p { x with nakV := x.nakV || v, nakN := x.nakN || !v }
    s1.ctrl p { s1.ctrlFrame p 3 v want [] with vesper := v }

/-- 64-byte units of a buffer class that hold received frames or whose credit has not gone back to the peer. -/
def Port.occupied (x : Port) (k : Nat) : Nat :=
  sumNat ((x.rxq.filter fun f => bufKey f.vesper f.hops.toNat == k).map units) + Sp.get 0 x.owed k

/-- Was the frame sent with credit: does its buffer class still have room for it (R254)? -/
def Port.credited (x : Port) (f : Frame) : Bool :=
  decide (x.occupied (bufKey f.vesper f.hops.toNat) + units f ≤ Config.initialCredit f.vesper f.hops.toNat)

/-- F-2305: counted; three within 1 ms take the link down. -/
def State.sequenceBad (s : State) (p : Nat) (f : Frame) : State :=
  let s1 := s.violation p 0x2305 f false
  let x := s1.port p
  let ts := (x.seqViol.filter fun t => decide (s.now < t + 1000000)) ++ [s.now]
  let s2 := s1.setPort p { x with seqViol := ts }
  if 3 ≤ ts.length then s2.linkLost p false else s2.police p

/-- Is a frame of the replay buffer acknowledged by the next LINK_SEQ that the peer expects? -/
def ackedBy (v n : BitVec 16) (f : Frame) : Bool :=
  decide (((if f.vesper then v else n) - f.linkSeq - 1).toNat < 2 ^ 15)

/-- Are acknowledgement fields within their windows? -/
def Port.acksOk (x : Port) (v n : BitVec 16) : Bool := decide ((x.txV - v).toNat < 2 ^ 15 ∧ (x.txN - n).toNat < 2 ^ 15)

/-- Acknowledgements free the replay buffer (R257). -/
def State.takeAcks (s : State) (p : Nat) (v n : BitVec 16) : State :=
  let x := s.port p
  let left := x.replay.filter fun f => !ackedBy v n f
  s.setPort p { x with replay := left, resend := x.resend.filter (fun f => !ackedBy v n f),
                       ackAt := if left.length < x.replay.length then s.now else x.ackAt }

/-- A request that a violation discards is answered; then the port is policed. -/
def State.refuse (s : State) (p code : Nat) (f : Frame) : State :=
  let s1 := s.violation p code f true
  let s2 := if isRequest f.op.toNat && decide (f.src.toNat ≤ 14640) then s1.sendError p f code else s1
  s2.police p

/-- The frame with the expected LINK_SEQ has come: the next one is expected, and an acknowledgement is owed (R257). -/
def State.cameIn (s : State) (p : Nat) (f : Frame) : State :=
  let x := s.port p
  s.setPort p (if f.vesper then { x with rxV := x.rxV + 1, nakV := false, ackOwed := true }
    else { x with rxN := x.rxN + 1, nakN := false, ackOwed := true })

/-- A frame with the expected LINK_SEQ goes to the switch, unless it breaks a rule of Table 10-8. -/
def State.accepted (s : State) (p : Nat) (f : Frame) : State :=
  let s1 := s.cameIn p f
  if headerBad f || opBad f then (s1.freeBuffer p f).refuse p 0x2301 f
  else if s1.routeBad p f then (s1.freeBuffer p f).refuse p 0x2302 f
  else
    let y := s1.port p
    s1.setPort p { y with rxq := y.rxq ++ [{ f with nonmin := f.nonmin || s1.nonminimal p f }] }

/-- The whole packet number of which the SecTAG carries the low 32 bits: the extension of IEEE 802.1AE (PRESUMED, log 122). -/
def wholePn (next low : Nat) : Nat :=
  let up := decide (low < 2 ^ 31) && decide (2 ^ 31 ≤ next % 2 ^ 32)
  next / 2 ^ 32 * 2 ^ 32 + bit up * 2 ^ 32 + low

/-- The lowest PN that replay protection takes under an AN (R413, window 0). -/
def Port.nextPn (x : Port) (an : BitVec 2) : Nat := Sp.get 1 x.rxPn an.toNat

/-- The packet number of a frame that arrives. -/
def Port.pnOf (x : Port) (h : EthHdr) : Nat := wholePn (x.nextPn h.an) h.pn.toNat

/-- Are the ICV and the FCS of a frame those of its bytes under a SAK (R242, R266)? -/
def State.fits (s : State) (p : Nat) (k : BitVec 352) (rx : RxFrame) : Bool :=
  let bs := wireBytes k (s.ssci p false) ((s.port p).pnOf rx.hdr) rx.hdr rx.frame
  leBytes 16 rx.icv.toNat == bs.drop (bs.length - 16) && rx.fcs == fcsOf bs

/-- Does MACsec take the frame: the SecTAG of Table 16-8, a PN that replay protection takes, and the FEC, ICV and FCS right? -/
def State.verifies (s : State) (p : Nat) (rx : RxFrame) : Bool :=
  rx.fecOk && rx.hdr.tagType == 0x88E5 && rx.hdr.tci == 3 && decide ((s.port p).nextPn rx.hdr.an ≤ (s.port p).pnOf rx.hdr) &&
    (match s.rxSak p rx.hdr.an with | some k => s.fits p k rx | none => false)

/-- The port after MACsec has taken a frame. -/
def Port.tookPn (x : Port) (rx : RxFrame) : Port := { x with rxPn := Sp.put 1 x.rxPn rx.hdr.an.toNat (x.pnOf rx.hdr + 1) }

/-- The bytes of a frame that come out of the receive crossing. -/
def State.rxBytes (s : State) (p : Nat) (rx : RxFrame) : List Byte :=
  wireBytes ((s.rxSak p rx.hdr.an).getD 0) (s.ssci p false) ((s.port p).pnOf rx.hdr) rx.hdr rx.frame

/-- A frame whose LINK_SEQ is the expected one: a LINK_CTRL frame is the port's own, another needs credit and goes to the
switch (R254, R257). -/
def State.inOrder (s : State) (p : Nat) (f : Frame) : State :=
  if f.op = 0xE then
    if headerBad f || opBad f then (s.cameIn p f).refuse p 0x2301 f else (s.cameIn p f).deliver p f
  else if !(s.port p).credited f then s.sequenceBad p f
  else s.accepted p f

/-- A frame arrives on a fabric port (R257, R266, R267): its bytes pass through the receive crossing. -/
def State.receive (s : State) (p : Nat) (rx : RxFrame) : State :=
  let f := rx.frame
  let x := s.port p
  let s1 := (s.bump (0x2110 + 0x40 * p) f.wireBytes).bump (0x2128 + 0x40 * p) rx.corrected
  if !x.phy then s
  else if rx.overrun then (s1.portOverrun p true).nak p f.vesper
  else if !s.verifies p rx then (s1.across (portRx p) (s.rxBytes p rx)).nak p f.vesper
  else
    let s2 := (s1.setPort p (x.tookPn rx)).across (portRx p) (s.rxBytes p rx)
    if rx.hdr.inner ≠ 0x88B5 ∨ rx.hdr.dst ≠ macOf s.hall p then (s2.violation p 0x2301 f false).police p
    else if f.op ≠ 0xE ∧ !x.linked then s2
    else if f.ackValid && !x.acksOk f.ackVesper f.ackNoon then s2.sequenceBad p f
    else
      let s3 := if f.ackValid then s2.takeAcks p f.ackVesper f.ackNoon else s2
      let d := (f.linkSeq - (if f.vesper then x.rxV else x.rxN)).toNat
      if 2 ^ 15 ≤ d then s3.sequenceBad p f
      else if d ≠ 0 then s3.nak p f.vesper
      else s3.inOrder p f

/-- FRAME_RECEIVE (R257); a Delhorn frame on P40 or P41 is F-2306. -/
def execFrameReceive (p : PortId) (rx : RxFrame) (s : State) : Host.Outcome State Fault Refusal :=
  if 40 ≤ p.val then
    let s1 := (s.bump (0x2110 + 0x40 * p.val) rx.frame.wireBytes).bump (0x2128 + 0x40 * p.val) rx.corrected
    .next (if !(s.port p.val).phy then s else if rx.overrun then s1.portOverrun p.val true else s1.violation p.val 0x2306 rx.frame false)
  else .next (s.receive p.val rx)

/-! ### Forwarding (R251 to R253, R259) -/

/-- The frame of a port that the switch takes next: Vesper before Noon. -/
def Port.head (x : Port) : Option Frame := (x.rxq.find? (·.vesper)).orElse fun _ => x.rxq.head?

/-- FRAME_FORWARD: the switch delivers a frame, or sends it on (R251); a seventh hop or no way is F-2201. -/
def execFrameForward (p : PortId) (s : State) : Host.Outcome State Fault Refusal :=
  let x := s.port p.val
  match x.head with
  | none => .next s
  | some f =>
    let s1 := (s.setPort p.val { x with rxq := eraseFirst (· == f) x.rxq }).freeBuffer p.val f
    if f.dst.toNat = s.hall then .next (s1.deliver p.val f)
    else
      let g := { f with detour := false }
      -- a FENCE of the last buffer class stays in it (log 30)
      if f.op = 0xD ∧ f.hops.toNat = 6 then
        (match s1.routeOf g with | some e => .next (s1.queueAt e { g with hops := 5 }) | none => .next s1)
      else if 6 ≤ f.hops.toNat then .next (s1.unreachable p.val f)
      else
        match s1.routeOf g with
        | some e => .next (s1.queueAt e g)
        | none => .next (s1.unreachable p.val f)

/-! ### Transmitting (R254, R257, R262) -/

/-- Does the port hold credit for a frame? -/
def Port.hasCredit (x : Port) (f : Frame) : Bool :=
  decide (Sp.get 0 x.used (bufKey f.vesper f.hops.toNat) + units f ≤ Config.initialCredit f.vesper f.hops.toNat)

/-- The first frame of a queue that may leave: frames of one buffer class keep their order. -/
def Port.sendable (x : Port) : List Nat → List Frame → Option Frame
  | _, [] => none
  | blocked, f :: fs =>
    let h := f.hops.toNat
    if !blocked.contains h && x.hasCredit f && x.hasReplay f then some f else x.sendable (h :: blocked) fs

/-- The frame that leaves next (R262): within its share Vesper first, beyond it the classes alternate. -/
def State.nextOut (s : State) (x : Port) : Option Frame :=
  let v := x.sendable [] x.txqV
  let n := x.sendable [] x.txqN
  let used := if x.share.1 = s.now / 10000 then x.share.2 else 0
  let within := decide (200 * used < 1000000 * s.cfg.vesperShare)
  if within || !x.lastV then v.orElse fun _ => n else n.orElse fun _ => v

/-- A frame that leaves a queue of the port: it gets its LINK_SEQ and stays in the replay buffer. -/
def State.depart (s : State) (p : Nat) (ok : Bool) (x : Port) (f : Frame) : State :=
  ((s.left f).setPort p (x.kept s.now (x.stamp f))).sent p ok (x.stamp f)

/-- The frame that an exit port sends next leaves: a resend first, Vesper before Noon (R257); then a waiting LINK_CTRL frame
that has replay space; then the next frame that holds credit and replay space (R254, R262). -/
def State.transmit (s : State) (p : Nat) (ok : Bool) : State :=
  let x := s.port p
  match (x.resend.find? (·.vesper)).orElse fun _ => x.resend.head? with
  | some f =>
    (s.setPort p { x with resend := eraseFirst (· == f) x.resend }).sent p ok
      { f with ackVesper := x.rxV, ackNoon := x.rxN, ackValid := true }
  | none =>
    match x.ctrlq with
    | f :: fs => if x.hasReplay f then s.depart p ok { x with ctrlq := fs } f else s
    | [] =>
      if x.st ≠ 2 then s
      else
        match s.nextOut x with
        | none => s
        | some f =>
          let k := bufKey f.vesper f.hops.toNat
          s.depart p ok { x with txqV := if f.vesper then eraseFirst (· == f) x.txqV else x.txqV,
                                 txqN := if f.vesper then x.txqN else eraseFirst (· == f) x.txqN,
                                 used := Sp.put 0 x.used k (Sp.get 0 x.used k + units f) } f

/-- A port whose next PN would reach 2^64 - 1 goes down with F-8402 (R413). -/
def State.pnSpent (s : State) (p : Nat) : State := (s.secFault 0x8402 0 0).linkLost p false

/-- Does the port have a frame that may leave now? -/
def State.sends (s : State) (x : Port) : Bool :=
  !x.resend.isEmpty || (match x.ctrlq with | f :: _ => x.hasReplay f | [] => decide (x.st = 2) && (s.nextOut x).isSome)

/-- The frame that a host port (40, 41) or the service link (42) is sending runs out in its middle: overrun, and an invalid FCS; KHT
sends it again (R379, R453). -/
def State.spoiled (s : State) (p : Nat) : State :=
  if p = 42 then (if s.start.phase = .off then s else (s.overran serviceTx 3 1 0 false).emit (.spoiled p))
  else if (s.port p).phy then (s.portOverrun p false).emit (.spoiled p) else s

/-- FRAME_TRANSMIT. A transmit crossing that runs empty in the middle of the frame overruns, and the frame ends with an invalid
FCS (R453). A host port and the service link send a datagram where it arises, so that only the underrun is left to the command. -/
def execFrameTransmit (x : TxTurn) (s : State) : Host.Outcome State Fault Refusal :=
  let p := x.port.val
  if 40 ≤ p then .next (if x.underrun then s.spoiled p else s)
  else if !(s.port p).phy || s.sec.hallCak.isNone then .next s
  else if (s.port p).spent then .next (s.pnSpent p)
  else
    let s1 := if x.underrun && s.sends (s.port p) then s.portOverrun p false else s
    .next (s1.transmit p (!x.underrun))

/-! ### LINK_CTRL frames -/

/-- The command that takes a LINK_CTRL frame of one kind. -/
def onCtrl (kind : Nat) (p : PortId) (f : Frame) (s : State) (act : Port → State → State) : Host.Outcome State Fault Refusal :=
  if fld f.variant.toNat 0 3 ≠ kind then .next s
  else
    match s.takeFrame p.val 0xE f with
    | none => .next s
    | some s1 => .next (act (s1.port p.val) s1)

/-- The 16-bit numbers of a payload (log 31). -/
def payHalves (f : Frame) : List Nat := (chunks 2 32 f.payload).map leNat

/-- Credits come back: Vesper classes 1 to 6, then Noon classes 1 to 6. -/
def giveBack (used : Sp Nat) (xs : List Nat) : Sp Nat :=
  (List.range 12).foldl (fun u i =>
    let k := if i < 6 then bufKey true (i + 1) else bufKey false (i - 5)
    Sp.put 0 u k (Sp.get 0 u k - nth 0 xs i)) used

/-- LINK_CTRL credit and ack (R254, R257). -/
def execLinkCtrlCredit (p : PortId) (f : Frame) (s : State) : Host.Outcome State Fault Refusal :=
  onCtrl 0 p f s fun x s =>
    if f.ackValid && !x.acksOk f.ackVesper f.ackNoon then s.sequenceBad p.val f
    else
      let s1 := s.setPort p.val { x with used := giveBack x.used (payHalves f) }
      if f.ackValid then s1.takeAcks p.val f.ackVesper f.ackNoon else s1

/-- CREDIT_RETURN: what is owed goes out in one LINK_CTRL frame (R254, R257). -/
def execCreditReturn (p : PortId) (s : State) : Host.Outcome State Fault Refusal :=
  let x := s.port p.val
  if !x.linked || (x.owed.isEmpty && !x.ackOwed) then .next s
  else if x.spent then .next (s.pnSpent p.val)
  else
    let xs := (List.range 6).map (fun i => Sp.get 0 x.owed (bufKey true (i + 1))) ++ (List.range 6).map fun i => Sp.get 0 x.owed (bufKey false (i + 1))
    let s1 := s.setPort p.val { x with owed := [] }
    .next (s1.ctrl p.val (s1.ctrlFrame p.val 0 true 0 (xs.flatMap (leBytes 2))))

/-- LINK_CTRL NAK: a retry event; two within 10 us take the link down, else the class is resent from the named LINK_SEQ
(R257, R258). -/
def execLinkCtrlNak (p : PortId) (f : Frame) (s : State) : Host.Outcome State Fault Refusal :=
  onCtrl 3 p f s fun x s =>
    let q := BitVec.ofNat 16 (fld f.aux.toNat 0 16)
    let recent := x.retries.any fun t => decide (s.now < t + 10000)
    let again := x.replay.filter fun g => g.vesper == f.vesper && decide ((g.linkSeq - q).toNat < 2 ^ 15)
    let keep := x.resend.filter fun g => g.vesper != f.vesper
    let y := { x with retries := lastSecond s.now x.retries ++ [s.now], resend := again ++ keep,
                      restoreAt := x.restoreAt.map fun _ => s.now }
    let s1 := (s.setPort p.val y).bump (0x2120 + 0x40 * p.val) 1
    if recent then s1.linkLost p.val false else s1

/-- LINK_CTRL port states: the advertised states of the peer's ports in the dimension (R258). -/
def execLinkCtrlPortStates (p : PortId) (f : Frame) (s : State) : Host.Outcome State Fault Refusal :=
  onCtrl 4 p f s fun x s =>
    let k := p.val / 10
    s.setPort p.val { x with advert := (List.range (min 10 f.payload.length)).map fun i => (10 * k + i, nth 0#8 f.payload i == 2) }

/-! ### Identity and rekeying (R239, R412, R413) -/

/-- The identity payload (Table 16-7): position, port, INSTALLED, EPHEMERAL, NONCE. -/
def State.identity (s : State) (p : Nat) : List Byte :=
  let x := s.port p
  (List.range 4).flatMap (fun k => leBytes 1 (coordOf s.hall k)) ++ leBytes 1 p ++ leBytes 11 (bit x.installed) ++
    leBytes 32 x.offer.1.toNat ++ leBytes 16 x.offer.2.toNat

/-- Send the identity LINK_CTRL frame of a port (R239, R412). -/
def State.sendIdentity (s : State) (p : Nat) : State := s.ctrl p (s.ctrlFrame p 1 true 0 (s.identity p))

/-- Send an echo LINK_CTRL frame: AUX says whether it comes back (R239, log 31). -/
def State.sendEcho (s : State) (p : Nat) (back : Bool) (stamp : Nat) : State := s.ctrl p (s.ctrlFrame p 2 true (bit back) (leBytes 8 stamp))

/-- A fresh ephemeral key and nonce are offered. -/
def State.offer (s : State) (p : Nat) : State :=
  let n := s.freeCtr
  let k := freshSecret n
  let s1 := s.drawn.drawn
  let x := s1.port p
  s1.setPort p { x with ephSecret := k, offer := (x25519Public k, (Config.freeValue (n + 1)).truncate 128), installed := false,
                        peerInstalled := false }

/-- REKEY_START (R413): the transmit PN reached REKEY_PACKETS, or the SA its age. -/
def State.rekey (s : State) (p : Nat) : State :=
  let s1 := s.offer p
  let x := s1.port p
  let s2 := s1.setPort p { x with rekeyAt := some s.now }
  s2.sendIdentity p

/-- Is a new key due: the PN has reached REKEY_PACKETS, or the SA's age REKEY_INTERVAL (Table 16-8)? -/
def State.rekeyDue (s : State) (x : Port) : Bool := decide (s.cfg.rekeyPackets ≤ x.pn) || s.passed x.saAt (s.cfg.rekeyInterval * 1000000000)

/-- REKEY_START of this end (R413). -/
def execRekeyStart (p : PortId) (s : State) : Host.Outcome State Fault Refusal :=
  let x := s.port p.val
  if x.st = 2 ∧ x.rekeyAt.isNone ∧ s.rekeyDue x then .next (s.rekey p.val) else .next s

/-- REKEY_FAILED (R413): 10 ms have passed; F-8402, and the link goes down. -/
def execRekeyFailed (p : PortId) (s : State) : Host.Outcome State Fault Refusal :=
  let x := s.port p.val
  match x.rekeyAt with
  | some t => .next (if s.passed t 10000000 && x.linked then (s.secFault 0x8402 0 0).linkLost p.val false else s)
  | none => .next s

/-- OLD_SA_RETIRE (R412): 1 ms after the first frame under the new AN. -/
def execOldSaRetire (p : PortId) (s : State) : Host.Outcome State Fault Refusal :=
  let x := s.port p.val
  match x.oldUntil with
  | some (t + 1) => .next (if t + 1 ≤ s.now then s.setPort p.val { x with oldUntil := none } else s)
  | _ => .next s

/-- The new key comes into use for transmission: both ends have installed their receive SA. REKEYS counts it (R419). -/
def State.switchKey (s : State) (p : Nat) (peer : BitVec 256 × BitVec 128) : State :=
  let x := s.port p
  (s.bump 0x8050 1).setPort p { x with key := s.nextSak p x peer, oldKey := x.key, an := x.an + 1, sak := x.sak + 1, pn := 1, saAt := s.now,
                                       rekeyAt := none, installed := false, peerInstalled := false, oldUntil := some 0 }

/-- A peer's offer is taken: the receive SA of the key that it and the own offer give is installed under the next AN, whose packet
numbers begin at 1; the peer hears of it, and transmission switches once both have installed (R412). -/
def State.takeOffer (s : State) (p : Nat) (peer : BitVec 256 × BitVec 128) (inst : Bool) : State :=
  let y := s.port p
  let rx := if y.installed then y.rxPn else Sp.put 1 y.rxPn (y.an + 1).toNat 1
  let s2 := s.setPort p { y with peerOffer := some peer, installed := true, rxPn := rx, peerInstalled := y.peerInstalled || inst }
  let s3 := if y.installed then s2 else s2.sendIdentity p
  if (s3.port p).peerInstalled then s3.switchKey p peer else s3

/-- A peer's offer on a link in use: an own offer answers it where no rekey runs. An offer that has given the key in use is one that
was sent before both ends knew of it. -/
def State.rekeyStep (s : State) (p : Nat) (peer : BitVec 256 × BitVec 128) (inst : Bool) : State :=
  let x := s.port p
  if x.rekeyAt.isSome then s.takeOffer p peer inst
  else if x.peerOffer = some peer then s
  else (s.rekey p).takeOffer p peer inst

/-! ### Bring-up (R239, R258) -/

/-- Is a host port held down for want of a valid address or an opened CAK (Tables 17-9, 17-10)? -/
def State.hostPortHeld (s : State) (p : Nat) : Bool :=
  if p = 40 then s.cfg.addr40.isNone || s.sec.hostCak.1.isNone else s.cfg.addr41.isNone || s.sec.hostCak.2.isNone

/-- LINK_UP: the PHY is up (but for a port after its eighth down event, which stays down, R258); frames use SAK0 until a key is agreed, and the identity exchange begins (R239, R411). -/
def execLinkUp (p : PortId) (s : State) : Host.Outcome State Fault Refusal :=
  let x := s.port p.val
  if !s.alive then .next s
  else if 40 ≤ p.val then
    .next (if x.phy || s.hostPortHeld p.val || x.downs = 8 then s else s.setPort p.val { x with phy := true, st := 2 })
  else if x.phy || s.unusedPort p.val || x.st = 6 || x.st = 4 || x.st = 5 || x.st = 3 || x.downs = 8 then .next s
  else
    let s1 := (s.setPort p.val { x with phy := true, an := 0, sak := 0, pn := 1, rxPn := [], saAt := s.now, key := s.sak0 p.val, peerOffer := none,
                                            oldUntil := none }).setSt p.val 1
    let s2 := s1.offer p.val
    .next (s2.sendIdentity p.val)

/-- IDENTITY_EXCHANGE_TICK: every 1 ms until the check succeeds (R239). -/
def execIdentityExchangeTick (p : PortId) (s : State) : Host.Outcome State Fault Refusal :=
  let x := s.port p.val
  if x.phy && !x.identified && decide (p.val < 40) then .next (s.sendIdentity p.val) else .next s

/-- What an identity payload says (Table 16-7). -/
def identityOf (f : Frame) : List Nat × Nat × Bool × (BitVec 256 × BitVec 128) × Bool :=
  let b := f.payload
  ((b.take 4).map (·.toNat), (nth 0#8 b 4).toNat, flag (nth 0#8 b 5).toNat 0,
   (BitVec.ofNat 256 (leNat ((b.drop 16).take 32)), BitVec.ofNat 128 (leNat ((b.drop 48).take 16))),
   decide (b.length = 64) && decide ((nth 0#8 b 5).toNat < 2) && ((b.drop 6).take 10).all (· == 0))

/-- A training attempt, or the first training, ends in MISCABLED or TOO_LONG. -/
def State.badLink (s : State) (p code st : Nat) : State :=
  let x := s.port p
  ((s.setPort p { x with phy := false, identified := false, attempting := false }).logEvent code none (0, 0)).setSt p st

/-- LINK_CTRL identity: the check of R239, or a step of a rekey (R412). -/
def execLinkCtrlIdentity (p : PortId) (f : Frame) (s : State) : Host.Outcome State Fault Refusal :=
  onCtrl 1 p f s fun x s =>
    let d := identityOf f
    if !d.2.2.2.2 then s.refuse p.val 0x2301 f
    else if !x.phy then s
    else if x.identified then s.rekeyStep p.val d.2.2.2.1 d.2.2.1
    else
      let peer := s.peerOf p.val
      if d.1 ≠ (List.range 4).map (coordOf peer) ∨ d.2.1 ≠ peerPortOf p.val then
        (s.setPort p.val { x with peerPort := d.2.1 }).badLink p.val 0x2102 4
      else
        let s1 := s.setPort p.val { x with identified := true, peerHall := peer, peerPort := d.2.1, rekeyAt := some s.now }
        (s1.takeOffer p.val d.2.2.2.1 d.2.2.1).sendEcho p.val false s.now

/-- A measured port may carry traffic: at once on its first bring-up, after the 10 s of R260 on a later one. -/
def State.ready (s : State) (p len : Nat) : State :=
  let x := s.port p
  let y := { x with lengthM := len, attempting := false }
  if s.sec.hallCak.isNone then s.setPort p y
  else if x.downs = 0 then (s.setPort p y).setSt p 2
  else s.setPort p { y with restoreAt := some s.now }

/-- LINK_CTRL echo: an echo is returned; one that came back gives LENGTH_M (R239). -/
def execLinkCtrlEcho (p : PortId) (f : Frame) (s : State) : Host.Outcome State Fault Refusal :=
  onCtrl 2 p f s fun x s =>
    let stamp := leNat (f.payload.take 8)
    if f.aux.toNat % 2 = 0 then s.sendEcho p.val true stamp
    else if !x.identified || x.st != 1 || x.restoreAt.isSome then s
    else
      let len := cdiv (s.now - stamp - 2 * Config.phyLatency) 10
      if 100 < len then (s.setPort p.val { x with lengthM := len }).badLink p.val 0x2103 5 else s.ready p.val len

/-- LINK_DOWN: the PHY loses alignment (R258). -/
def execLinkDown (p : PortId) (s : State) : Host.Outcome State Fault Refusal :=
  let x := s.port p.val
  if 40 ≤ p.val then .next (s.hostPortDown p.val)
  else if x.phy then .next (s.linkLost p.val false) else .next s

/-- ACK_STALL: 20 us without an acknowledgement while frames await one (R258). -/
def execAckStall (p : PortId) (s : State) : Host.Outcome State Fault Refusal :=
  let x := s.port p.val
  if x.linked && !x.replay.isEmpty && decide (p.val < 40) && s.passed x.ackAt 20000 then .next (s.linkLost p.val false) else .next s

/-- TRAINING_ATTEMPT of a down port, 1 s after it went down or its last attempt failed (R258): none after the eighth down event. -/
def execTrainingAttempt (p : PortId) (s : State) : Host.Outcome State Fault Refusal :=
  let x := s.port p.val
  if s.alive ∧ x.st = 0 ∧ !x.attempting ∧ x.downs < 8 ∧ p.val < 40 ∧ !s.unusedPort p.val ∧ s.passed x.downAt 1000000000 then
    .next ((s.setPort p.val { x with attempting := true }).setSt p.val 1)
  else .next s

/-- TRAINING_ATTEMPT_FAILED: the attempt ends in DOWN, which is no further down event (R258). -/
def execTrainingAttemptFailed (p : PortId) (s : State) : Host.Outcome State Fault Refusal :=
  let x := s.port p.val
  if x.st = 1 ∧ x.attempting then
    .next ((s.setPort p.val { x.cleared with downAt := s.now }).setSt p.val 0)
  else .next s

/-- QUARANTINE_END: the 60 s are over and the port retrains, which counts towards the eight down events (R269). -/
def execQuarantineEnd (p : PortId) (s : State) : Host.Outcome State Fault Refusal :=
  let x := s.port p.val
  if x.st = 3 ∧ s.passed x.downAt 60000000000 then
    let n := min (x.downs + 1) 8
    .next ((s.setPort p.val { x with downs := n, downAt := s.now, attempting := decide (n < 8) }).setSt p.val (if n < 8 then 1 else 0))
  else .next s

/-! ### Restore (R260) -/

/-- The restored link carries traffic again. -/
def State.restored (s : State) (p : Nat) : State :=
  let x := s.port p
  (s.setPort p { x with restoreAt := none, fencing := false }).setSt p 2

/-- One FENCE of a class and buffer class towards the peer of a port, queued at the detour's exit. -/
def State.sendFence (s : State) (p e : Nat) (c : Bool × Nat) : State :=
  let f := { Frame.plain 0xD c.1 0 (s.peerOf p) s.hall 0 0 with variant := BitVec.ofNat 9 c.2, hops := BitVec.ofNat 3 c.2, detour := true }
  let x := s.port e
  s.setPort e (if c.1 then { x with txqV := x.txqV ++ [f] } else { x with txqN := x.txqN ++ [f] })

/-- Classes and buffer classes. -/
def bufClasses : List (Bool × Nat) := (List.range 6).map (fun h => (true, h + 1)) ++ (List.range 6).map fun h => (false, h + 1)

/-- LINK_RESTORE: 10 s without a retry event; a FENCE in each buffer class goes along the detour, if there is one (R260). -/
def execLinkRestore (p : PortId) (s : State) : Host.Outcome State Fault Refusal :=
  let x := s.port p.val
  if x.restoreAt.isNone || x.fencing || !x.linked || !s.passed (x.restoreAt.getD 0) 10000000000 then .next s
  else
    match s.linkTo (p.val / 10) (coordOf (s.peerOf p.val) (p.val / 10)) with
    | some (e, true) => .next (bufClasses.foldl (fun (s : State) c => s.sendFence p.val e c) (s.setPort p.val { x with fencing := true }))
    | _ => .next (s.restored p.val)

/-- The port of this module whose link joins it directly to a module. -/
def State.portOf (s : State) (h : Nat) : Option Nat :=
  match (List.range 4).filter fun k => coordOf h k != coordOf s.hall k with
  | [k] => some (portTo k (coordOf s.hall k) (coordOf h k))
  | _ => none

/-- FENCE at the far end of the restored link: once every one has come, LINK_CTRL fence done answers over that link (R260). -/
def execFenceFrame (p : PortId) (f : Frame) (s : State) : Host.Outcome State Fault Refusal :=
  match s.takeFrame p.val 0xD f with
  | none => .next s
  | some s1 =>
    match s1.portOf f.src.toNat with
    | none => .next s1
    | some q =>
      let x := s1.port q
      let c := (f.vesper, fld f.variant.toNat 0 3)
      let got := if x.fences.contains c || !bufClasses.contains c then x.fences else x.fences ++ [c]
      if got.length = 12 then let s2 := s1.setPort q { x with fences := [] }; .next (s2.ctrl q (s2.ctrlFrame q 5 true 0 []))
      else .next (s1.setPort q { x with fences := got })

/-- LINK_CTRL fence done: the sender moves from the detour to the restored link (R260). -/
def execLinkCtrlFenceDone (p : PortId) (f : Frame) (s : State) : Host.Outcome State Fault Refusal :=
  onCtrl 5 p f s fun x s => if x.fencing then s.restored p.val else s

end Sys2Proof.Machine
end

