-- ==== Sys2Proof/Machine/Start.lean ====
section
/-!
DEFINITION. Start-up, reset and loss of power (R448, R454 to R461, R465, R474) and stalled crossings (R455).
-/
namespace Sys2Proof.Machine

/-! ### What a reset keeps (Table 18-4) -/

/-- The module held in reset or without power: everything but what Table 18-4 keeps is as at reset. -/
def State.halted (s : State) (keepDram : Bool) : State :=
  { State.reset with
    mem := { MemState.start with
             dram := if keepDram then s.mem.dram else [], poison := if keepDram then s.mem.poison else [],
             spares := s.mem.spares, repaired := s.mem.repaired, retired := s.mem.retired },
    start := { StartState.start with
               starts := s.start.starts, pinResets := s.start.pinResets, watchdogs := s.start.watchdogs, owed := s.start.owed,
               rails := keepDram && s.start.rails, input := keepDram && s.start.input },
    log := { LogState.start with bindSeq := s.log.bindSeq },
    img := { ImgState.start with flash := s.img.flash, chain := s.img.chain, fused := s.img.fused },
    out := s.out, freeCtr := s.freeCtr, pending := s.pending }

/-- MODULE_RESET: MODULE_RESET_L held low for 10 us (R459). The start that follows has cause 1 (Table 18-6). -/
def execModuleReset (s : State) : Host.Outcome State Fault Refusal :=
  if s.start.phase = .off then .next s
  else
    let h := s.halted true
    .next { h with start := { h.start with cause := 1, pinResets := h.start.pinResets + 1, owed := h.start.owed ++ [0xB301] } }

/-- WATCHDOG_RESET (R459). The start that follows has cause 2 (Table 18-6). -/
def execWatchdogReset (s : State) : Host.Outcome State Fault Refusal :=
  if s.start.phase = .off then .next s
  else
    let h := s.halted true
    .next { h with start := { h.start with cause := 2, watchdogs := h.start.watchdogs + 1, owed := h.start.owed ++ [0xB103] } }

/-- POWER_LOSS: below 38 V the regulators turn off (R465). The start that follows has cause 0, power-on (Table 18-6). -/
def execPowerLoss (s : State) : Host.Outcome State Fault Refusal := .next (s.halted false)

/-! ### The start (Table 18-3) -/

/-- A time in ns that the spec only bounds: free within the bound (log 49). -/
def freeTime (n bound : Nat) : Nat := (Config.freeValue n).toNat % (bound + 1)

/-- The timer takes a value at the end of a row, which ROW_END_NS keeps. -/
def State.rowDone (s : State) (row : Nat) : State :=
  { s with start := { s.start with row := row, rowEnd := setNth s.start.timer s.start.rowEnd (row - 1) } }

/-- A row of at most `bound` ns runs to its end. -/
def State.runRow (s : State) (row bound : Nat) : State :=
  ({ s with start := { s.start with timer := s.start.timer + BitVec.ofNat 64 (freeTime s.freeCtr bound) }, freeCtr := s.freeCtr + 1 }).rowDone row

/-- Codes of resets that the last start owes the log (R459). -/
def State.logOwed (s : State) : List Nat → State
  | [] => s
  | c :: cs => (s.logEvent c none (0, 0)).logOwed cs

/-- Rows 1 to 3: rails, reference, timer; M0, counts, straps; flash interface. -/
def State.startCore (s : State) (p : PowerIn) : State :=
  let s1 := { s with start := { s.start with phase := .starting, timer := 0, runs := true, rails := true, input := voltsOk p.volts },
                     power := { s.power with volts := p.volts } }.runRow 1 50000000
  let s2 := { s1 with start := { s1.start with starts := s1.start.starts + 1, slot := p.slotPresent, feed := if p.slotPresent then p.feedStrap.toNat else 15 },
                      sec := { s1.sec with m0 := Config.romDigest } }.runRow 2 30000000
  let s3 := ({ s2 with img := { s2.img with shown := s2.img.fused } }).logOwed s2.start.owed
  ({ s3 with start := { s3.start with owed := [] } }).runRow 3 1000000

/-- Channels whose PHY does not train (R457). -/
def State.trainFailed (s : State) : List TileId → State
  | [] => s
  | c :: cs => ((s.xingEvent 0xB105 2 c.val true).failChannel c.val).trainFailed cs

/-- CHANNELS_DEGRADED. -/
def State.degraded (s : State) : Nat := countIf (fun x => decide (1024 ≤ x.2)) s.mem.spares

/-- The feed domain (R336). -/
def State.feedDomain (s : State) : State :=
  if s.start.feed = Sp.get 15 s.cfg.feedMap s.hall then { s with health := { s.health with domain := s.start.feed } }
  else
    { s with health := { s.health with domain := 15, mismatch := true },
             cfg := { s.cfg with feedMap := Sp.put 15 s.cfg.feedMap s.hall 15 } }.chrEvent 0x6103 s.health.level s.hall 0 0 0

/-- Row 5: supplies, tiles, channels, seeds of Table 18-5, and the scan of the log (R484). -/
def State.startUnits (s : State) (p : PowerIn) : State :=
  let s1 := s.trainFailed p.channelsFailed
  let score := toF32 (scoreOf (s1.cfg.riskSeed + 100 * s1.degraded))
  let s2 := { s1 with health := { s1.health with score := BitVec.ofNat 32 score },
                      power := { s1.power with kappa := BitVec.ofNat 32 (hundredths s1.cfg.calSeed) } }.followScore
  (s2.feedDomain.logScan).runRow 5 3000000000

/-- Row 6 begins: CAKs are opened and links train; unused ports stay dark (R238, R411, R413, Table 17-5). -/
def State.startLinks (s : State) : State :=
  let aad := leBytes 2 s.hall
  let hall := unwrapCak s.cfg.hallCakWrap aad "KRV CAK"
  let h40 := unwrapHostCak s.cfg.hostCak40 aad
  let h41 := unwrapHostCak s.cfg.hostCak41 aad
  let failed := bit hall.isNone + bit h40.isNone + bit h41.isNone
  let s1 := { s with sec := { s.sec with hallCak := hall, hostCak := (h40, h41) } }
  let s2 := (List.range failed).foldl (fun (s : State) _ => s.secFault 0x8401 0 0) s1
  (List.range 40).foldl (fun (s : State) q =>
    s.setPort q { s.port q with st := if s.cfg.hallPos.isNone || s.unusedPort q then 6 else 1, attempting := !(s.cfg.hallPos.isNone || s.unusedPort q) }) s2

/-- In safe mode every tile is held in retention (R442). -/
def State.holdTiles (s : State) : State := { s with tiles := (List.range 576).map fun t => (t, { TileState.start with retained := true }) }

/-- POWER_ON (R456): rows 1 to 5, and the beginning of row 6; or safe mode after row 4. A module whose rails or ROM do not come
up stays off. -/
def execPowerOn (p : PowerIn) (s : State) : Host.Outcome State Fault Refusal :=
  if s.start.phase ≠ .off ∨ !p.coreOk ∨ p.volts < 400 then .next s
  else
    let s1 := ((s.startCore p).chooseImage p.readErrors).runRow 4 534000000
    .next (if s1.start.phase = .safe then s1.holdTiles else (s1.startUnits p).startLinks)

/-- START_ROW_OVERRUN (R458): F-B101 records the row, 1 to 7. -/
def execStartRowOverrun (row : Fin 8) (s : State) : Host.Outcome State Fault Refusal :=
  if row = 0 then .refused .illFormed else .next (s.xingEvent 0xB101 0 row.val false)

/-- A port that has not come up by the end of row 6 is DOWN; without HALL_CAK none leaves TRAINING (R411, R457). -/
def State.portsSettle (s : State) : State :=
  if s.sec.hallCak.isNone then s
  else (List.range 40).foldl (fun (s : State) q =>
    let x := s.port q
    if x.st = 1 then (s.setPort q { x with attempting := false, phy := false, identified := false, downAt := s.now }).setSt q 0 else s) s

/-- A block is refreshed (R80). -/
def State.refreshBlock (s : State) (b : Nat) : State :=
  (match seqWord b with | some k => s.bump k 1 | none => s).publishBoth b

/-- READY (R456, R457): row 7. -/
def execReady (s : State) : Host.Outcome State Fault Refusal :=
  if s.start.phase ≠ .starting then .next s
  else
    let s1 := (s.portsSettle).rowDone 6
    let s2 := ((List.range 12).foldl (fun (s : State) b => s.refreshBlock b) s1).runRow 7 100000000
    .next ({ s2 with start := { s2.start with phase := .ready, readyAt := s2.start.timer } }.confirmImage)

/-! ### Stalled crossings (R455, R462) -/

/-- The island of a stalled crossing, numbered as the row does. -/
def stalledIsland (crossing : Nat) : Island :=
  if crossing < 42 then .port crossing else if crossing = 42 then .service else if crossing < 619 then .phy (crossing - 43)
  else if crossing = 619 then .flash else .timer

/-- CROSSING_STALL, of an island whose clock runs (R452, R455, R462). -/
def execCrossingStall (x : Stall) (s : State) : Host.Outcome State Fault Refusal :=
  let crossing := x.crossing
  if 620 < crossing then .refused .illFormed
  else if !s.clockRuns (stalledIsland crossing) then .next s
  else
    let kind := if crossing < 42 then 0 else if crossing = 42 then 1 else if crossing < 619 then 2 else crossing - 616
    let inst := if crossing < 42 then crossing else if 43 ≤ crossing ∧ crossing < 619 then crossing - 43 else 0
    let s1 := (s.bump 0xB030 1).xingEvent 0xB202 kind inst x.out
    if crossing < 40 then .next (s1.linkLost crossing false)
    else if crossing < 42 then .next (s1.hostPortDown crossing)
    else if 43 ≤ crossing ∧ crossing < 619 then .next (s1.failChannel (crossing - 43))
    else if crossing = 619 then
      .next (match s1.img.staging with
        | some g => (match g.pend with | x :: _ => (s1.stageFailed g x.2.1 x.2.2.length).resetCrossings [flashIn, flashOut] | [] => s1)
        | none => s1)
    else .next s1

end Sys2Proof.Machine
end

