-- ==== Sys2Proof/Machine/Sync.lean ====
section
/-!
DEFINITION. Increments at their controller, barrier timeouts and outbound host signals (R273, R274, R278, R289, R290).
-/
namespace Sys2Proof.Machine

/-- COUNT_INCREMENT of this module's own (R274): a missing context discards it (R273). -/
def execCountIncrement (job : BitVec 16) (ref : BitVec 32) (inc : BitVec 32) (s : State) : Host.Outcome State Fault Refusal :=
  if countRefBad ref.toNat || inc == 0 || decide (2 ^ 31 ≤ inc.toNat) then .refused .illFormed
  else if !s.refLocal job ref.toNat then .next s
  else .next (s.raiseCount job (refIndex ref.toNat) inc.toNat 0x3FFF).2

/-- BARRIER_TIMEOUT: the module's part of the epoch is complete and the epoch was not released in time (R289). -/
def execBarrierTimeout (job : BitVec 16) (slot : Fin 64) (s : State) : Host.Outcome State Fault Refusal :=
  match s.job? job with
  | none => .next s
  | some j =>
    let b := j.barrier slot.val
    if b.since = 0 ∨ !s.passed (b.since - 1) (s.cfg.barrierTimeout * 1000000) then .next s else .next (s.barrierFail job slot.val)

/-- SIGNAL_OUT: the first number with an unreported signal and no message of its own on the way (R290). -/
def execSignalOut (job : BitVec 16) (s : State) : Host.Outcome State Fault Refusal :=
  match s.job? job with
  | none => .next s
  | some j =>
    match j.outbound.find? fun e => e.2.pend != 0 && e.2.sent.isNone with
    | none => .next s
    | some (n, o) =>
      let key : BitVec 32 × W64 := match s.conn? j.host.1 with | some c => if c.st = 2 then (c.id, c.txNext) else (0, 0) | none => (0, 0)
      let s1 := s.updJob job fun j => { j with outbound := updFirst (·.1 == n) (fun _ => (n, { o with pend := 0, sent := some key })) j.outbound }
      .next (s1.originate j.host.1 j.host.2 (.signalOut job n (o.pend - 1) o.payload))

end Sys2Proof.Machine
end

