-- ==== Sys2Proof/Machine/Dispatch.lean ====
section
/-!
DEFINITION. The dispatch: one arm per command, each one direct call of that command's meaning.
-/
namespace Sys2Proof.Machine

def exec (i : Instr) (s : State) : Host.Outcome State Fault Refusal :=
  match i with
  | .nop t v w => Sys2Proof.Machine.execNop t v w s
  | .endTask t v w waves => Sys2Proof.Machine.execEndTask t v w waves s
  | .set t v w => Sys2Proof.Machine.execSet t v w s
  | .alu t v w => Sys2Proof.Machine.execAlu t v w s
  | .branch t v w => Sys2Proof.Machine.execBranch t v w s
  | .loop t v w => Sys2Proof.Machine.execLoop t v w s
  | .loadS t v w => Sys2Proof.Machine.execLoadS t v w s
  | .storeS t v w => Sys2Proof.Machine.execStoreS t v w s
  | .matmul t v w => Sys2Proof.Machine.execMatmul t v w s
  | .accMove t v w => Sys2Proof.Machine.execAccMove t v w s
  | .accStatus t v w => Sys2Proof.Machine.execAccStatus t v w s
  | .pass t v w => Sys2Proof.Machine.execPass t v w s
  | .sfnBatch t v w => Sys2Proof.Machine.execSfnBatch t v w s
  | .carryCompose t v w => Sys2Proof.Machine.execCarryCompose t v w s
  | .rowstatCombine t v w => Sys2Proof.Machine.execRowstatCombine t v w s
  | .rowstatFinalise t v w => Sys2Proof.Machine.execRowstatFinalise t v w s
  | .instarLoad t v w => Sys2Proof.Machine.execInstarLoad t v w s
  | .moveCopy t v w => Sys2Proof.Machine.execMoveCopy t v w s
  | .moveGather t v w => Sys2Proof.Machine.execMoveGather t v w s
  | .moveScatter t v w => Sys2Proof.Machine.execMoveScatter t v w s
  | .moveScatterAdd t v w => Sys2Proof.Machine.execMoveScatterAdd t v w s
  | .putWord t v w => Sys2Proof.Machine.execPutWord t v w s
  | .getWord t v w => Sys2Proof.Machine.execGetWord t v w s
  | .accumulateWord t v w => Sys2Proof.Machine.execAccumulateWord t v w s
  | .atomicWord t v w => Sys2Proof.Machine.execAtomicWord t v w s
  | .multicastWord t v w => Sys2Proof.Machine.execMulticastWord t v w s
  | .signalWord t v w => Sys2Proof.Machine.execSignalWord t v w s
  | .countWait t v w => Sys2Proof.Machine.execCountWait t v w s
  | .barrierArrive t v w => Sys2Proof.Machine.execBarrierArrive t v w s
  | .barrierWait t v w => Sys2Proof.Machine.execBarrierWait t v w s
  | .hostSignal t v w => Sys2Proof.Machine.execHostSignal t v w s
  | .hostWait t v w => Sys2Proof.Machine.execHostWait t v w s
  | .enqueue t v w => Sys2Proof.Machine.execEnqueue t v w s
  | .queueState t v w => Sys2Proof.Machine.execQueueState t v w s
  | .engineWordComplete t v engine waves => Sys2Proof.Machine.execEngineWordComplete t v engine waves s
  | .kernelReady d tag kernel => Sys2Proof.Machine.execKernelReady d tag kernel s
  | .sequencerWrite d tag kernel index => Sys2Proof.Machine.execSequencerWrite d tag kernel index s
  | .taskTake t => Sys2Proof.Machine.execTaskTake t s
  | .stealProbe t => Sys2Proof.Machine.execStealProbe t s
  | .probeServe victim thief => Sys2Proof.Machine.execProbeServe victim thief s
  | .vesperSuspend t => Sys2Proof.Machine.execVesperSuspend t s
  | .noonResume t => Sys2Proof.Machine.execNoonResume t s
  | .suspendOverrun t => Sys2Proof.Machine.execSuspendOverrun t s
  | .wakeWire t wire => Sys2Proof.Machine.execWakeWire t wire s
  | .retentionEntry t => Sys2Proof.Machine.execRetentionEntry t s
  | .retentionWakeFailure t => Sys2Proof.Machine.execRetentionWakeFailure t s
  | .statusRefresh block ms busy => Sys2Proof.Machine.execStatusRefresh block ms busy s
  | .packageStart tag => Sys2Proof.Machine.execPackageStart tag s
  | .stepStart tag => Sys2Proof.Machine.execStepStart tag s
  | .layerFlip tag layer => Sys2Proof.Machine.execLayerFlip tag layer s
  | .packageComplete tag => Sys2Proof.Machine.execPackageComplete tag s
  | .channelRequest ch waiting => Sys2Proof.Machine.execChannelRequest ch waiting s
  | .refresh ch bank overdue => Sys2Proof.Machine.execRefresh ch bank overdue s
  | .patrolScrub ch error => Sys2Proof.Machine.execPatrolScrub ch error s
  | .channelFail ch => Sys2Proof.Machine.execChannelFail ch s
  | .stackSensorRead stack a b => Sys2Proof.Machine.execStackSensorRead stack a b s
  | .thermalHoldRelease => Sys2Proof.Machine.execThermalHoldRelease s
  | .frameReceive p rx => Sys2Proof.Machine.execFrameReceive p rx s
  | .frameForward p => Sys2Proof.Machine.execFrameForward p s
  | .frameTransmit x => Sys2Proof.Machine.execFrameTransmit x s
  | .writeFrame p f => Sys2Proof.Machine.execWriteFrame p f s
  | .readFrame p f => Sys2Proof.Machine.execReadFrame p f s
  | .readDataFrame p f => Sys2Proof.Machine.execReadDataFrame p f s
  | .accumulateFrame p f => Sys2Proof.Machine.execAccumulateFrame p f s
  | .atomicFrame p f => Sys2Proof.Machine.execAtomicFrame p f s
  | .atomicDataFrame p f => Sys2Proof.Machine.execAtomicDataFrame p f s
  | .signalFrame p f => Sys2Proof.Machine.execSignalFrame p f s
  | .barrierArriveFrame p f => Sys2Proof.Machine.execBarrierArriveFrame p f s
  | .barrierReleaseFrame p f => Sys2Proof.Machine.execBarrierReleaseFrame p f s
  | .multicastFrame p f => Sys2Proof.Machine.execMulticastFrame p f s
  | .noticeFault p f => Sys2Proof.Machine.execNoticeFault p f s
  | .noticeLate p f => Sys2Proof.Machine.execNoticeLate p f s
  | .noticeHealth p f => Sys2Proof.Machine.execNoticeHealth p f s
  | .ackFrame p f => Sys2Proof.Machine.execAckFrame p f s
  | .errorFrame p f => Sys2Proof.Machine.execErrorFrame p f s
  | .fenceFrame p f => Sys2Proof.Machine.execFenceFrame p f s
  | .linkCtrlCredit p f => Sys2Proof.Machine.execLinkCtrlCredit p f s
  | .linkCtrlIdentity p f => Sys2Proof.Machine.execLinkCtrlIdentity p f s
  | .linkCtrlEcho p f => Sys2Proof.Machine.execLinkCtrlEcho p f s
  | .linkCtrlNak p f => Sys2Proof.Machine.execLinkCtrlNak p f s
  | .linkCtrlPortStates p f => Sys2Proof.Machine.execLinkCtrlPortStates p f s
  | .linkCtrlFenceDone p f => Sys2Proof.Machine.execLinkCtrlFenceDone p f s
  | .creditReturn p => Sys2Proof.Machine.execCreditReturn p s
  | .linkUp p => Sys2Proof.Machine.execLinkUp p s
  | .linkDown p => Sys2Proof.Machine.execLinkDown p s
  | .ackStall p => Sys2Proof.Machine.execAckStall p s
  | .trainingAttempt p => Sys2Proof.Machine.execTrainingAttempt p s
  | .linkRestore p => Sys2Proof.Machine.execLinkRestore p s
  | .quarantineEnd p => Sys2Proof.Machine.execQuarantineEnd p s
  | .transferTimeout xfer => Sys2Proof.Machine.execTransferTimeout xfer s
  | .rekeyStart p => Sys2Proof.Machine.execRekeyStart p s
  | .rekeyFailed p => Sys2Proof.Machine.execRekeyFailed p s
  | .oldSaRetire p => Sys2Proof.Machine.execOldSaRetire p s
  | .countIncrement job ref inc => Sys2Proof.Machine.execCountIncrement job ref inc s
  | .barrierTimeout job slot => Sys2Proof.Machine.execBarrierTimeout job slot s
  | .signalOut job => Sys2Proof.Machine.execSignalOut job s
  | .bucketDeadline job bucket => Sys2Proof.Machine.execBucketDeadline job bucket s
  | .stepCloseLimit job => Sys2Proof.Machine.execStepCloseLimit job s
  | .checkGrace job bucket => Sys2Proof.Machine.execCheckGrace job bucket s
  | .checkCompare job bucket => Sys2Proof.Machine.execCheckCompare job bucket s
  | .verdictRound job => Sys2Proof.Machine.execVerdictRound job s
  | .verdictForm job => Sys2Proof.Machine.execVerdictForm job s
  | .verdictReceive job => Sys2Proof.Machine.execVerdictReceive job s
  | .bucketClear job bucket => Sys2Proof.Machine.execBucketClear job bucket s
  | .generationPrepare job => Sys2Proof.Machine.execGenerationPrepare job s
  | .parityFold job => Sys2Proof.Machine.execParityFold job s
  | .generationCommit job => Sys2Proof.Machine.execGenerationCommit job s
  | .generationPromote job => Sys2Proof.Machine.execGenerationPromote job s
  | .healthTick => Sys2Proof.Machine.execHealthTick s
  | .restoreGather job => Sys2Proof.Machine.execRestoreGather job s
  | .restoreApply job => Sys2Proof.Machine.execRestoreApply job s
  | .spareRefill job => Sys2Proof.Machine.execSpareRefill job s
  | .restoreReload job => Sys2Proof.Machine.execRestoreReload job s
  | .evalWindowOpen job => Sys2Proof.Machine.execEvalWindowOpen job s
  | .evalWindowClose job => Sys2Proof.Machine.execEvalWindowClose job s
  | .evalWindowOverrun job => Sys2Proof.Machine.execEvalWindowOverrun job s
  | .monarchWindow energies fixed => Sys2Proof.Machine.execMonarchWindow energies fixed s
  | .grantExhausted t => Sys2Proof.Machine.execGrantExhausted t s
  | .supplyStep d => Sys2Proof.Machine.execSupplyStep d s
  | .logicSensorRead d temp => Sys2Proof.Machine.execLogicSensorRead d temp s
  | .heatGrantHalve d => Sys2Proof.Machine.execHeatGrantHalve d s
  | .supplyUnder d => Sys2Proof.Machine.execSupplyUnder d s
  | .inputOutOfRange reading => Sys2Proof.Machine.execInputOutOfRange reading s
  | .bladeSense a b => Sys2Proof.Machine.execBladeSense a b s
  | .bladePairLost pair => Sys2Proof.Machine.execBladePairLost pair s
  | .bladePairRestored pair => Sys2Proof.Machine.execBladePairRestored pair s
  | .lateTimer tag => Sys2Proof.Machine.execLateTimer tag s
  | .arbiterRequest arb rank requester units => Sys2Proof.Machine.execArbiterRequest arb rank requester units s
  | .arbiterGrant arb => Sys2Proof.Machine.execArbiterGrant arb s
  | .openConn h role hostEphemeral hostKey nonce sig => Sys2Proof.Machine.execOpenConn h role hostEphemeral hostKey nonce sig s
  | .openPendingExpiry conn => Sys2Proof.Machine.execOpenPendingExpiry conn s
  | .closeConn h => Sys2Proof.Machine.execCloseConn h s
  | .khtAck h => Sys2Proof.Machine.execKhtAck h s
  | .khtRetransmit conn seq => Sys2Proof.Machine.execKhtRetransmit conn seq s
  | .khtIdleTimeout conn => Sys2Proof.Machine.execKhtIdleTimeout conn s
  | .khtIdleAck conn => Sys2Proof.Machine.execKhtIdleAck conn s
  | .submit h packageId offset total data => Sys2Proof.Machine.execSubmit h packageId offset total data s
  | .abandon h packageId job => Sys2Proof.Machine.execAbandon h packageId job s
  | .khtPut h job addr data => Sys2Proof.Machine.execKhtPut h job addr data s
  | .khtGet h job addr bytes => Sys2Proof.Machine.execKhtGet h job addr bytes s
  | .signalIn h job kind number w1 => Sys2Proof.Machine.execSignalIn h job kind number w1 s
  | .statusRead h offset words => Sys2Proof.Machine.execStatusRead h offset words s
  | .attest h challenge job => Sys2Proof.Machine.execAttest h challenge job s
  | .keyReleaseWeightKey h job slot blob => Sys2Proof.Machine.execKeyReleaseWeightKey h job slot blob s
  | .keyReleaseUnseal h job slot blob => Sys2Proof.Machine.execKeyReleaseUnseal h job slot blob s
  | .keyReleaseTenantGrant h job slot blob => Sys2Proof.Machine.execKeyReleaseTenantGrant h job slot blob s
  | .zeroingComplete => Sys2Proof.Machine.execZeroingComplete s
  | .imagoRequest h job scope recipient => Sys2Proof.Machine.execImagoRequest h job scope recipient s
  | .unlockLevel1 h password => Sys2Proof.Machine.execUnlockLevel1 h password s
  | .unlockLevel2Request h => Sys2Proof.Machine.execUnlockLevel2Request h s
  | .unlockLevel2Response h key sig => Sys2Proof.Machine.execUnlockLevel2Response h key sig s
  | .unlockExpiry conn => Sys2Proof.Machine.execUnlockExpiry conn s
  | .lockoutEnd => Sys2Proof.Machine.execLockoutEnd s
  | .hostQuarantineEnd source => Sys2Proof.Machine.execHostQuarantineEnd source s
  | .icmpv6Request port echo data => Sys2Proof.Machine.execIcmpv6Request port echo data s
  | .stage h offset total data => Sys2Proof.Machine.execStage h offset total data s
  | .flashOpComplete ok => Sys2Proof.Machine.execFlashOpComplete ok s
  | .crossingStall stall => Sys2Proof.Machine.execCrossingStall stall s
  | .powerOn p => Sys2Proof.Machine.execPowerOn p s
  | .startRowOverrun row => Sys2Proof.Machine.execStartRowOverrun row s
  | .ready => Sys2Proof.Machine.execReady s
  | .powerLoss => Sys2Proof.Machine.execPowerLoss s
  | .moduleReset => Sys2Proof.Machine.execModuleReset s
  | .watchdogReset => Sys2Proof.Machine.execWatchdogReset s
  | .logWrite => Sys2Proof.Machine.execLogWrite s
  | .logReplayAdvance => Sys2Proof.Machine.execLogReplayAdvance s
  | .trainingAttemptFailed p => Sys2Proof.Machine.execTrainingAttemptFailed p s
  | .identityExchangeTick p => Sys2Proof.Machine.execIdentityExchangeTick p s
  | .unsealComplete job => Sys2Proof.Machine.execUnsealComplete job s
  | .dieLost d => Sys2Proof.Machine.execDieLost d s
  | .sequencerControlMessage d tag => Sys2Proof.Machine.execSequencerControlMessage d tag s
  | .mkaFrame port an key => Sys2Proof.Machine.execMkaFrame port an key s

end Sys2Proof.Machine
end

