-- ==== Sys2Proof/WellFormed.lean ====
section
/-!
DEFINITION. Well-formed commands: what an operand must be for the event that a command reports to exist at all. An
ill-formed command is refused by `exec` as `illFormed`; every well-formed command has a next state.
-/
namespace Sys2Proof

/-- OPCODE of a tile word (Table 07-1). -/
def wordOpcode (w : BitVec 128) : Nat := w.toNat / 2 ^ 120

/-- KIND of a MOVE (R182). -/
def wordKind (w : BitVec 128) : Nat := w.toNat / 2 ^ 72 % 8

/-- The opcodes of Table 07-2. -/
def tableOpcodes : List Nat :=
  [0x00, 0x01, 0x02, 0x03, 0x04, 0x05, 0x06, 0x07, 0x20, 0x21, 0x22, 0x30, 0x31, 0x32, 0x33, 0x34, 0x35, 0x40, 0x50, 0x51,
   0x52, 0x53, 0x54, 0x55, 0x60, 0x61, 0x62, 0x63, 0x64, 0x70, 0x71]

/-- A word that a word command may carry: one of the command's own opcode, or of none of the table (F-3601). -/
def wordFor (op : Nat) (w : BitVec 128) : Bool := wordOpcode w == op || !tableOpcodes.contains (wordOpcode w)

/-- A word that a MOVE command of a kind may carry: of that kind, of a reserved kind (F-3602), or of no opcode of the table. -/
def wordForMove (kind : Nat) (w : BitVec 128) : Bool :=
  if wordOpcode w = 0x40 then wordKind w == kind || decide (4 ≤ wordKind w) else wordFor 0x40 w

/-- The message TYPEs that a host may send on a connection, with OPEN (Table 15-3). -/
def hostMessageTypes : List Nat := [0x01, 0x03, 0x04, 0x10, 0x14, 0x20, 0x21, 0x30, 0x40, 0x50, 0x52, 0x60, 0x70, 0x72]

/-- A header that a message command may carry: of the message's own TYPE, or of a TYPE that no host message has (F-7101). -/
def headerFor (type : Nat) (h : KHdr) : Bool := h.type.toNat == type || !hostMessageTypes.contains h.type.toNat

/-- A COUNT_REF whose reserved bits are zero and whose VALID bit is one (R171). -/
def countRefOk (r : BitVec 32) : Bool := r.getLsbD 31 && r.toNat / 2 ^ 26 % 32 == 0

/-- Bytes that a channel request covers. -/
def ChOp.span : ChOp → Nat
  | .read n => n
  | .write d => d.length
  | .accumulate xs => 4 * xs.length
  | .atomic _ _ _ => 8

/-- A request that can stand at a channel: its bytes lie in the channel, and its operation is aligned and defined (R189, R211,
R212). -/
def ChReq.wf (q : ChReq) : Bool :=
  decide (q.addr.toNat + q.op.span ≤ 2 ^ 32) && decide (0 < q.op.span) &&
  (match q.op with
   | .accumulate _ => q.addr.toNat % 4 == 0
   | .atomic aop _ _ => q.addr.toNat % 8 == 0 && decide (aop.toNat ≤ 8)
   | _ => true)

/-- Is the command well formed? -/
def Instr.wf (i : Instr) : Bool :=
  match i with
  | .nop _ _ w => wordFor 0x00 w
  | .endTask _ _ w _ => wordFor 0x01 w
  | .set _ _ w => wordFor 0x02 w
  | .alu _ _ w => wordFor 0x03 w
  | .branch _ _ w => wordFor 0x04 w
  | .loop _ _ w => wordFor 0x05 w
  | .loadS _ _ w => wordFor 0x06 w
  | .storeS _ _ w => wordFor 0x07 w
  | .matmul _ _ w => wordFor 0x20 w
  | .accMove _ _ w => wordFor 0x21 w
  | .accStatus _ _ w => wordFor 0x22 w
  | .pass _ _ w => wordFor 0x30 w
  | .sfnBatch _ _ w => wordFor 0x31 w
  | .carryCompose _ _ w => wordFor 0x32 w
  | .rowstatCombine _ _ w => wordFor 0x33 w
  | .rowstatFinalise _ _ w => wordFor 0x34 w
  | .instarLoad _ _ w => wordFor 0x35 w
  | .moveCopy _ _ w => wordForMove 0 w
  | .moveGather _ _ w => wordForMove 1 w
  | .moveScatter _ _ w => wordForMove 2 w
  | .moveScatterAdd _ _ w => wordForMove 3 w
  | .putWord _ _ w => wordFor 0x50 w
  | .getWord _ _ w => wordFor 0x51 w
  | .accumulateWord _ _ w => wordFor 0x52 w
  | .atomicWord _ _ w => wordFor 0x53 w
  | .multicastWord _ _ w => wordFor 0x54 w
  | .signalWord _ _ w => wordFor 0x55 w
  | .countWait _ _ w => wordFor 0x60 w
  | .barrierArrive _ _ w => wordFor 0x61 w
  | .barrierWait _ _ w => wordFor 0x62 w
  | .hostSignal _ _ w => wordFor 0x63 w
  | .hostWait _ _ w => wordFor 0x64 w
  | .enqueue _ _ w => wordFor 0x70 w
  | .queueState _ _ w => wordFor 0x71 w
  | .channelRequest _ qs => qs.all ChReq.wf
  | .countIncrement _ r n => countRefOk r && decide (0 < n.toNat ∧ n.toNat < 2 ^ 31)
  | .openConn h _ _ _ _ _ => h.type == 1
  | .closeConn h => headerFor 0x03 h
  | .khtAck h => headerFor 0x04 h
  | .submit h _ _ _ _ => headerFor 0x10 h
  | .abandon h _ _ => headerFor 0x14 h
  | .khtPut h _ _ _ => headerFor 0x20 h
  | .khtGet h _ _ _ => headerFor 0x21 h
  | .signalIn h _ _ _ _ => headerFor 0x30 h
  | .statusRead h _ _ => headerFor 0x40 h
  | .attest h _ _ => headerFor 0x50 h
  | .keyReleaseWeightKey h _ _ _ => headerFor 0x52 h
  | .keyReleaseUnseal h _ _ _ => headerFor 0x52 h
  | .keyReleaseTenantGrant h _ _ _ => headerFor 0x52 h
  | .imagoRequest h _ _ _ => headerFor 0x60 h
  | .unlockLevel1 h _ => headerFor 0x70 h
  | .unlockLevel2Request h => headerFor 0x70 h
  | .unlockLevel2Response h _ _ => headerFor 0x70 h
  | .stage h _ _ _ => headerFor 0x72 h
  | .crossingStall x => decide (x.crossing ≤ 620)
  | .startRowOverrun row => row != 0
  | .engineWordComplete _ _ _ _ => true
  | .kernelReady _ _ _ => true
  | .sequencerWrite _ _ _ _ => true
  | .taskTake _ => true
  | .stealProbe _ => true
  | .probeServe _ _ => true
  | .vesperSuspend _ => true
  | .noonResume _ => true
  | .suspendOverrun _ => true
  | .wakeWire _ _ => true
  | .retentionEntry _ => true
  | .retentionWakeFailure _ => true
  | .statusRefresh _ _ _ => true
  | .packageStart _ => true
  | .stepStart _ => true
  | .layerFlip _ _ => true
  | .packageComplete _ => true
  | .refresh _ _ _ => true
  | .patrolScrub _ _ => true
  | .channelFail _ => true
  | .stackSensorRead _ _ _ => true
  | .thermalHoldRelease => true
  | .frameReceive _ _ => true
  | .frameForward _ => true
  | .frameTransmit _ => true
  | .writeFrame _ _ => true
  | .readFrame _ _ => true
  | .readDataFrame _ _ => true
  | .accumulateFrame _ _ => true
  | .atomicFrame _ _ => true
  | .atomicDataFrame _ _ => true
  | .signalFrame _ _ => true
  | .barrierArriveFrame _ _ => true
  | .barrierReleaseFrame _ _ => true
  | .multicastFrame _ _ => true
  | .noticeFault _ _ => true
  | .noticeLate _ _ => true
  | .noticeHealth _ _ => true
  | .ackFrame _ _ => true
  | .errorFrame _ _ => true
  | .fenceFrame _ _ => true
  | .linkCtrlCredit _ _ => true
  | .linkCtrlIdentity _ _ => true
  | .linkCtrlEcho _ _ => true
  | .linkCtrlNak _ _ => true
  | .linkCtrlPortStates _ _ => true
  | .linkCtrlFenceDone _ _ => true
  | .creditReturn _ => true
  | .linkUp _ => true
  | .linkDown _ => true
  | .ackStall _ => true
  | .trainingAttempt _ => true
  | .linkRestore _ => true
  | .quarantineEnd _ => true
  | .transferTimeout _ => true
  | .rekeyStart _ => true
  | .rekeyFailed _ => true
  | .oldSaRetire _ => true
  | .barrierTimeout _ _ => true
  | .signalOut _ => true
  | .bucketDeadline _ _ => true
  | .stepCloseLimit _ => true
  | .checkGrace _ _ => true
  | .checkCompare _ _ => true
  | .verdictRound _ => true
  | .verdictForm _ => true
  | .verdictReceive _ => true
  | .bucketClear _ _ => true
  | .generationPrepare _ => true
  | .parityFold _ => true
  | .generationCommit _ => true
  | .generationPromote _ => true
  | .healthTick => true
  | .restoreGather _ => true
  | .restoreApply _ => true
  | .spareRefill _ => true
  | .restoreReload _ => true
  | .evalWindowOpen _ => true
  | .evalWindowClose _ => true
  | .evalWindowOverrun _ => true
  | .monarchWindow _ _ => true
  | .grantExhausted _ => true
  | .supplyStep _ => true
  | .logicSensorRead _ _ => true
  | .heatGrantHalve _ => true
  | .supplyUnder _ => true
  | .inputOutOfRange _ => true
  | .bladeSense _ _ => true
  | .bladePairLost _ => true
  | .bladePairRestored _ => true
  | .lateTimer _ => true
  | .arbiterRequest _ _ _ _ => true
  | .arbiterGrant _ => true
  | .openPendingExpiry _ => true
  | .khtRetransmit _ _ => true
  | .khtIdleTimeout _ => true
  | .khtIdleAck _ => true
  | .zeroingComplete => true
  | .unlockExpiry _ => true
  | .lockoutEnd => true
  | .hostQuarantineEnd _ => true
  | .icmpv6Request _ _ _ => true
  | .flashOpComplete _ => true
  | .powerOn _ => true
  | .ready => true
  | .powerLoss => true
  | .moduleReset => true
  | .watchdogReset => true
  | .logWrite => true
  | .logReplayAdvance => true
  | .trainingAttemptFailed _ => true
  | .identityExchangeTick _ => true
  | .unsealComplete _ => true
  | .dieLost _ => true
  | .sequencerControlMessage _ _ => true
  | .mkaFrame _ _ _ => true

end Sys2Proof
end

