-- ==== Sys2Proof/Safety.lean ====
section
/-!
DEFINITION. The terms in which claims are made: when a word may issue, what a command leaves alone, when a frame or a
datagram is applied, and what holds in every state of a run.
-/
namespace Sys2Proof.Machine

/-! ### Outcomes -/

/-- The outcome is a next state that has property `P`. -/
def leads (o : Host.Outcome State Fault Refusal) (P : State → Prop) : Prop := ∃ s, o = .next s ∧ P s

/-! ### Tile words -/

/-- Word `w` stands at the position of context `c` of tile `t` and nothing holds it back: the task runs and waits for no wire, the
tile issues (R72, R75, R76, R79, R350), the fetch finds the word (R161), and neither WAIT with LAG nor a full engine queue holds
it (R162, R164). -/
def stands (s : State) (t : TileId) (v : Bool) (w : BitVec 128) (c : Ctx) : Prop :=
  s.ctx? t.val v = some c ∧ c.waiting = false ∧ (s.tile t.val).issues v = true ∧ (s.fetch v c).1 = .ok w.toNat ∧ c.gated w.toNat = false ∧
    (fld w.toNat 116 4 = 0 → lagOf w.toNat = 0)

/-- The control state at the next word (R161). -/
def Ctx.next (c : Ctx) : Ctx := { c with pos := c.pos + 16, waiting := false, onSlot := none }

/-- The control state at another word. -/
def Ctx.goto (c : Ctx) (pos : W64) : Ctx := { c with pos := pos, waiting := false, onSlot := none }

/-- The context goes on with the next word. -/
def State.advance (s : State) (t : Nat) (v : Bool) : State := s.issued t v fun c => { c with pos := c.pos + 16 }

/-- The tile has met the bound of R77. -/
def State.unwoken (s : State) (t : Nat) : State := s.setTile t { s.tile t with woken := false }

/-- The state with a word that its engine has accepted, at the next word (R161, R162). -/
def State.placed (s : State) (t : Nat) (v : Bool) (w : EngWord) : State :=
  s.issued t v fun c => { c with pos := c.pos + 16, words := c.words ++ [w] }

/-- The same once every word that may begin has begun: what issuing an engine word comes to. -/
def State.took (s : State) (t : Nat) (v : Bool) (w : EngWord) : State := (s.placed t v w).beginWords t v

/-- The control state of a context with one word alone incomplete. -/
def Ctx.only (c : Ctx) (w : EngWord) : Ctx := { c.next with words := [w] }

/-- All of the state but the tiles and the live status words is as before, and every tile but `t` is. -/
def sameBut (s s' : State) (t : Nat) : Prop :=
  { s' with tiles := s.tiles, stat := s.stat } = s ∧ ∀ u, u ≠ t → s'.tile u = s.tile u

/-- Nothing has changed but the control state of one context, which is `c'` now; where that does not wait the tile has issued. -/
def onlyCtx (s s' : State) (t : Nat) (v : Bool) (c' : Ctx) : Prop :=
  sameBut s s' t ∧ s'.stat = s.stat ∧ s'.tile t = { (s.tile t).setCtx v (some c') with woken := c'.waiting && (s.tile t).woken }

/-- No byte of any scratchpad and of the stacked memory has changed. -/
def sameBytes (s s' : State) : Prop :=
  (∀ k, s'.byteAt (.dram k) = s.byteAt (.dram k)) ∧ ∀ t a, s'.byteAt (.scratch t a) = s.byteAt (.scratch t a)

/-! ### Frames and datagrams -/

/-- The state once a frame has been taken from its port. -/
def State.drained (s : State) (p : PortId) (f : Frame) : State :=
  s.setPort p.val { s.port p.val with inbox := eraseFirst (· == f) (s.port p.val).inbox }

/-- The state in which a request frame is judged: parked increments past their time are gone, and the first frame of a transfer on
channels 0 to 15 ends the memory of an answered one that had its XFER_ID (R279 to R281). -/
def State.known (s : State) (p : PortId) (f : Frame) : State :=
  let s1 := (s.drained p f).expireTallies
  if f.channel.toNat ≤ 15 && f.offset == 0 && s1.answered f then s1.closeTally f else s1

/-- Frame `f` of operation `op` waits at port `p` and is to be applied: its job context exists, its tracker lets it pass
(R256), and its tally is free (R281). -/
def arrives (s : State) (p : PortId) (op : BitVec 4) (f : Frame) (j : JobCtx) : Prop :=
  f.op = op ∧ (s.port p.val).inbox.contains f = true ∧ s.job? f.job = some j ∧ j.judge f = .apply ∧ (s.known p f).noTally f = false

/-- Reply frame `f` of operation `op` waits at port `p`, and the tracker of its job context lets it pass (R256). -/
def replies (s : State) (p : PortId) (op : BitVec 4) (f : Frame) (j : JobCtx) : Prop :=
  f.op = op ∧ (s.port p.val).inbox.contains f = true ∧ s.job? f.job = some j ∧ j.judge f = .apply

/-- The state once that request frame has been taken from its port and its tracker has moved on. -/
def State.taken (s : State) (p : PortId) (f : Frame) : State := (s.known p f).trackOn f

/-- The same for a reply frame. -/
def State.heeded (s : State) (p : PortId) (f : Frame) : State := (s.drained p f).trackOn f

/-- A LINK_CTRL frame of a kind waits at port `p`. -/
def control (s : State) (p : PortId) (kind : Nat) (f : Frame) : Prop :=
  f.op = 0xE ∧ fld f.variant.toNat 0 3 = kind ∧ (s.port p.val).inbox.contains f = true

/-- A datagram that a port of KHT takes: the port is live, no overrun, within the size of a frame, addressed to the port and to
KHT_UDP_PORT, its IPv6 and UDP in order, and from a source that is not quarantined (R371, R392, R443, R453). -/
def taken (s : State) (h : KHdr) : Prop :=
  s.portRuns h.port = true ∧ s.khtPort h.port = true ∧ h.overrun = false ∧ khtFrameBytes h ≤ 9042 ∧ s.portAddr h.port = some h.dest ∧
    h.destPort.toNat = s.cfg.udpPort ∧ khtIpOk h = true ∧ s.isQuarantined h.source = false

/-- A datagram of an existing connection that its port takes and finds in order (R371, R372, R377, R398): it deciphers, its tag right, to
a payload, its PKT_NUM is new, its header keeps its form, and its TYPE is `type`. -/
def sound (s : State) (h : KHdr) (type : Nat) (payload : List Byte) (c : Conn) : Prop :=
  h.type.toNat = type ∧ taken s h ∧ s.conn? h.conn = some c ∧ c.unseal h = some payload ∧ c.spent = false ∧
    c.seenPkts.contains h.pktNum = false ∧ s.headCode c h true = none

/-- The state in which that datagram has been counted and heard: what it acknowledges and where its sender is (R373, R378, R394). -/
def State.heardAt (s : State) (h : KHdr) (c : Conn) : State := (((s.inward h).bump 0x7010 1).countedIn c h).heard c h

/-- A sequenced datagram of `c` with message `m` that is the next in order: SEQ is the one expected, the connection, heard as `c1`,
is OPEN and holds nothing back, its role permits the message, and no zeroing delays it (R378, R399, R401). -/
def due (s : State) (h : KHdr) (type : Nat) (c c1 : Conn) (m : HMsg) : Prop :=
  sound s h type m.payload c ∧ c.place h.seq = 0 ∧ (s.heardAt h c).conn? c.id = some c1 ∧ c1.st = 2 ∧ c1.held = [] ∧ c1.rxNext = h.seq ∧
    c1.permits m = true ∧ (s.heardAt h c).waitsZeroing c.id m = false

/-- The state in which that message takes effect: it has been held and taken, and the next SEQ is expected. -/
def State.before (s : State) (h : KHdr) (c : Conn) (m : HMsg) : State :=
  ((s.heardAt h c).updConn c.id fun c => { c with held := c.held ++ [(h.seq, m)] }).updConn c.id fun c =>
    { c with rxNext := c.rxNext + 1, held := c.held.filter fun x => x.1 != h.seq }

/-! ### What holds in every state of a run -/

/-- The stacked memory is in its canonical form: addresses rise strictly and no listed byte is zero. -/
def dramCanonical (s : State) : Prop := Mem.wf s.mem.dram = true

/-- The log's queue keeps within its 1,024 records (R482). -/
def queueBounded (s : State) : Prop := s.log.queue.length ≤ 1024

end Sys2Proof.Machine
end

