-- ==== Sys2Proof/Certificates/Slice0/Obligations.lean ====
section
/-!
DEFINITION. The statements for the provers.
-/
open Sys2Proof Sys2Proof.Machine

/-! ### The machine -/

/-- One step on a queue that is not empty is the front command's effect on the state with the queue's rest. -/
def Obligations.StepRunsFrontCommand : Prop :=
  ∀ (c : Instr) (rest : List Instr) (s : State), s.pending = c :: rest → step s = exec c { s with pending := rest }

/-- On an empty queue nothing changes but the duration timer, which counts 1 ns where the reference is locked (the model's
choice, log 50). Commands that name no possible event are refused as ill formed, in every state: a word of another opcode of
Table 07-2, a datagram of another host TYPE, row 0, a crossing beyond 620, an increment or COUNT_REF outside its field (the
model's choice, log 51). -/
def Obligations.QueueEdges : Prop :=
  (∀ s : State, s.pending = [] →
    leads (step s) fun s' => { s' with start := { s'.start with timer := s.start.timer } } = s ∧
      s'.start.timer = if s.start.runs then s.start.timer + 1 else s.start.timer) ∧
  (∀ s : State,
    (∀ t v w, tableOpcodes.contains (wordOpcode w) = true → wordOpcode w ≠ 0x02 → exec (.set t v w) s = .refused .illFormed) ∧
    (∀ h : KHdr, hostMessageTypes.contains h.type.toNat = true → h.type.toNat ≠ 0x04 → exec (.khtAck h) s = .refused .illFormed) ∧
    (∀ h r e k n g, (h : KHdr).type ≠ 1 → exec (.openConn h r e k n g) s = .refused .illFormed) ∧
    exec (.startRowOverrun 0) s = .refused .illFormed ∧
    (∀ n rx, 620 < n → exec (.crossingStall ⟨n, rx⟩) s = .refused .illFormed) ∧
    (∀ j r n, countRefOk r = false ∨ (n : BitVec 32) = 0 ∨ 2 ^ 31 ≤ n.toNat → exec (.countIncrement j r n) s = .refused .illFormed))

/-- No command touches the queue of waiting commands. -/
def Obligations.ExecKeepsQueue : Prop :=
  ∀ (c : Instr) (s s' : State), exec c s = .next s' → s'.pending = s.pending

/-- Every well-formed command has a next state in every state: nothing is refused or stops. This is the model's choice: a command
whose event cannot occur in the state it meets changes nothing (log 17), and one with an operand outside its field is not well
formed (log 51). -/
def Obligations.WellFormedCommandsRun : Prop :=
  ∀ (i : Instr) (s : State), i.wf = true → ∃ s', exec i s = .next s'

/-- After reset nothing runs, waits or is held: no power, an empty queue, no task, package, context, connection, transfer or
tenant; every crossing is free; memory lists no byte; both banks of the flash are erased and the rollback level is 0. Where the
spec gives no value the log names it. Reset's memory is in canonical form and its log queue is within bounds. -/
def Obligations.ResetState : Prop :=
  (let s := State.reset
  s.pending = [] ∧ s.start.phase = .off ∧ s.start.runs = false ∧ s.start.timer = 0 ∧ (∀ t, s.tile t = TileState.start) ∧
    (∀ p, s.port p = Port.start) ∧ (∀ k, s.crossing k = Crossing.start) ∧ (∀ a, s.arb a = Arbiter.start) ∧ s.pkgs = [] ∧ s.jobs = [] ∧
    s.conns = [] ∧ s.xfers = [] ∧ s.tallies = [] ∧ s.sec.tenant = none ∧ s.sec.zeroing = none ∧ (∀ k, s.word k = 0) ∧
    (∀ k, s.byteAt (.dram k) = 0) ∧ s.img.flash = [] ∧ s.img.fused = 0 ∧ s.log.queue = []) ∧
  (dramCanonical State.reset ∧ queueBounded State.reset)

/-! ### What every step keeps -/

/-- Every step keeps the canonical form of the stacked memory. -/
def Obligations.StepKeepsMemoryCanonical : Prop :=
  ∀ s s' : State, dramCanonical s → step s = .next s' → dramCanonical s'

/-- Every step keeps the log's queue within 1,024 records (R482). -/
def Obligations.StepKeepsLogQueueBounded : Prop :=
  ∀ s s' : State, queueBounded s → step s = .next s' → queueBounded s'

/-- The fused rollback level (R427): 0 at reset; READY programs CONFIRMED of the bank it runs and raises the level to that
image's ROLLBACK where it exceeds it; no step lowers the level, and it stays from 0 to 63. -/
def Obligations.RollbackLevel : Prop :=
  State.reset.img.fused = 0 ∧ State.reset.img.rollback = 0 ∧
  (∀ (s : State) (b : Bool), s.start.phase = .starting → s.img.bank = some b → leads (exec .ready s) fun s' =>
    confirmed s'.img.flash b = true ∧ s'.img.fused = max s.img.fused s.img.rollback) ∧
  (∀ s s' : State, step s = .next s' → s.img.fused ≤ s'.img.fused) ∧
  (∀ s s' : State, s.img.fused ≤ 63 ∧ s.img.rollback ≤ 63 → step s = .next s' → s'.img.fused ≤ 63 ∧ s'.img.rollback ≤ 63)

/-! ### Tiles: registers and words -/

/-- The module's 576 tiles (R12): a tile at row r and column c of die k has the index k * 144 + r * 12 + c, and every index from
0 to 575 is that of one such place, which the model's die, row and column of a tile name. -/
def Obligations.TileNumbering : Prop :=
  (∀ k r c, k < 4 → r < 12 → c < 12 →
    k * 144 + r * 12 + c < 576 ∧ dieOf (k * 144 + r * 12 + c) = k ∧ rowOfTile (k * 144 + r * 12 + c) = r ∧ colOfTile (k * 144 + r * 12 + c) = c) ∧
  ∀ t : TileId, t.val = dieOf t.val * 144 + rowOfTile t.val * 12 + colOfTile t.val ∧ dieOf t.val < 4 ∧ rowOfTile t.val < 12 ∧ colOfTile t.val < 12

/-- The scalar registers (R165): S0 reads as zero and a write to it is discarded; a write to another register is read back whole
and changes no other; the sets and positions of the two classes are separate; a task starts with ARGS, TASK_INDEX, HOME_TILE
and its tile in S1 to S4 and zero in S5 to S15. -/
def Obligations.ScalarRegisters : Prop :=
  (∀ c : Ctx, c.reg 0 = 0 ∧ (∀ x, c.setReg 0 x = c) ∧
    (∀ i x, i ≠ 0 → x < 2 ^ 64 → (c.setReg i x).reg i = x) ∧ (∀ i k x, k ≠ i → (c.setReg i x).reg k = c.reg k) ∧
    ∀ i : Fin 16, c.reg i.val < 2 ^ 64) ∧
  (∀ (s : State) (t : Nat) (v : Bool) (f : Ctx → Ctx), (s.updCtx t v f).ctx? t (!v) = s.ctx? t (!v)) ∧
  (∀ (s : State) (t : TileId) (v : Bool) (d : Desc) (p : Pkg), s.pkg? d.tag = some p → ∃ c, (s.startTask t.val d v).ctx? t.val v = some c ∧
    c.pos = d.w1 ∧ c.reg 1 = d.w2.toNat ∧ c.reg 2 = d.index ∧ c.reg 3 = d.home ∧ c.reg 4 = t.val ∧ (∀ i, 5 ≤ i → i ≤ 15 → c.reg i = 0) ∧
    (s.startTask t.val d v).ctx? t.val (!v) = s.ctx? t.val (!v))

/-- NOP, SET, ALU, BRANCH and LOOP: the register and the position that each writes, and nothing else. ALU and BRANCH act where
their field names an operation or a condition; LOOP's register falls by one before it is tested. Each of them, and LOAD_S,
STORE_S and END, raises F-3602 where a bit outside its fields is set, ALU and BRANCH where their code is reserved and LOOP
where it names S0; a word of an opcode not in Table 07-2 raises F-3601, whichever of these commands sends it (R186; that the
command of another word carries it is the model's choice, log 26). Each in the task that issues it. -/
def Obligations.ControlWords : Prop :=
  (∀ (s : State) (t : TileId) (v : Bool) (w : BitVec 128) (c : Ctx), stands s t v w c →
    let n := w.toNat
    (opcodeOf n = 0x00 → stray n [] = false → leads (exec (.nop t v w) s) fun s' => onlyCtx s s' t.val v c.next) ∧
    (opcodeOf n = 0x02 → stray n [(106, 4), (0, 64)] = false →
      leads (exec (.set t v w) s) fun s' => onlyCtx s s' t.val v (c.setReg (fld n 106 4) (fld n 0 64)).next) ∧
    (∀ r, opcodeOf n = 0x03 → stray n [(106, 4), (102, 4), (98, 4), (94, 4), (93, 1), (0, 48)] = false →
      aluOp (fld n 94 4) (c.reg (fld n 102 4)) (second c n) = some r →
      leads (exec (.alu t v w) s) fun s' => onlyCtx s s' t.val v (c.setReg (fld n 106 4) r).next) ∧
    (∀ b, opcodeOf n = 0x04 → stray n [(102, 4), (98, 4), (94, 4), (93, 1), (64, 24), (0, 48)] = false →
      branchCond (fld n 94 4) (c.reg (fld n 102 4)) (second c n) = some b →
      leads (exec (.branch t v w) s) fun s' => onlyCtx s s' t.val v (if b then c.goto (dispTo c n) else c.next)) ∧
    (opcodeOf n = 0x05 → stray n [(102, 4), (64, 24)] = false → fld n 102 4 ≠ 0 →
      let r := (c.reg (fld n 102 4) + 2 ^ 64 - 1) % 2 ^ 64
      leads (exec (.loop t v w) s) fun s' =>
        onlyCtx s s' t.val v (if r = 0 then (c.setReg (fld n 102 4) r).next else (c.setReg (fld n 102 4) r).goto (dispTo c n)))) ∧
  (∀ (s : State) (t : TileId) (v : Bool) (w : BitVec 128) (c : Ctx) (waves : BitVec 64), stands s t v w c →
    let n := w.toNat
    let raises (i : Instr) (code : Nat) : Prop := exec i s = .next (s.faultTask t.val v code c.off)
    (opcodeOf n = 0x00 → stray n [] = true → raises (.nop t v w) 0x3602) ∧
    (opcodeOf n = 0x01 → stray n [] = true → raises (.endTask t v w waves) 0x3602) ∧
    (opcodeOf n = 0x02 → stray n [(106, 4), (0, 64)] = true → raises (.set t v w) 0x3602) ∧
    (opcodeOf n = 0x03 → stray n [(106, 4), (102, 4), (98, 4), (94, 4), (93, 1), (0, 48)] = true ∨
      aluOp (fld n 94 4) (c.reg (fld n 102 4)) (second c n) = none → raises (.alu t v w) 0x3602) ∧
    (opcodeOf n = 0x04 → stray n [(102, 4), (98, 4), (94, 4), (93, 1), (64, 24), (0, 48)] = true ∨
      branchCond (fld n 94 4) (c.reg (fld n 102 4)) (second c n) = none → raises (.branch t v w) 0x3602) ∧
    (opcodeOf n = 0x05 → stray n [(102, 4), (64, 24)] = true ∨ fld n 102 4 = 0 → raises (.loop t v w) 0x3602) ∧
    (opcodeOf n = 0x06 → stray n [(106, 4), (93, 1), (0, 64)] = true → raises (.loadS t v w) 0x3602) ∧
    (opcodeOf n = 0x07 → stray n [(102, 4), (93, 1), (0, 64)] = true → raises (.storeS t v w) 0x3602) ∧
    (opcodeOk (opcodeOf n) = false →
      ∀ i ∈ [Instr.nop t v w, .endTask t v w waves, .set t v w, .alu t v w, .branch t v w, .loop t v w, .loadS t v w, .storeS t v w],
        raises i 0x3601))

/-- LOAD_S and STORE_S of the tile's scratchpad: 8 little-endian bytes at the offset that `scalarAddr` computes. A store changes
those 8 bytes of that scratchpad and no other byte of the machine. LOAD_S and STORE_S of a global address in a memory space,
through translation and protection: the word read, and the state that `writeMem` leaves, in which every byte reads as before
but those at the 8 places that the address translates to. LOAD_S of the status space reads this module's words. -/
def Obligations.ScalarAccess : Prop :=
  (∀ (s : State) (t : TileId) (v : Bool) (w : BitVec 128) (c : Ctx), stands s t v w c →
    let n := w.toNat
    (∀ a, opcodeOf n = 0x06 → stray n [(106, 4), (93, 1), (0, 64)] = false →
      scalarAddr v false n (c.reg (xregOf n)) = .ok (true, a) →
      leads (exec (.loadS t v w) s) fun s' =>
        onlyCtx s s' t.val v (c.setReg (fld n 106 4) (leNat (Mem.bytes (s.tile t.val).scratch a 8))).next) ∧
    (∀ a, opcodeOf n = 0x07 → stray n [(102, 4), (93, 1), (0, 64)] = false →
      scalarAddr v true n (c.reg (xregOf n)) = .ok (true, a) →
      leads (exec (.storeS t v w) s) fun s' =>
        sameBut s s' t.val ∧ s'.stat = s.stat ∧ s'.ctx? t.val v = some c.next ∧
        Mem.bytes (s'.tile t.val).scratch a 8 = leBytes 8 (c.reg (fld n 102 4)) ∧
        (∀ k, (k < a ∨ a + 8 ≤ k) → s'.byteAt (.scratch t.val k) = s.byteAt (.scratch t.val k)) ∧
        ∀ k, s'.byteAt (.dram k) = s.byteAt (.dram k))) ∧
  (∀ (s : State) (t : TileId) (v : Bool) (w : BitVec 128) (c : Ctx), stands s t v w c →
    let n := w.toNat
    (∀ a bs, opcodeOf n = 0x06 → stray n [(106, 4), (93, 1), (0, 64)] = false →
      scalarAddr v false n (c.reg (xregOf n)) = .ok (false, a) → fld a 56 8 ≠ 2 → (s.readMem c.job .tile v a 8).1 = .ok bs →
      leads (exec (.loadS t v w) s) fun s' => onlyCtx s s' t.val v (c.setReg (fld n 106 4) (leNat bs)).next) ∧
    (∀ a, opcodeOf n = 0x06 → stray n [(106, 4), (93, 1), (0, 64)] = false →
      scalarAddr v false n (c.reg (xregOf n)) = .ok (false, a) → fld a 56 8 = 2 → (fld a 42 14 < 14641 ∨ fld a 42 14 = 0x3FFF) →
      s.refLocal c.job (fld a 42 14 * 2 ^ 12) = true →
      leads (exec (.loadS t v w) s) fun s' =>
        onlyCtx s s' t.val v (c.setReg (fld n 106 4) (s.readStatus false (fld a 0 42)).toNat).next) ∧
    (∀ a ps, opcodeOf n = 0x07 → stray n [(102, 4), (93, 1), (0, 64)] = false →
      scalarAddr v true n (c.reg (xregOf n)) = .ok (false, a) → s.places c.job .tile .write v a 8 = .ok ps →
      let r := s.writeMem c.job .tile v a (leBytes 8 (c.reg (fld n 102 4)))
      r.1 = none → exec (.storeS t v w) s = .next (r.2.advance t.val v) ∧ ∀ p, p ∉ ps → (r.2.advance t.val v).byteAt p = s.byteAt p))

/-- A write of bytes at distinct places of the stacked memory none of which lies in an uncorrectable beat: each place holds its
byte, and every other byte of every memory reads as before. -/
def Obligations.WritesReadBack : Prop :=
  ∀ (s : State) (k : Nat) (bs : List Byte) (finder : Nat), (∀ i, i < bs.length → Sp.get false s.mem.poison ((k + i) / 32) = false) →
    let ws := List.zip ((List.range bs.length).map fun i => Place.dram (k + i)) bs
    let r := s.writePlaces ws finder
    r.1 = none ∧ Mem.bytes r.2.mem.dram k bs.length = bs ∧
      (∀ a, (a < k ∨ k + bs.length ≤ a) → r.2.byteAt (.dram a) = s.byteAt (.dram a)) ∧
      (∀ t a, r.2.byteAt (.scratch t a) = s.byteAt (.scratch t a))

/-- END of a task all of whose words are complete: its DONE_COUNT is raised where it has one, its registers and position cease to
exist, and its package counts it; a Vesper task's waves enter the accounting of R359. With earlier words incomplete it is held
back and nothing changes (R62, R169). -/
def Obligations.EndWord : Prop :=
  ∀ (s : State) (t : TileId) (v : Bool) (w : BitVec 128) (c : Ctx) (waves : BitVec 64), stands s t v w c →
    opcodeOf w.toNat = 0x01 → stray w.toNat [] = false →
    (c.words ≠ [] → exec (.endTask t v w waves) s = .next s) ∧
    (c.words = [] → c.desc.done = none →
      leads (exec (.endTask t v w waves) s) fun s' =>
        s' = (s.endOf t.val v c waves.toNat).unwoken t.val ∧ s'.tile t.val = { (s.tile t.val).setCtx v none with woken := false } ∧
        (∀ u, u ≠ t.val → s'.tile u = s.tile u) ∧ s'.mem = s.mem ∧ s'.jobs = s.jobs ∧
        ∀ p, s.pkg? c.desc.tag = some p → ∃ q, s'.pkg? c.desc.tag = some q ∧ (c.desc.kernel, c.desc.index) ∈ q.ended) ∧
    (∀ i, c.words = [] → c.desc.done = some i → (s.raiseCount c.job i 1 0x3FFF).1 = none →
      exec (.endTask t v w waves) s = .next (((s.raiseCount c.job i 1 0x3FFF).2.endOf t.val v c waves.toNat).unwoken t.val))

/-- MATMUL, ACC_MOVE and ACC_STATUS whose checks pass are accepted by the matrix engine, behind whatever words it holds; an
operation waits for every earlier one that uses a half of the banks that it uses, ACC_STATUS for both (R96, R176). Where the
task has no other incomplete word, the completion that follows leaves the banks (and, of ACC_MOVE, scratchpad and random
stream; of ACC_STATUS, its register) as the whole operation does, and nothing else of the machine but status words. -/
def Obligations.MatrixWords : Prop :=
  ∀ (s : State) (t : TileId) (v : Bool) (w : BitVec 128) (c : Ctx), stands s t v w c → s.undeclared t.val v c = false →
    let n := w.toNat
    let y := s.tile t.val
    let ends (i : Instr) (z : TileState) (c' : Ctx) : Prop := c.words = [] → ∀ waves, leads (exec i s) fun s1 =>
      leads (exec (.engineWordComplete t v 0 waves) s1) fun s' => sameBut s s' t.val ∧ s'.tile t.val = { z.setCtx v (some c') with woken := false }
    (∀ a o, opcodeOf n = 0x20 → stray n [(0, 24), (106, 4), (102, 4)] = false → paramAt v n (c.reg (xregOf n)) 48 = .ok a →
      matPrepare v (memWords y.scratch a 6) (c.reg (fld n 106 4)) (c.reg (fld n 102 4)) = .ok o →
      exec (.matmul t v w) s = .next (s.took t.val v (EngWord.fresh (.matmul o) c.off (o.lo, o.hi))) ∧
      (matTagFault o y.mat = false → ends (.matmul t v w)
        { y with mat := (matRows o y.scratch 0 o.rows (if o.init then matInit o y.mat else y.mat, [])).1 } c.next)) ∧
    (∀ o, opcodeOf n = 0x21 → accMovePrepare v n (c.reg (xregOf n)) (c.projected y.mat) = .ok o →
      exec (.accMove t v w) s =
        .next (s.took t.val v (EngWord.fresh (.accMove o) c.off (readHalves (c.projected y.mat) o.row (o.row + o.rows)))) ∧
      (let r := accMoveRows o y.streamK.toNat y.streamC.toNat y.scratch y.mat 0 o.rows
       ends (.accMove t v w) { y with scratch := r.1, mat := r.2.1, streamC := BitVec.ofNat 128 r.2.2.1 } c.next)) ∧
    (∀ (k : Nat) (z : EngWord), (match z.op with | .matmul _ | .accMove _ | .accStatus _ | .pass _ => True | _ => False) →
      c.mayBegin k z = true → ∀ e ∈ c.words.take k, sharesHalf e z = false) ∧
    (opcodeOf n = 0x22 → stray n [(106, 4)] = false →
      exec (.accStatus t v w) s = .next (s.took t.val v (EngWord.fresh (.accStatus (fld n 106 4)) c.off (true, true))) ∧
      ends (.accStatus t v w) { y with mat := { y.mat with intSat := 0 } } (c.setReg (fld n 106 4) (accStatusWord y.mat)).next)

/-- PASS and SFN_BATCH whose checks pass are accepted by the vector engine, a PASS with a scan whatever it waits on. Where the task
has no other incomplete word the pass begins at once, its constants read and its Instar generations latched: with no scan,
with CARRY_IN 0, with a record of the scratchpad that fits, or with one of this module's memory whose count is reached. The
completion that follows leaves scratchpad, accumulators and random stream as the whole pass does and writes its carry record
as `writeRecord` says where it has one; a pass whose data gives F-3503 ends its task with that fault instead. -/
def Obligations.PassWords : Prop :=
  ∀ (s : State) (t : TileId) (v : Bool) (w : BitVec 128) (c : Ctx), stands s t v w c →
    let n := w.toNat
    let y := s.tile t.val
    let fresh (p : VPass) : EngWord := EngWord.fresh (.pass p) c.off (p.halves (c.projected y.mat))
    let begun (p : VPass) (k : Option Carry) (bs : List Byte) : EngWord :=
      { fresh p with op := .pass (p.readConsts y.scratch), begun := true, latched := latchedOf y p, pass := (p.readConsts y.scratch).enter k, bufs := (bs, []) }
    let ends (i : Instr) (p : VPass) (k : Option Carry) (bs : List Byte) : Prop := c.words = [] → ∀ waves,
      let z := begun p k bs
      let q := p.readConsts y.scratch
      let r := passRun q (z.image y) y.streamK.toNat y.streamC.toNat y.scratch y.mat z.pass z.left
      leads (exec i s) fun s1 =>
        let u := s1.runPass t.val z q z.left
        s1.ctx? t.val v = some (c.only z) ∧ s1.mem = s.mem ∧
        (r.bad = true → exec (.engineWordComplete t v 1 waves) s1 =
          .next (((u.s.setEng t.val v 0 { z with ran := true }).faultTask t.val v 0x3503 z.off.toNat).beginWords t.val v)) ∧
        (r.bad = false → (∀ sc, p.scan = some sc → sc.carryOut = false) → leads (exec (.engineWordComplete t v 1 waves) s1) fun s' =>
          sameBut { s with freeCtr := s'.freeCtr } s' t.val ∧
          s'.tile t.val = { ({ y with scratch := r.sp, mat := r.ms, streamC := BitVec.ofNat 128 r.acc.1 } : TileState).setCtx v (some c.next) with woken := false }) ∧
        (∀ sc, r.bad = false → p.scan = some sc → sc.carryOut = true →
          let o := (u.s.countUnchanged (c.only z) u.w q).writeRecord t.val v (c.only z) z.off.toNat sc.outDest sc.raise (carryOut sc r.scan)
          o.fault = none → exec (.engineWordComplete t v 1 waves) s1 =
            .next ((o.s.leaveWord t.val v 0 { u.w with ran := true, waits := o.waits } waves).beginWords t.val v))
    (∀ a p, opcodeOf n = 0x30 → stray n [(0, 24), (106, 4), (102, 4)] = false → paramAt v n (c.reg (xregOf n)) 320 = .ok a →
      passPrepare v (memWords y.scratch a 40) (c.reg (fld n 106 4)) (c.reg (fld n 102 4)) (c.projected y.mat) y.slotImage = .ok p →
      (s.undeclared t.val v c && p.usesAcc) = false → (p.scan.bind fun sc => s.waitFault c.job sc.carryIn sc.waitCount) = none →
      exec (.pass t v w) s = .next (s.took t.val v (fresh p)) ∧
      (p.scan = none → ends (.pass t v w) p none []) ∧
      (∀ sc, p.scan = some sc → sc.carryIn = 0 → ends (.pass t v w) p none []) ∧
      (∀ sc k, p.scan = some sc → sc.carryIn = 1 →
        k = Carry.ofBytes (Mem.bytes y.scratch sc.inAddr (carryLen sc.lanes)) → k.fits sc.op sc.fmt sc.lanes sc.tag = true →
        ends (.pass t v w) p (some k) []) ∧
      (∀ sc k bs, p.scan = some sc → sc.carryIn = 2 → s.countReached c.job sc.waitCount sc.waitTarget = true →
        (∀ j, s.job? c.job = some j → s.plays j (fld sc.inAddr 42 14) = true) → bs.length = carryLen sc.lanes →
        (s.placed t.val v (fresh p)).readMem c.job .tile v sc.inAddr (carryLen sc.lanes) = (.ok bs, s.placed t.val v (fresh p)) →
        k = Carry.ofBytes bs → k.fits sc.op sc.fmt sc.lanes sc.tag = true → ends (.pass t v w) p (some k) bs)) ∧
    (∀ p, opcodeOf n = 0x31 → sfnBatchPrepare v n (c.reg (xregOf n)) (c.projected y.mat) y.slotImage = .ok p →
      exec (.sfnBatch t v w) s = .next (s.took t.val v (fresh p)) ∧ (p.scan = none → ends (.sfnBatch t v w) p none []))

/-- The record operations whose checks pass are accepted by the vector engine, and raise the first fault where they do not: a
record of the scratchpad that a ROWSTAT operation may not read is found as its word issues (R160). Where the task has no other
incomplete word and the sources lie in the scratchpad, they are read as the word begins (R149), and the completion that follows
writes the result at DEST in the class of the task and raises RAISE_COUNT, as `writeRecord` says: CARRY_COMPOSE of two
carries, ROWSTAT_COMBINE pair by pair, ROWSTAT_FINALISE of X alone. -/
def Obligations.RecordWords : Prop :=
  ∀ (s : State) (t : TileId) (v : Bool) (w : BitVec 128) (c : Ctx), stands s t v w c →
    let n := w.toNat
    let x := c.reg (xregOf n)
    let sp := (s.tile t.val).scratch
    let fresh (op : EngOp) : EngWord := EngWord.fresh op c.off (false, false)
    let ends (i : Instr) (op : EngOp) (b : RecBlock) (bs : List Byte) : Prop := c.words = [] → ∀ waves,
      let z : EngWord := { (fresh op).latchRecords sp with begun := true }
      leads (exec i s) fun s1 =>
        let o := s1.writeRecord t.val v (c.only z) c.off b.dest b.raise bs
        s1.ctx? t.val v = some (c.only z) ∧ s1.mem = s.mem ∧ (o.fault = none →
          exec (.engineWordComplete t v 1 waves) s1 =
            .next ((o.s.leaveWord t.val v 0 { z with pos := op.units, ran := true, waits := o.waits } waves).beginWords t.val v))
    let raises (i : Instr) (r : Except Nat RecBlock) : Prop := ∀ f, r = .error f → exec i s = .next (s.faultTask t.val v f c.off)
    (opcodeOf n = 0x32 →
      let r := recPrepare t.val v n x s (fun b => b.yMode != 1 || b.n != 1 || b.rms || b.eps != 0)
        (fun b => recAddrFaults v b.xMode b.x 32 ++ recAddrFaults v 1 b.y 32)
      raises (.carryCompose t v w) r ∧
      ∀ b, r = .ok b → s.waitFault c.job b.xMode b.xWait = none →
        exec (.carryCompose t v w) s = .next (s.took t.val v (fresh (.compose b))) ∧
        (∀ bs, b.xMode ≠ 2 → composeBytes v sp b [] = .ok bs → ends (.carryCompose t v w) (.compose b) b bs)) ∧
    (opcodeOf n = 0x33 →
      let r := recPrepare t.val v n x s (fun b => b.yMode == 3 || b.rms || b.eps != 0 || (b.xMode == 0 && b.yMode == 0))
        (fun b => recAddrFaults v b.xMode b.x (32 * b.n) ++ recAddrFaults v b.yMode b.y (32 * b.n) ++ recRowFaults sp b true)
      raises (.rowstatCombine t v w) r ∧
      ∀ b, r = .ok b → s.waitFault c.job b.xMode b.xWait = none → s.waitFault c.job b.yMode b.yWait = none →
        exec (.rowstatCombine t v w) s = .next (s.took t.val v (fresh (.combine b))) ∧
        (∀ zs, b.xMode ≠ 2 → b.yMode ≠ 2 → combineRows b.tag (rowsOf sp b.xMode b.x b.n []) (rowsOf sp b.yMode b.y b.n []) = some zs →
          ends (.rowstatCombine t v w) (.combine b) b (zs.flatMap RowStat.toBytes))) ∧
    (opcodeOf n = 0x34 →
      let r := recPrepare t.val v n x s (fun b => b.xMode == 0 || b.namesY)
        (fun b => recAddrFaults v b.xMode b.x (32 * b.n) ++ recRowFaults sp b false ++ when (epsBad b.eps) 0x3504)
      raises (.rowstatFinalise t v w) r ∧
      ∀ b, r = .ok b → s.waitFault c.job b.xMode b.xWait = none →
        exec (.rowstatFinalise t v w) s = .next (s.took t.val v (fresh (.finalise b))) ∧
        (let xs := rowsOf sp b.xMode b.x b.n []
         b.xMode ≠ 2 → xs.all (rowOk b.tag) = true →
          ends (.rowstatFinalise t v w) (.finalise b) b (xs.flatMap fun r => (rowFinalise r b.rms b.eps).toBytes)))

/-- INSTAR_LOAD of a legal address is accepted. Where the task has no other incomplete word and no pass holds the slot's other
generation, a correct image is read at once: that generation takes it and becomes current, and the one that was current is
kept. -/
def Obligations.InstarLoad : Prop :=
  ∀ (s : State) (t : TileId) (v : Bool) (w : BitVec 128) (c : Ctx), stands s t v w c →
    let n := w.toNat
    let a := (fld n 0 64 + c.reg (xregOf n)) % 2 ^ 64
    let i := fld n 64 3
    let y := s.tile t.val
    let sl := y.slot i
    let z := EngWord.fresh (.instar i a) c.off (false, false)
    opcodeOf n = 0x35 → fld n 67 43 = 0 → a % 16 = 0 → a / 2 ^ 56 ≤ 1 →
    exec (.instarLoad t v w) s = .next (s.took t.val v z) ∧
    (∀ bs, c.words = [] → holdsGen y.noon i (!sl.cur) = false → holdsGen y.vesper i (!sl.cur) = false →
      (∃ h, (s.readMem c.job .tile v a 32).1 = .ok h ∧ instarLen (leNat (h.take 8)) ≤ 12288 ∧
        (s.readMem c.job .tile v a (instarLen (leNat (h.take 8)))).1 = .ok bs) → instarOk bs = true →
      leads (exec (.instarLoad t v w) s) fun s' => sameBut s s' t.val ∧ s'.stat = s.stat ∧
        s'.ctx? t.val v = some (c.only { z with begun := true, ran := true }) ∧
        let q := (s'.tile t.val).slot i
        q.gen q.cur = bs ∧ q.cur = !sl.cur ∧ q.gen (!q.cur) = sl.gen sl.cur)

/-- MOVE of each KIND whose descriptors and checks pass is accepted by the move engine. Where the task has no other incomplete word,
the completion that follows runs the whole checked move; one without a fault leaves every byte of the machine that none of its
writes touches as it was, so that one that writes nothing leaves all of them, and changes nothing but a scratchpad of any
other tile. -/
def Obligations.MoveWords : Prop :=
  ∀ (s : State) (t : TileId) (v : Bool) (w : BitVec 128) (c : Ctx) (kind : Nat), stands s t v w c →
    let n := w.toNat
    let x := c.reg (xregOf n)
    let y := s.tile t.val
    opcodeOf n = 0x40 → fld n 72 3 = kind → kind < 4 → fld n 87 23 = 0 → fld n 75 2 ≠ 3 → fld n 77 2 ≠ 3 → (kind = 0 → fld n 48 24 = 0) →
    ∀ a b i o, descAt v ((fld n 0 24 + x) % 2 ^ 64) = .ok a → descAt v ((fld n 24 24 + x) % 2 ^ 64) = .ok b →
      (kind ≠ 0 → descAt v (fld n 48 24) = .ok i) →
      movePrepare v (s.ownDevice c.job) kind (fld n 75 2) (fld n 77 2) (memWords y.scratch a 20) (memWords y.scratch b 20)
        (if kind = 0 then [] else memWords y.scratch i 20) (c.reg (fld n 79 4)) (c.reg (fld n 83 4)) = .ok o →
      let z := EngWord.fresh (.move o) c.off (false, false)
      let cmd : Instr := if kind = 0 then .moveCopy t v w else if kind = 1 then .moveGather t v w else if kind = 2 then .moveScatter t v w
        else .moveScatterAdd t v w
      exec cmd s = .next (s.took t.val v z) ∧
      (c.words = [] → ∀ waves, leads (exec cmd s) fun s1 =>
        let z1 : EngWord := { z with begun := true }
        let r := s1.runMove t.val v c.job z1 o z1.left
        let did := s1.moveDone t.val v c.job z1 o z1.left
        s1.ctx? t.val v = some (c.only z1) ∧ s1.mem = s.mem ∧ (s1.tile t.val).scratch = y.scratch ∧
        (r.fault = none → leads (exec (.engineWordComplete t v 2 waves) s1) fun s' =>
          s' = (r.s.leaveWord t.val v 0 { r.w with ran := true } waves).beginWords t.val v ∧ s'.ctx? t.val v = some c.next ∧
          (∀ u, u ≠ t.val → s'.tile u = { s.tile u with scratch := (s'.tile u).scratch }) ∧
          (∀ q : Place, (∀ x ∈ did.writes, ∀ a ∈ x.bytes, s1.movePlace t.val v c.job o.dst.dram a ≠ .ok q) → s'.byteAt q = s.byteAt q) ∧
          (did.writes = [] → s'.mem.dram = s.mem.dram ∧ ∀ u, (s'.tile u).scratch = (s.tile u).scratch) ∧ s'.jobs = s.jobs))

/-- The data-carrying remote words whose checks pass are accepted by the remote engine. Where the task has no other incomplete word
and R256 does not hold the transfer back they send at once: PUT and ATOMIC their bytes, ACCUMULATE its elements in the
word's conversion with the step tag of R302; the word then awaits its one transfer. -/
def Obligations.RemoteDataWords : Prop :=
  ∀ (s : State) (t : TileId) (v : Bool) (w : BitVec 128) (c : Ctx), stands s t v w c →
    let n := w.toNat
    let r := remoteOf n c (c.reg (xregOf n))
    let y := s.tile t.val
    let fresh (op : EngOp) : EngWord := EngWord.fresh op c.off (false, false)
    let free (data : List Byte) : Prop := s.holdsBack (s.hallFor c.job r.device) r.ch (frameCount v data.length) = false
    (opcodeOf n = 0x50 → remoteFirst (putFaults v r) = none →
      let z := fresh (.put r)
      let data := Mem.bytes y.scratch r.loc r.bytes
      exec (.putWord t v w) s = .next (s.took t.val v z) ∧
      (c.words = [] → free data → ∃ k s1, sendData t.val v (c.only z) z r 0 0 0 2 none data (s.placed t.val v z) = .go (z.sent [k]) s1 ∧
        exec (.putWord t v w) s = .next (s1.setEng t.val v 0 (z.sent [k])))) ∧
    (opcodeOf n = 0x52 → remoteFirst (accumulateFaults v r) = none →
      let z := fresh (.accumulate r)
      let xf := fld r.var 0 2
      let d := accumulateData y xf (modeOf false (fld r.var 2 2) == some true) (modeOf true (fld r.var 4 2) == some true) r.loc r.bytes
      exec (.accumulateWord t v w) s = .next (s.took t.val v z) ∧
      (c.words = [] → free d.1 → ∃ k s1, sendData t.val v (c.only z) z r 3 (if xf = 0 then 0 else 1) (fld r.len 32 32) (if xf = 0 then 2 else 4)
          (s.stepTag c) d.1 (s.placed t.val v z) = .go (z.sent [k]) s1 ∧
        exec (.accumulateWord t v w) s =
          .next (((s1.setTile t.val { s1.tile t.val with streamC := BitVec.ofNat 128 d.2.1 }).countFormats {} d.2.2).setEng t.val v 0 (z.sent [k])))) ∧
    (opcodeOf n = 0x53 → remoteFirst (atomicFaults v r) = none →
      let z := fresh (.atomic r)
      let aop := fld r.var 0 4
      let data := leBytes 8 r.vals.1 ++ leBytes 8 (if aop = 7 then r.vals.2 else 0)
      exec (.atomicWord t v w) s = .next (s.took t.val v z) ∧
      (c.words = [] → free data → ∃ k s1, sendData t.val v (c.only z) z r 4 aop 0 2 none data (s.placed t.val v z) = .go (z.sent [k]) s1 ∧
        exec (.atomicWord t v w) s = .next (s1.setEng t.val v 0 (z.sent [k]))))

/-- GET, SIGNAL and MULTICAST whose checks pass are accepted by the remote engine. Where the task has no other incomplete word and
R256 holds nothing back, GET and SIGNAL open one transfer to the module that plays the named device and send one frame, a
SIGNAL's in the Vesper class but on channel 16 (the model's reading, log 112); MULTICAST opens one transfer for every other
member of its group, and a multicaster that is a member itself writes its own copy and raises the count of its signal
(the model's reading, log 71). -/
def Obligations.RemoteRequestWords : Prop :=
  ∀ (s : State) (t : TileId) (v : Bool) (w : BitVec 128) (c : Ctx), stands s t v w c →
    let n := w.toNat
    let r := remoteOf n c (c.reg (xregOf n))
    let fresh (op : EngOp) : EngWord := EngWord.fresh op c.off (false, false)
    (opcodeOf n = 0x51 → remoteFirst (getFaults v r) = none →
      let z := fresh (.get r)
      let dst := s.hallFor c.job r.device
      exec (.getWord t v w) s = .next (s.took t.val v z) ∧
      (c.words = [] → s.holdsBack dst r.ch 1 = false →
        let o := (s.placed t.val v z).openXfer (wordXfer t.val v (c.only z) z dst r.ch 1 r.loc r.bytes
          (r.sig.map fun q => (BitVec.ofNat 32 q.1, BitVec.ofNat 32 q.2)) none 1 0)
        let f := { Frame.plain 1 v r.ch dst s.hall c.job o.1 with addr := BitVec.ofNat 64 r.addr, aux := BitVec.ofNat 32 r.bytes }
        exec (.getWord t v w) s = .next ((o.2.sendAll [f]).setEng t.val v 0 (z.sent [o.1])))) ∧
    (opcodeOf n = 0x55 → remoteFirst (signalFaults v r) = none →
      let z := fresh (.signal r)
      let ref := fld r.cnt 0 32
      let dst := s.hallFor c.job (refDevice ref)
      let class' := r.ch != 16
      exec (.signalWord t v w) s = .next (s.took t.val v z) ∧
      (c.words = [] → s.holdsBack dst r.ch 1 = false →
        let o := (s.placed t.val v z).openXfer { wordXfer t.val v (c.only z) z dst r.ch 6 0 0 none none 1 0 with vesper := class' }
        let f := { Frame.plain 6 class' r.ch dst s.hall c.job o.1 with sig := some ⟨BitVec.ofNat 32 ref, BitVec.ofNat 32 r.bytes, 0⟩ }
        exec (.signalWord t v w) s = .next ((o.2.sendAll [f]).setEng t.val v 0 (z.sent [o.1])))) ∧
    (opcodeOf n = 0x54 → remoteFirst (multicastFaults v s c.job r) = none →
      let z := fresh (.multicast r)
      exec (.multicastWord t v w) s = .next (s.took t.val v z) ∧
      (∀ j ds, c.words = [] → s.members c.job r.var = some (j, ds) →
        let others := ds.filter fun d => !s.plays j d
        let data := Mem.bytes (s.tile t.val).scratch r.loc r.bytes
        let p := s.placed t.val v z
        (others.any fun d => s.holdsBack (j.hallOf d) r.ch (frameCount v r.bytes)) = false →
        let own : Option Nat × State := match ds.find? (s.plays j) with
          | none => (none, p)
          | some d => match p.writeMem c.job .tile v (withDevice r.addr d) data with
            | (some f, q) => (some f, q)
            | (none, q) => (match r.sig with | some g => q.raiseCount c.job (refIndex g.1) g.2 0x3FFF | none => (none, q))
        own.1 = none →
        let o := openMembers t.val v (c.only z) z r j data own.2 others
        exec (.multicastWord t v w) s = .next ((o.2.2.sendAll (interleave (frameCount v data.length) o.1)).setEng t.val v 0 (z.sent o.2.1))))

/-! ### Synchronisation and queues -/

/-- The rule by which a target of a count is reached, and every wait that uses it (R275): COUNT_WAIT, mode 2 of PASS and of the
record operations, and the kernels of a package; a kernel's wait on VERDICT_COUNT + 4 is one for an APPLY verdict besides (the
model's reading of R309, log 28). A wait that names a count of another module is F-4101 in its task when its word issues,
recorded as a synchronisation fault (R295), in whose record the value of that count is free (the model's choice, log 97). -/
def Obligations.CountRule : Prop :=
  (∀ (j : JobCtx) (i : Nat) (target : BitVec 32), j.reachedAt i target.toNat = true ↔ (Sp.get 0#32 j.counts i - target).toNat < 2 ^ 31) ∧
  (∀ (s : State) (job : BitVec 16) (t ref target : Nat) (j : JobCtx), s.job? job = some j →
    s.countReached job ref target = j.reachedAt (refIndex ref) target ∧
    (s.awaits t job [(2, ref, target)] = none ↔ j.reachedAt (refIndex ref) target = true) ∧
    (countRefBad ref = false → s.plays j (refDevice ref) = false → s.waitRefFault job ref = some 0x4101)) ∧
  (∀ (j : JobCtx) (i : Nat) (w : Nat × Nat × Nat),
    (j.waitReached i w = true → j.reachedAt (refIndex w.1) ((w.2.1 + i * w.2.2) % 2 ^ 32) = true) ∧
    ((∀ g, j.grad = some g → refIndex w.1 ≠ g.verdictCount + 4) →
      j.waitReached i w = j.reachedAt (refIndex w.1) ((w.2.1 + i * w.2.2) % 2 ^ 32))) ∧
  (∀ (s : State) (t : TileId) (v : Bool) (w : BitVec 128) (c : Ctx), stands s t v w c →
    let n := w.toNat
    let x := c.reg (xregOf n)
    let foreign (ref : Nat) : State := (s.waitFaulted c.job ref 0x4101).faultTask t.val v 0x4101 c.off
    (opcodeOf n = 0x60 → fld n 68 42 = 0 → s.waitRefFault c.job (fld n 0 32) = some 0x4101 →
      exec (.countWait t v w) s = .next (foreign (fld n 0 32))) ∧
    (∀ a p sc, opcodeOf n = 0x30 → stray n [(0, 24), (106, 4), (102, 4)] = false → paramAt v n x 320 = .ok a →
      passPrepare v (memWords (s.tile t.val).scratch a 40) (c.reg (fld n 106 4)) (c.reg (fld n 102 4)) (c.projected (s.tile t.val).mat)
        (s.tile t.val).slotImage = .ok p →
      (s.undeclared t.val v c && p.usesAcc) = false → p.scan = some sc → s.waitFault c.job sc.carryIn sc.waitCount = some (0x4101, sc.waitCount) →
      exec (.pass t v w) s = .next (foreign sc.waitCount)) ∧
    (∀ b, opcodeOf n = 0x32 →
      recPrepare t.val v n x s (fun b => b.yMode != 1 || b.n != 1 || b.rms || b.eps != 0)
        (fun b => recAddrFaults v b.xMode b.x 32 ++ recAddrFaults v 1 b.y 32) = .ok b →
      s.waitFault c.job b.xMode b.xWait = some (0x4101, b.xWait) → exec (.carryCompose t v w) s = .next (foreign b.xWait)) ∧
    (∀ b, opcodeOf n = 0x33 →
      recPrepare t.val v n x s (fun b => b.yMode == 3 || b.rms || b.eps != 0 || (b.xMode == 0 && b.yMode == 0))
        (fun b => recAddrFaults v b.xMode b.x (32 * b.n) ++ recAddrFaults v b.yMode b.y (32 * b.n) ++
          recRowFaults (s.tile t.val).scratch b true) = .ok b →
      (s.waitFault c.job b.xMode b.xWait = some (0x4101, b.xWait) → exec (.rowstatCombine t v w) s = .next (foreign b.xWait)) ∧
      (s.waitFault c.job b.xMode b.xWait = none → s.waitFault c.job b.yMode b.yWait = some (0x4101, b.yWait) →
        exec (.rowstatCombine t v w) s = .next (foreign b.yWait))) ∧
    (∀ b, opcodeOf n = 0x34 →
      recPrepare t.val v n x s (fun b => b.xMode == 0 || b.namesY)
        (fun b => recAddrFaults v b.xMode b.x (32 * b.n) ++ recRowFaults (s.tile t.val).scratch b false ++ when (epsBad b.eps) 0x3504) = .ok b →
      s.waitFault c.job b.xMode b.xWait = some (0x4101, b.xWait) → exec (.rowstatFinalise t v w) s = .next (foreign b.xWait)))

/-- COUNT_WAIT (R275): with a valid COUNT_REF of this module and the target reached the task goes on; not reached, the word waits
and the tile watches the count. -/
def Obligations.CountWait : Prop :=
  ∀ (s : State) (t : TileId) (v : Bool) (w : BitVec 128) (c : Ctx), stands s t v w c →
    let n := w.toNat
    let ref := fld n 0 32
    let target := (fld n 32 32 + c.reg (fld n 64 4)) % 2 ^ 32
    opcodeOf n = 0x60 → fld n 68 42 = 0 → s.waitRefFault c.job ref = none →
    (s.countReached c.job ref target = true → leads (exec (.countWait t v w) s) fun s' => onlyCtx s s' t.val v c.next) ∧
    (s.countReached c.job ref target = false → leads (exec (.countWait t v w) s) fun s' =>
      s'.ctx? t.val v = some { c with waiting := true } ∧ (∀ u, u ≠ t.val → s'.tile u = s.tile u) ∧ s'.mem = s.mem ∧
      ∀ j, s.job? c.job = some j → ∃ j', s'.job? c.job = some j' ∧ (refIndex ref, t.val) ∈ j'.watch ∧ j'.counts = j.counts)

/-- An increment whose count is bound by no pair raises it modulo 2^32, clears its watch bits and wakes the tiles that watch it;
no other count, no byte of memory and no other tile changes (R274, R276). An increment that would raise a producer count
beyond its capacity, or a consumer count beyond its producer, changes no count and is recorded (R278). -/
def Obligations.CountIncrement : Prop :=
  (∀ (s : State) (job : BitVec 16) (ref inc : BitVec 32) (j : JobCtx),
    countRefOk ref = true → 0 < inc.toNat → inc.toNat < 2 ^ 31 → s.refLocal job ref.toNat = true → s.job? job = some j →
    j.pairFault (refIndex ref.toNat) inc.toNat = none →
    let i := refIndex ref.toNat
    leads (exec (.countIncrement job ref inc) s) fun s' => ∃ j', s'.job? job = some j' ∧
      Sp.get 0#32 j'.counts i = Sp.get 0#32 j.counts i + inc ∧ (∀ k, k ≠ i → Sp.get 0#32 j'.counts k = Sp.get 0#32 j.counts k) ∧
      (∀ u, (i, u) ∉ j'.watch) ∧ (∀ u, (i, u) ∉ j.watch → s'.tile u = s.tile u) ∧
      (∀ u, (i, u) ∈ j.watch → (s'.tile u).retained = false ∧ ∀ c, (s'.tile u).noon = some c → c.waiting = false) ∧ s'.mem = s.mem) ∧
  (∀ (s : State) (job : BitVec 16) (ref inc : BitVec 32) (j : JobCtx) (code : Nat),
    countRefOk ref = true → 0 < inc.toNat → inc.toNat < 2 ^ 31 → s.refLocal job ref.toNat = true → s.job? job = some j →
    j.pairFault (refIndex ref.toNat) inc.toNat = some code →
    leads (exec (.countIncrement job ref inc) s) fun s' => s'.jobs = s.jobs ∧ s'.tiles = s.tiles ∧ s'.mem = s.mem ∧
      s'.word 0x4030 = s.word 0x4030 + 1)

/-- BARRIER_ARRIVE without AND_WAIT counts its arrival and goes on, remembering the epoch it counts for; BARRIER_WAIT goes on
once the epoch of the task's last arrival on its slot is released (R284, R288). A valid local arrival counts for the current
epoch while its count is short of ARRIVALS, and for the next one after; the epoch's group is fixed by its first arrival
(R283, R284). -/
def Obligations.BarrierWords : Prop :=
  (∀ (s : State) (t : TileId) (v : Bool) (w : BitVec 128) (c : Ctx), stands s t v w c →
    let n := w.toNat
    let slot := fld n 0 6
    (∀ a e s1, opcodeOf n = 0x61 → fld n 31 79 = 0 → c.arrived = false → flag n 30 = false → groupAt v n (c.reg (xregOf n)) = .ok a →
      let ws := memWords (s.tile t.val).scratch a 2
      s.arriveLocal c.job slot (BitVec.ofNat 64 (nth 0 ws 0), BitVec.ofNat 64 (nth 0 ws 1)) = (.ok e, s1) →
      exec (.barrierArrive t v w) s = .next
        ((s1.updCtx t.val v fun c => { c with arrivals := (slot, e) :: c.arrivals.filter (·.1 != slot) }).advance t.val v)) ∧
    (∀ e j, opcodeOf n = 0x62 → fld n 6 104 = 0 → c.arrivals.find? (·.1 == slot) = some (slot, e) → s.job? c.job = some j →
      ((j.barrier slot).passed e = true → leads (exec (.barrierWait t v w) s) fun s' => onlyCtx s s' t.val v { c with arrived := false }.next) ∧
      ((j.barrier slot).passed e = false → leads (exec (.barrierWait t v w) s) fun s' =>
        onlyCtx s s' t.val v { c with onSlot := some slot, waiting := true }))) ∧
  (∀ (s : State) (job : BitVec 16) (slot : Nat) (g : W64 × W64) (j : JobCtx), s.job? job = some j →
    let b := j.barrier slot
    s.groupBad (s.deviceOf j) g.1.toNat g.2.toNat = false →
    (b.complete = false → (b.group = none ∨ b.group = some g) → (s.arriveLocal job slot g).1 = .ok b.epoch) ∧
    (b.complete = true → b.group1 = none →
      s.arriveLocal job slot g = (.ok (b.epoch + 1), s.setBarrier job slot { b with group1 := some g, count1 := b.count1 + 1 })) ∧
    (b.complete = false → b.group.isSome = true → b.group ≠ some g → (s.arriveLocal job slot g).1 = .error 0x4301 ∧
      (s.arriveLocal job slot g).2.jobs = s.jobs))

/-- HOST_SIGNAL enters its number in the outbound table with the register's payload; HOST_WAIT takes one pending signal of its
number, whose payload enters the register, where the task is the earliest that waits for it (R290, R291). BARRIER_TIMEOUT
fails the current epoch of a slot whose part here has been complete for so long; SIGNAL_OUT sends the first number that has an unreported
signal and no message of its own on the way (R289, R290). -/
def Obligations.HostSignals : Prop :=
  (∀ (s : State) (t : TileId) (v : Bool) (w : BitVec 128) (c : Ctx) (j : JobCtx), stands s t v w c → s.job? c.job = some j →
    
    let n := w.toNat
    (opcodeOf n = 0x63 → fld n 20 90 = 0 → leads (exec (.hostSignal t v w) s) fun s' =>
      s'.ctx? t.val v = some c.next ∧ s'.mem = s.mem ∧ s'.word 0x4040 = s.word 0x4040 + 1 ∧
      ∃ j', s'.job? c.job = some j' ∧ j'.outbound = enterSignal (fld n 0 16) (BitVec.ofNat 64 (c.reg (fld n 16 4))) j.outbound ∧
        j'.counts = j.counts) ∧
    (∀ k p, opcodeOf n = 0x64 → fld n 20 90 = 0 → j.inbox.find? (·.1 == fld n 0 16) = some (fld n 0 16, k, p) → k ≠ 0 →
      (j.hostWaiters.find? (·.1 == fld n 0 16) = none ∨ j.hostWaiters.find? (·.1 == fld n 0 16) = some (fld n 0 16, t.val, v)) →
      leads (exec (.hostWait t v w) s) fun s' =>
        s'.ctx? t.val v = some (c.setReg (fld n 16 4) p.toNat).next ∧ s'.mem = s.mem ∧
        ∃ j', s'.job? c.job = some j' ∧ j'.inbox.find? (·.1 == fld n 0 16) = some (fld n 0 16, k - 1, p) ∧
          (fld n 0 16, t.val, v) ∉ j'.hostWaiters)) ∧
  (∀ (s : State) (job : BitVec 16) (slot : Fin 64) (j : JobCtx), s.job? job = some j →
    ((j.barrier slot.val).since ≠ 0 → s.passed ((j.barrier slot.val).since - 1) (s.cfg.barrierTimeout * 1000000) = true → exec (.barrierTimeout job slot) s = .next (s.barrierFail job slot.val)) ∧
    (∀ n o, j.outbound.find? (fun e => e.2.pend != 0 && e.2.sent.isNone) = some (n, o) →
      let key : BitVec 32 × W64 := match s.conn? j.host.1 with | some c => if c.st = 2 then (c.id, c.txNext) else (0, 0) | none => (0, 0)
      let s1 := s.updJob job fun j => { j with outbound := updFirst (·.1 == n) (fun _ => (n, { o with pend := 0, sent := some key })) j.outbound }
      exec (.signalOut job) s = .next (s1.originate j.host.1 j.host.2 (.signalOut job n (o.pend - 1) o.payload))))

/-- ENQUEUE of a valid descriptor of the issuing package's CLASS to a queue with room: the descriptor, under that package's tag, is
that queue's youngest and the tile is woken. The queue is its home's; where that tile is isolated a PORTABLE descriptor goes to
the nearest in service, and a pinned one ends the package (the model's reading, log 79: R79 speaks of descriptors already
queued). A full queue of another tile holds the word back, the tile's own raises F-3203; a bad descriptor raises its fault, one
of the other CLASS F-3201. QUEUE_STATE returns the lengths of the tile's queue (R24, R61, R66, R79, R183). -/
def Obligations.QueueWords : Prop :=
  ∀ (s : State) (t : TileId) (v : Bool) (w : BitVec 128) (c : Ctx), stands s t v w c →
    let n := w.toNat
    (∀ a, opcodeOf n = 0x70 → stray n [(0, 24)] = false → paramAt v n (c.reg (xregOf n)) 32 = .ok a →
      let ws := memWords (s.tile t.val).scratch a 4
      let d : Desc := ⟨BitVec.ofNat 64 (nth 0 ws 0), BitVec.ofNat 64 (nth 0 ws 1), BitVec.ofNat 64 (nth 0 ws 2), BitVec.ofNat 64 (nth 0 ws 3)⟩
      let pv := match s.pkg? c.desc.tag with | some p => p.vesper | none => c.desc.vesper
      (∀ f, d.bad none = some f → exec (.enqueue t v w) s = .next (s.faultTask t.val v f c.off)) ∧
      (d.bad none = none → d.vesper ≠ pv → exec (.enqueue t v w) s = .next (s.faultTask t.val v 0x3201 c.off)) ∧
      (d.bad none = none → d.vesper = pv → s.homeFor d = none →
        exec (.enqueue t v w) s = .next ((s.losePinned c.desc.tag d).unwoken t.val)) ∧
      ∀ h, d.bad none = none → d.vesper = pv → s.homeFor d = some h →
      ((s.tile h).room d.vesper = true → leads (exec (.enqueue t v w) s) fun s' =>
        s' = (s.enterQueue h (d.withTag c.desc.tag)).advance t.val v ∧
        (s'.tile h).queue = (s.tile h).queue ++ [d.withTag c.desc.tag] ∧
        (∀ u, u ≠ h → u ≠ t.val → s'.tile u = s.tile u) ∧ s'.mem = s.mem) ∧
      ((s.tile h).room d.vesper = false →
        exec (.enqueue t v w) s = .next (if h = t.val then s.faultTask t.val v 0x3203 c.off else s))) ∧
    (opcodeOf n = 0x71 → stray n [(106, 4)] = false →
      let q := (s.tile t.val).queue
      let nv := countIf (fun d : Desc => d.vesper) q
      leads (exec (.queueState t v w) s) fun s' =>
        onlyCtx s s' t.val v (c.setReg (fld n 106 4) (q.length + (q.length - nv) * 2 ^ 8 + nv * 2 ^ 16)).next)

/-! ### Tiles between words -/

/-- ENGINE_WORD_COMPLETE on a tile in service whose words stand as they may: the engine's next word runs to its end and completes,
and what it leaves behind may begin (R162). One that has run and awaits nothing goes out of the task's incomplete words with
memory, scratchpad, registers and every other tile as before; one that awaits replies stays; with no such word nothing
changes. -/
def Obligations.EngineWordCompletes : Prop :=
  ∀ (s : State) (t : TileId) (v : Bool) (e : Fin 4) (waves : Nat) (c : Ctx), (s.tile t.val).isolated = false →
    (e = 3 ∨ (s.tile t.val).engines v = true) → s.beginWords t.val v = s → s.ctx? t.val v = some c →
    (c.nextDone e = none → exec (.engineWordComplete t v e waves) s = .next s) ∧
    (∀ k x, c.nextDone e = some (k, x) →
      exec (.engineWordComplete t v e waves) s = .next ((s.completeWord t.val v c k x waves).beginWords t.val v) ∧
      (x.ran = true → x.waits = [] →
        let z := s.completeWord t.val v c k x waves
        z.ctx? t.val v = some { c with words := c.words.eraseIdx k } ∧ (∀ u, u ≠ t.val → z.tile u = s.tile u) ∧
        (z.tile t.val).scratch = (s.tile t.val).scratch ∧ (z.tile t.val).mat = (s.tile t.val).mat ∧ z.mem = s.mem ∧ z.jobs = s.jobs))

/-- TASK_TAKE (R64): a tile takes the oldest Vesper descriptor of its queue, or with none the oldest Noon descriptor; a Noon task
waits until no task runs, a Vesper task until no Vesper task runs and a Noon task is suspended. Age is the order of entry: a
descriptor enters at the queue's end, a stolen one as it arrives. The task starts as R165 says, and nothing but this tile
changes. -/
def Obligations.TaskTakeStartsTask : Prop :=
  (∀ (s : State) (t : TileId) (d : Desc) (p : Pkg),
    let x := s.tile t.val
    x.isolated = false → x.retained = false → x.vesper = none → (x.noon = none ∨ (d.vesper = true ∧ x.suspended = true)) →
    s.pkg? d.tag = some p →
    (x.queue.find? (·.vesper) = some d ∨ (x.queue.find? (·.vesper) = none ∧ x.queue.head? = some d ∧ d.vesper = false)) →
    leads (exec (.taskTake t) s) fun s' => s'.ctx? t.val d.vesper = some (Ctx.start d p.job t.val) ∧
      s'.ctx? t.val (!d.vesper) = s.ctx? t.val (!d.vesper) ∧ (s'.tile t.val).queue = eraseFirst (· == d) x.queue ∧
      (x.suspended = false → (s'.tile t.val).scratch = x.scratch ∧ (s'.tile t.val).mat = x.mat) ∧ sameBut s s' t.val) ∧
  (∀ (s : State) (u : Nat) (d : Desc), ((s.enterQueue u d).tile u).queue = (s.tile u).queue ++ [d]) ∧
  (∀ (s : State) (victim thief : Nat) (ds : List Desc), victim ≠ thief →
    ((s.steal victim thief ds).tile thief).queue = (s.tile thief).queue ++ ds.map Desc.steal)

/-- STEAL_PROBE and PROBE_SERVE: the first victim of the probe order that hands something over gives it up, of equal descriptors
one each; it stands, marked STOLEN and in its order of age, at the end of the thief's queue, which is woken. PROBE_SERVE
names that victim or changes nothing; an order that finds nothing is counted in PROBES_FAILED and not repeated before a wake
wire fires: the tile then counts as waiting (R67 to R69, R76, R80). -/
def Obligations.StealingMovesDescriptors : Prop :=
  ∀ (s : State) (t victim : TileId) (ds : List Desc), (s.tile t.val).mayProbe = true →
    (∀ u, s.probeOrder t.val = some (u, ds) → exec (.stealProbe t) s = .next (s.steal u t.val ds) ∧
      (u ≠ victim.val → exec (.probeServe victim t) s = .next s)) ∧
    (s.probeOrder t.val = none → leads (exec (.stealProbe t) s) fun s' =>
      (s'.tile t.val).probed = true ∧ (s'.tile t.val).queue = (s.tile t.val).queue ∧ s'.mem = s.mem ∧
      s'.word (0x3130 + 0x40 * dieOf t.val) = s.word (0x3130 + 0x40 * dieOf t.val) + 1 ∧
      exec (.stealProbe t) s' = .next s' ∧ ((s.wake t.val).tile t.val).probed = false) ∧
    (s.probeOrder t.val = some (victim.val, ds) → leads (exec (.probeServe victim t) s) fun s' =>
      s' = s.steal victim.val t.val ds ∧ ds ≠ [] ∧ victim ≠ t ∧
      (∀ d, (s'.tile victim.val).queue.count d + ds.count d = (s.tile victim.val).queue.count d) ∧
      (s'.tile t.val).queue = (s.tile t.val).queue ++ ds.map Desc.steal ∧ (s'.tile t.val).retained = false)

/-- What is eligible and what is handed over (R67, R69, R70, R73). A Noon descriptor is eligible where it is PORTABLE, not STOLEN
and the thief within its SCOPE, across dies with SCOPE 3 only; a Vesper one under the four further conditions of R73. An
isolated or retained tile hands over nothing. Without an eligible Vesper descriptor the youngest max(1, e / 2) of the e
eligible go; with one it alone goes. A stolen descriptor is not eligible again. -/
def Obligations.StealingEligibility : Prop :=
  (∀ (s : State) (victim thief older : Nat) (d : Desc), s.eligible victim thief older d = true ↔
    d.portable = true ∧ d.stolen = false ∧ inScope d thief = true ∧
    (d.vesper = false → dieOf victim = dieOf thief ∨ d.scope = 3) ∧
    (d.vesper = true → dieOf victim = dieOf thief ∧ (s.tile thief).queue.any (·.vesper) = false ∧ d.cost ≤ s.cfg.vesperStealLimit ∧ 1024 ≤ older)) ∧
  (∀ (s : State) (victim thief : Nat) (pre : List Desc) (d : Desc) (post : List Desc),
    (s.tile victim).isolated = false → (s.tile victim).retained = false → (s.tile victim).queue = pre ++ d :: post →
    s.eligible victim thief (sumNat ((pre.filter (·.vesper)).map Desc.cost)) d = true → d ∈ s.eligibles victim thief) ∧
  (∀ (s : State) (victim thief : Nat), List.Sublist (s.eligibles victim thief) (s.tile victim).queue ∧
    ((s.tile victim).isolated = true ∨ (s.tile victim).retained = true → s.handed victim thief = []) ∧
    (let es := s.eligibles victim thief
     (es = [] → s.handed victim thief = []) ∧
     (∀ d, (es.filter (·.vesper)).getLast? = some d → s.handed victim thief = [d]) ∧
     (es ≠ [] → es.any (·.vesper) = false → (dieOf victim = dieOf thief ∨ s.cfg.crossDieMin ≤ es.length) →
       ∃ older, es = older ++ s.handed victim thief ∧ (s.handed victim thief).length = max 1 (es.length / 2)) ∧
     (es.any (·.vesper) = false → dieOf victim ≠ dieOf thief → es.length < s.cfg.crossDieMin → s.handed victim thief = []))) ∧
  (∀ d : Desc, d.steal.stolen = true ∧ d.steal.portable = d.portable ∧ d.steal.vesper = d.vesper ∧ d.steal.home = d.home ∧ d.steal.tag = d.tag) ∧
  (Cfg.start.crossDieMin = 8 ∧ Cfg.start.vesperStealLimit = 4096) ∧
  (∀ (s : State) (u t : TileId), (s.tile t.val).isolated = true ∨ (s.tile t.val).retained = true →
    exec (.stealProbe t) s = .next s ∧ exec (.probeServe u t) s = .next s)

/-- VESPER_SUSPEND stops the Noon task and its words in progress for a queued Vesper descriptor, and NOON_RESUME lets them go on once
no Vesper task runs or is queued; neither changes its registers or its position (R72). SUSPEND_OVERRUN isolates the tile, and
RETENTION_WAKE_FAILURE one that has not issued since a wire woke it (R77, R79): the fault is recorded and logged, the tile's queue
is empty, the packages that lose a task are no longer held, and each PORTABLE descriptor goes to the nearest tile in service
that has room, or is lost where none has. That a full queue is passed over is the model's choice (log 116), as are the task
that the record names (log 117) and that the abandonment wakes every tile (log 111). A tile all of whose engines wait, with an empty queue, enters retention, and a wake wire ends retention and lets every waiting
word recheck, but in safe mode, which holds every tile in retention (R74, R76, R77, R442). -/
def Obligations.TileConditions : Prop :=
  (∀ (s : State) (t : TileId) (c : Ctx), (s.tile t.val).noon = some c → (s.tile t.val).isolated = false →
    ((s.tile t.val).suspended = false → (s.tile t.val).queue.any (·.vesper) = true →
      exec (.vesperSuspend t) s = .next (s.suspendNoon t.val) ∧
      (c.words.any EngWord.midst = false → (s.suspendNoon t.val).tile t.val = { s.tile t.val with suspended := true } ∧
        sameBut s (s.suspendNoon t.val) t.val)) ∧
    ((s.tile t.val).suspended = true → (s.tile t.val).vesper = none → (s.tile t.val).queue.any (·.vesper) = false →
      let z := (s.setTile t.val { (s.tile t.val).restoreBanks with suspended := false }).wake t.val
      exec (.noonResume t) s = .next (z.beginWords t.val false) ∧ (z.tile t.val).suspended = false ∧
        (z.tile t.val).noon = some { c with waiting := false } ∧ (z.tile t.val).scratch = (s.tile t.val).scratch ∧ (z.tile t.val).save = none ∧
        sameBut s z t.val)) ∧
  (∀ (s : State) (t : TileId),
    ((s.tile t.val).noon.isSome = true → (s.tile t.val).suspended = false → (s.tile t.val).queue.any (·.vesper) = true →
      exec (.suspendOverrun t) s = .next (s.isolate t.val 0x3205)) ∧
    ((s.tile t.val).woken = true → exec (.retentionWakeFailure t) s = .next (s.isolate t.val 0x3206)) ∧
    ((s.tile t.val).isolated = false → ∀ code,
      let x := s.tile t.val
      let z := s.isolate t.val code
      let d := ((x.vesper.map (·.desc)).toList ++ (x.noon.map (·.desc)).toList).headD ⟨0, 0, 0, 0⟩
      let r : W64 × W64 := (BitVec.ofNat 64 (code + t.val * 2 ^ 16 + d.kernel * 2 ^ 26 + d.index * 2 ^ 42 + d.tag * 2 ^ 58), 0)
      (z.tile t.val).isolated = true ∧ (z.tile t.val).queue = [] ∧ (∀ g ∈ s.lostWith t.val, z.pkg? g = none) ∧
      (s.lostWith t.val = [] → x.queue = [] → z.word 0x3800 = s.word 0x3800 + 1 ∧ z.pkgs = s.pkgs ∧ z.health.points = s.health.points + 150 ∧
        z.log = ((s.record 0x3800 16 r).logEvent code ((x.vesper.orElse fun _ => x.noon).map (·.job)) r).log)) ∧
    (∀ (d : Desc) (u : Nat),
      (nearestThat t.val (fun u => !(s.tile u).isolated && (s.tile u).room d.vesper) = some u → s.moveDescs t.val [d] = (s.enterQueue u d, [])) ∧
      (nearestThat t.val (fun u => !(s.tile u).isolated && (s.tile u).room d.vesper) = none → s.moveDescs t.val [d] = (s, [d.tag])))) ∧
  (∀ (s : State) (t : TileId) (wire : Fin 6), (s.tile t.val).isolated = false →
    ((s.tile t.val).allWait = true → (s.tile t.val).queue = [] → (s.tile t.val).retained = false →
      leads (exec (.retentionEntry t) s) fun s' => s'.tile t.val = { s.tile t.val with retained := true, woken := false } ∧ sameBut s s' t.val) ∧
    (s.start.phase = .safe → exec (.wakeWire t wire) s = .next s) ∧
    (s.start.phase ≠ .safe → (wire ≠ 1 ∨ s.surplusFor t.val = true) → leads (exec (.wakeWire t wire) s) fun s' =>
      (s'.tile t.val).retained = false ∧ (s'.tile t.val).queue = (s.tile t.val).queue ∧
      ((s.tile t.val).retained = true → (s'.tile t.val).woken = true) ∧
      (∀ v c, (s'.tile t.val).ctx v = some c → c.waiting = false) ∧ sameBut s s' t.val))

/-- STATUS_REFRESH of every block, on a module that is not held in reset: at a 1-second boundary both published copies of the
block take its words as they stand, one with the rounding of R414 and one without, TILE_BUSY of block 3 anew (R80, R81, R354,
R414; that the copy without rounding is refreshed then too is the model's choice, log 131). Every 1 ms, while a session holds
an unlock and in the blocks of the rules that R414 lists, the copy without rounding takes its words and every reader's copy
the records. Each raises the block's SNAPSHOT_SEQ (for the 1 ms refreshes the model's choice, log 118); without an unlock, and in
another block, a 1 ms refresh does nothing. -/
def Obligations.StatusRefreshPublishes : Prop :=
  ∀ (s : State) (block : Fin 12) (busy : List (Nat × Nat)), s.start.phase ≠ .off →
    let s1 := match seqWord block.val with | some k => s.bump k 1 | none => s
    (s.unlockLevel ≠ 0 → msBlock block.val = true → leads (exec (.statusRefresh block true busy) s) fun s' =>
      s' = { s1 with pubExact := s1.publish true block.val s1.pubExact, pub := s1.publishRecords block.val s1.pub }) ∧
    (s.unlockLevel = 0 ∨ msBlock block.val = false → exec (.statusRefresh block true busy) s = .next s) ∧
    (let s2 := if block = 3 then (s1.clearBusy 72).setBusy busy else s1
     leads (exec (.statusRefresh block false busy) s) fun s' =>
      s'.pub = s2.publish false block.val s1.pub ∧ s'.pubExact = s2.publish true block.val s1.pubExact ∧ s'.stat = s2.stat ∧ s'.mem = s.mem ∧
      s'.tiles = s.tiles ∧ s'.jobs = s.jobs ∧ (∀ k, seqWord block.val = some k → s'.word k = s.word k + 1)) ∧
    (∀ ms, exec (.statusRefresh block ms busy) { s with start := { s.start with phase := .off } } = .next { s with start := { s.start with phase := .off } })

/-! ### Packages -/

/-- KERNEL_READY, SEQUENCER_WRITE and SEQUENCER_CONTROL_MESSAGE: a kernel that may start becomes ready and any other does
not; one held for a layer that it reads, or on a die whose message of the step has not come, may not start; a ready kernel's
task is written to its home once room exists; a descriptor that is refused is recorded, with a record whose tile, where it
names none, is HOME_TILE modulo 1,024 (the model's choice, log 117), and ends its package. A task whose home is isolated goes to
the nearest tile in service, and one that is pinned there ends its package (the model's reading, log 79: R79 speaks of
descriptors already queued). The oldest message on its way to a die reaches it, and with it its own event only; the messages to
one die keep their order (the model's choice, log 136) (R21, R22, R24, R29, R61, R65, R79, R82). -/
def Obligations.SequencersWriteTasks : Prop :=
  ∀ (s : State) (d : DieId) (tag : Nat) (kernel : BitVec 16) (p : Pkg) (k : Kernel), s.pkg? tag = some p → p.kernel? kernel.toNat = some k →
    (s.kernelMayStart d.val p k = true → leads (exec (.kernelReady d tag kernel) s) fun s' =>
      (∃ q, s'.pkg? tag = some q ∧ q.ready = p.ready ++ [k.id] ∧ q.written = p.written) ∧ s'.tiles = s.tiles ∧ s'.mem = s.mem) ∧
    (s.kernelMayStart d.val p k = false → exec (.kernelReady d tag kernel) s = .next s) ∧
    (∀ j, s.job? p.job = some j → s.kernelMayStart d.val p k = true → p.layerHeld j k = false ∧ (d.val, none) ∉ p.untold) ∧
    (∀ index x, p.task k index = some x → p.running = true → k.die = d.val → p.ready.contains k.id = true →
      p.written.contains (k.id, index) = false → p.inOrder k index x.home = true →
      (∀ h, p.descBad k x = none → s.homeFor x = some h → (s.tile h).room x.vesper = true → (p.vesper = true ∨ s.vesperFirst d.val = false) →
        leads (exec (.sequencerWrite d tag kernel index) s) fun s' =>
          (s'.tile h).queue = (s.tile h).queue ++ [x.withTag tag] ∧
          (∃ q, s'.pkg? tag = some q ∧ q.written = p.written ++ [(k.id, index)]) ∧ s'.mem = s.mem) ∧
      (p.descBad k x = none → s.homeFor x = none → exec (.sequencerWrite d tag kernel index) s = .next (s.losePinned tag x)) ∧
      (∀ f, p.descBad k x = some f → leads (exec (.sequencerWrite d tag kernel index) s) fun s' => s'.pkg? tag = none ∧
        let r : W64 × W64 := (BitVec.ofNat 64 (f + x.home % 1024 * 2 ^ 16 + k.id * 2 ^ 26 + index * 2 ^ 42 + tag * 2 ^ 58), 0)
        s' = ((s.record 0x3800 16 r).logAs 1 f (some p.job) r).abandon tag f (x.home % 1024) k.id index false)) ∧
    leads (exec (.sequencerControlMessage d tag) s) fun s' =>
      (∃ q, s'.pkg? tag = some q ∧ q.untold = eraseFirst (·.1 == d.val) p.untold ∧ q.ready = p.ready) ∧ s'.tiles = s.tiles ∧ s'.mem = s.mem

/-- PACKAGE_START of a package that may start, and STEP_START of a training package whose step is over and after which no
window is due, each once no ACCUMULATE of two steps before is unanswered: the step number rises by one, no kernel is ready, no
task is written or ended, and the sequencers of dies 1 to 3 await their message (R20, R22, R23, R302, R343). LAYER_FLIP, once
the readers of the layer have ended and its slot has landed: the frames of the layer's working pages and its slot's pages are
exchanged, the slot passes on, and dies 1 to 3 are to be told (R22, R28, R29). PACKAGE_COMPLETE: once the last step is over, its
record is complete and its COMPLETE can be handed over, COMPLETE goes to the connection that submitted the package, and the
package is no longer held; until then nothing changes (R358, R390). That a package's rights and maps are installed as it starts
is log 43, and that the norm entries of a step are settled at these commands is log 78, both the model's choices. -/
def Obligations.PackagesAndSteps : Prop :=
  (∀ (s : State) (tag : Nat) (p : Pkg), s.pkg? tag = some p →
    let paced : Prop := p.kind = 1 → ∀ j, s.job? p.job = some j → 1 ≤ j.step → ∀ x ∈ s.xfers, x.job = p.job → x.step ≠ some (j.step - 1)
    (s.mayStart p = true → paced →
      let s0 := match p.blocks with | some b => s.installBlocks p.job p.vesper b | none => s
      let s1 := if p.kind = 2 then s0.evalStreams p.seed 576 else s0
      let s2 := (s1.firstGrants p).beginStep tag
      exec (.packageStart tag) s = .next (if p.kind = 3 then s2.report p else s2)) ∧
    (p.running = true → p.kind = 1 → p.step < p.stepCount → s.stepOver p = true → s.windowOpen p.job = false → s.windowDue p.job = false → paced →
      exec (.stepStart tag) s = .next ((s.settleNorms p.job).beginStep tag)) ∧
    ∃ q, (s.beginStep tag).pkg? tag = some q ∧ q.running = true ∧ q.step = p.step + 1 ∧ q.ready = [] ∧ q.written = [] ∧ q.ended = [] ∧
      q.untold = p.untold ++ [(1, none), (2, none), (3, none)]) ∧
  (∀ (s : State) (tag layer : Nat) (p : Pkg) (x : Landing) (j : JobCtx) (y : Layer), s.pkg? tag = some p → p.landing = some x →
    s.job? p.job = some j → x.layers[layer]? = some y → p.running = true → j.skipped.contains (Sp.get 0 j.flips layer + 1) = false →
    j.slotTurn x layer y.slot = true → p.readersEnded j layer = true →
    y.total ≤ ((Sp.get 0#32 j.counts y.landed) - (Sp.get 0#32 j.landedAt y.landed)).toNat →
    let b := match x.slots[y.slot]? with | some q => q.1 | none => y.vpage
    let told := ((s.updJob p.job fun j => { j with pages := swapPages y.vpage b y.pages j.pages }).passSlot p.job x layer y).updPkg tag
      (·.tell (some layer))
    exec (.layerFlip tag layer) s = .next ((told.settleSkips p.job x).settleNorms p.job) ∧
      ∀ d ∈ [1, 2, 3], ∃ q, told.pkg? tag = some q ∧ (d, some layer) ∈ q.untold) ∧
  (∀ (s : State) (tag : Nat) (p : Pkg), s.pkg? tag = some p → p.running = true → p.step = p.stepCount → p.kind ≠ 3 → s.stepOver p = true →
    let s0 := if p.kind = 1 then s.settleNorms p.job else s
    s0.recordDone p = true →
    (s0.handsOver p.conn = false → exec (.packageComplete tag) s = .next s) ∧
    (s0.handsOver p.conn = true →
    let s1 := s0.originate p.conn p.hostKey (.complete p.pid p.job p.step (s.elapsed p) (s.onTime p))
    exec (.packageComplete tag) s = .next (((if p.vesper && s.onTime p then s1.bump 0xA120 1 else s1).bump 0x7058 1).removePkg tag)))

/-! ### Stacked memory -/

/-- CHANNEL_REQUEST on a module out of reset serves the request that R189 names, in a channel in service with no refresh due: its
command and data pass the channel's crossings, a write's burst before its command (R449, R450; the command's layout is the
model's, log 121), the beats that it reads are checked each (R193; which they are, and that the request's task raises what it
meets, is the model's reading, log 53; a beat with more than two bad symbols, log 120), a read whose data overran is reissued
(R453), it takes its effect, and the rotation of its class moves past its requester. A refresh that is due goes first (when it is
due is the model's reading, log 119); every request of a failed channel raises F-1304 (R200). The controller serves Vesper before Noon, and of a class the oldest request of the requester whose turn
it is (R189). One erroneous symbol is always corrected, two are detected, a beat of a wrong address is uncorrectable. -/
def Obligations.ChannelRequests : Prop :=
  (∀ (s : State) (ch : TileId) (qs : List ChReq), s.alive = true →
    (Sp.get false s.mem.failed ch.val = true → exec (.channelRequest ch qs) s = .next (s.refuseAll qs)) ∧
    (Sp.get false s.mem.failed ch.val = false → s.refreshDue ch.val = true → exec (.channelRequest ch qs) s = .next s) ∧
    (∀ q, Sp.get false s.mem.failed ch.val = false → s.refreshDue ch.val = false →
      nextRequest (fun v => Sp.get 0 s.mem.turn (ch.val * 2 + bit v)) qs = some q → chOk q = true →
      let s1 : State := { s with mem := { s.mem with turn := Sp.put 0 s.mem.turn (ch.val * 2 + bit q.vesper) (q.requester + 1) } }
      let s2 := ((s1.dramItems ch.val q).observeAll ch.val (chReadBeats q) q.errors).serveOver ch.val q
      exec (.channelRequest ch qs) s = .next (match s2.1 with | none => s2.2 | some f => s2.2.faultOf q f) ∧
      (∀ d, q.op = .write d → q.errors = [] → q.overruns = 0 → s.mem.poison = [] → leads (exec (.channelRequest ch qs) s) fun s' =>
        Mem.bytes s'.mem.dram (ch.val * 2 ^ 32 + q.addr.toNat) d.length = d ∧ s'.tiles = s.tiles ∧ s'.jobs = s.jobs))) ∧
  (∀ e : BeatErr, (e.wrongAddress = true → beatCheck e = .uncorrectable) ∧
    (∀ a, e.wrongAddress = false → e.symbols = [a] → beatCheck e = .corrected) ∧
    (∀ a b, e.wrongAddress = false → a ≠ b → e.symbols = [a, b] → beatCheck e = .uncorrectable)) ∧
  (∀ (turn : Bool → Nat) (qs : List ChReq),
    (qs ≠ [] → ∃ q, nextRequest turn qs = some q) ∧
    ∀ q, nextRequest turn qs = some q →
      q ∈ qs ∧ (q.vesper = false → ∀ r ∈ qs, r.vesper = false) ∧
      (∀ r ∈ qs, r.vesper = q.vesper → turn q.vesper ≤ r.requester → turn q.vesper ≤ q.requester ∧ q.requester ≤ r.requester) ∧
      ((∀ r ∈ qs, r.vesper = q.vesper → r.requester < turn q.vesper) → ∀ r ∈ qs, r.vesper = q.vesper → q.requester ≤ r.requester) ∧
      qs.find? (fun x => x.vesper == q.vesper && x.requester == q.requester) = some q)

/-- The atomic operations of Table 07-19 on a 64-bit word (R212): each writes this value; a code above 8 is reserved. -/
def Obligations.AtomicOperations : Prop :=
  ∀ (old x store : BitVec 64),
    atomicOp 0 old.toNat x.toNat store.toNat = some (old + x).toNat ∧ atomicOp 1 old.toNat x.toNat store.toNat = some (old &&& x).toNat ∧
    atomicOp 2 old.toNat x.toNat store.toNat = some (old ||| x).toNat ∧ atomicOp 3 old.toNat x.toNat store.toNat = some (old ^^^ x).toNat ∧
    atomicOp 4 old.toNat x.toNat store.toNat = some (if old.toInt ≤ x.toInt then old else x).toNat ∧
    atomicOp 5 old.toNat x.toNat store.toNat = some (if old.toInt ≤ x.toInt then x else old).toNat ∧
    atomicOp 6 old.toNat x.toNat store.toNat = some x.toNat ∧
    atomicOp 7 old.toNat x.toNat store.toNat = some (if old = x then store else old).toNat ∧
    atomicOp 8 old.toNat x.toNat store.toNat = some (old.toNat / 2 ^ 32 * 2 ^ 32 + addF32 (old.toNat % 2 ^ 32) (x.toNat % 2 ^ 32)) ∧
    ∀ k, 8 < k → atomicOp k old.toNat x.toNat store.toNat = none

/-- REFRESH in time is noted for its bank and changes nothing else; one that came too late fails the channel (R196). PATROL_SCRUB
moves the scrub to the next beat of the channel and changes no byte of a clean beat; the last beat ends a pass; a beat found
uncorrectable stays so (R197). CHANNEL_FAIL takes a channel in service out of it: its packages are abandoned as a hardware
failure, and its data is gone while every byte of the other channels stands (R200). STACK_SENSOR_READ keeps the reading
and the highest, and since when every sensor of the module has read 90 degrees or below; below 97 degrees it starts no hold, at
97 it does, and every running package is abandoned; under a hold refresh goes on at 32 ms. THERMAL_HOLD_RELEASE ends the hold
once every sensor has read 90 degrees or below for 10 s, and does nothing before (R196, R201). A module held in reset does none
of this (R459). -/
def Obligations.ChannelCare : Prop :=
  (∀ (s : State) (ch : TileId) (bank : Nat) (e : BeatErr), s.alive = true → Sp.get false s.mem.failed ch.val = false →
    let at' := Sp.get 0 s.mem.scrubPos ch.val
    (leads (exec (.refresh ch bank false) s) fun s' => Sp.get 0 s'.mem.refreshedAt (ch.val * 2 ^ 16 + bank % 2 ^ 16) = s.now + 1 ∧
      s' = { s with mem := { s.mem with refreshedAt := s'.mem.refreshedAt } }) ∧
    (leads (exec (.refresh ch bank true) s) fun s' => Sp.get false s'.mem.failed ch.val = true) ∧
    (Sp.get false s.mem.poison (ch.val * 2 ^ 27 + at') = false →
      (beatCheck e = .clean → leads (exec (.patrolScrub ch e) s) fun s' =>
        Sp.get 0 s'.mem.scrubPos ch.val = (if at' + 1 = 2 ^ 27 then 0 else at' + 1) ∧
        s'.mem.dram = s.mem.dram ∧ s'.mem.poison = s.mem.poison ∧ s'.tiles = s.tiles ∧ s'.jobs = s.jobs) ∧
      (beatCheck e = .uncorrectable → leads (exec (.patrolScrub ch e) s) fun s' =>
        Sp.get false s'.mem.poison (ch.val * 2 ^ 27 + at') = true ∧ s'.mem.dram = s.mem.dram))) ∧
  (∀ (s : State) (ch : TileId),
    exec (.channelFail ch) s = .next (if s.alive then s.failChannel ch.val else s) ∧
    (Sp.get false s.mem.failed ch.val = false →
      (∀ g ∈ s.pkgsOn ch.val, (s.failChannel ch.val).pkg? g = none) ∧
      (s.pkgs = [] ∨ (s.pkgsOn ch.val = [] ∧ s.mem.failed.length + 1 < 576) →
        (s.failChannel ch.val).mem.failed = Sp.put false s.mem.failed ch.val true ∧
        ∀ k, (s.failChannel ch.val).byteAt (.dram k) = if k / 2 ^ 32 = ch.val then 0 else s.byteAt (.dram k)))) ∧
  (∀ (s : State) (stack : Fin 24) (a b : Celsius), s.start.phase ≠ .off →
    (max a b < 97 → leads (exec (.stackSensorRead stack a b) s) fun s' =>
      Sp.get 0 s'.mem.temp stack.val = shown (max a b) ∧
      Sp.get 0 s'.mem.tempMax stack.val = max (Sp.get 0 s.mem.tempMax stack.val) (shown (max a b)) ∧
      (s.mem.hold = true → Sp.get false s'.mem.slow stack.val = false) ∧
      s'.mem.below = (if (Sp.put 0 s.mem.temp stack.val (shown (max a b))).any (fun e => decide (90 < e.2)) then 0
        else if s.mem.below = 0 then s.now + 1 else s.mem.below) ∧
      s'.mem.hold = s.mem.hold ∧ s'.mem.dram = s.mem.dram ∧ s'.pkgs = s.pkgs ∧ s'.tiles = s.tiles) ∧
    (97 ≤ max a b → leads (exec (.stackSensorRead stack a b) s) fun s' =>
      s'.mem.hold = true ∧ s'.mem.slow = [] ∧ (∀ g ∈ s.running, s'.pkg? g = none) ∧ (s.running = [] → s'.mem.dram = s.mem.dram)) ∧
    (∀ t0, s.mem.hold = true → s.mem.below = t0 + 1 →
      (s.passed t0 10000000000 = true → leads (exec .thermalHoldRelease s) fun s' =>
        s'.mem = { s.mem with hold := false } ∧ 0x1301 ∉ s'.health.immediate) ∧
      (s.passed t0 10000000000 = false → exec .thermalHoldRelease s = .next s)) ∧
    (s.mem.hold = true → s.mem.below = 0 → exec .thermalHoldRelease s = .next s))

/-! ### The fabric -/

/-- FRAME_RECEIVE of a frame of this port that verifies, is in order, holds credit and breaks no rule: it is passed to the switch,
an acknowledgement is owed, the next LINK_SEQ of its class is expected, and its PN cannot come again under its AN, while the
packet numbers of the other ANs stay (R242, R254, R257, R413). A frame that FEC, ICV, FCS, SecTAG or replay protection shows bad,
and one that finds the receive crossing full, is not passed on, and a NAK of its class is outstanding after it; that overrun is
recorded (R257, R413, R453). In all three the port's RX_BYTES and FEC_CORRECTED rise by the frame's bytes and codewords (R271). A
frame of another address is a violation (R242, R267). A frame on a port whose PHY is down cannot be, and changes nothing (log
17). The packet numbers are those of log 122. -/
def Obligations.FrameReceive : Prop :=
  ∀ (s : State) (p : PortId) (rx : RxFrame),
    let f := rx.frame
    let x := s.port p.val
    let counted (s' : State) : Prop :=
      s'.word (0x2110 + 0x40 * p.val) = s.word (0x2110 + 0x40 * p.val) + BitVec.ofNat 64 f.wireBytes ∧
      s'.word (0x2128 + 0x40 * p.val) = s.word (0x2128 + 0x40 * p.val) + BitVec.ofNat 64 rx.corrected
    let damaged (s' : State) : Prop := counted s' ∧ (s'.port p.val).rxq = x.rxq ∧ (s'.port p.val).inbox = x.inbox ∧
      (if f.vesper then (s'.port p.val).nakV = true else (s'.port p.val).nakN = true) ∧ s'.mem = s.mem ∧ s'.jobs = s.jobs
    (p.val < 40 → x.phy = false → exec (.frameReceive p rx) s = .next s) ∧
    (p.val < 40 → x.phy = true →
    (rx.overrun = true → leads (exec (.frameReceive p rx) s) fun s' => damaged s' ∧ (s'.crossing (portRx p.val)).overrun = true) ∧
    (rx.overrun = false → s.verifies p.val rx = false → leads (exec (.frameReceive p rx) s) damaged) ∧
    (rx.overrun = false → s.verifies p.val rx = true →
      (rx.hdr.dst ≠ macOf s.hall p.val → ∃ s2 : State, (s2.port p.val).rxq = x.rxq ∧ s2.mem = s.mem ∧ s2.jobs = s.jobs ∧
        exec (.frameReceive p rx) s = .next ((s2.violation p.val 0x2301 f false).police p.val)) ∧
      (rx.hdr.inner = 0x88B5 → rx.hdr.dst = macOf s.hall p.val → f.op ≠ 0xE → x.linked = true → f.ackValid = false →
        f.linkSeq = (if f.vesper then x.rxV else x.rxN) → x.credited f = true →
        headerBad f = false → opBad f = false → s.routeBad p.val f = false →
        leads (exec (.frameReceive p rx) s) fun s' =>
          (s'.port p.val).rxq = x.rxq ++ [{ f with nonmin := f.nonmin || s.nonminimal p.val f }] ∧
          (s'.port p.val).rxV = (if f.vesper then x.rxV + 1 else x.rxV) ∧ (s'.port p.val).rxN = (if f.vesper then x.rxN else x.rxN + 1) ∧
          (s'.port p.val).ackOwed = true ∧
          (s'.port p.val).rxPn = Sp.put 1 x.rxPn rx.hdr.an.toNat (wholePn (x.nextPn rx.hdr.an) rx.hdr.pn.toNat + 1) ∧ counted s' ∧
          (∀ q, q ≠ p.val → s'.port q = s.port q) ∧ s'.mem = s.mem ∧ s'.jobs = s.jobs ∧ s'.tiles = s.tiles)))

/-- FRAME_FORWARD delivers a frame that is at its destination to its port's slice, and sends another on at the exit that its
route names, one hop further; either way its buffer is free and its credit owed (R251, R254). FRAME_TRANSMIT on an UP port
with nothing to resend and no LINK_CTRL frame waiting: the frame that R262 names leaves under the next LINK_SEQ of its class
with the port's acknowledgements, stays in the replay buffer and takes its credit; a resend goes out as it stands, before all
else, and a waiting LINK_CTRL frame next (R254, R257). A frame whose transmit crossing ran empty leaves with an invalid FCS and
is recorded (R453). A port whose PN is spent goes down with F-8402 (R413). Without HALL_CAK nothing leaves (R411). On P40, P41 and
the service link the command is the underrun alone, which is recorded (R453): that is the model's choice (log 99), as is the
class and the queue of a LINK_CTRL frame (log 31). -/
def Obligations.FrameForwardAndTransmit : Prop :=
  (∀ (s : State) (p : PortId) (f : Frame), (s.port p.val).head = some f →
    let s1 := (s.setPort p.val { s.port p.val with rxq := eraseFirst (· == f) (s.port p.val).rxq }).freeBuffer p.val f
    (f.dst.toNat = s.hall → exec (.frameForward p) s = .next (s1.deliver p.val f)) ∧
    (∀ e, f.dst.toNat ≠ s.hall → f.hops.toNat < 6 → s1.routeOf { f with detour := false } = some e →
      exec (.frameForward p) s = .next (s1.queueAt e { f with detour := false })) ∧
    (f.dst.toNat ≠ s.hall → f.op ≠ 0xD → (6 ≤ f.hops.toNat ∨ s1.routeOf { f with detour := false } = none) → exec (.frameForward p) s = .next (s1.unreachable p.val f))) ∧
  (∀ (s : State) (p : Fin 43),
    (p.val < 40 → (s.port p.val).phy = true → s.sec.hallCak = none → ∀ u, exec (.frameTransmit ⟨p, u⟩) s = .next s) ∧
    (40 ≤ p.val → exec (.frameTransmit ⟨p, false⟩) s = .next s) ∧
    (p.val = 40 ∨ p.val = 41 → (s.port p.val).phy = true → leads (exec (.frameTransmit ⟨p, true⟩) s) fun s' =>
      (s'.crossing (portTx p.val)).overrun = true ∧ s'.out = s.out ++ [.spoiled p.val] ∧ s'.mem = s.mem ∧ s'.conns = s.conns) ∧
    (p.val = 42 → s.start.phase ≠ .off → leads (exec (.frameTransmit ⟨p, true⟩) s) fun s' =>
      (s'.crossing serviceTx).overrun = true ∧ s'.out = s.out ++ [.spoiled p.val] ∧ s'.mem = s.mem ∧ s'.conns = s.conns)) ∧
  (∀ (s : State) (p : Fin 43) (underrun : Bool) (f : Frame),
    let x := s.port p.val
    let s1 := if underrun && s.sends x then s.portOverrun p.val false else s
    p.val < 40 → x.phy = true → s.sec.hallCak.isSome = true →
    (x.spent = true → exec (.frameTransmit ⟨p, underrun⟩) s = .next ((s.secFault 0x8402 0 0).linkLost p.val false)) ∧
    (x.spent = false →
      (x.st = 2 → x.resend = [] → x.ctrlq = [] → exec (.frameTransmit ⟨p, underrun⟩) s = .next (match s.nextOut x with
        | none => s
        | some f =>
          let g := { f with linkSeq := if f.vesper then x.txV else x.txN, ackVesper := x.rxV, ackNoon := x.rxN, ackValid := true }
          let k := bufKey f.vesper f.hops.toNat
          ((s1.left f).setPort p.val
            { x with txqV := if f.vesper then eraseFirst (· == f) x.txqV else x.txqV, txqN := if f.vesper then x.txqN else eraseFirst (· == f) x.txqN,
                     txV := if f.vesper then x.txV + 1 else x.txV, txN := if f.vesper then x.txN else x.txN + 1,
                     used := Sp.put 0 x.used k (Sp.get 0 x.used k + units f), replay := x.replay ++ [g],
                     ackAt := if x.replay.isEmpty then s1.now else x.ackAt }).sent p.val (!underrun) g)) ∧
      (∀ rest, x.resend = f :: rest → f.vesper = true →
        exec (.frameTransmit ⟨p, underrun⟩) s = .next ((s1.setPort p.val { x with resend := rest }).sent p.val (!underrun)
          { f with ackVesper := x.rxV, ackNoon := x.rxN, ackValid := true })) ∧
      (∀ rest, x.resend = [] → x.ctrlq = f :: rest → x.hasReplay f = true → leads (exec (.frameTransmit ⟨p, underrun⟩) s) fun s' =>
        (s'.port p.val).ctrlq = rest ∧ (s'.port p.val).replay = x.replay ++ [x.stamp f] ∧ s'.mem = s.mem ∧ s'.jobs = s.jobs)))

/-- WRITE and MULTICAST frames are written at their address and credited to their transfer; the ACK goes once it is whole; a
frame whose write faults is answered with the code (R247, R248, R279). A request for a job without a context here is answered
F-1202 and counted, one beyond its tracker is a violation, and a new transfer without a free tally is recorded and answered
F-4103; none of them reaches memory (R208, R213, R256, R281, R295). -/
def Obligations.WriteAndMulticastFrames : Prop :=
  (∀ (s : State) (p : PortId) (f : Frame) (j : JobCtx),
    let z := (s.taken p f).writeMem f.job .remote f.vesper f.addr.toNat f.payload
    let after (s' : State) : Prop := (z.1 = none → s' = z.2.applied p.val f [ackFor z.2 f]) ∧ ∀ c, z.1 = some c → s' = z.2.failFrame p.val f c
    (arrives s p 0 f j → leads (exec (.writeFrame p f) s) after) ∧ (arrives s p 9 f j → leads (exec (.multicastFrame p f) s) after)) ∧
  (∀ (s : State) (p : PortId) (f : Frame), f.op = 0 → (s.port p.val).inbox.contains f = true →
    (s.job? f.job = none → exec (.writeFrame p f) s =
      .next ((((s.drained p f).expireTallies).bump 0x1038 1).failFrame p.val f 0x1202)) ∧
    (∀ j, s.job? f.job = some j → j.judge f = .apply → (s.known p f).noTally f = true → exec (.writeFrame p f) s =
      .next (((s.known p f).syncFault 0x4103 (Frame.countIndex f) f.src.toNat f.job (j.signalled f).1 (j.signalled f).2).sendError p.val f 0x4103)) ∧
    (∀ j, s.job? f.job = some j → j.judge f = .ahead → leads (exec (.writeFrame p f) s) fun s' => s'.mem = s.mem ∧ s'.tiles = s.tiles))

/-- READ is answered with the bytes it asks for, READ_DATA enters the scratchpad at the LOCAL of the GET that asked for them, and
a duplicate of either is counted in E2E_DUPLICATES and has no effect (R247, R256, R271). READ_DATA that brings bytes that its
transfer did not ask for answers nothing outstanding and is F-2304 (R267). -/
def Obligations.ReadFrames : Prop :=
  ∀ (s : State) (p : PortId) (f : Frame) (j : JobCtx),
    (∀ bs, arrives s p 1 f j → ((s.taken p f).readFor f).1 = .ok bs →
      exec (.readFrame p f) s = .next (((s.taken p f).readFor f).2.replyAll (readReply ((s.taken p f).readFor f).2 f bs))) ∧
    (∀ x, replies s p 2 f j → s.xfers.find? (replyKey f) = some x → x.op = 1 → f.offset.toNat + f.payload.length ≤ x.bytes →
      let s1 := (s.heeded p f).writeLocal x f.offset.toNat f.payload
      exec (.readDataFrame p f) s = .next (if x.got + f.payload.length = x.bytes then s1.getDone x
        else { s1 with xfers := updFirst (replyKey f) (fun y => { y with got := y.got + f.payload.length }) s1.xfers })) ∧
    (∀ x, replies s p 2 f j → s.xfers.find? (replyKey f) = some x → readFits f x = false →
      exec (.readDataFrame p f) s = .next (((s.drained p f).violation p.val 0x2304 f false).police p.val)) ∧
    ((s.port p.val).inbox.contains f = true → s.job? f.job = some j → j.judge f = .duplicate →
      let counted (s' : State) : Prop := s'.word 0x2010 = s.word 0x2010 + 1 ∧ s'.mem = s.mem ∧ s'.tiles = s.tiles ∧ s'.jobs = s.jobs ∧
        s'.xfers = s.xfers ∧ s'.out = s.out
      (f.op = 1 → leads (exec (.readFrame p f) s) counted) ∧ (f.op = 2 → leads (exec (.readDataFrame p f) s) counted))

/-- ACCUMULATE adds its elements into the sums at its address, through the bucket they lie in where there is one, and ATOMIC does
its operation and returns the old value; ATOMIC_DATA writes that at LOCAL and ends the transfer (R211, R212, R303). -/
def Obligations.AccumulateAndAtomicFrames : Prop :=
  ∀ (s : State) (p : PortId) (f : Frame) (j : JobCtx),
    (arrives s p 3 f j → exec (.accumulateFrame p f) s = .next ((s.taken p f).accumulateFrame p.val f)) ∧
    (∀ ps j1, arrives s p 3 f j → (s.taken p f).places f.job .remote .accumulate f.vesper f.addr.toNat (accBytes f) = .ok ps →
      (s.taken p f).job? f.job = some j1 → j1.region? f.addr.toNat (accBytes f) = none → ((s.taken p f).addFrame ps f).1 = none →
      exec (.accumulateFrame p f) s = .next (((s.taken p f).addFrame ps f).2.applied p.val f [ackFor ((s.taken p f).addFrame ps f).2 f])) ∧
    (∀ ps v, arrives s p 4 f j → (s.taken p f).places f.job .remote .atomic f.vesper f.addr.toNat 8 = .ok ps →
      let old := leNat (ps.map (s.taken p f).byteAt)
      atomicOp (fld f.variant.toNat 0 4) old (leNat (f.payload.take 8)) (leNat (f.payload.drop 8)) = some v →
      let z := (s.taken p f).modifyPlaces (List.zip ps (leBytes 8 v))
      z.1 = none → exec (.atomicFrame p f) s = .next (z.2.applied p.val f [atomicReply z.2 f old])) ∧
    (∀ x, replies s p 5 f j → s.xfers.find? (replyKey f) = some x →
      exec (.atomicDataFrame p f) s = .next (((s.heeded p f).writeLocal x 0 (f.payload.take 8)).endXfer x 0))

/-- SIGNAL applies its increment through its transfer's tally (R279). A barrier frame that breaks no rule is credited, counted in
its slot under its source, tree, phase and epoch, whether of the current epoch or the next, and the slot does all it can do
(R284 to R288). A notice from another module is acknowledged (R249); a FAULT is forwarded to the hosts of the job (R390), and of a
LATE or a HEALTH the rules say no more than that. -/
def Obligations.SignalBarrierNoticeFrames : Prop :=
  (∀ (s : State) (p : PortId) (f : Frame) (j : JobCtx),
    let s1 := s.taken p f
    let slot := fld f.variant.toNat 0 6
    let e := BitVec.ofNat 16 (fld f.aux.toNat 0 16)
    let g := frameGroup f
    let counted (entry : Bool × Bool × Nat × Nat) (b : Barrier) : State :=
      let b1 := { b with frames := if b.frames.contains entry then b.frames else b.frames ++ [entry] }
      let b2 := if e != b.epoch then { b1 with group1 := some g } else { b1 with group := some g }
      ((s1.applied p.val f [ackFor s1 f]).setBarrier f.job slot b2).barrierRun f.job slot 12
    (arrives s p 6 f j → exec (.signalFrame p f) s = .next (s1.applied p.val f [ackFor s1 f])) ∧
    (∀ j1, s1.job? f.job = some j1 → s1.barrierFault j1 (j1.barrier slot) f = none →
      (arrives s p 7 f j → exec (.barrierArriveFrame p f) s =
        .next (counted (e != (j1.barrier slot).epoch, flag f.aux.toNat 18, fld f.aux.toNat 16 2, j1.sourceDevice f) (j1.barrier slot))) ∧
      (arrives s p 8 f j → exec (.barrierReleaseFrame p f) s =
        .next (counted (e != (j1.barrier slot).epoch, true, 4, j1.sourceDevice f) (j1.barrier slot))))) ∧
  (∀ (s : State) (p : PortId) (f : Frame) (j : JobCtx), arrives s p 0xA f j →
    let s1 := (s.taken p f).applied p.val f [ackFor (s.taken p f) f]
    (fld f.variant.toNat 0 4 = 1 → exec (.noticeFault p f) s = .next (match s1.job? f.job with
      | some j => s1.forwardNotice 1 (fld f.aux.toNat 0 16) (j.sourceDevice f) (noticeWords f) (s1.jobHosts f.job)
      | none => s1)) ∧
    (fld f.variant.toNat 0 4 = 2 → exec (.noticeLate p f) s = .next s1) ∧
    (fld f.variant.toNat 0 4 = 3 → exec (.noticeHealth p f) s = .next s1))

/-- ACK ends its transfer, ERROR ends it with the code that it carries and resets the channel's tracker, whichever module sent it,
and so does the timeout with F-2202, once E2E_TIMEOUT has passed since its last frame left (log 18 says when the model holds that
moment); where no task is left to raise F-2202 it is logged (R480). A transfer that ends leaves the list of those outstanding,
and one XFER_ID names no second one there (R247, R250, R256). A reply of any kind that names no unanswered transfer is F-2304 and
moves no tracker (R267). -/
def Obligations.RepliesEndTransfers : Prop :=
  ∀ (s : State) (p : PortId) (f : Frame) (j : JobCtx),
    (s.xfers.find? (replyKey f) = none →
      let stray : State := ((s.drained p f).violation p.val 0x2304 f false).police p.val
      (replies s p 0xB f j → exec (.ackFrame p f) s = .next stray) ∧ (replies s p 0xC f j → exec (.errorFrame p f) s = .next stray) ∧
      (replies s p 2 f j → exec (.readDataFrame p f) s = .next stray) ∧ (replies s p 5 f j → exec (.atomicDataFrame p f) s = .next stray)) ∧
    ∀ x : Xfer,
      (∀ (z : State) (code : Nat), z.xferTask x = none → z.engineOwns x = false →
        (z.endXfer x code).xfers = eraseFirst (fun y => y.id == x.id) z.xfers) ∧
      ((s.xfers.map (·.id)).Nodup → ∀ y ∈ eraseFirst (fun y : Xfer => y.id == x.id) s.xfers, y.id ≠ x.id) ∧
      (replies s p 0xB f j → s.xfers.find? (replyKey f) = some x → exec (.ackFrame p f) s = .next ((s.heeded p f).endXfer x 0)) ∧
      (replies s p 0xC f j → s.xfers.find? (replyKey f) = some x →
        let code := fld f.aux.toNat 0 16
        exec (.errorFrame p f) s = .next (((((s.heeded p f).resetSeq x.job x.dst x.vesper x.channel).endXfer x code)).barrierCut x code)) ∧
      (∀ k, s.xfers.find? (fun y : Xfer => y.id == k) = some x → s.waitsToLeave x = true → exec (.transferTimeout k) s = .next s) ∧
      (∀ k, s.xfers.find? (fun y : Xfer => y.id == k) = some x → s.waitsToLeave x = false →
        s.passed x.sentAt (s.cfg.e2eTimeout * 1000000) = true →
        let mine (t : OpenTally) : Bool := t.src == s.hall && t.job == x.job && t.vesper == x.vesper && t.xfer == x.id
        let s1 := { s with tallies := s.tallies.filter (fun t => !mine t) }.bump 0x2020 1
        exec (.transferTimeout k) s =
          .next ((if (s1.xferTask x).isNone then s1.logEvent 0x2202 (some x.job) (0, 0) else s1).endXfer x 0x2202))

/-- LINK_CTRL frames in their place: credit comes back, an echo is returned with its stamp, a first NAK within 10 us resends the
class from the LINK_SEQ it names, port states are taken as the peer advertises them, and what is owed goes back in one frame
(R239, R254, R257, R258). Each carries the next LINK_SEQ of its class and stays in the replay buffer; one that cannot leave at
once waits (R257). The identity exchange: every tick sends this port's identity until it is checked; a payload that names the
expected peer identifies it, with the offer that it brings, and one that names another port or position leaves the port MISCABLED
(R239, R412), but in TRAINING without HALL_CAK, when no LINK_CTRL frame leaves either (R411). The payloads, the class and the queue
of these frames are the model's (log 31), and so are the further cases of an identity (log 94). -/
def Obligations.LinkControlAndIdentity : Prop :=
  (∀ (s : State) (p : PortId) (f : Frame),
    let x := (s.drained p f).port p.val
    let y := s.port p.val
    (control s p 0 f → f.ackValid = false →
      exec (.linkCtrlCredit p f) s = .next ((s.drained p f).setPort p.val { x with used := giveBack x.used (payHalves f) })) ∧
    (control s p 2 f → f.aux.toNat % 2 = 0 →
      exec (.linkCtrlEcho p f) s = .next ((s.drained p f).sendEcho p.val true (leNat (f.payload.take 8)))) ∧
    (control s p 3 f → (x.retries.any fun t => decide (s.now < t + 10000)) = false →
      leads (exec (.linkCtrlNak p f) s) fun s' => s'.mem = s.mem ∧ s'.jobs = s.jobs ∧
        let q := BitVec.ofNat 16 (fld f.aux.toNat 0 16)
        (s'.port p.val).resend = (x.replay.filter fun g => g.vesper == f.vesper && decide ((g.linkSeq - q).toNat < 2 ^ 15)) ++
          x.resend.filter fun g => g.vesper != f.vesper) ∧
    (control s p 4 f → leads (exec (.linkCtrlPortStates p f) s) fun s' =>
      (s'.port p.val).advert = (List.range (min 10 f.payload.length)).map fun i => (10 * (p.val / 10) + i, nth 0#8 f.payload i == 2)) ∧
    (y.linked = true → (y.owed ≠ [] ∨ y.ackOwed = true) → y.spent = false → s.sec.hallCak.isSome = true → leads (exec (.creditReturn p) s) fun s' =>
      (s'.port p.val).owed = [] ∧ (y.ctrlReady (s.ctrlFrame p.val 0 true 0 (List.replicate 24 0)) = true → (s'.port p.val).ackOwed = false) ∧
      s'.mem = s.mem ∧ s'.jobs = s.jobs)) ∧
  (∀ (s : State) (p : Nat) (f : Frame),
    let x := s.port p
    (s.sec.hallCak = none → s.ctrl p f = s) ∧
    (s.sec.hallCak.isSome = true → x.ctrlReady f = true → ((s.ctrl p f).port p).replay = x.replay ++ [x.stamp f] ∧
      ((s.ctrl p f).port p).txV = (if f.vesper then x.txV + 1 else x.txV) ∧ ((s.ctrl p f).port p).txN = (if f.vesper then x.txN else x.txN + 1)) ∧
    (s.sec.hallCak.isSome = true → x.ctrlReady f = false → s.ctrl p f = s.setPort p { x with ctrlq := x.ctrlq ++ [f] })) ∧
  (∀ (s : State) (p : PortId) (f : Frame),
    ((s.port p.val).phy = true → (s.port p.val).identified = false → p.val < 40 →
      exec (.identityExchangeTick p) s = .next (s.ctrl p.val (s.ctrlFrame p.val 1 true 0 (s.identity p.val)))) ∧
    (control s p 1 f → (identityOf f).2.2.2.2 = true → (s.port p.val).phy = true → (s.port p.val).identified = false →
      let peer := (s.drained p f).peerOf p.val
      ((identityOf f).1 = (List.range 4).map (coordOf peer) → (identityOf f).2.1 = peerPortOf p.val →
        leads (exec (.linkCtrlIdentity p f) s) fun s' => (s'.port p.val).identified = true ∧ (s'.port p.val).peerHall = peer ∧
          (s'.port p.val).peerOffer = some (identityOf f).2.2.2.1 ∧ s'.mem = s.mem) ∧
      ((identityOf f).1 ≠ (List.range 4).map (coordOf peer) ∨ (identityOf f).2.1 ≠ peerPortOf p.val →
        leads (exec (.linkCtrlIdentity p f) s) fun s' =>
        (s'.port p.val).st = (if (s.port p.val).st = 1 ∧ s.sec.hallCak = none then 1 else 4) ∧ (s'.port p.val).phy = false ∧ s'.mem = s.mem)))

/-- Links come up and go down: LINK_UP of a dark fabric port in service trains it under SAK0, but never after its eighth down event;
LINK_DOWN and an ACK_STALL of 20 us take a link down, or end an attempt where it was in one; a host port that goes down is counted; a
down port trains again after 1 s and at most until its eighth down event, a failed attempt leaves it DOWN, but in TRAINING where
HALL_CAK is missing, and a quarantine of 60 s ends in training (R239, R258, R269, R411). -/
def Obligations.LinksComeAndGo : Prop :=
  ∀ (s : State) (p : PortId),
    let x := s.port p.val
    (s.alive = true → p.val < 40 → x.phy = false → s.unusedPort p.val = false → (x.st = 0 ∨ x.st = 1 ∨ x.st = 2) →
      (x.downs ≠ 8 → leads (exec (.linkUp p) s) fun s' => (s'.port p.val).phy = true ∧ (s'.port p.val).st = 1 ∧ (s'.port p.val).sak = 0 ∧
        (s'.port p.val).key = s.sak0 p.val ∧ s'.mem = s.mem) ∧
      (x.downs = 8 → exec (.linkUp p) s = .next s)) ∧
    (p.val < 40 → x.phy = true → (x.carried = true → exec (.linkDown p) s = .next (s.linkLost p.val false)) ∧
      (x.carried = false → exec (.linkDown p) s = .next (s.attemptFails p.val))) ∧
    (40 ≤ p.val → x.phy = true → leads (exec (.linkDown p) s) fun s' => (s'.port p.val).phy = false ∧ (s'.port p.val).st = 0 ∧
      (s'.port p.val).downs = min (x.downs + 1) 8 ∧ (s'.port p.val).downAt = s.now ∧ s'.mem = s.mem ∧ s'.conns = s.conns) ∧
    (p.val < 40 → x.linked = true → x.replay ≠ [] → s.passed x.ackAt 20000 = true → exec (.ackStall p) s = .next (s.linkLost p.val false)) ∧
    (s.alive = true → x.st = 0 → x.attempting = false → x.downs < 8 → p.val < 40 → s.unusedPort p.val = false → s.passed x.downAt 1000000000 = true →
      leads (exec (.trainingAttempt p) s) fun s' => (s'.port p.val).st = 1 ∧ (s'.port p.val).attempting = true ∧ s'.mem = s.mem) ∧
    (x.st = 1 → x.attempting = true → leads (exec (.trainingAttemptFailed p) s) fun s' =>
      (s'.port p.val).st = (if s.sec.hallCak = none then 1 else 0) ∧ (s'.port p.val).attempting = false ∧ (s'.port p.val).downs = x.downs ∧
      s'.mem = s.mem) ∧
    (x.st = 3 → s.passed x.downAt 60000000000 = true → leads (exec (.quarantineEnd p) s) fun s' =>
      (s'.port p.val).downs = min (x.downs + 1) 8 ∧ (s'.port p.val).st = (if x.downs + 1 < 8 then 1 else 0) ∧ s'.mem = s.mem)

/-- LINK_RESTORE after 10 s without a detour lets the link carry traffic at once, and with one sends a FENCE in each buffer class along it;
the last of twelve FENCEs is answered over the restored link, and that answer moves the sender back (R260), but in TRAINING where
HALL_CAK is missing (R411). A rekey begins
with an offer of this end on an UP link whose PN or SA's age has come so far; one that has not ended in time is F-8402 and takes the link down; the old receive SA
is retired after its 1 ms (R412, R413). -/
def Obligations.LinkRestoreAndRekey : Prop :=
  (∀ (s : State) (p : PortId) (f : Frame),
    let x := s.port p.val
    let there := s.linkTo (p.val / 10) (coordOf (s.peerOf p.val) (p.val / 10))
    let moved : Nat := if x.st = 1 ∧ s.sec.hallCak = none then 1 else 2
    (∀ t0, x.restoreAt = some t0 → s.passed t0 10000000000 = true → x.fencing = false → x.linked = true → (∀ e, there ≠ some (e, true)) →
      leads (exec (.linkRestore p) s) fun s' => (s'.port p.val).st = moved ∧ (s'.port p.val).restoreAt = none) ∧
    (∀ e t0, x.restoreAt = some t0 → s.passed t0 10000000000 = true → x.fencing = false → x.linked = true → there = some (e, true) →
      exec (.linkRestore p) s = .next
        (bufClasses.foldl (fun (s : State) c => s.sendFence p.val e c) (s.setPort p.val { x with fencing := true }))) ∧
    (∀ q, f.op = 0xD → x.inbox.contains f = true → (s.drained p f).portOf f.src.toNat = some q →
      let c := (f.vesper, fld f.variant.toNat 0 3)
      let y := (s.drained p f).port q
      let last := (s.drained p f).setPort q { y with fences := [] }
      c ∉ y.fences → c ∈ bufClasses →
      exec (.fenceFrame p f) s = .next (if y.fences.length = 11 then last.ctrl q (last.ctrlFrame q 5 true 0 [])
        else (s.drained p f).setPort q { y with fences := y.fences ++ [c] })) ∧
    (control s p 5 f → x.fencing = true → leads (exec (.linkCtrlFenceDone p f) s) fun s' =>
      (s'.port p.val).st = moved ∧ (s'.port p.val).fencing = false)) ∧
  (∀ (s : State) (p : PortId),
    let x := s.port p.val
    (x.st = 2 → x.rekeyAt = none → s.rekeyDue x = true → leads (exec (.rekeyStart p) s) fun s' =>
      (s'.port p.val).rekeyAt = some s.now ∧ (s'.port p.val).installed = false ∧ (s'.port p.val).key = x.key ∧ (s'.port p.val).st = 2 ∧
      s'.mem = s.mem) ∧
    (∀ t0, x.rekeyAt = some t0 → s.passed t0 10000000 = true → x.linked = true → exec (.rekeyFailed p) s = .next ((s.secFault 0x8402 0 0).linkLost p.val false)) ∧
    (∀ n, x.oldUntil = some (n + 1) → n + 1 ≤ s.now → leads (exec (.oldSaRetire p) s) fun s' =>
      (s'.port p.val).oldUntil = none ∧ (s'.port p.val).key = x.key ∧ s'.mem = s.mem))

/-! ### Gradients and Chrysalis -/

/-- Buckets close and clear: the deadline closes a set of a main bucket once it has passed, the step's limit every unclosed bucket,
the grace a check bucket after its main bucket; a closed set is compared with its check once, and a check that agrees or does not
run ends a row of disagreements; a set is cleared once its step
has its verdict, the older step's first, and is then idle for the step after next (R304, R305, R312, R317, R318). -/
def Obligations.BucketsCloseAndClear : Prop :=
  ∀ (s : State) (job : BitVec 16) (bucket : Nat) (j : JobCtx) (b : Bucket), s.job? job = some j → j.bucket? bucket = some b →
    (∀ i, b.checkOf = none → s.pastDeadline b i = true → (i = true → s.pastDeadline b false = false) →
      exec (.bucketDeadline job bucket) s = .next (s.closeBucket job b i .deadline)) ∧
    (s.pastDeadline b false = false → s.pastDeadline b true = false → exec (.bucketDeadline job bucket) s = .next s) ∧
    (j.stepping = true → j.stepAt + s.cfg.stepCloseLimit * 1000000 ≤ s.now →
      exec (.stepCloseLimit job) s = .next (s.closeAll job (setOf j.step) .limit j.buckets)) ∧
    (∀ m i, j.mainOf b = some m → s.pastGrace m b i = true → (i = true → s.pastGrace m b false = false) →
      exec (.checkGrace job bucket) s = .next (s.closeBucket job b i .grace)) ∧
    (∀ g c, j.grad = some g → j.checkFor b = some c → j.stepping = true →
      let i := setOf j.step
      pget b.st i = 2 → pget c.st i = 2 → pget b.checked i = false →
      let s1 := s.updBucket job b.id fun b => { b with checked := pset b.checked i true }
      let seen (n : Nat) : State := (s1.bump 0x5068 1).checkReads j b c i j.step (List.range n)
      exec (.checkCompare job bucket) s = .next (if checkRuns g b c i then
        (match s.disagreement j b c i j.step with
         | some k => (seen (k + 1)).mismatchAt j b i j.step k
         | none => (seen (cdiv b.elements 4096)).updBucket job b.id fun b => { b with mismatch := 0 })
        else (s1.bump 0x5070 1).updBucket job b.id fun b => { b with mismatch := 0 })) ∧
    (∀ i, j.clearable b i = true → (j.clearable b (!i) = true → pget b.steps i < pget b.steps (!i)) →
      exec (.bucketClear job bucket) s = .next (s.clearSet job b i) ∧
      ∃ j' b', (s.clearSet job b i).job? job = some j' ∧ j'.bucket? bucket = some b' ∧ pget b'.st i = 0 ∧ pget b'.steps i = pget b.steps i + 2)

/-- The verdict round. VERDICT_ROUND, once the step's loss kernel has ended and every bucket is ready: the module's flags, its level
votes and then its arrival go as SIGNALs to VERDICT_DEVICE, the norm table that it holds is cleared, and a second round does
nothing. VERDICT_FORM at VERDICT_DEVICE, once every arrival has come: the level and then the verdict go to every device of the
job. VERDICT_RECEIVE: the verdict is learnt with the loss scale, the clean steps, the consecutive skips and the level; at
SKIP_LIMIT skips the job's running training package is abandoned with F-5201. A SIGNAL to a device is one unanswered transfer
on operation 6, or raises the count here where this module plays the device (R308, R309, R314, R315, R330). That the norm table is
cleared with this arrival is the model's reading (log 78), as is which kernels wait for the verdict (log 28). -/
def Obligations.VerdictRound : Prop :=
  (∀ (s : State) (job : BitVec 16) (j : JobCtx) (g : GradBlock), s.job? job = some j → j.grad = some g →
    let v := g.verdictCount
    let voted (votes : List (Bool × Nat)) (s : State) : State :=
      votes.foldl (fun s x => if x.1 then s.signalTo job g.verdictDevice x.2 1 else s) s
    let i := setOf j.step
    let flags := [(decide (0 < j.rise (v + 5)), v), (pget j.gradFlag i, v + 1), (pget j.checkFlag i, v + 2)]
    let levels (c : Chrys) := [(decide (1 ≤ s.health.level), c.secureCount), (s.health.level == 2, c.secureCount + 1)]
    let arrived (s : State) : State :=
      (((s.clearNorms j g).signalTo job g.verdictDevice (v + 3) 1).note job [v + 5]).updJob job fun j => { j with rounded := true }
    (j.stepping = true → j.rounded = false → s.lossEnded job g = true → j.buckets.all j.bucketReady = true →
      (j.chrys = none → exec (.verdictRound job) s = .next (arrived (voted flags s))) ∧
      (∀ c, j.chrys = some c → exec (.verdictRound job) s = .next (arrived (voted (levels c) (voted flags s)))) ∧
      leads (exec (.verdictRound job) s) fun s' => exec (.verdictRound job) s' = .next s') ∧
    (s.deviceOf j = g.verdictDevice → j.rise (v + 3) = j.devices →
      let f := bit (decide (0 < j.rise v)) + 2 * bit (decide (0 < j.rise (v + 1))) + 4 * bit (decide (0 < j.rise (v + 2)))
      let told (s' : State) : State :=
        ((s'.signalAll job (v + 4) (1 + 2 * f) (s.jobDevices j)).note job [v, v + 1, v + 2, v + 3]).updJob job fun j => { j with formed := j.formed + 1 }
      (j.chrys = none → exec (.verdictForm job) s = .next (told s)) ∧
      (∀ c, j.chrys = some c →
        let l := if 0 < j.rise (c.secureCount + 1) then 2 else if 0 < j.rise c.secureCount then 1 else 0
        exec (.verdictForm job) s =
          .next (told ((s.signalAll job (c.secureCount + 2) (1 + l) (s.jobDevices j)).note job [c.secureCount, c.secureCount + 1])))) ∧
    (∀ w, j.rounded = true → j.verdict = none → j.rise (v + 4) = w → w ≠ 0 →
      let flags := (w - 1) / 2 % 8
      let skips := if flags = 0 then 0 else j.skips + 1
      (skips < s.cfg.skipLimit → leads (exec (.verdictReceive job) s) fun s' => ∃ j', s'.job? job = some j' ∧ j'.verdict = some w ∧
        j'.stepping = false ∧ j'.lossScale = (s.nextScale j flags).1 ∧ j'.clean = (s.nextScale j flags).2 ∧ j'.skips = skips ∧ j'.lastFlags = flags ∧
        ∀ c, j.chrys = some c → ∃ c', j'.chrys = some c' ∧ c'.level = j.rise (c.secureCount + 2) - 1) ∧
      (j.chrys = none → s.cfg.skipLimit ≤ skips →
        let learnt (j : JobCtx) : JobCtx :=
          { j with verdict := some w, normsDue := if flags = 0 then some j.step else none, verdicts := j.verdicts + 1, lossScale := (s.nextScale j flags).1,
                   clean := (s.nextScale j flags).2, skips := skips, lastFlags := flags, stepping := false }
        let s1 := ((s.updJob job learnt).note job [v + 4]).countVerdict flags
        let s2 := if flags = 0 then s1 else s1.skipLayers job
        exec (.verdictReceive job) s = .next ((s2.logEvent 0x5201 (some job) (0, 0)).abandonAll 0x5201 0x3FF false
          ((s2.pkgs.filter fun p => p.job == job && p.kind == 1 && p.running).map (·.tag)))))) ∧
  (∀ (s : State) (job : BitVec 16) (j : JobCtx) (d k n : Nat), s.job? job = some j →
    (j.hallOf d ≠ s.hall → ∃ x : Xfer, (s.signalTo job d k n).xfers = s.xfers ++ [x] ∧ x.op = 6 ∧ x.dst = j.hallOf d ∧ x.job = job) ∧
    (j.hallOf d = s.hall → j.pairFault k n = none → ∃ j', (s.signalTo job d k n).job? job = some j' ∧
      Sp.get 0#32 j'.counts k = Sp.get 0#32 j.counts k + BitVec.ofNat 32 n ∧ (s.signalTo job d k n).xfers = s.xfers))

/-- A generation: preparation begins once the norms of the due step are settled, its updates have ended and all copies are answered,
and what is under way otherwise goes on; a holder folds once every bitmap has come; VERDICT_DEVICE commits when every device is
prepared; the commit promotes what was prepared, and the last verdict, where it came later, may then make the next one due (R326 to
R329, R331, R332). When the norms are settled and which kernels are the updates is the model's reading (logs 78, 28), and so is the
channel on which copies go (log 72). -/
def Obligations.Generations : Prop :=
  (∀ (s : State) (job : BitVec 16) (j : JobCtx) (c : Chrys),
    let s0 := s.settleNorms job
    s0.job? job = some j → j.chrys = some c →
    (∀ n, c.preparing = none → c.pendingStep = some n → c.quiet = true → s0.updatesEnded j n = true → j.normsDue ≠ some n →
      exec (.generationPrepare job) s = .next (s0.prepare j c n)) ∧
    (c.preparing.isSome = true → exec (.generationPrepare job) s = .next (s0.pump job))) ∧
  (∀ (s : State) (job : BitVec 16) (j : JobCtx) (c : Chrys), s.job? job = some j → j.chrys = some c →
    (let ts := c.tensors.filter fun t => !t.mirror
     c.preparing.isSome = true → c.folded = false → ts ≠ [] → 7 * ts.length ≤ j.rise (c.secureCount + 5) →
      let reads := ts.flatMap fun t => t.others.flatMap (s.foldReads j c t)
      let s1 := (((s.bitmapReads job ts).copySlots job c ts).bump 0x6030 (reads.length / 2)).note job [c.secureCount + 5]
      exec (.parityFold job) s =
        .next (((s1.updChrys job fun c => { c with folded := true, toRead := c.toRead ++ reads }).pump job).reportPrepared job)) ∧
    (∀ g, j.grad = some g → s.deviceOf j = g.verdictDevice → j.rise (c.secureCount + 3) = j.devices →
      exec (.generationCommit job) s = .next ((s.signalAll job (c.secureCount + 4) 1 (s.jobDevices j)).note job [c.secureCount + 3])) ∧
    (∀ n, c.preparing = some n → j.rise (c.secureCount + 4) ≠ 0 →
      let s1 := (s.promote job).note job [c.secureCount + 4]
      let m := j.step - bit j.verdict.isNone
      exec (.generationPromote job) s = .next (if n < m then s1.dueAfter job m else s1)))

/-- Restore: the coordinator sends on the best report once every survivor has reported, a survivor reverts every live tensor to
its shadow, a spare refills in two halves, a double loss ends the package with F-6302, and else the record is reloaded and, at a
further such command, which says that every layer has come, the package ends once its own tasks have ended (R339 to R342). Where
the coordinator's answer lies (log 34), from where a READABLE device is read (log 35), what F-6302 names (log 36) and that the
package's kernels are what multicasts (log 98) are the model's. -/
def Obligations.RestoreCommands : Prop :=
  ∀ (s : State) (job : BitVec 16) (p : Pkg) (r : Restore) (j : JobCtx) (c : Chrys), s.restoreOf job = some (p, r, j, c) →
    (s.deviceOf j = r.coordinator → r.stage = 0 → j.devices - r.lost.length ≤ j.rise c.secureCount →
      let x := best (s.reports r j)
      let out (d : Nat) : CopyOut :=
        ⟨j.hallOf d, atDevice (r.report.toNat + 16 * d) d, 0, 16, leBytes 8 x.1 ++ leBytes 8 x.2, some (c.secureCount + 1 + d * 2 ^ 12 + 2 ^ 31)⟩
      exec (.restoreGather job) s = .next
        (((((s.looked job r.report.toNat (16 * j.devices)).setStage p.tag 1).note job [c.secureCount]).updChrys job fun c => { c with toSend := c.toSend ++ (s.jobDevices j).map out }).pump job)) ∧
    (r.isLost (s.deviceOf j) = false → r.stage < 2 → j.rise (c.secureCount + 1) ≠ 0 →
      let s0 := s.looked job (s.sentAt r j) 16
      let s1 := if (c.gen + 1).toNat = s.sentGen r j ∧ c.preparing.isSome ∧ c.prepared then s0.promote job else s0
      exec (.restoreApply job) s = .next ((((s1.revert job c.tensors).updChrys job fun c =>
        { c with preparing := none, pendingStep := none, folded := false, prepared := false }).note job [c.secureCount + 1]).setStage p.tag 2)) ∧
    ((if r.isLost (s.deviceOf j) then decide (r.stage ≤ 1) && j.rise (c.secureCount + 1) != 0 else r.stage == 2) = true →
      exec (.spareRefill job) s = .next (s.refillReads p r j c)) ∧
    (r.stage = 3 → c.quiet = true → exec (.spareRefill job) s = .next
      ((((s.looked job (s.sentAt r j) 16).updChrys job fun c =>
        { c with toSend := if r.isLost (s.deviceOf j) then mirrorWrites r j c (s.sentGen r j)
                 else c.tensors.flatMap (holderWrites r j (s.sentGen r j)) }).setStage
        p.tag 4).pump job)) ∧
    (r.stage = 4 → c.quiet = true →
      (lostTensors r c (s.deviceOf j) = [] → exec (.spareRefill job) s = .next (s.setStage p.tag 5)) ∧
      (lostTensors r c (s.deviceOf j) ≠ [] → exec (.spareRefill job) s =
        .next (((s.looked job (c.slot 2) 8).recordLosses job (s.peekWord job (c.slot 2)) (lostTensors r c (s.deviceOf j))).abandon p.tag 0x6302 0x3FF 0 0 false))) ∧
    (let ends (s' : State) : State :=
       (((s'.originate p.conn p.hostKey (.complete p.pid p.job p.step (s'.elapsed p) false)).bump 0x6050 1).bump 0x7058 1).removePkg p.tag
     let s1 := (s.loadRecord j c).setStage p.tag 6
     (r.stage = 5 → exec (.restoreReload job) s = .next s1) ∧ (r.stage = 6 → s.tasksDone p = false → exec (.restoreReload job) s = .next s) ∧
     (r.stage = 6 → s.tasksDone p = true → exec (.restoreReload job) s = .next (ends s)))

/-- A second's health and the evaluation windows: HEALTH_TICK of a module that runs turns the second's points into the score and
starts a new second (the decay's rounding is free, log 11); DIE_LOST withdraws the module (its input is log 74's); a window opens at
the head of the Noon order, or between steps where the schedule or an export that waits asks for it; it closes when its packages
have ended, returns the streams, and is counted; its limit, once it has passed, abandons its packages with F-6401 (R333, R335,
R343, R344). How the windows of several jobs stand beside each other is the model's (log 137). -/
def Obligations.HealthAndWindows : Prop :=
  (∀ (s : State) (d : DieId),
    (s.alive = true → leads (exec .healthTick s) fun s' => s'.health.points = 0 ∧ s'.mem = s.mem ∧ s'.tiles = s.tiles ∧
      s'.health.score = nextScore s.health.score s.cfg.riskHalfLife (s.health.points + (s.word 0x1010 - s.health.base.1).toNat / 65536 +
        (s.retryEvents - s.health.base.2).toNat / 1024 + s.hotPoints)) ∧
    (s.alive = false → exec .healthTick s = .next s) ∧
    (leads (exec (.dieLost d) s) fun s' => s' = s.withdraw ∧ s'.health.withdrawn = true)) ∧
  (∀ (s : State) (job : BitVec 16) (j : JobCtx), s.job? job = some j →
    (s.windowOpen job = true → exec (.evalWindowOpen job) s = .next s) ∧
    (s.windowOpen job = false → j.chrys = none → s.evalHead job = true →
      exec (.evalWindowOpen job) s = .next { s with eval := s.eval ++ [⟨job, s.savedStreams, s.now, false⟩] }) ∧
    (∀ c, s.windowOpen job = false → j.chrys = some c →
      let q := s.imagos.find? fun q => q.job == job && q.last.isNone
      (s.betweenSteps j c = true ∧ (c.evalEvery ≠ 0 ∧ j.step % c.evalEvery = 0 ∧ c.evalStep ≠ j.step + 1 ∨ q.isSome = true) ∨ s.evalHead job = true →
        exec (.evalWindowOpen job) s = .next (s.openWindow j c q)) ∧
      (s.betweenSteps j c = false → s.evalHead job = false → exec (.evalWindowOpen job) s = .next s)) ∧
    (∀ e, s.window? job = some e →
      (s.holdsEval job = true → exec (.evalWindowClose job) s = .next s) ∧
      (s.holdsEval job = false → e.imago = false → leads (exec (.evalWindowClose job) s) fun s' => s' = s.closeWindow job ∧
        s'.mem = s.mem ∧ s'.jobs = s.jobs ∧ s'.word 0x6058 = s.word 0x6058 + 1 ∧
        (s.eval = [e] → s'.eval = [] ∧ s'.tiles = (s.returnStreams e.saved).tiles)) ∧
      (e.imago = false → s.passed e.openedAt (s.cfg.evalLimit * 1000000000) = true →
        let s1 := s.chrEvent 0x6401 s.health.level s.hall 0 job j.step
        exec (.evalWindowOverrun job) s = .next
          ((s1.abandonAll 0x6401 0x3FF false ((s1.pkgs.filter fun p => p.job == job && p.kind == 2).map (·.tag))).closeWindow job)) ∧
      (e.imago = true ∨ s.passed e.openedAt (s.cfg.evalLimit * 1000000000) = false → exec (.evalWindowOverrun job) s = .next s)))

/-! ### Power and arbitration -/

/-- Monarch. MONARCH_WINDOW enters the window's energy and fixed part into the history, moves every tile's ewma by a sixteenth, ends
every stop, and grants every tile its demand, scaled by one factor of at most 1 for all and halved as often as its die has been
(R348 to R351, R353). GRANT_EXHAUSTED stops a tile whose Noon task has reached its grant, and that tile alone; a Vesper task's
energy never stops a tile (R350). SUPPLY_STEP moves a die's supply by 5 mV within 0.54 to 0.66 V with the stops of its last
100 windows (R352). LOGIC_SENSOR_READ keeps the reading and the highest; under the heat rule the supply falls by 10 mV, not
below 0.54 V; at 106 degrees the hold of R353 begins. HEAT_GRANT_HALVE halves a hot die's grants at 0.54 V once more (R353). In a
module that does not run, from row 5 of the start on, none of these changes anything (R456).
SUPPLY_UNDER changes no supply and abandons every package it affects, which are those of log 128, the model's choice; with none
affected it logs F-A102 and notes that the die's supply is out of regulation (R352, R479). That the predictors and grants are exact
(log 75) and that a hot die's supply does not follow its stops (log 39) are the model's readings. -/
def Obligations.Monarch : Prop :=
  ∀ (s : State) (t : TileId) (d : DieId) (es : List (Nat × Nat)) (fixed : Nat) (temp : Celsius),
    (s.alive = false → exec (.monarchWindow es fixed) s = .next s ∧ exec (.supplyStep d) s = .next s ∧ exec (.logicSensorRead d temp) s = .next s ∧
      exec (.heatGrantHalve d) s = .next s ∧ exec (.supplyUnder d) s = .next s) ∧
    (s.alive = true → leads (exec (.monarchWindow es fixed) s) fun s' =>
      let e := fixed + sumNat ((List.range 576).map (energyOf es))
      s'.power.past = (e :: s.power.past).take 99999 ∧ s'.power.fixed = (fixed :: s.power.fixed).take 100 ∧ s'.mem = s.mem ∧ s'.jobs = s.jobs ∧
      ∃ k : Rat, k ≤ 1 ∧ ∀ u, u < 576 →
        let ew := s.ewmaOf u + (energyOf es u - s.ewmaOf u) / 16
        (s'.tile u).ewma = some ew ∧ (s'.tile u).stopped = false ∧
        (s'.tile u).grant = demand ew (energyOf es u) (s.tile u).stopped * k * (1 / 2 ^ Sp.get 0 s.power.halvings (u / 144))) ∧
    ((s.tile t.val).noon.isSome = true → (s.tile t.val).suspended = false → (s.tile t.val).vesper = none → (s.tile t.val).stopped = false →
      leads (exec (.grantExhausted t) s) fun s' => s'.tile t.val = { s.tile t.val with stopped := true } ∧ s'.power.throttledAt = s.now + 1 ∧
        ∀ u, u ≠ t.val → s'.tile u = s.tile u) ∧
    ((s.tile t.val).vesper.isSome = true → exec (.grantExhausted t) s = .next s) ∧
    (s.alive = true → leads (exec (.supplyStep d) s) fun s' => Sp.get false s'.power.under d.val = false ∧
      let f := countIf id (Sp.get [] s.power.stops d.val)
      s'.supply d.val = if s.dieHot d.val then s.supply d.val else if 10 < f then max 540 (s.supply d.val - 5)
        else if f < 1 then min 660 (s.supply d.val + 5) else s.supply d.val) ∧
    (let hot := decide (101 ≤ shown temp) || s.mem.temp.any fun x => x.1 / 6 == d.val && decide (93 ≤ x.2)
     s.alive = true → leads (exec (.logicSensorRead d temp) s) fun s' =>
      Sp.get 0 s'.power.temp d.val = shown temp ∧ Sp.get 0 s'.power.tempMax d.val = max (Sp.get 0 s.power.tempMax d.val) (shown temp) ∧
      (hot = true → s'.supply d.val = max 540 (s.supply d.val - 10)) ∧ (hot = false → s'.supply d.val = s.supply d.val) ∧
      (106 ≤ temp → s'.power.heatHold = true) ∧ (temp < 106 → s'.mem = s.mem ∧ s'.tiles = s.tiles ∧ s'.pkgs = s.pkgs)) ∧
    (s.alive = true → s.dieHot d.val = true → s.supply d.val = 540 → leads (exec (.heatGrantHalve d) s) fun s' =>
      Sp.get 0 s'.power.halvings d.val = Sp.get 0 s.power.halvings d.val + 1 ∧ s'.tiles = s.tiles ∧ s'.mem = s.mem) ∧
    (s.alive = true → leads (exec (.supplyUnder d) s) fun s' => s'.pwrOk = false ∧ s'.supply d.val = s.supply d.val ∧ (∀ tag ∈ s.workOnDie d.val, s'.pkg? tag = none) ∧
      (s.workOnDie d.val = [] →
        s' = { s with power := { s.power with under := Sp.put false s.power.under d.val true } }.logEvent 0xA102 none (0, 0)))

/-- Blades and the LATE timer: PWR_OK is low while the voltage, a rail or a die's supply is out of range (what the module takes for
its rails is log 135); one out of range for more than 1 ms abandons every running package (which packages F-A103 affects is the
model's choice, log 128) and is logged, and one in range ends it (log 40); currents are kept; a pair that carries less than 5 % of
more than 5 A is lost, for 25 points, and restored once it carries at least 40 %, whatever the other pair does; a Vesper package
that has not ended in time is marked late as its LATE notice goes, and no second one goes (R361, R362, R458, R465, R466). The
cause that the notice names is free where the spec leaves it open (log 41); readings are in tenths (log 38), and a module that is
off keeps none but that its input is in range (log 100). -/
def Obligations.BladesAndLateTimer : Prop :=
  ∀ (s : State) (volts a b : Nat) (lasted : Bool) (pair : Fin 2) (tag : Nat),
    (s.start.phase = .off → exec (.inputOutOfRange ⟨volts, lasted⟩) s = .next { s with start := { s.start with input := voltsOk volts } }) ∧
    (s.start.phase ≠ .off → leads (exec (.inputOutOfRange ⟨volts, lasted⟩) s) fun s' => s'.power.volts = volts ∧
      s'.power.inputBad = (!voltsOk volts && (lasted || s.power.inputBad)) ∧
      (s'.pwrOk = true ↔ s.start.rails = true ∧ voltsOk volts = true ∧ s.power.under = []) ∧
      (voltsOk volts = true ∨ lasted = false → s'.log = s.log ∧ s'.tiles = s.tiles ∧ s'.mem = s.mem ∧ s'.pkgs = s.pkgs) ∧
      (voltsOk volts = false → lasted = true → (∀ tag ∈ s.running, s'.pkg? tag = none) ∧ (s.running = [] →
        ∃ s1 : State, s1.log = s.log ∧ s' = s1.logEvent 0xA103 none (0, 0)))) ∧
    (s.start.phase ≠ .off → leads (exec (.bladeSense a b) s) fun s' => s' = { s with power := { s.power with blade := (a, b) } }) ∧
    (s.start.phase ≠ .off → s.power.pair pair * 20 < s.power.blade.1 + s.power.blade.2 → 50 < s.power.blade.1 + s.power.blade.2 →
      s.power.isLost pair = false → leads (exec (.bladePairLost pair) s) fun s' => s'.power = s.power.setLost pair true ∧
      s'.power.isLost pair = true ∧ (∀ k, k ≠ pair → s'.power.isLost k = s.power.isLost k) ∧ s'.health.points = s.health.points + 25) ∧
    (s.power.isLost pair = true → (s.power.blade.1 + s.power.blade.2) * 40 ≤ s.power.pair pair * 100 →
      exec (.bladePairRestored pair) s = .next { s with power := s.power.setLost pair false }) ∧
    (∀ p, s.pkg? tag = some p → p.vesper = true →
      (p.late = false → s.lateDue p = true → leads (exec (.lateTimer tag) s) fun s' => (∃ q, s'.pkg? tag = some q ∧ q.late = true ∧ q.vesper = true) ∧
        s'.word 0xA118 = s.word 0xA118 + 1 ∧ exec (.lateTimer tag) s' = .next s') ∧
      (p.late = true → exec (.lateTimer tag) s = .next s))

/-- The arbiters. A request of an idle arbiter is granted at once; of a request that arrives and those parked the first, of the least
rank and of that rank the oldest, takes the resource where it may revoke the holder's grant, and the holder's unit is parked
again; a request not granted is parked, and the queue keeps to 16 entries; several units are as many requests (log 85).
ARBITER_GRANT passes the resource to the parked request that goes first, or frees it (R364, R365, R367). After each grant a parked
request that may now revoke it does so: a background request that became due (R366). Requester 7, and the staging and the log
writer on the flash interface, ask at background rank (R363, R444). Which request a full queue sends back (log 42) and that a
background request keeps its rank through its unit (log 129) are the model's readings. -/
def Obligations.ArbiterServes : Prop :=
  ∀ (s : State) (arb : Fin 16) (rank : Fin 4) (who : Nat), arbiterHas arb.val who = true → s.start.phase ≠ .off →
    let a := s.arb arb.val
    let r : Fin 4 := if who = 7 ∨ (arb.val = 9 ∧ (who = 1 ∨ who = 2)) then 3 else if rank = 1 then 1 else 2
    let q : ArbReq := ⟨r, who, a.next, s.now⟩
    (a.holder = none → a.queue = [] → leads (exec (.arbiterRequest arb rank who 1) s) fun s' =>
      (s'.arb arb.val).holder = some q ∧ (s'.arb arb.val).queue = [] ∧ (s'.arb arb.val).next = a.next + 1 ∧
      ∀ k, k ≠ arb.val → s'.arb k = s.arb k) ∧
    (∀ w, a.first (a.queue ++ [q]) = some w → w ∈ a.queue ++ [q] ∧ (∀ y ∈ a.queue ++ [q], a.before y w = false) ∧
      (∀ h, a.holder = some h → a.wins w = a.revokes w h) ∧ (a.holder = none → a.wins w = true) ∧
      (a.wins w = false → a.queue.length < 16 → leads (exec (.arbiterRequest arb rank who 1) s) fun s' =>
        (s'.arb arb.val).holder = a.holder ∧ (s'.arb arb.val).queue = a.queue ++ [q] ∧ ∀ k, k ≠ arb.val → s'.arb k = s.arb k) ∧
      (a.wins w = true → leads (exec (.arbiterRequest arb rank who 1) s) fun s' => ∀ k,
        s'.arb k = ((s.arbGive arb.val { a with next := a.next + 1, queue := eraseFirst (· == w) (a.queue ++ [q]) } w).arbSettle arb.val).arb k)) ∧
    (∀ n, leads (exec (.arbiterRequest arb rank who 1) s) fun s' => exec (.arbiterRequest arb rank who (n + 1)) s = exec (.arbiterRequest arb rank who n) s') ∧
    (∀ x, a.first a.queue = some x → x ∈ a.queue ∧ (∀ y ∈ a.queue, a.before y x = false) ∧
      (a.outside = [] → exec (.arbiterGrant arb) s =
        .next ((s.arbGive arb.val { a with holder := none, queue := eraseFirst (· == x) a.queue } x).arbSettle arb.val))) ∧
    (a.queue = [] → leads (exec (.arbiterGrant arb) s) fun s' => (s'.arb arb.val).holder = none ∧ s'.tiles = s.tiles) ∧
    (∀ (z : State) (b : Arbiter) (x : ArbReq), ((z.arbGive arb.val b x).arb arb.val).holder = some x ∧
      (b.holder = none → ((z.arbGive arb.val b x).arb arb.val).queue = b.queue) ∧
      (∀ h, b.holder = some h → b.queue.length < 16 → ((z.arbGive arb.val b x).arb arb.val).queue = b.queue ++ [{ h with at_ := z.now }]) ∧
      (z.arbGive arb.val b x).mem = z.mem ∧ (z.arbGive arb.val b x).tiles = z.tiles) ∧
    (∀ (z : State) (h w : ArbReq), (z.arb arb.val).holder = some h → (z.arb arb.val).first (z.arb arb.val).queue = some w →
      ((z.arb arb.val).revokes w h = false → z.arbSettle arb.val = z) ∧
      ((z.arb arb.val).revokes w h = true → (((z.arbSettle arb.val).arb arb.val).holder = some w))) ∧
    (∀ x y, a.before x y = true ↔ a.rankOf x < a.rankOf y ∨ (a.rankOf x = a.rankOf y ∧ x.age < y.age)) ∧
    (a.queue.length ≤ 16 → (a.park q).queue.length ≤ 16)

/-! ### Hosts, keys, flash and start -/

/-- Connections: OPEN is judged with at most 64 signatures verified in any second, and before READY not at all; an ACK is heard, a
message not acknowledged goes again once its timeout has passed, or fails the connection at its limit, an idle connection fails
or sends its ACK, and a PENDING one expires after 1 s (R377 to R379, R457). A connection whose next PKT_NUM would be used up sends
nothing more and closes (R398; that it closes then is log 83). -/
def Obligations.ConnectionsLive : Prop :=
  ∀ (s : State) (h : KHdr) (c : Conn),
    (∀ role eph key nonce sig, h.type = 1 → taken s h →
      let z := (s.inward h).bump 0x7010 1
      let recent := s.opens.filter fun t => decide (s.now < t + 1000000000)
      exec (.openConn h role eph key nonce sig) s = .next (if s.start.phase = .starting then z else if 64 ≤ recent.length then z.bump 0x7028 1
        else ({ z with opens := recent ++ [s.now] }).openWith h role eph key nonce sig)) ∧
    (sound s h 0x04 [] c → exec (.khtAck h) s = .next ((s.heardAt h c).closeIfDone c.id)) ∧
    (∀ u seq, s.conn? c.id = some c → c.unacked.find? (fun u => u.seq == seq && u.sent) = some u →
      s.unheard u = true → exec (.khtRetransmit c.id seq) s = .next (if c.spent = true then s.closed c.id else if s.cfg.retryLimit ≤ u.tries then s.connFailed c.id
        else ((s.updConn c.id fun c => { c with unacked := updFirst (·.seq == seq) (fun u => { u with tries := u.tries + 1 }) c.unacked }).bump
          0x7020 1).datagram c.id u)) ∧
    (s.conn? c.id = some c → 2 ≤ c.st → s.passed c.lastAt (s.cfg.idleTimeout * 1000000000) = true → exec (.khtIdleTimeout c.id) s = .next (s.connFailed c.id)) ∧
    (s.conn? c.id = some c → 2 ≤ c.st → c.sendable.isEmpty = true → exec (.khtIdleAck c.id) s = .next (s.sendAck c.id)) ∧
    (∀ id, leads (exec (.openPendingExpiry id) s) fun s' =>
      (∀ x, x ∈ s'.conns ↔ x ∈ s.conns ∧ ¬(x.id = id ∧ x.st = 1 ∧ x.lastAt + 1000000000 ≤ s.now)) ∧ s'.mem = s.mem ∧ s'.pkgs = s.pkgs)

/-- A datagram in order on an OPEN connection whose role permits the message: the message is applied once, in SEQ order, and its
arrival is acknowledged; a connection that is closing and owes nothing ends then. Messages for data, signals, status and packages (R378, R381 to R385, R390). The same for the
messages of security and configuration: ATTEST, KEY_RELEASE of each kind, IMAGO_REQUEST, UNLOCK of both levels and STAGE
(R344, R399 to R409, R415, R444). -/
def Obligations.HostMessages : Prop :=
  (∀ (s : State) (h : KHdr) (c c1 : Conn) (job : BitVec 16),
    let id := c.id
    (due s h 0x03 c c1 .close → exec (.closeConn h) s =
      .next ((((s.before h c .close).updConn id fun c => { c with st := 3 }).sendAck id).closeIfDone id)) ∧
    (∀ (pid : BitVec 8) (off : BitVec 26) (total : BitVec 27) (data : List Byte), 1 ≤ data.length → data.length ≤ 8176 → 64 ≤ total.toNat →
      total.toNat ≤ 2 ^ 26 → let m := HMsg.submit pid.toNat off.toNat total.toNat data
      due s h 0x10 c c1 m → exec (.submit h pid off total data) s =
        .next ((((s.before h c m).submitFragment id h.seq pid.toNat off.toNat total.toNat data).sendAck id).closeIfDone id)) ∧
    (∀ pid : BitVec 8, let m := HMsg.abandon pid.toNat job
      due s h 0x14 c c1 m → exec (.abandon h pid job) s = .next ((((s.before h c m).hostAbandon id h.seq pid.toNat job).sendAck id).closeIfDone id)) ∧
    (∀ (a : BitVec 64) (data : List Byte), 1 ≤ data.length → data.length ≤ 8176 → let m := HMsg.put job a data
      due s h 0x20 c c1 m → exec (.khtPut h job a data) s =
        .next (((codeReply id 0x20 h.seq job ((s.before h c m).hostPut job a.toNat data)).sendAck id).closeIfDone id)) ∧
    (∀ (a : BitVec 64) (n : BitVec 21), 1 ≤ n.toNat → n.toNat ≤ 1048576 → let m := HMsg.get job a n.toNat
      due s h 0x21 c c1 m → exec (.khtGet h job a n) s = .next ((((s.before h c m).hostGet id h.seq job a.toNat n.toNat).sendAck id).closeIfDone id)) ∧
    (∀ (kind : Bool) (n : BitVec 16) (w1 : BitVec 64), (kind = true → 1 ≤ fld w1.toNat 32 32 ∧ fld w1.toNat 32 32 ≤ 2 ^ 31 - 1) →
      let m := HMsg.signalIn job kind n.toNat w1
      due s h 0x30 c c1 m → exec (.signalIn h job kind n w1) s =
        .next (((codeReply id 0x30 h.seq job ((s.before h c m).hostSignal job kind n.toNat w1)).sendAck id).closeIfDone id)) ∧
    (∀ (off : BitVec 16) (n : BitVec 10), off.toNat % 8 = 0 → 1 ≤ n.toNat → n.toNat ≤ 1022 → off.toNat + 8 * n.toNat ≤ 0x10000 →
      let m := HMsg.statusRead off.toNat n.toNat
      due s h 0x40 c c1 m → exec (.statusRead h off n) s = .next ((((s.before h c m).statusData id h.seq off.toNat n.toNat).sendAck id).closeIfDone id))) ∧
  (∀ (s : State) (h : KHdr) (c c1 : Conn) (job : BitVec 16),
    let id := c.id
    (∀ ch, let m := HMsg.attest ch job
      due s h 0x50 c c1 m → exec (.attest h ch job) s = .next ((((s.before h c m).attest id h.seq ch job).sendAck id).closeIfDone id)) ∧
    (∀ (slot : BitVec 8) (b : List Byte), b.length ≤ 8184 → blobOk b = true → let m := HMsg.keyRelease job slot.toNat b
      due s h 0x52 c c1 m →
      (blobKind b = 1 → exec (.keyReleaseWeightKey h job slot b) s = .next ((((s.before h c m).weightKey id h.seq job slot.toNat b).sendAck id).closeIfDone id)) ∧
      (blobKind b = 2 → exec (.keyReleaseUnseal h job slot b) s = .next ((((s.before h c m).unseal id h.seq job slot.toNat b).sendAck id).closeIfDone id)) ∧
      (blobKind b = 3 → exec (.keyReleaseTenantGrant h job slot b) s = .next ((((s.before h c m).tenantGrant id h.seq job slot.toNat b).sendAck id).closeIfDone id))) ∧
    (∀ scope key, let m := HMsg.imago job scope key
      due s h 0x60 c c1 m → exec (.imagoRequest h job scope key) s = .next ((((s.before h c m).imagoRequest id h.seq job scope key).sendAck id).closeIfDone id)) ∧
    (∀ pw : List Byte, 1 ≤ pw.length → pw.length ≤ 64 → due s h 0x70 c c1 (.unlock1 pw) →
      exec (.unlockLevel1 h pw) s = .next ((((s.before h c (.unlock1 pw)).unlock1 id h.seq pw).sendAck id).closeIfDone id)) ∧
    (due s h 0x70 c c1 .unlock2 → exec (.unlockLevel2Request h) s = .next ((((s.before h c .unlock2).unlock2 id h.seq).sendAck id).closeIfDone id)) ∧
    (∀ key sig, let m := HMsg.unlock2Response key sig
      due s h 0x70 c c1 m → exec (.unlockLevel2Response h key sig) s = .next ((((s.before h c m).unlock2Response id h.seq key sig).sendAck id).closeIfDone id)) ∧
    (∀ (off total : BitVec 28) (data : List Byte), 1 ≤ data.length → data.length ≤ 8176 → off.toNat ≤ 2 ^ 27 → total.toNat ≤ 2 ^ 27 →
      let m := HMsg.stage off.toNat total.toNat data
      due s h 0x72 c c1 m → exec (.stage h off total data) s = .next ((((s.before h c m).stage id h.seq off.toNat total.toNat data).sendAck id).closeIfDone id)))

/-- The vault's own events. ZEROING_COMPLETE leaves the stacked memory and every scratchpad zero, no context, no zeroing, and the
tenant of the grant bound or the module released; what its connection held back then takes effect. UNSEAL_COMPLETE runs the
oldest unseal of a job and answers it. An unlock ends at its time and is then held by no session of that number; a lockout and a source's
quarantine of 60 s end at theirs. An ICMPv6 request on a live port is counted and answered, and one in a frame beyond 9,042 bytes is
not the port's (the sizes are log 126's). MKA_FRAME is counted, and installs the key server's SAK on a host port whose CAK its CKN
names, with PN 1, which REKEYS counts (R271, R371, R392, R401, R403, R409, R413, R416, R419). Secrets and challenges are free (log
3), what a release does in cases left open is log 89's and an unlock's log 90's, a closing connection's last ACK log 83's, and what
REKEYS counts log 131's. -/
def Obligations.VaultEvents : Prop :=
  ∀ (s : State) (id : BitVec 32) (job : BitVec 16) (source : BitVec 128) (port : Fin 2),
    (∀ z, s.sec.zeroing = some z → leads (exec .zeroingComplete s) fun s' =>
      s' = (s.zeroed.applyHeld z.conn (match s.zeroed.conn? z.conn with | some c => c.held.length | none => 0)).closeIfDone z.conn) ∧
    (∀ z, s.sec.zeroing = some z → s.zeroed.mem.dram = [] ∧ (∀ t, (s.zeroed.tile t).scratch = [] ∧ (s.zeroed.tile t).queue = []) ∧
      s.zeroed.sec.zeroing = none ∧ s.zeroed.sec.tenant = z.tenant ∧ s.zeroed.jobs = []) ∧
    (∀ u, s.sec.unseals.find? (fun u => u.job == job) = some u →
      let s1 := { s with sec := { s.sec with unseals := eraseFirst (fun y => y.job == job) s.sec.unseals } }
      let r := s1.unsealAll job u.key u.extents
      exec (.unsealComplete job) s = .next ((if r.1 = 0 then r.2 else r.2.noteCode u.conn 0x52 r.1 (some job)).outcome u.conn u.ref r.1)) ∧
    (∀ c u, s.conn? id = some c → c.unlock = some u → u.2 ≤ s.now → leads (exec (.unlockExpiry id) s) fun s' =>
      s' = s.endUnlock id ∧ (∀ d, s'.conn? id = some d → d.unlock = none) ∧ s'.jobs = s.jobs) ∧
    (∀ t, s.sec.lockout = some t → exec .lockoutEnd s = .next (if t ≤ s.now then { s with sec := { s.sec with lockout := none } } else s)) ∧
    (leads (exec (.hostQuarantineEnd source) s) fun s' =>
      (∀ q, q ∈ s'.quarantined ↔ q ∈ s.quarantined ∧ ¬(q.1 = source ∧ q.2 + 60000000000 ≤ s.now)) ∧ s'.conns = s.conns) ∧
    (∀ echo data, (s.start.phase = .starting ∨ s.start.phase = .ready) → (s.port (40 + port.val)).st = 2 → data.length ≤ 8952 →
      leads (exec (.icmpv6Request port echo data) s) fun s' => Out.icmp port echo data ∈ s'.out ∧ s'.mem = s.mem ∧ s'.conns = s.conns ∧
        s'.word (0x2110 + 0x40 * (40 + port.val)) = s.word (0x2110 + 0x40 * (40 + port.val)) + BitVec.ofNat 64 (90 + data.length)) ∧
    (∀ echo data, 8952 < data.length → exec (.icmpv6Request port echo data) s = .next s) ∧
    (∀ (ckn : BitVec 128) (an : BitVec 2) (sak : BitVec 256) (bytes corrected : Nat), s.alive = true → (s.port (40 + port.val)).phy = true →
      leads (exec (.mkaFrame port an ⟨ckn, sak, bytes, corrected⟩) s) fun s' => s'.mem = s.mem ∧ s'.conns = s.conns ∧
        s'.word (0x2110 + 0x40 * (40 + port.val)) = s.word (0x2110 + 0x40 * (40 + port.val)) + BitVec.ofNat 64 bytes ∧
        (s.holdsCkn port ckn = false → s'.port (40 + port.val) = s.port (40 + port.val)) ∧
        (s.holdsCkn port ckn = true → (s'.port (40 + port.val)).an = an ∧ (s'.port (40 + port.val)).key = sak.zeroExtend 352 ∧
          (s'.port (40 + port.val)).pn = 1 ∧ s'.word 0x8050 = s.word 0x8050 + 1)) ∧
    (∀ cak ckn, (if port = 0 then s.sec.hostCak.1 else s.sec.hostCak.2) = some (cak, ckn) → s.holdsCkn port ckn = true)

/-- FLASH_OP_COMPLETE ends the oldest operation of a staging, whose bytes the flash island has then taken from its crossing,
LOG_WRITE moves the oldest queued record to flash at most 32 times in any second, LOG_REPLAY_ADVANCE shows the next 16 records
or the oldest again, and overruns of start rows are recorded (R444, R452, R458, R482, R486). A crossing stalls only of an
island whose clock runs: it is counted and recorded with its direction; a channel's fails the channel besides, a port's takes its
link down, and the flash island's fails the operation of a staging (R452, R455, R462; the numbers are log 99's). In every crossing of n slots a sender that finds its slot full changes
nothing; else it puts its item there and leaves every other slot, and the receiver takes the item of its next slot, if full, and
frees it, both in rotation (R450). Power and reset: POWER_ON of a module that is off runs the start's rows,
READY ends it, a loss of power stops everything and a reset by pin or watchdog stops everything but keeps the stacked memory;
flash, fuses and the retained counts stay, and each leaves its START_CAUSE for the start that follows (R456, R459, R461, R465,
Table 18-4). The state record's place in a staging is log 132's, what the examination of the banks records log 93's, the log's ring
log 91's, what stays log 86's, a start that fails log 100's, and what passes which crossing log 121's. -/
def Obligations.FlashLogAndStart : Prop :=
  (∀ (s : State),
    (∀ g x rest, s.img.staging = some g → g.pend = x :: rest →
      let s1 := s.flashTook x.2.2 rest
      exec (.flashOpComplete false) s = .next (s1.stageFailed g x.2.1 x.2.2.length) ∧
      (g.st = 1 → exec (.flashOpComplete true) s = .next ((s1.setFlash (stageErase s1.img.flash g)).stageProgrammed g x rest)) ∧
      (g.st = 2 → exec (.flashOpComplete true) s = .next (s1.stageProgrammed g x rest))) ∧
    (∀ r rs, s.log.queue = r :: rs → s.log.scanned = true → (s.log.taken.filter fun t => decide (s.now < t + 1000000000)).length < 32 →
      leads (exec .logWrite s) fun s' => s'.log.queue = rs ∧ s'.log.next = s.log.next + 1 ∧ s'.mem = s.mem ∧ s'.tiles = s.tiles ∧
        s'.img.fused = s.img.fused) ∧
    (∀ q, s.log.replay = some q →
      exec .logReplayAdvance s = .next (if (q + 16).toNat < s.log.next.toNat then s.replayShow (q + 16) else s.replayStart)) ∧
    (∀ row : Fin 8, row ≠ 0 → exec (.startRowOverrun row) s = .next (s.xingEvent 0xB101 0 row.val false)) ∧
    (∀ rx,
      (s.start.phase ≠ .off → exec (.crossingStall ⟨42, rx⟩) s = .next ((s.bump 0xB030 1).xingEvent 0xB202 1 0 rx)) ∧
      (s.start.runs = true → exec (.crossingStall ⟨620, rx⟩) s = .next ((s.bump 0xB030 1).xingEvent 0xB202 4 0 rx)) ∧
      (∀ n, 43 ≤ n → n ≤ 618 → s.clockRuns (.phy (n - 43)) = true →
        exec (.crossingStall ⟨n, rx⟩) s = .next (((s.bump 0xB030 1).xingEvent 0xB202 2 (n - 43) rx).failChannel (n - 43))) ∧
      (∀ n, n < 42 → s.clockRuns (.port n) = true → let s1 := (s.bump 0xB030 1).xingEvent 0xB202 0 n rx
        exec (.crossingStall ⟨n, rx⟩) s = .next (if n < 40 then s1.linkLost n false else s1.hostPortDown n)) ∧
      (∀ g x rest, s.img.staging = some g → g.pend = x :: rest → s.clockRuns .flash = true →
        exec (.crossingStall ⟨619, rx⟩) s = .next ((((s.bump 0xB030 1).xingEvent 0xB202 3 0 rx).stageFailed g x.2.1 x.2.2.length).resetCrossings
          [flashIn, flashOut])) ∧
      (∀ n, n ≤ 620 → s.clockRuns (stalledIsland n) = false → exec (.crossingStall ⟨n, rx⟩) s = .next s))) ∧
  (∀ (s : State) (p : PowerIn),
    (s.start.phase = .off → p.coreOk = true → 400 ≤ p.volts →
      let s1 := ((s.startCore p).chooseImage p.readErrors).runRow 4 534000000
      exec (.powerOn p) s = .next (if s1.start.phase = .safe then s1.holdTiles else (s1.startUnits p).startLinks)) ∧
    (s.start.phase = .starting → leads (exec .ready s) fun s' => s'.start.phase = .ready ∧ s'.mem = s.mem) ∧
    (leads (exec .powerLoss s) fun s' => s'.start.phase = .off ∧ s'.start.cause = 0 ∧ s'.tiles = [] ∧ s'.jobs = [] ∧ s'.pkgs = [] ∧ s'.conns = [] ∧
      s'.mem.dram = [] ∧ s'.img.flash = s.img.flash ∧ s'.img.fused = s.img.fused ∧ s'.pending = s.pending) ∧
    (s.start.phase ≠ .off →
      (leads (exec .moduleReset s) fun s' => s'.start.phase = .off ∧ s'.start.cause = 1 ∧ s'.tiles = [] ∧ s'.jobs = [] ∧ s'.pkgs = [] ∧ s'.conns = [] ∧
        s'.mem.dram = s.mem.dram ∧ s'.img.flash = s.img.flash ∧ s'.start.pinResets = s.start.pinResets + 1 ∧ s'.pending = s.pending) ∧
      (leads (exec .watchdogReset s) fun s' => s'.start.phase = .off ∧ s'.start.cause = 2 ∧ s'.tiles = [] ∧ s'.jobs = [] ∧ s'.pkgs = [] ∧ s'.conns = [] ∧
        s'.mem.dram = s.mem.dram ∧ s'.img.flash = s.img.flash ∧ s'.start.watchdogs = s.start.watchdogs + 1 ∧ s'.pending = s.pending))) ∧
  (∀ (n : Nat) (x : Crossing) (item : List Byte),
    (x.full x.put = true → x.give n item = none) ∧
    (x.full x.put = false → ∃ y, x.give n item = some y ∧ y.full x.put = true ∧ Sp.get [] y.regs x.put = item ∧ y.put = (x.put + 1) % n ∧
      y.take = x.take ∧ (∀ k, k ≠ x.put → y.full k = x.full k ∧ Sp.get [] y.regs k = Sp.get [] x.regs k)) ∧
    (x.full x.take = false → x.receive n = none) ∧
    (x.full x.take = true → ∃ y, x.receive n = some (Sp.get [] x.regs x.take, y) ∧ y.full x.take = false ∧ y.take = (x.take + 1) % n ∧
      y.put = x.put ∧ y.regs = x.regs ∧ (∀ k, k ≠ x.take → y.full k = x.full k)))
end

