-- ==== Sys2Proof/Decode.lean ====
section
/-!
DEFINITION. The commands that words spell by the opcode table's bits.
-/
namespace Sys2Proof

/-- No row of spec/opcode_table.json gives bits for its command, so that no word spells one. -/
def decodeTableWord (_nbits _w : Nat) : Option Instr := none

end Sys2Proof
end

