-- ==== Sys2Proof/Laws/Sp.lean ====
section
/-!
SUPPORT. Laws of sparse maps and memories: reading after writing, and the canonical form, which every operation keeps.
-/
namespace Sys2Proof.Machine

variable {α : Type} {d : α}

theorem Sp.wfFrom_cons [DecidableEq α] {lo j : Nat} {v : α} {m : Sp α} :
    Sp.wfFrom d lo ((j, v) :: m) = true ↔ lo ≤ j ∧ v ≠ d ∧ Sp.wfFrom d (j + 1) m = true := by
  simp [Sp.wfFrom, and_assoc]

theorem Sp.wfFrom_mono [DecidableEq α] {lo lo' : Nat} {m : Sp α} (h : lo' ≤ lo) (w : Sp.wfFrom d lo m = true) : Sp.wfFrom d lo' m = true := by
  cases m with
  | nil => rfl
  | cons e m => obtain ⟨j, v⟩ := e; rw [Sp.wfFrom_cons] at *; exact ⟨by omega, w.2⟩

/-- Below the first key of a canonical map stands the default. -/
theorem Sp.get_below [DecidableEq α] {lo k : Nat} {m : Sp α} (w : Sp.wfFrom d lo m = true) (h : k < lo) : Sp.get d m k = d := by
  induction m generalizing lo with
  | nil => rfl
  | cons e m ih =>
    obtain ⟨j, v⟩ := e
    rw [Sp.wfFrom_cons] at w
    simp only [Sp.get]
    rw [if_neg (by omega)]
    exact ih w.2.2 (by omega)

theorem Sp.get_ins_self (m : Sp α) (k : Nat) (v : α) : Sp.get d (Sp.ins m k v) k = v := by
  induction m with
  | nil => simp [Sp.ins, Sp.get]
  | cons e m ih =>
    obtain ⟨j, u⟩ := e
    simp only [Sp.ins]
    split
    · simp only [Sp.get]; rw [if_neg (by omega)]; exact ih
    · split <;> simp [Sp.get]

theorem Sp.get_ins_ne (m : Sp α) {k k' : Nat} (v : α) (h : k' ≠ k) : Sp.get d (Sp.ins m k v) k' = Sp.get d m k' := by
  induction m with
  | nil => simp [Sp.ins, Sp.get, h.symm]
  | cons e m ih =>
    obtain ⟨j, u⟩ := e
    simp only [Sp.ins]
    split
    · simp only [Sp.get, ih]
    · split
      · subst_vars; simp [Sp.get, h.symm]
      · simp [Sp.get, h.symm]

theorem Sp.get_drop_ne (m : Sp α) {k k' : Nat} (h : k' ≠ k) : Sp.get d (Sp.drop m k) k' = Sp.get d m k' := by
  induction m with
  | nil => rfl
  | cons e m ih =>
    obtain ⟨j, u⟩ := e
    simp only [Sp.drop]
    split
    · subst_vars; simp [Sp.get, h.symm, ih]
    · simp only [Sp.get, ih]

theorem Sp.get_drop_self (m : Sp α) (k : Nat) : Sp.get d (Sp.drop m k) k = d := by
  induction m with
  | nil => rfl
  | cons e m ih =>
    obtain ⟨j, u⟩ := e
    simp only [Sp.drop]
    split
    · exact ih
    · simp only [Sp.get]; rw [if_neg ‹_›]; exact ih

/-- A write is read back. -/
@[simp] theorem Sp.get_put_self [DecidableEq α] (m : Sp α) (k : Nat) (v : α) : Sp.get d (Sp.put d m k v) k = v := by
  unfold Sp.put
  split
  · rw [Sp.get_drop_self]; simp_all
  · exact Sp.get_ins_self m k v

/-- A write leaves every other key alone. -/
theorem Sp.get_put_ne [DecidableEq α] (m : Sp α) {k k' : Nat} (v : α) (h : k' ≠ k) : Sp.get d (Sp.put d m k v) k' = Sp.get d m k' := by
  unfold Sp.put
  split
  · exact Sp.get_drop_ne m h
  · exact Sp.get_ins_ne m v h

theorem Sp.wfFrom_drop [DecidableEq α] {lo : Nat} {m : Sp α} (w : Sp.wfFrom d lo m = true) (k : Nat) : Sp.wfFrom d lo (Sp.drop m k) = true := by
  induction m generalizing lo with
  | nil => rfl
  | cons e m ih =>
    obtain ⟨j, u⟩ := e
    rw [Sp.wfFrom_cons] at w
    simp only [Sp.drop]
    split
    · exact Sp.wfFrom_mono (by omega) (ih w.2.2)
    · exact Sp.wfFrom_cons.mpr ⟨w.1, w.2.1, ih w.2.2⟩

theorem Sp.wfFrom_ins [DecidableEq α] {lo : Nat} {m : Sp α} (w : Sp.wfFrom d lo m = true) {k : Nat} (hk : lo ≤ k) {v : α} (hv : v ≠ d) :
    Sp.wfFrom d lo (Sp.ins m k v) = true := by
  induction m generalizing lo with
  | nil => exact Sp.wfFrom_cons.mpr ⟨hk, hv, rfl⟩
  | cons e m ih =>
    obtain ⟨j, u⟩ := e
    rw [Sp.wfFrom_cons] at w
    simp only [Sp.ins]
    split
    · exact Sp.wfFrom_cons.mpr ⟨w.1, w.2.1, ih w.2.2 (by omega)⟩
    · split
      · subst_vars; exact Sp.wfFrom_cons.mpr ⟨hk, hv, w.2.2⟩
      · exact Sp.wfFrom_cons.mpr ⟨hk, hv, Sp.wfFrom_cons.mpr ⟨by omega, w.2⟩⟩

/-- Every write keeps the canonical form. -/
theorem Sp.wf_put [DecidableEq α] {m : Sp α} (w : Sp.wf d m = true) (k : Nat) (v : α) : Sp.wf d (Sp.put d m k v) = true := by
  unfold Sp.put
  split
  · exact Sp.wfFrom_drop w k
  · exact Sp.wfFrom_ins w (Nat.zero_le k) ‹_›

theorem Sp.wf_drop [DecidableEq α] {m : Sp α} (w : Sp.wf d m = true) (k : Nat) : Sp.wf d (Sp.drop m k) = true := Sp.wfFrom_drop w k

theorem Sp.wfFrom_filter [DecidableEq α] {lo : Nat} {m : Sp α} (w : Sp.wfFrom d lo m = true) (p : Nat × α → Bool) :
    Sp.wfFrom d lo (List.filter p m) = true := by
  induction m generalizing lo with
  | nil => rfl
  | cons e m ih =>
    obtain ⟨j, u⟩ := e
    rw [Sp.wfFrom_cons] at w
    simp only [List.filter]
    split
    · exact Sp.wfFrom_cons.mpr ⟨w.1, w.2.1, ih w.2.2⟩
    · exact Sp.wfFrom_mono (by omega) (ih w.2.2)

/-- Leaving entries out keeps the canonical form. -/
theorem Sp.wf_filter [DecidableEq α] {m : Sp α} (w : Sp.wf d m = true) (p : Nat × α → Bool) : Sp.wf d (List.filter p m) = true := Sp.wfFrom_filter w p

/-! ### Memories -/

theorem Mem.wf_set {m : Mem} (w : Mem.wf m = true) (a : Nat) (b : Byte) : Mem.wf (Mem.set m a b) = true := Sp.wf_put w a b

@[simp] theorem Mem.get_set_self (m : Mem) (a : Nat) (b : Byte) : Mem.get (Mem.set m a b) a = b := Sp.get_put_self m a b

theorem Mem.get_set_ne (m : Mem) {a k : Nat} (b : Byte) (h : k ≠ a) : Mem.get (Mem.set m a b) k = Mem.get m k := Sp.get_put_ne m b h

theorem Mem.wf_setBytes {m : Mem} (w : Mem.wf m = true) (a : Nat) (bs : List Byte) : Mem.wf (Mem.setBytes m a bs) = true := by
  induction bs generalizing m a with
  | nil => exact w
  | cons b bs ih => exact ih (Mem.wf_set w a b) (a + 1)

/-- Bytes written leave every address outside them alone. -/
theorem Mem.get_setBytes_outside (m : Mem) (a : Nat) (bs : List Byte) {k : Nat} (h : k < a ∨ a + bs.length ≤ k) :
    Mem.get (Mem.setBytes m a bs) k = Mem.get m k := by
  induction bs generalizing m a with
  | nil => rfl
  | cons b bs ih =>
    simp only [List.length_cons] at h
    rw [Mem.setBytes, ih _ _ (by omega), Mem.get_set_ne m b (by omega)]

/-- Bytes written are read back. -/
theorem Mem.bytes_setBytes (m : Mem) (a : Nat) (bs : List Byte) : Mem.bytes (Mem.setBytes m a bs) a bs.length = bs := by
  induction bs generalizing m a with
  | nil => rfl
  | cons b bs ih =>
    simp only [List.length_cons, Mem.bytes, Mem.setBytes, List.cons.injEq]
    exact ⟨by rw [Mem.get_setBytes_outside _ _ _ (by omega), Mem.get_set_self], ih (Mem.set m a b) (a + 1)⟩

/-- A key of another part of a map is untouched by leaving entries out. -/
theorem Sp.get_filter (m : Sp α) (p : Nat → Bool) (k : Nat) :
    Sp.get d (List.filter (fun e => p e.1) m) k = if p k then Sp.get d m k else d := by
  induction m with
  | nil => simp [Sp.get]
  | cons e m ih =>
    obtain ⟨j, u⟩ := e
    simp only [List.filter]
    by_cases hk : j = k
    · subst hk; cases hp : p j <;> simp_all [Sp.get]
    · cases hp : p j <;> simp_all [Sp.get]

end Sys2Proof.Machine
end

