-- ==== Sys2Proof/Laws/State.lean ====
section
/-!
SUPPORT. What each plain update of the state leaves alone: one lemma per field per update, so that no proof unfolds a record
update. A field that an update writes has its lemma in Laws/Access.lean.
-/
namespace Sys2Proof.Machine

variable (s : State)

/-! ### setTile -/

@[simp] theorem State.setTile_cfg (t : Nat) (x : TileState) : (s.setTile t x).cfg = s.cfg := rfl
@[simp] theorem State.setTile_start (t : Nat) (x : TileState) : (s.setTile t x).start = s.start := rfl
@[simp] theorem State.setTile_mem (t : Nat) (x : TileState) : (s.setTile t x).mem = s.mem := rfl
@[simp] theorem State.setTile_jobs (t : Nat) (x : TileState) : (s.setTile t x).jobs = s.jobs := rfl
@[simp] theorem State.setTile_pkgs (t : Nat) (x : TileState) : (s.setTile t x).pkgs = s.pkgs := rfl
@[simp] theorem State.setTile_eval (t : Nat) (x : TileState) : (s.setTile t x).eval = s.eval := rfl
@[simp] theorem State.setTile_imagos (t : Nat) (x : TileState) : (s.setTile t x).imagos = s.imagos := rfl
@[simp] theorem State.setTile_ports (t : Nat) (x : TileState) : (s.setTile t x).ports = s.ports := rfl
@[simp] theorem State.setTile_crossings (t : Nat) (x : TileState) : (s.setTile t x).crossings = s.crossings := rfl
@[simp] theorem State.setTile_xfers (t : Nat) (x : TileState) : (s.setTile t x).xfers = s.xfers := rfl
@[simp] theorem State.setTile_nextXfer (t : Nat) (x : TileState) : (s.setTile t x).nextXfer = s.nextXfer := rfl
@[simp] theorem State.setTile_tallies (t : Nat) (x : TileState) : (s.setTile t x).tallies = s.tallies := rfl
@[simp] theorem State.setTile_power (t : Nat) (x : TileState) : (s.setTile t x).power = s.power := rfl
@[simp] theorem State.setTile_arbs (t : Nat) (x : TileState) : (s.setTile t x).arbs = s.arbs := rfl
@[simp] theorem State.setTile_conns (t : Nat) (x : TileState) : (s.setTile t x).conns = s.conns := rfl
@[simp] theorem State.setTile_nextConn (t : Nat) (x : TileState) : (s.setTile t x).nextConn = s.nextConn := rfl
@[simp] theorem State.setTile_hostQueues (t : Nat) (x : TileState) : (s.setTile t x).hostQueues = s.hostQueues := rfl
@[simp] theorem State.setTile_assemblies (t : Nat) (x : TileState) : (s.setTile t x).assemblies = s.assemblies := rfl
@[simp] theorem State.setTile_quarantined (t : Nat) (x : TileState) : (s.setTile t x).quarantined = s.quarantined := rfl
@[simp] theorem State.setTile_hostViol (t : Nat) (x : TileState) : (s.setTile t x).hostViol = s.hostViol := rfl
@[simp] theorem State.setTile_opens (t : Nat) (x : TileState) : (s.setTile t x).opens = s.opens := rfl
@[simp] theorem State.setTile_sec (t : Nat) (x : TileState) : (s.setTile t x).sec = s.sec := rfl
@[simp] theorem State.setTile_health (t : Nat) (x : TileState) : (s.setTile t x).health = s.health := rfl
@[simp] theorem State.setTile_log (t : Nat) (x : TileState) : (s.setTile t x).log = s.log := rfl
@[simp] theorem State.setTile_img (t : Nat) (x : TileState) : (s.setTile t x).img = s.img := rfl
@[simp] theorem State.setTile_stat (t : Nat) (x : TileState) : (s.setTile t x).stat = s.stat := rfl
@[simp] theorem State.setTile_pub (t : Nat) (x : TileState) : (s.setTile t x).pub = s.pub := rfl
@[simp] theorem State.setTile_pubExact (t : Nat) (x : TileState) : (s.setTile t x).pubExact = s.pubExact := rfl
@[simp] theorem State.setTile_out (t : Nat) (x : TileState) : (s.setTile t x).out = s.out := rfl
@[simp] theorem State.setTile_freeCtr (t : Nat) (x : TileState) : (s.setTile t x).freeCtr = s.freeCtr := rfl
@[simp] theorem State.setTile_pending (t : Nat) (x : TileState) : (s.setTile t x).pending = s.pending := rfl

/-! ### setPort -/

@[simp] theorem State.setPort_cfg (p : Nat) (x : Port) : (s.setPort p x).cfg = s.cfg := rfl
@[simp] theorem State.setPort_start (p : Nat) (x : Port) : (s.setPort p x).start = s.start := rfl
@[simp] theorem State.setPort_tiles (p : Nat) (x : Port) : (s.setPort p x).tiles = s.tiles := rfl
@[simp] theorem State.setPort_mem (p : Nat) (x : Port) : (s.setPort p x).mem = s.mem := rfl
@[simp] theorem State.setPort_jobs (p : Nat) (x : Port) : (s.setPort p x).jobs = s.jobs := rfl
@[simp] theorem State.setPort_pkgs (p : Nat) (x : Port) : (s.setPort p x).pkgs = s.pkgs := rfl
@[simp] theorem State.setPort_eval (p : Nat) (x : Port) : (s.setPort p x).eval = s.eval := rfl
@[simp] theorem State.setPort_imagos (p : Nat) (x : Port) : (s.setPort p x).imagos = s.imagos := rfl
@[simp] theorem State.setPort_crossings (p : Nat) (x : Port) : (s.setPort p x).crossings = s.crossings := rfl
@[simp] theorem State.setPort_xfers (p : Nat) (x : Port) : (s.setPort p x).xfers = s.xfers := rfl
@[simp] theorem State.setPort_nextXfer (p : Nat) (x : Port) : (s.setPort p x).nextXfer = s.nextXfer := rfl
@[simp] theorem State.setPort_tallies (p : Nat) (x : Port) : (s.setPort p x).tallies = s.tallies := rfl
@[simp] theorem State.setPort_power (p : Nat) (x : Port) : (s.setPort p x).power = s.power := rfl
@[simp] theorem State.setPort_arbs (p : Nat) (x : Port) : (s.setPort p x).arbs = s.arbs := rfl
@[simp] theorem State.setPort_conns (p : Nat) (x : Port) : (s.setPort p x).conns = s.conns := rfl
@[simp] theorem State.setPort_nextConn (p : Nat) (x : Port) : (s.setPort p x).nextConn = s.nextConn := rfl
@[simp] theorem State.setPort_hostQueues (p : Nat) (x : Port) : (s.setPort p x).hostQueues = s.hostQueues := rfl
@[simp] theorem State.setPort_assemblies (p : Nat) (x : Port) : (s.setPort p x).assemblies = s.assemblies := rfl
@[simp] theorem State.setPort_quarantined (p : Nat) (x : Port) : (s.setPort p x).quarantined = s.quarantined := rfl
@[simp] theorem State.setPort_hostViol (p : Nat) (x : Port) : (s.setPort p x).hostViol = s.hostViol := rfl
@[simp] theorem State.setPort_opens (p : Nat) (x : Port) : (s.setPort p x).opens = s.opens := rfl
@[simp] theorem State.setPort_sec (p : Nat) (x : Port) : (s.setPort p x).sec = s.sec := rfl
@[simp] theorem State.setPort_health (p : Nat) (x : Port) : (s.setPort p x).health = s.health := rfl
@[simp] theorem State.setPort_log (p : Nat) (x : Port) : (s.setPort p x).log = s.log := rfl
@[simp] theorem State.setPort_img (p : Nat) (x : Port) : (s.setPort p x).img = s.img := rfl
@[simp] theorem State.setPort_stat (p : Nat) (x : Port) : (s.setPort p x).stat = s.stat := rfl
@[simp] theorem State.setPort_pub (p : Nat) (x : Port) : (s.setPort p x).pub = s.pub := rfl
@[simp] theorem State.setPort_pubExact (p : Nat) (x : Port) : (s.setPort p x).pubExact = s.pubExact := rfl
@[simp] theorem State.setPort_out (p : Nat) (x : Port) : (s.setPort p x).out = s.out := rfl
@[simp] theorem State.setPort_freeCtr (p : Nat) (x : Port) : (s.setPort p x).freeCtr = s.freeCtr := rfl
@[simp] theorem State.setPort_pending (p : Nat) (x : Port) : (s.setPort p x).pending = s.pending := rfl

/-! ### setArb -/

@[simp] theorem State.setArb_cfg (a : Nat) (x : Arbiter) : (s.setArb a x).cfg = s.cfg := rfl
@[simp] theorem State.setArb_start (a : Nat) (x : Arbiter) : (s.setArb a x).start = s.start := rfl
@[simp] theorem State.setArb_tiles (a : Nat) (x : Arbiter) : (s.setArb a x).tiles = s.tiles := rfl
@[simp] theorem State.setArb_mem (a : Nat) (x : Arbiter) : (s.setArb a x).mem = s.mem := rfl
@[simp] theorem State.setArb_jobs (a : Nat) (x : Arbiter) : (s.setArb a x).jobs = s.jobs := rfl
@[simp] theorem State.setArb_pkgs (a : Nat) (x : Arbiter) : (s.setArb a x).pkgs = s.pkgs := rfl
@[simp] theorem State.setArb_eval (a : Nat) (x : Arbiter) : (s.setArb a x).eval = s.eval := rfl
@[simp] theorem State.setArb_imagos (a : Nat) (x : Arbiter) : (s.setArb a x).imagos = s.imagos := rfl
@[simp] theorem State.setArb_ports (a : Nat) (x : Arbiter) : (s.setArb a x).ports = s.ports := rfl
@[simp] theorem State.setArb_crossings (a : Nat) (x : Arbiter) : (s.setArb a x).crossings = s.crossings := rfl
@[simp] theorem State.setArb_xfers (a : Nat) (x : Arbiter) : (s.setArb a x).xfers = s.xfers := rfl
@[simp] theorem State.setArb_nextXfer (a : Nat) (x : Arbiter) : (s.setArb a x).nextXfer = s.nextXfer := rfl
@[simp] theorem State.setArb_tallies (a : Nat) (x : Arbiter) : (s.setArb a x).tallies = s.tallies := rfl
@[simp] theorem State.setArb_power (a : Nat) (x : Arbiter) : (s.setArb a x).power = s.power := rfl
@[simp] theorem State.setArb_conns (a : Nat) (x : Arbiter) : (s.setArb a x).conns = s.conns := rfl
@[simp] theorem State.setArb_nextConn (a : Nat) (x : Arbiter) : (s.setArb a x).nextConn = s.nextConn := rfl
@[simp] theorem State.setArb_hostQueues (a : Nat) (x : Arbiter) : (s.setArb a x).hostQueues = s.hostQueues := rfl
@[simp] theorem State.setArb_assemblies (a : Nat) (x : Arbiter) : (s.setArb a x).assemblies = s.assemblies := rfl
@[simp] theorem State.setArb_quarantined (a : Nat) (x : Arbiter) : (s.setArb a x).quarantined = s.quarantined := rfl
@[simp] theorem State.setArb_hostViol (a : Nat) (x : Arbiter) : (s.setArb a x).hostViol = s.hostViol := rfl
@[simp] theorem State.setArb_opens (a : Nat) (x : Arbiter) : (s.setArb a x).opens = s.opens := rfl
@[simp] theorem State.setArb_sec (a : Nat) (x : Arbiter) : (s.setArb a x).sec = s.sec := rfl
@[simp] theorem State.setArb_health (a : Nat) (x : Arbiter) : (s.setArb a x).health = s.health := rfl
@[simp] theorem State.setArb_log (a : Nat) (x : Arbiter) : (s.setArb a x).log = s.log := rfl
@[simp] theorem State.setArb_img (a : Nat) (x : Arbiter) : (s.setArb a x).img = s.img := rfl
@[simp] theorem State.setArb_stat (a : Nat) (x : Arbiter) : (s.setArb a x).stat = s.stat := rfl
@[simp] theorem State.setArb_pub (a : Nat) (x : Arbiter) : (s.setArb a x).pub = s.pub := rfl
@[simp] theorem State.setArb_pubExact (a : Nat) (x : Arbiter) : (s.setArb a x).pubExact = s.pubExact := rfl
@[simp] theorem State.setArb_out (a : Nat) (x : Arbiter) : (s.setArb a x).out = s.out := rfl
@[simp] theorem State.setArb_freeCtr (a : Nat) (x : Arbiter) : (s.setArb a x).freeCtr = s.freeCtr := rfl
@[simp] theorem State.setArb_pending (a : Nat) (x : Arbiter) : (s.setArb a x).pending = s.pending := rfl

/-! ### setWord -/

@[simp] theorem State.setWord_cfg (k : Nat) (x : W64) : (s.setWord k x).cfg = s.cfg := rfl
@[simp] theorem State.setWord_start (k : Nat) (x : W64) : (s.setWord k x).start = s.start := rfl
@[simp] theorem State.setWord_tiles (k : Nat) (x : W64) : (s.setWord k x).tiles = s.tiles := rfl
@[simp] theorem State.setWord_mem (k : Nat) (x : W64) : (s.setWord k x).mem = s.mem := rfl
@[simp] theorem State.setWord_jobs (k : Nat) (x : W64) : (s.setWord k x).jobs = s.jobs := rfl
@[simp] theorem State.setWord_pkgs (k : Nat) (x : W64) : (s.setWord k x).pkgs = s.pkgs := rfl
@[simp] theorem State.setWord_eval (k : Nat) (x : W64) : (s.setWord k x).eval = s.eval := rfl
@[simp] theorem State.setWord_imagos (k : Nat) (x : W64) : (s.setWord k x).imagos = s.imagos := rfl
@[simp] theorem State.setWord_ports (k : Nat) (x : W64) : (s.setWord k x).ports = s.ports := rfl
@[simp] theorem State.setWord_crossings (k : Nat) (x : W64) : (s.setWord k x).crossings = s.crossings := rfl
@[simp] theorem State.setWord_xfers (k : Nat) (x : W64) : (s.setWord k x).xfers = s.xfers := rfl
@[simp] theorem State.setWord_nextXfer (k : Nat) (x : W64) : (s.setWord k x).nextXfer = s.nextXfer := rfl
@[simp] theorem State.setWord_tallies (k : Nat) (x : W64) : (s.setWord k x).tallies = s.tallies := rfl
@[simp] theorem State.setWord_power (k : Nat) (x : W64) : (s.setWord k x).power = s.power := rfl
@[simp] theorem State.setWord_arbs (k : Nat) (x : W64) : (s.setWord k x).arbs = s.arbs := rfl
@[simp] theorem State.setWord_conns (k : Nat) (x : W64) : (s.setWord k x).conns = s.conns := rfl
@[simp] theorem State.setWord_nextConn (k : Nat) (x : W64) : (s.setWord k x).nextConn = s.nextConn := rfl
@[simp] theorem State.setWord_hostQueues (k : Nat) (x : W64) : (s.setWord k x).hostQueues = s.hostQueues := rfl
@[simp] theorem State.setWord_assemblies (k : Nat) (x : W64) : (s.setWord k x).assemblies = s.assemblies := rfl
@[simp] theorem State.setWord_quarantined (k : Nat) (x : W64) : (s.setWord k x).quarantined = s.quarantined := rfl
@[simp] theorem State.setWord_hostViol (k : Nat) (x : W64) : (s.setWord k x).hostViol = s.hostViol := rfl
@[simp] theorem State.setWord_opens (k : Nat) (x : W64) : (s.setWord k x).opens = s.opens := rfl
@[simp] theorem State.setWord_sec (k : Nat) (x : W64) : (s.setWord k x).sec = s.sec := rfl
@[simp] theorem State.setWord_health (k : Nat) (x : W64) : (s.setWord k x).health = s.health := rfl
@[simp] theorem State.setWord_log (k : Nat) (x : W64) : (s.setWord k x).log = s.log := rfl
@[simp] theorem State.setWord_img (k : Nat) (x : W64) : (s.setWord k x).img = s.img := rfl
@[simp] theorem State.setWord_pub (k : Nat) (x : W64) : (s.setWord k x).pub = s.pub := rfl
@[simp] theorem State.setWord_pubExact (k : Nat) (x : W64) : (s.setWord k x).pubExact = s.pubExact := rfl
@[simp] theorem State.setWord_out (k : Nat) (x : W64) : (s.setWord k x).out = s.out := rfl
@[simp] theorem State.setWord_freeCtr (k : Nat) (x : W64) : (s.setWord k x).freeCtr = s.freeCtr := rfl
@[simp] theorem State.setWord_pending (k : Nat) (x : W64) : (s.setWord k x).pending = s.pending := rfl

/-! ### bump -/

@[simp] theorem State.bump_cfg (k n : Nat) : (s.bump k n).cfg = s.cfg := rfl
@[simp] theorem State.bump_start (k n : Nat) : (s.bump k n).start = s.start := rfl
@[simp] theorem State.bump_tiles (k n : Nat) : (s.bump k n).tiles = s.tiles := rfl
@[simp] theorem State.bump_mem (k n : Nat) : (s.bump k n).mem = s.mem := rfl
@[simp] theorem State.bump_jobs (k n : Nat) : (s.bump k n).jobs = s.jobs := rfl
@[simp] theorem State.bump_pkgs (k n : Nat) : (s.bump k n).pkgs = s.pkgs := rfl
@[simp] theorem State.bump_eval (k n : Nat) : (s.bump k n).eval = s.eval := rfl
@[simp] theorem State.bump_imagos (k n : Nat) : (s.bump k n).imagos = s.imagos := rfl
@[simp] theorem State.bump_ports (k n : Nat) : (s.bump k n).ports = s.ports := rfl
@[simp] theorem State.bump_crossings (k n : Nat) : (s.bump k n).crossings = s.crossings := rfl
@[simp] theorem State.bump_xfers (k n : Nat) : (s.bump k n).xfers = s.xfers := rfl
@[simp] theorem State.bump_nextXfer (k n : Nat) : (s.bump k n).nextXfer = s.nextXfer := rfl
@[simp] theorem State.bump_tallies (k n : Nat) : (s.bump k n).tallies = s.tallies := rfl
@[simp] theorem State.bump_power (k n : Nat) : (s.bump k n).power = s.power := rfl
@[simp] theorem State.bump_arbs (k n : Nat) : (s.bump k n).arbs = s.arbs := rfl
@[simp] theorem State.bump_conns (k n : Nat) : (s.bump k n).conns = s.conns := rfl
@[simp] theorem State.bump_nextConn (k n : Nat) : (s.bump k n).nextConn = s.nextConn := rfl
@[simp] theorem State.bump_hostQueues (k n : Nat) : (s.bump k n).hostQueues = s.hostQueues := rfl
@[simp] theorem State.bump_assemblies (k n : Nat) : (s.bump k n).assemblies = s.assemblies := rfl
@[simp] theorem State.bump_quarantined (k n : Nat) : (s.bump k n).quarantined = s.quarantined := rfl
@[simp] theorem State.bump_hostViol (k n : Nat) : (s.bump k n).hostViol = s.hostViol := rfl
@[simp] theorem State.bump_opens (k n : Nat) : (s.bump k n).opens = s.opens := rfl
@[simp] theorem State.bump_sec (k n : Nat) : (s.bump k n).sec = s.sec := rfl
@[simp] theorem State.bump_health (k n : Nat) : (s.bump k n).health = s.health := rfl
@[simp] theorem State.bump_log (k n : Nat) : (s.bump k n).log = s.log := rfl
@[simp] theorem State.bump_img (k n : Nat) : (s.bump k n).img = s.img := rfl
@[simp] theorem State.bump_pub (k n : Nat) : (s.bump k n).pub = s.pub := rfl
@[simp] theorem State.bump_pubExact (k n : Nat) : (s.bump k n).pubExact = s.pubExact := rfl
@[simp] theorem State.bump_out (k n : Nat) : (s.bump k n).out = s.out := rfl
@[simp] theorem State.bump_freeCtr (k n : Nat) : (s.bump k n).freeCtr = s.freeCtr := rfl
@[simp] theorem State.bump_pending (k n : Nat) : (s.bump k n).pending = s.pending := rfl

/-! ### drawn -/

@[simp] theorem State.drawn_cfg : s.drawn.cfg = s.cfg := rfl
@[simp] theorem State.drawn_start : s.drawn.start = s.start := rfl
@[simp] theorem State.drawn_tiles : s.drawn.tiles = s.tiles := rfl
@[simp] theorem State.drawn_mem : s.drawn.mem = s.mem := rfl
@[simp] theorem State.drawn_jobs : s.drawn.jobs = s.jobs := rfl
@[simp] theorem State.drawn_pkgs : s.drawn.pkgs = s.pkgs := rfl
@[simp] theorem State.drawn_eval : s.drawn.eval = s.eval := rfl
@[simp] theorem State.drawn_imagos : s.drawn.imagos = s.imagos := rfl
@[simp] theorem State.drawn_ports : s.drawn.ports = s.ports := rfl
@[simp] theorem State.drawn_crossings : s.drawn.crossings = s.crossings := rfl
@[simp] theorem State.drawn_xfers : s.drawn.xfers = s.xfers := rfl
@[simp] theorem State.drawn_nextXfer : s.drawn.nextXfer = s.nextXfer := rfl
@[simp] theorem State.drawn_tallies : s.drawn.tallies = s.tallies := rfl
@[simp] theorem State.drawn_power : s.drawn.power = s.power := rfl
@[simp] theorem State.drawn_arbs : s.drawn.arbs = s.arbs := rfl
@[simp] theorem State.drawn_conns : s.drawn.conns = s.conns := rfl
@[simp] theorem State.drawn_nextConn : s.drawn.nextConn = s.nextConn := rfl
@[simp] theorem State.drawn_hostQueues : s.drawn.hostQueues = s.hostQueues := rfl
@[simp] theorem State.drawn_assemblies : s.drawn.assemblies = s.assemblies := rfl
@[simp] theorem State.drawn_quarantined : s.drawn.quarantined = s.quarantined := rfl
@[simp] theorem State.drawn_hostViol : s.drawn.hostViol = s.hostViol := rfl
@[simp] theorem State.drawn_opens : s.drawn.opens = s.opens := rfl
@[simp] theorem State.drawn_sec : s.drawn.sec = s.sec := rfl
@[simp] theorem State.drawn_health : s.drawn.health = s.health := rfl
@[simp] theorem State.drawn_log : s.drawn.log = s.log := rfl
@[simp] theorem State.drawn_img : s.drawn.img = s.img := rfl
@[simp] theorem State.drawn_stat : s.drawn.stat = s.stat := rfl
@[simp] theorem State.drawn_pub : s.drawn.pub = s.pub := rfl
@[simp] theorem State.drawn_pubExact : s.drawn.pubExact = s.pubExact := rfl
@[simp] theorem State.drawn_out : s.drawn.out = s.out := rfl
@[simp] theorem State.drawn_pending : s.drawn.pending = s.pending := rfl

/-! ### emit -/

@[simp] theorem State.emit_cfg (o : Out) : (s.emit o).cfg = s.cfg := rfl
@[simp] theorem State.emit_start (o : Out) : (s.emit o).start = s.start := rfl
@[simp] theorem State.emit_tiles (o : Out) : (s.emit o).tiles = s.tiles := rfl
@[simp] theorem State.emit_mem (o : Out) : (s.emit o).mem = s.mem := rfl
@[simp] theorem State.emit_jobs (o : Out) : (s.emit o).jobs = s.jobs := rfl
@[simp] theorem State.emit_pkgs (o : Out) : (s.emit o).pkgs = s.pkgs := rfl
@[simp] theorem State.emit_eval (o : Out) : (s.emit o).eval = s.eval := rfl
@[simp] theorem State.emit_imagos (o : Out) : (s.emit o).imagos = s.imagos := rfl
@[simp] theorem State.emit_ports (o : Out) : (s.emit o).ports = s.ports := rfl
@[simp] theorem State.emit_crossings (o : Out) : (s.emit o).crossings = s.crossings := rfl
@[simp] theorem State.emit_xfers (o : Out) : (s.emit o).xfers = s.xfers := rfl
@[simp] theorem State.emit_nextXfer (o : Out) : (s.emit o).nextXfer = s.nextXfer := rfl
@[simp] theorem State.emit_tallies (o : Out) : (s.emit o).tallies = s.tallies := rfl
@[simp] theorem State.emit_power (o : Out) : (s.emit o).power = s.power := rfl
@[simp] theorem State.emit_arbs (o : Out) : (s.emit o).arbs = s.arbs := rfl
@[simp] theorem State.emit_conns (o : Out) : (s.emit o).conns = s.conns := rfl
@[simp] theorem State.emit_nextConn (o : Out) : (s.emit o).nextConn = s.nextConn := rfl
@[simp] theorem State.emit_hostQueues (o : Out) : (s.emit o).hostQueues = s.hostQueues := rfl
@[simp] theorem State.emit_assemblies (o : Out) : (s.emit o).assemblies = s.assemblies := rfl
@[simp] theorem State.emit_quarantined (o : Out) : (s.emit o).quarantined = s.quarantined := rfl
@[simp] theorem State.emit_hostViol (o : Out) : (s.emit o).hostViol = s.hostViol := rfl
@[simp] theorem State.emit_opens (o : Out) : (s.emit o).opens = s.opens := rfl
@[simp] theorem State.emit_sec (o : Out) : (s.emit o).sec = s.sec := rfl
@[simp] theorem State.emit_health (o : Out) : (s.emit o).health = s.health := rfl
@[simp] theorem State.emit_log (o : Out) : (s.emit o).log = s.log := rfl
@[simp] theorem State.emit_img (o : Out) : (s.emit o).img = s.img := rfl
@[simp] theorem State.emit_stat (o : Out) : (s.emit o).stat = s.stat := rfl
@[simp] theorem State.emit_pub (o : Out) : (s.emit o).pub = s.pub := rfl
@[simp] theorem State.emit_pubExact (o : Out) : (s.emit o).pubExact = s.pubExact := rfl
@[simp] theorem State.emit_freeCtr (o : Out) : (s.emit o).freeCtr = s.freeCtr := rfl
@[simp] theorem State.emit_pending (o : Out) : (s.emit o).pending = s.pending := rfl

/-! ### updJob -/

@[simp] theorem State.updJob_cfg (j : BitVec 16) (f : JobCtx → JobCtx) : (s.updJob j f).cfg = s.cfg := rfl
@[simp] theorem State.updJob_start (j : BitVec 16) (f : JobCtx → JobCtx) : (s.updJob j f).start = s.start := rfl
@[simp] theorem State.updJob_tiles (j : BitVec 16) (f : JobCtx → JobCtx) : (s.updJob j f).tiles = s.tiles := rfl
@[simp] theorem State.updJob_mem (j : BitVec 16) (f : JobCtx → JobCtx) : (s.updJob j f).mem = s.mem := rfl
@[simp] theorem State.updJob_pkgs (j : BitVec 16) (f : JobCtx → JobCtx) : (s.updJob j f).pkgs = s.pkgs := rfl
@[simp] theorem State.updJob_eval (j : BitVec 16) (f : JobCtx → JobCtx) : (s.updJob j f).eval = s.eval := rfl
@[simp] theorem State.updJob_imagos (j : BitVec 16) (f : JobCtx → JobCtx) : (s.updJob j f).imagos = s.imagos := rfl
@[simp] theorem State.updJob_ports (j : BitVec 16) (f : JobCtx → JobCtx) : (s.updJob j f).ports = s.ports := rfl
@[simp] theorem State.updJob_crossings (j : BitVec 16) (f : JobCtx → JobCtx) : (s.updJob j f).crossings = s.crossings := rfl
@[simp] theorem State.updJob_xfers (j : BitVec 16) (f : JobCtx → JobCtx) : (s.updJob j f).xfers = s.xfers := rfl
@[simp] theorem State.updJob_nextXfer (j : BitVec 16) (f : JobCtx → JobCtx) : (s.updJob j f).nextXfer = s.nextXfer := rfl
@[simp] theorem State.updJob_tallies (j : BitVec 16) (f : JobCtx → JobCtx) : (s.updJob j f).tallies = s.tallies := rfl
@[simp] theorem State.updJob_power (j : BitVec 16) (f : JobCtx → JobCtx) : (s.updJob j f).power = s.power := rfl
@[simp] theorem State.updJob_arbs (j : BitVec 16) (f : JobCtx → JobCtx) : (s.updJob j f).arbs = s.arbs := rfl
@[simp] theorem State.updJob_conns (j : BitVec 16) (f : JobCtx → JobCtx) : (s.updJob j f).conns = s.conns := rfl
@[simp] theorem State.updJob_nextConn (j : BitVec 16) (f : JobCtx → JobCtx) : (s.updJob j f).nextConn = s.nextConn := rfl
@[simp] theorem State.updJob_hostQueues (j : BitVec 16) (f : JobCtx → JobCtx) : (s.updJob j f).hostQueues = s.hostQueues := rfl
@[simp] theorem State.updJob_assemblies (j : BitVec 16) (f : JobCtx → JobCtx) : (s.updJob j f).assemblies = s.assemblies := rfl
@[simp] theorem State.updJob_quarantined (j : BitVec 16) (f : JobCtx → JobCtx) : (s.updJob j f).quarantined = s.quarantined := rfl
@[simp] theorem State.updJob_hostViol (j : BitVec 16) (f : JobCtx → JobCtx) : (s.updJob j f).hostViol = s.hostViol := rfl
@[simp] theorem State.updJob_opens (j : BitVec 16) (f : JobCtx → JobCtx) : (s.updJob j f).opens = s.opens := rfl
@[simp] theorem State.updJob_sec (j : BitVec 16) (f : JobCtx → JobCtx) : (s.updJob j f).sec = s.sec := rfl
@[simp] theorem State.updJob_health (j : BitVec 16) (f : JobCtx → JobCtx) : (s.updJob j f).health = s.health := rfl
@[simp] theorem State.updJob_log (j : BitVec 16) (f : JobCtx → JobCtx) : (s.updJob j f).log = s.log := rfl
@[simp] theorem State.updJob_img (j : BitVec 16) (f : JobCtx → JobCtx) : (s.updJob j f).img = s.img := rfl
@[simp] theorem State.updJob_stat (j : BitVec 16) (f : JobCtx → JobCtx) : (s.updJob j f).stat = s.stat := rfl
@[simp] theorem State.updJob_pub (j : BitVec 16) (f : JobCtx → JobCtx) : (s.updJob j f).pub = s.pub := rfl
@[simp] theorem State.updJob_pubExact (j : BitVec 16) (f : JobCtx → JobCtx) : (s.updJob j f).pubExact = s.pubExact := rfl
@[simp] theorem State.updJob_out (j : BitVec 16) (f : JobCtx → JobCtx) : (s.updJob j f).out = s.out := rfl
@[simp] theorem State.updJob_freeCtr (j : BitVec 16) (f : JobCtx → JobCtx) : (s.updJob j f).freeCtr = s.freeCtr := rfl
@[simp] theorem State.updJob_pending (j : BitVec 16) (f : JobCtx → JobCtx) : (s.updJob j f).pending = s.pending := rfl

/-! ### updPkg -/

@[simp] theorem State.updPkg_cfg (g : Nat) (f : Pkg → Pkg) : (s.updPkg g f).cfg = s.cfg := rfl
@[simp] theorem State.updPkg_start (g : Nat) (f : Pkg → Pkg) : (s.updPkg g f).start = s.start := rfl
@[simp] theorem State.updPkg_tiles (g : Nat) (f : Pkg → Pkg) : (s.updPkg g f).tiles = s.tiles := rfl
@[simp] theorem State.updPkg_mem (g : Nat) (f : Pkg → Pkg) : (s.updPkg g f).mem = s.mem := rfl
@[simp] theorem State.updPkg_jobs (g : Nat) (f : Pkg → Pkg) : (s.updPkg g f).jobs = s.jobs := rfl
@[simp] theorem State.updPkg_eval (g : Nat) (f : Pkg → Pkg) : (s.updPkg g f).eval = s.eval := rfl
@[simp] theorem State.updPkg_imagos (g : Nat) (f : Pkg → Pkg) : (s.updPkg g f).imagos = s.imagos := rfl
@[simp] theorem State.updPkg_ports (g : Nat) (f : Pkg → Pkg) : (s.updPkg g f).ports = s.ports := rfl
@[simp] theorem State.updPkg_crossings (g : Nat) (f : Pkg → Pkg) : (s.updPkg g f).crossings = s.crossings := rfl
@[simp] theorem State.updPkg_xfers (g : Nat) (f : Pkg → Pkg) : (s.updPkg g f).xfers = s.xfers := rfl
@[simp] theorem State.updPkg_nextXfer (g : Nat) (f : Pkg → Pkg) : (s.updPkg g f).nextXfer = s.nextXfer := rfl
@[simp] theorem State.updPkg_tallies (g : Nat) (f : Pkg → Pkg) : (s.updPkg g f).tallies = s.tallies := rfl
@[simp] theorem State.updPkg_power (g : Nat) (f : Pkg → Pkg) : (s.updPkg g f).power = s.power := rfl
@[simp] theorem State.updPkg_arbs (g : Nat) (f : Pkg → Pkg) : (s.updPkg g f).arbs = s.arbs := rfl
@[simp] theorem State.updPkg_conns (g : Nat) (f : Pkg → Pkg) : (s.updPkg g f).conns = s.conns := rfl
@[simp] theorem State.updPkg_nextConn (g : Nat) (f : Pkg → Pkg) : (s.updPkg g f).nextConn = s.nextConn := rfl
@[simp] theorem State.updPkg_hostQueues (g : Nat) (f : Pkg → Pkg) : (s.updPkg g f).hostQueues = s.hostQueues := rfl
@[simp] theorem State.updPkg_assemblies (g : Nat) (f : Pkg → Pkg) : (s.updPkg g f).assemblies = s.assemblies := rfl
@[simp] theorem State.updPkg_quarantined (g : Nat) (f : Pkg → Pkg) : (s.updPkg g f).quarantined = s.quarantined := rfl
@[simp] theorem State.updPkg_hostViol (g : Nat) (f : Pkg → Pkg) : (s.updPkg g f).hostViol = s.hostViol := rfl
@[simp] theorem State.updPkg_opens (g : Nat) (f : Pkg → Pkg) : (s.updPkg g f).opens = s.opens := rfl
@[simp] theorem State.updPkg_sec (g : Nat) (f : Pkg → Pkg) : (s.updPkg g f).sec = s.sec := rfl
@[simp] theorem State.updPkg_health (g : Nat) (f : Pkg → Pkg) : (s.updPkg g f).health = s.health := rfl
@[simp] theorem State.updPkg_log (g : Nat) (f : Pkg → Pkg) : (s.updPkg g f).log = s.log := rfl
@[simp] theorem State.updPkg_img (g : Nat) (f : Pkg → Pkg) : (s.updPkg g f).img = s.img := rfl
@[simp] theorem State.updPkg_stat (g : Nat) (f : Pkg → Pkg) : (s.updPkg g f).stat = s.stat := rfl
@[simp] theorem State.updPkg_pub (g : Nat) (f : Pkg → Pkg) : (s.updPkg g f).pub = s.pub := rfl
@[simp] theorem State.updPkg_pubExact (g : Nat) (f : Pkg → Pkg) : (s.updPkg g f).pubExact = s.pubExact := rfl
@[simp] theorem State.updPkg_out (g : Nat) (f : Pkg → Pkg) : (s.updPkg g f).out = s.out := rfl
@[simp] theorem State.updPkg_freeCtr (g : Nat) (f : Pkg → Pkg) : (s.updPkg g f).freeCtr = s.freeCtr := rfl
@[simp] theorem State.updPkg_pending (g : Nat) (f : Pkg → Pkg) : (s.updPkg g f).pending = s.pending := rfl

/-! ### updConn -/

@[simp] theorem State.updConn_cfg (c : BitVec 32) (f : Conn → Conn) : (s.updConn c f).cfg = s.cfg := rfl
@[simp] theorem State.updConn_start (c : BitVec 32) (f : Conn → Conn) : (s.updConn c f).start = s.start := rfl
@[simp] theorem State.updConn_tiles (c : BitVec 32) (f : Conn → Conn) : (s.updConn c f).tiles = s.tiles := rfl
@[simp] theorem State.updConn_mem (c : BitVec 32) (f : Conn → Conn) : (s.updConn c f).mem = s.mem := rfl
@[simp] theorem State.updConn_jobs (c : BitVec 32) (f : Conn → Conn) : (s.updConn c f).jobs = s.jobs := rfl
@[simp] theorem State.updConn_pkgs (c : BitVec 32) (f : Conn → Conn) : (s.updConn c f).pkgs = s.pkgs := rfl
@[simp] theorem State.updConn_eval (c : BitVec 32) (f : Conn → Conn) : (s.updConn c f).eval = s.eval := rfl
@[simp] theorem State.updConn_imagos (c : BitVec 32) (f : Conn → Conn) : (s.updConn c f).imagos = s.imagos := rfl
@[simp] theorem State.updConn_ports (c : BitVec 32) (f : Conn → Conn) : (s.updConn c f).ports = s.ports := rfl
@[simp] theorem State.updConn_crossings (c : BitVec 32) (f : Conn → Conn) : (s.updConn c f).crossings = s.crossings := rfl
@[simp] theorem State.updConn_xfers (c : BitVec 32) (f : Conn → Conn) : (s.updConn c f).xfers = s.xfers := rfl
@[simp] theorem State.updConn_nextXfer (c : BitVec 32) (f : Conn → Conn) : (s.updConn c f).nextXfer = s.nextXfer := rfl
@[simp] theorem State.updConn_tallies (c : BitVec 32) (f : Conn → Conn) : (s.updConn c f).tallies = s.tallies := rfl
@[simp] theorem State.updConn_power (c : BitVec 32) (f : Conn → Conn) : (s.updConn c f).power = s.power := rfl
@[simp] theorem State.updConn_arbs (c : BitVec 32) (f : Conn → Conn) : (s.updConn c f).arbs = s.arbs := rfl
@[simp] theorem State.updConn_nextConn (c : BitVec 32) (f : Conn → Conn) : (s.updConn c f).nextConn = s.nextConn := rfl
@[simp] theorem State.updConn_hostQueues (c : BitVec 32) (f : Conn → Conn) : (s.updConn c f).hostQueues = s.hostQueues := rfl
@[simp] theorem State.updConn_assemblies (c : BitVec 32) (f : Conn → Conn) : (s.updConn c f).assemblies = s.assemblies := rfl
@[simp] theorem State.updConn_quarantined (c : BitVec 32) (f : Conn → Conn) : (s.updConn c f).quarantined = s.quarantined := rfl
@[simp] theorem State.updConn_hostViol (c : BitVec 32) (f : Conn → Conn) : (s.updConn c f).hostViol = s.hostViol := rfl
@[simp] theorem State.updConn_opens (c : BitVec 32) (f : Conn → Conn) : (s.updConn c f).opens = s.opens := rfl
@[simp] theorem State.updConn_sec (c : BitVec 32) (f : Conn → Conn) : (s.updConn c f).sec = s.sec := rfl
@[simp] theorem State.updConn_health (c : BitVec 32) (f : Conn → Conn) : (s.updConn c f).health = s.health := rfl
@[simp] theorem State.updConn_log (c : BitVec 32) (f : Conn → Conn) : (s.updConn c f).log = s.log := rfl
@[simp] theorem State.updConn_img (c : BitVec 32) (f : Conn → Conn) : (s.updConn c f).img = s.img := rfl
@[simp] theorem State.updConn_stat (c : BitVec 32) (f : Conn → Conn) : (s.updConn c f).stat = s.stat := rfl
@[simp] theorem State.updConn_pub (c : BitVec 32) (f : Conn → Conn) : (s.updConn c f).pub = s.pub := rfl
@[simp] theorem State.updConn_pubExact (c : BitVec 32) (f : Conn → Conn) : (s.updConn c f).pubExact = s.pubExact := rfl
@[simp] theorem State.updConn_out (c : BitVec 32) (f : Conn → Conn) : (s.updConn c f).out = s.out := rfl
@[simp] theorem State.updConn_freeCtr (c : BitVec 32) (f : Conn → Conn) : (s.updConn c f).freeCtr = s.freeCtr := rfl
@[simp] theorem State.updConn_pending (c : BitVec 32) (f : Conn → Conn) : (s.updConn c f).pending = s.pending := rfl

/-! ### updCtx -/

@[simp] theorem State.updCtx_cfg (t : Nat) (v : Bool) (f : Ctx → Ctx) : (s.updCtx t v f).cfg = s.cfg := rfl
@[simp] theorem State.updCtx_start (t : Nat) (v : Bool) (f : Ctx → Ctx) : (s.updCtx t v f).start = s.start := rfl
@[simp] theorem State.updCtx_mem (t : Nat) (v : Bool) (f : Ctx → Ctx) : (s.updCtx t v f).mem = s.mem := rfl
@[simp] theorem State.updCtx_jobs (t : Nat) (v : Bool) (f : Ctx → Ctx) : (s.updCtx t v f).jobs = s.jobs := rfl
@[simp] theorem State.updCtx_pkgs (t : Nat) (v : Bool) (f : Ctx → Ctx) : (s.updCtx t v f).pkgs = s.pkgs := rfl
@[simp] theorem State.updCtx_eval (t : Nat) (v : Bool) (f : Ctx → Ctx) : (s.updCtx t v f).eval = s.eval := rfl
@[simp] theorem State.updCtx_imagos (t : Nat) (v : Bool) (f : Ctx → Ctx) : (s.updCtx t v f).imagos = s.imagos := rfl
@[simp] theorem State.updCtx_ports (t : Nat) (v : Bool) (f : Ctx → Ctx) : (s.updCtx t v f).ports = s.ports := rfl
@[simp] theorem State.updCtx_crossings (t : Nat) (v : Bool) (f : Ctx → Ctx) : (s.updCtx t v f).crossings = s.crossings := rfl
@[simp] theorem State.updCtx_xfers (t : Nat) (v : Bool) (f : Ctx → Ctx) : (s.updCtx t v f).xfers = s.xfers := rfl
@[simp] theorem State.updCtx_nextXfer (t : Nat) (v : Bool) (f : Ctx → Ctx) : (s.updCtx t v f).nextXfer = s.nextXfer := rfl
@[simp] theorem State.updCtx_tallies (t : Nat) (v : Bool) (f : Ctx → Ctx) : (s.updCtx t v f).tallies = s.tallies := rfl
@[simp] theorem State.updCtx_power (t : Nat) (v : Bool) (f : Ctx → Ctx) : (s.updCtx t v f).power = s.power := rfl
@[simp] theorem State.updCtx_arbs (t : Nat) (v : Bool) (f : Ctx → Ctx) : (s.updCtx t v f).arbs = s.arbs := rfl
@[simp] theorem State.updCtx_conns (t : Nat) (v : Bool) (f : Ctx → Ctx) : (s.updCtx t v f).conns = s.conns := rfl
@[simp] theorem State.updCtx_nextConn (t : Nat) (v : Bool) (f : Ctx → Ctx) : (s.updCtx t v f).nextConn = s.nextConn := rfl
@[simp] theorem State.updCtx_hostQueues (t : Nat) (v : Bool) (f : Ctx → Ctx) : (s.updCtx t v f).hostQueues = s.hostQueues := rfl
@[simp] theorem State.updCtx_assemblies (t : Nat) (v : Bool) (f : Ctx → Ctx) : (s.updCtx t v f).assemblies = s.assemblies := rfl
@[simp] theorem State.updCtx_quarantined (t : Nat) (v : Bool) (f : Ctx → Ctx) : (s.updCtx t v f).quarantined = s.quarantined := rfl
@[simp] theorem State.updCtx_hostViol (t : Nat) (v : Bool) (f : Ctx → Ctx) : (s.updCtx t v f).hostViol = s.hostViol := rfl
@[simp] theorem State.updCtx_opens (t : Nat) (v : Bool) (f : Ctx → Ctx) : (s.updCtx t v f).opens = s.opens := rfl
@[simp] theorem State.updCtx_sec (t : Nat) (v : Bool) (f : Ctx → Ctx) : (s.updCtx t v f).sec = s.sec := rfl
@[simp] theorem State.updCtx_health (t : Nat) (v : Bool) (f : Ctx → Ctx) : (s.updCtx t v f).health = s.health := rfl
@[simp] theorem State.updCtx_log (t : Nat) (v : Bool) (f : Ctx → Ctx) : (s.updCtx t v f).log = s.log := rfl
@[simp] theorem State.updCtx_img (t : Nat) (v : Bool) (f : Ctx → Ctx) : (s.updCtx t v f).img = s.img := rfl
@[simp] theorem State.updCtx_stat (t : Nat) (v : Bool) (f : Ctx → Ctx) : (s.updCtx t v f).stat = s.stat := rfl
@[simp] theorem State.updCtx_pub (t : Nat) (v : Bool) (f : Ctx → Ctx) : (s.updCtx t v f).pub = s.pub := rfl
@[simp] theorem State.updCtx_pubExact (t : Nat) (v : Bool) (f : Ctx → Ctx) : (s.updCtx t v f).pubExact = s.pubExact := rfl
@[simp] theorem State.updCtx_out (t : Nat) (v : Bool) (f : Ctx → Ctx) : (s.updCtx t v f).out = s.out := rfl
@[simp] theorem State.updCtx_freeCtr (t : Nat) (v : Bool) (f : Ctx → Ctx) : (s.updCtx t v f).freeCtr = s.freeCtr := rfl
@[simp] theorem State.updCtx_pending (t : Nat) (v : Bool) (f : Ctx → Ctx) : (s.updCtx t v f).pending = s.pending := rfl

/-! ### setReg -/

@[simp] theorem State.setReg_cfg (t : Nat) (v : Bool) (i x : Nat) : (s.setReg t v i x).cfg = s.cfg := rfl
@[simp] theorem State.setReg_start (t : Nat) (v : Bool) (i x : Nat) : (s.setReg t v i x).start = s.start := rfl
@[simp] theorem State.setReg_mem (t : Nat) (v : Bool) (i x : Nat) : (s.setReg t v i x).mem = s.mem := rfl
@[simp] theorem State.setReg_jobs (t : Nat) (v : Bool) (i x : Nat) : (s.setReg t v i x).jobs = s.jobs := rfl
@[simp] theorem State.setReg_pkgs (t : Nat) (v : Bool) (i x : Nat) : (s.setReg t v i x).pkgs = s.pkgs := rfl
@[simp] theorem State.setReg_eval (t : Nat) (v : Bool) (i x : Nat) : (s.setReg t v i x).eval = s.eval := rfl
@[simp] theorem State.setReg_imagos (t : Nat) (v : Bool) (i x : Nat) : (s.setReg t v i x).imagos = s.imagos := rfl
@[simp] theorem State.setReg_ports (t : Nat) (v : Bool) (i x : Nat) : (s.setReg t v i x).ports = s.ports := rfl
@[simp] theorem State.setReg_crossings (t : Nat) (v : Bool) (i x : Nat) : (s.setReg t v i x).crossings = s.crossings := rfl
@[simp] theorem State.setReg_xfers (t : Nat) (v : Bool) (i x : Nat) : (s.setReg t v i x).xfers = s.xfers := rfl
@[simp] theorem State.setReg_nextXfer (t : Nat) (v : Bool) (i x : Nat) : (s.setReg t v i x).nextXfer = s.nextXfer := rfl
@[simp] theorem State.setReg_tallies (t : Nat) (v : Bool) (i x : Nat) : (s.setReg t v i x).tallies = s.tallies := rfl
@[simp] theorem State.setReg_power (t : Nat) (v : Bool) (i x : Nat) : (s.setReg t v i x).power = s.power := rfl
@[simp] theorem State.setReg_arbs (t : Nat) (v : Bool) (i x : Nat) : (s.setReg t v i x).arbs = s.arbs := rfl
@[simp] theorem State.setReg_conns (t : Nat) (v : Bool) (i x : Nat) : (s.setReg t v i x).conns = s.conns := rfl
@[simp] theorem State.setReg_nextConn (t : Nat) (v : Bool) (i x : Nat) : (s.setReg t v i x).nextConn = s.nextConn := rfl
@[simp] theorem State.setReg_hostQueues (t : Nat) (v : Bool) (i x : Nat) : (s.setReg t v i x).hostQueues = s.hostQueues := rfl
@[simp] theorem State.setReg_assemblies (t : Nat) (v : Bool) (i x : Nat) : (s.setReg t v i x).assemblies = s.assemblies := rfl
@[simp] theorem State.setReg_quarantined (t : Nat) (v : Bool) (i x : Nat) : (s.setReg t v i x).quarantined = s.quarantined := rfl
@[simp] theorem State.setReg_hostViol (t : Nat) (v : Bool) (i x : Nat) : (s.setReg t v i x).hostViol = s.hostViol := rfl
@[simp] theorem State.setReg_opens (t : Nat) (v : Bool) (i x : Nat) : (s.setReg t v i x).opens = s.opens := rfl
@[simp] theorem State.setReg_sec (t : Nat) (v : Bool) (i x : Nat) : (s.setReg t v i x).sec = s.sec := rfl
@[simp] theorem State.setReg_health (t : Nat) (v : Bool) (i x : Nat) : (s.setReg t v i x).health = s.health := rfl
@[simp] theorem State.setReg_log (t : Nat) (v : Bool) (i x : Nat) : (s.setReg t v i x).log = s.log := rfl
@[simp] theorem State.setReg_img (t : Nat) (v : Bool) (i x : Nat) : (s.setReg t v i x).img = s.img := rfl
@[simp] theorem State.setReg_stat (t : Nat) (v : Bool) (i x : Nat) : (s.setReg t v i x).stat = s.stat := rfl
@[simp] theorem State.setReg_pub (t : Nat) (v : Bool) (i x : Nat) : (s.setReg t v i x).pub = s.pub := rfl
@[simp] theorem State.setReg_pubExact (t : Nat) (v : Bool) (i x : Nat) : (s.setReg t v i x).pubExact = s.pubExact := rfl
@[simp] theorem State.setReg_out (t : Nat) (v : Bool) (i x : Nat) : (s.setReg t v i x).out = s.out := rfl
@[simp] theorem State.setReg_freeCtr (t : Nat) (v : Bool) (i x : Nat) : (s.setReg t v i x).freeCtr = s.freeCtr := rfl
@[simp] theorem State.setReg_pending (t : Nat) (v : Bool) (i x : Nat) : (s.setReg t v i x).pending = s.pending := rfl

/-! ### points -/

@[simp] theorem State.points_cfg (n : Nat) : (s.points n).cfg = s.cfg := rfl
@[simp] theorem State.points_start (n : Nat) : (s.points n).start = s.start := rfl
@[simp] theorem State.points_tiles (n : Nat) : (s.points n).tiles = s.tiles := rfl
@[simp] theorem State.points_mem (n : Nat) : (s.points n).mem = s.mem := rfl
@[simp] theorem State.points_jobs (n : Nat) : (s.points n).jobs = s.jobs := rfl
@[simp] theorem State.points_pkgs (n : Nat) : (s.points n).pkgs = s.pkgs := rfl
@[simp] theorem State.points_eval (n : Nat) : (s.points n).eval = s.eval := rfl
@[simp] theorem State.points_imagos (n : Nat) : (s.points n).imagos = s.imagos := rfl
@[simp] theorem State.points_ports (n : Nat) : (s.points n).ports = s.ports := rfl
@[simp] theorem State.points_crossings (n : Nat) : (s.points n).crossings = s.crossings := rfl
@[simp] theorem State.points_xfers (n : Nat) : (s.points n).xfers = s.xfers := rfl
@[simp] theorem State.points_nextXfer (n : Nat) : (s.points n).nextXfer = s.nextXfer := rfl
@[simp] theorem State.points_tallies (n : Nat) : (s.points n).tallies = s.tallies := rfl
@[simp] theorem State.points_power (n : Nat) : (s.points n).power = s.power := rfl
@[simp] theorem State.points_arbs (n : Nat) : (s.points n).arbs = s.arbs := rfl
@[simp] theorem State.points_conns (n : Nat) : (s.points n).conns = s.conns := rfl
@[simp] theorem State.points_nextConn (n : Nat) : (s.points n).nextConn = s.nextConn := rfl
@[simp] theorem State.points_hostQueues (n : Nat) : (s.points n).hostQueues = s.hostQueues := rfl
@[simp] theorem State.points_assemblies (n : Nat) : (s.points n).assemblies = s.assemblies := rfl
@[simp] theorem State.points_quarantined (n : Nat) : (s.points n).quarantined = s.quarantined := rfl
@[simp] theorem State.points_hostViol (n : Nat) : (s.points n).hostViol = s.hostViol := rfl
@[simp] theorem State.points_opens (n : Nat) : (s.points n).opens = s.opens := rfl
@[simp] theorem State.points_sec (n : Nat) : (s.points n).sec = s.sec := rfl
@[simp] theorem State.points_log (n : Nat) : (s.points n).log = s.log := rfl
@[simp] theorem State.points_img (n : Nat) : (s.points n).img = s.img := rfl
@[simp] theorem State.points_stat (n : Nat) : (s.points n).stat = s.stat := rfl
@[simp] theorem State.points_pub (n : Nat) : (s.points n).pub = s.pub := rfl
@[simp] theorem State.points_pubExact (n : Nat) : (s.points n).pubExact = s.pubExact := rfl
@[simp] theorem State.points_out (n : Nat) : (s.points n).out = s.out := rfl
@[simp] theorem State.points_freeCtr (n : Nat) : (s.points n).freeCtr = s.freeCtr := rfl
@[simp] theorem State.points_pending (n : Nat) : (s.points n).pending = s.pending := rfl

end Sys2Proof.Machine
end

