-- ==== Sys2Proof/Laws/Access.lean ====
section
/-!
SUPPORT. What an accessor reads after an update of the same kind: tiles, contexts, ports, arbiters, status words, job contexts,
packages and connections.
-/
namespace Sys2Proof.Machine

variable (s : State)

/-! ### Lists -/

theorem find?_updFirst {α : Type} {p : α → Bool} {f : α → α} {l : List α} (h : ∀ x, p x = true → p (f x) = true) :
    (updFirst p f l).find? p = (l.find? p).map f := by
  induction l with
  | nil => rfl
  | cons x xs ih =>
    simp only [updFirst]
    by_cases hx : p x = true
    · simp [hx, h x hx]
    · simp [hx, ih]

/-! ### Tiles and contexts -/

theorem State.tile_setTile_ne {t u : Nat} (x : TileState) (h : u ≠ t) : (s.setTile t x).tile u = s.tile u := Sp.get_put_ne _ _ h

@[simp] theorem State.tile_setTile_self (t : Nat) (x : TileState) : (s.setTile t x).tile t = x := Sp.get_put_self _ _ _

@[simp] theorem TileState.ctx_setCtx (x : TileState) (v : Bool) (c : Option Ctx) : (x.setCtx v c).ctx v = c := by
  cases v <;> rfl

@[simp] theorem TileState.setCtx_setCtx (x : TileState) (v : Bool) (c c' : Option Ctx) : (x.setCtx v c).setCtx v c' = x.setCtx v c' := by
  cases v <;> rfl

/-- Updating a running context changes that tile's context alone. -/
theorem State.tile_updCtx {t : Nat} {v : Bool} {c : Ctx} (h : s.ctx? t v = some c) (f : Ctx → Ctx) :
    (s.updCtx t v f).tile t = (s.tile t).setCtx v (some (f c)) := by
  have h' : (s.tile t).ctx v = some c := h
  rw [State.updCtx, h', Option.map_some]
  exact State.tile_setTile_self s t _

theorem State.tile_updCtx_ne {t u : Nat} (v : Bool) (f : Ctx → Ctx) (h : u ≠ t) : (s.updCtx t v f).tile u = s.tile u :=
  State.tile_setTile_ne s _ h

theorem State.ctx?_updCtx {t : Nat} {v : Bool} {c : Ctx} (h : s.ctx? t v = some c) (f : Ctx → Ctx) :
    (s.updCtx t v f).ctx? t v = some (f c) := by
  rw [State.ctx?, State.tile_updCtx s h, TileState.ctx_setCtx]

/-! ### Ports, arbiters, status words -/

theorem State.port_setPort_ne {p q : Nat} (x : Port) (h : q ≠ p) : (s.setPort p x).port q = s.port q := Sp.get_put_ne _ _ h

@[simp] theorem State.port_setPort_self (p : Nat) (x : Port) : (s.setPort p x).port p = x := Sp.get_put_self _ _ _

theorem State.arb_setArb_ne {a b : Nat} (x : Arbiter) (h : b ≠ a) : (s.setArb a x).arb b = s.arb b := Sp.get_put_ne _ _ h

@[simp] theorem State.arb_setArb_self (a : Nat) (x : Arbiter) : (s.setArb a x).arb a = x := Sp.get_put_self _ _ _

theorem State.word_setWord_ne {k k' : Nat} (x : W64) (h : k' ≠ k) : (s.setWord k x).word k' = s.word k' := Sp.get_put_ne _ _ h

@[simp] theorem State.word_setWord_self (k : Nat) (x : W64) : (s.setWord k x).word k = x := Sp.get_put_self _ _ _

theorem State.word_bump_ne {k k' n : Nat} (h : k' ≠ k) : (s.bump k n).word k' = s.word k' := State.word_setWord_ne s _ h

theorem State.word_bump_self (k n : Nat) : (s.bump k n).word k = s.word k + BitVec.ofNat 64 n := State.word_setWord_self s _ _

/-! ### Job contexts, packages, connections -/

theorem State.job?_updJob (j : BitVec 16) {f : JobCtx → JobCtx} (h : ∀ x, (f x).id = x.id) :
    (s.updJob j f).job? j = (s.job? j).map f := by
  apply find?_updFirst
  intro x hx
  simpa [h x] using hx

theorem State.pkg?_updPkg (g : Nat) {f : Pkg → Pkg} (h : ∀ x, (f x).tag = x.tag) : (s.updPkg g f).pkg? g = (s.pkg? g).map f := by
  apply find?_updFirst
  intro x hx
  simpa [h x] using hx

theorem State.conn?_updConn (c : BitVec 32) {f : Conn → Conn} (h : ∀ x, (f x).id = x.id) :
    (s.updConn c f).conn? c = (s.conn? c).map f := by
  apply find?_updFirst
  intro x hx
  simpa [h x] using hx

end Sys2Proof.Machine
end

