-- ==== Sys2Proof/Laws/Crossing.lean ====
section
/-!
SUPPORT. What a crossing's sender and receiver do, once each (R450, R452): a full slot refuses and keeps its item, a free one
takes it; what is given first is received first; a receiver whose slots are free receives nothing.
-/
namespace Sys2Proof.Machine

/-- The sender waits exactly where its next slot is full. -/
theorem Crossing.give_none_iff {n : Nat} {x : Crossing} {i : List Byte} : x.give n i = none ↔ x.full x.put = true := by
  unfold Crossing.give; split <;> simp_all

/-- The receiver has nothing exactly where its next slot is free. -/
theorem Crossing.receive_none_iff {n : Nat} {x : Crossing} : x.receive n = none ↔ x.full x.take = false := by
  unfold Crossing.receive; split <;> simp_all

/-- What a sender does: the item stands in the slot, which is full; the next slot is the next in rotation. -/
theorem Crossing.give_some {n : Nat} {x y : Crossing} {i : List Byte} (h : x.give n i = some y) :
    x.full x.put = false ∧ y.full x.put = true ∧ Sp.get [] y.regs x.put = i ∧ y.put = (x.put + 1) % n ∧ y.take = x.take ∧ y.ack = x.ack ∧
      y.overrun = x.overrun := by
  unfold Crossing.give at h
  split at h
  · cases h
  · rename_i hf
    cases h
    refine ⟨by simpa using hf, ?_, by simp, rfl, rfl, rfl, rfl⟩
    simp only [Crossing.full, Sp.get_put_self, bne_iff_ne] at *
    simp_all

/-- A slot that is full keeps its item and stays full whatever the sender gives. -/
theorem Crossing.give_others {n k : Nat} {x y : Crossing} {i : List Byte} (h : x.give n i = some y) (hk : k ≠ x.put) :
    y.full k = x.full k ∧ Sp.get [] y.regs k = Sp.get [] x.regs k := by
  unfold Crossing.give at h
  split at h
  · cases h
  · cases h
    exact ⟨by simp [Crossing.full, Sp.get_put_ne _ _ hk], Sp.get_put_ne _ _ hk⟩

/-- What a receiver does: it answers the item of its next slot and frees it. -/
theorem Crossing.receive_some {n : Nat} {x y : Crossing} {i : List Byte} (h : x.receive n = some (i, y)) :
    x.full x.take = true ∧ y.full x.take = false ∧ i = Sp.get [] x.regs x.take ∧ y.take = (x.take + 1) % n ∧ y.put = x.put ∧ y.regs = x.regs := by
  unfold Crossing.receive at h
  split at h
  · rename_i hf
    cases h
    refine ⟨hf, ?_, rfl, rfl, rfl, rfl⟩
    simp only [Crossing.full, Sp.get_put_self, bne_iff_ne] at *
    simp_all
  · cases h

/-- Into a crossing whose slots the receiver has all taken, an item goes at once, and it is the next that is received. -/
theorem Crossing.receive_give {n : Nat} {x y : Crossing} {i : List Byte} (e : x.take = x.put) (h : x.give n i = some y) :
    ∃ z, y.receive n = some (i, z) ∧ z.take = z.put := by
  obtain ⟨_, hf, hi, hp, ht, _, _⟩ := Crossing.give_some h
  rw [← e] at hf hi hp
  refine ⟨_, by unfold Crossing.receive; rw [ht, if_pos hf, hi], ?_⟩
  simp only [hp]

end Sys2Proof.Machine
end

