-- ==== Sys2Proof/Laws/Frames.lean ====
section
/-!
SUPPORT. What the commands of the fabric and of the host ports answer, once for each kind: a frame that a port holds is taken
from it, a request that arrives is applied, a reply is heeded, and a message that is due takes effect and is acknowledged.
-/
namespace Sys2Proof.Machine

/-! ### Frames -/

/-- A frame that waits at a port is taken from it. -/
theorem State.takeFrame_of {s : State} {p : PortId} {op : BitVec 4} {f : Frame} (ho : f.op = op) (hc : (s.port p.val).inbox.contains f = true) :
    s.takeFrame p.val op f = some (s.drained p f) := by
  simp only [State.takeFrame, ho, hc, State.drained]
  simp

/-- A request that arrives is applied to the state in which it has been taken and its tracker has moved on. -/
theorem onRequest_arrives {s : State} {p : PortId} {op : BitVec 4} {f : Frame} {j : JobCtx} (h : arrives s p op f j) (act : State → State) :
    onRequest op p f s act = .next (act (s.taken p f)) := by
  obtain ⟨ho, hc, hj, hjd, hn⟩ := h
  have hj' : (s.drained p f).expireTallies.job? f.job = some j := hj
  simp only [onRequest, State.takeFrame_of ho hc, State.request, hj', hjd, State.taken, State.known] at *
  simp only [hn, Bool.false_eq_true, if_false]

/-- A request for a job without a context here is answered F-1202 and counted (R208). -/
theorem onRequest_no_context {s : State} {p : PortId} {op : BitVec 4} {f : Frame} (ho : f.op = op) (hc : (s.port p.val).inbox.contains f = true)
    (hj : s.job? f.job = none) (act : State → State) :
    onRequest op p f s act = .next ((((s.drained p f).expireTallies).bump 0x1038 1).failFrame p.val f 0x1202) := by
  have hj' : (s.drained p f).expireTallies.job? f.job = none := hj
  simp only [onRequest, State.takeFrame_of ho hc, State.request, hj']
  rfl

/-- A reply takes effect on the transfer that it names, if it fits it; another is F-2304 and moves no tracker (R267). -/
theorem onReply_replies {s : State} {p : PortId} {op : BitVec 4} {f : Frame} {j : JobCtx} (h : replies s p op f j) (fits : Xfer → Bool)
    (act : Xfer → State → State) :
    onReply op p f s fits act = .next (match s.xfers.find? (replyKey f) with
      | none => (s.drained p f).strayReply p.val f
      | some x => if fits x then act x (s.heeded p f) else (s.drained p f).strayReply p.val f) := by
  obtain ⟨ho, hc, hj, hjd⟩ := h
  have hj' : (s.drained p f).job? f.job = some j := hj
  simp only [onReply, State.takeFrame_of ho hc, State.replyIn, hj', hjd, State.heeded] <;> rfl

/-- A LINK_CTRL frame takes effect on its port. -/
theorem onCtrl_control {s : State} {p : PortId} {kind : Nat} {f : Frame} (h : control s p kind f) (act : Port → State → State) :
    onCtrl kind p f s act = .next (act ((s.drained p f).port p.val) (s.drained p f)) := by
  obtain ⟨ho, hk, hc⟩ := h
  simp only [onCtrl, hk, State.takeFrame_of ho hc]
  simp

/-- A buffer class has room for a frame while it holds no more beside it than a frame of the largest size (log 12). -/
theorem Port.credited_of_small {x : Port} {f : Frame} (h : x.occupied (bufKey f.vesper f.hops.toNat) + units f ≤ if f.vesper then 17 else 66) :
    x.credited f = true := by
  unfold Port.credited Config.initialCredit
  exact decide_eq_true (Nat.le_trans h (Nat.le_add_right _ _))

/-! ### Datagrams -/

/-- What passes through a crossing changes crossings only. -/
theorem State.across_eq (s : State) (k : Nat) (bs : List Byte) : ∃ x, s.across k bs = { s with crossings := x } := by
  unfold State.across
  split
  · exact ⟨_, rfl⟩
  · split
    · exact ⟨_, rfl⟩
    · exact ⟨s.crossings, rfl⟩

/-- A status word that rises changes status words only. -/
theorem State.bump_eq (s : State) (k n : Nat) : ∃ w, s.bump k n = { s with stat := w } := ⟨_, rfl⟩

/-- What comes in changes status words and crossings only. -/
theorem State.inward_eq (s : State) (h : KHdr) : ∃ w x, s.inward h = { s with stat := w, crossings := x } := by
  unfold State.inward
  obtain ⟨x, hx⟩ := (s.frameIn h).across_eq (khtRx h.port) (khtBytes h)
  rw [hx]
  have hf : ∃ w, s.frameIn h = { s with stat := w } := by
    unfold State.frameIn State.hostRx
    obtain ⟨w1, h1⟩ := s.bump_eq (0x2110 + 0x40 * (40 + h.port.val)) (khtFrameBytes h)
    split
    · exact ⟨s.stat, rfl⟩
    · rw [h1]; exact State.bump_eq _ _ _
  obtain ⟨w, hw⟩ := hf
  exact ⟨w, x, by rw [hw]⟩

/-- What a port takes goes to KHT, counted (R371, R416). -/
theorem State.arrive_taken {s : State} {h : KHdr} (t : Sys2Proof.Machine.taken s h) (f : State → State) : s.arrive h f = f ((s.inward h).bump 0x7010 1) := by
  obtain ⟨hr, hp, ho, hl, ha, hu, hi, hq⟩ := t
  obtain ⟨w, x, e⟩ := s.inward_eq h
  have p1 : (s.inward h).khtPort h.port = s.khtPort h.port := by rw [e]; rfl
  have p2 : (s.inward h).portAddr h.port = s.portAddr h.port := by rw [e]; rfl
  have p3 : (s.inward h).isQuarantined h.source = s.isQuarantined h.source := by rw [e]; rfl
  have p4 : (s.inward h).cfg = s.cfg := by rw [e]
  simp only [State.arrive, hr, ho, State.takeDatagram, p1, p2, p3, p4, hp, ha, hu, hi, hq]
  simp [hl]

/-- A sound datagram of a connection is authentic and takes effect without a violation. -/
theorem State.sealed_sound {s : State} {h : KHdr} {t : Nat} {c : Conn} {m : Option HMsg} (e : sound s h t (payloadOf m) c) :
    (s.arrive h fun s => s.sealed h true m) =
      (((((s.inward h).bump 0x7010 1).countedIn c h).authentic c h none m).closeIfDone c.id) := by
  obtain ⟨-, ht, hc, hu, hs, hn, hh⟩ := e
  obtain ⟨w, x, e1⟩ := s.inward_eq h
  rw [State.arrive_taken ht]
  have c1 : ((s.inward h).bump 0x7010 1).conn? h.conn = some c := by rw [e1]; exact hc
  have c2 : ((s.inward h).bump 0x7010 1).headCode c h true = none := by rw [e1]; exact hh
  simp only [State.sealed, c1, Option.bind_some, hu, Option.map_some, hs, hn, Bool.or_self, Bool.false_eq_true, if_false, beq_self_eq_true, Bool.and_true, c2]

end Sys2Proof.Machine
end

