-- ==== Sys2Proof/Laws/Issue.lean ====
section
/-!
SUPPORT. Issue of a tile word, once for every word: what `issue` answers where a word stands at a task's position, and that it
answers a next state for every well-formed word.
-/
namespace Sys2Proof.Machine

/-- Reading memory successfully changes nothing. -/
theorem State.readPlaces_ok {s : State} {ps : List Place} {bs : List Byte} (h : (s.readPlaces ps).1 = .ok bs) :
    s.readPlaces ps = (.ok bs, s) := by
  unfold State.readPlaces at *
  split at h <;> simp_all

theorem State.readMem_ok {s : State} {job : BitVec 16} {o : Origin} {v : Bool} {a n : Nat} {bs : List Byte}
    (h : (s.readMem job o v a n).1 = .ok bs) : s.readMem job o v a n = (.ok bs, s) := by
  unfold State.readMem at *
  split at h
  · simp at h
  · exact State.readPlaces_ok h

theorem State.fetch_ok {s : State} {v : Bool} {c : Ctx} {x : Nat} (h : (s.fetch v c).1 = .ok x) : s.fetch v c = (.ok x, s) := by
  unfold State.fetch at *
  cases hm : s.readMem c.job .tile v c.pos.toNat 16 with
  | mk r s1 =>
    cases r with
    | error f => simp [hm] at h
    | ok bs =>
      have := State.readMem_ok (s := s) (bs := bs) (by rw [hm])
      simp_all

/-- A word that stands at a task's position and that the command may carry issues: its meaning's result settles. -/
theorem issue_stands {mine : Nat → Bool} {act : Ctx → Nat → State → WordRes} {t : TileId} {v : Bool} {w : BitVec 128} {s : State} {c : Ctx}
    (h : stands s t v w c) (op : opcodeOk (opcodeOf w.toNat) = true) (m : mine w.toNat = true) :
    issue mine act t v w s = .next (settle t.val v c.off (act c (c.reg (xregOf w.toNat)) s)) := by
  obtain ⟨hc, hw, hi, hf, hg, hl⟩ := h
  have hf' := State.fetch_ok hf
  simp only [issue, m, hc, hw, hi, hf', State.issueWord, hg, op]
  by_cases hz : fld w.toNat 116 4 = 0 <;> simp [hz, hl]

/-- A word of no opcode of the table raises F-3601 (R186). -/
theorem issue_unknown {mine : Nat → Bool} {act : Ctx → Nat → State → WordRes} {t : TileId} {v : Bool} {w : BitVec 128} {s : State} {c : Ctx}
    (h : stands s t v w c) (op : opcodeOk (opcodeOf w.toNat) = false) :
    issue mine act t v w s = .next (s.faultTask t.val v 0x3601 c.off) := by
  obtain ⟨hc, hw, hi, hf, hg, -⟩ := h
  have hf' := State.fetch_ok hf
  simp [issue, hc, hw, hi, hf', State.issueWord, hg, op, settle]

/-- A word that the command may carry has a next state in every state. -/
theorem issue_next {mine : Nat → Bool} {act : Ctx → Nat → State → WordRes} {t : TileId} {v : Bool} {w : BitVec 128} (s : State)
    (h : opcodeOk (opcodeOf w.toNat) = false ∨ mine w.toNat = true) : ∃ s', issue mine act t v w s = .next s' := by
  have hb : (opcodeOk (opcodeOf w.toNat) && !mine w.toNat) = false := by rcases h with h | h <;> simp [h]
  simp only [issue, hb]
  split
  · simp_all
  · split
    · exact ⟨_, rfl⟩
    · split
      · exact ⟨_, rfl⟩
      · split
        · exact ⟨_, rfl⟩
        · split <;> exact ⟨_, rfl⟩

/-- The state of a word that is done: the context, as the word left it, goes on. -/
theorem settle_ok (t : Nat) (v : Bool) (off : Nat) (s : State) : settle t v off (.ok s) = s.advance t v := rfl

/-- The state of a word whose engine has accepted it. -/
theorem settle_accepted (t : Nat) (v : Bool) (off : Nat) (w : EngWord) (s : State) : settle t v off (.accepted w s) = s.took t v w := rfl

/-- A word that issued has met the bound of R77; the control state is what its update left, waiting for nothing. -/
theorem State.tile_issued {s : State} {t : Nat} {v : Bool} {c : Ctx} (h : s.ctx? t v = some c) (f : Ctx → Ctx) :
    (s.issued t v f).tile t = { (s.tile t).setCtx v (some { f c with waiting := false, onSlot := none }) with woken := false } := by
  rw [State.issued, State.tile_setTile_self, State.tile_updCtx s h]

theorem State.tile_issued_ne {s : State} {t u : Nat} (v : Bool) (f : Ctx → Ctx) (h : u ≠ t) : (s.issued t v f).tile u = s.tile u := by
  rw [State.issued, State.tile_setTile_ne _ _ h, State.tile_updCtx_ne s v _ h]

/-- Issuing changes one context alone. -/
theorem onlyCtx_issued {s : State} {t : Nat} {v : Bool} {c : Ctx} (h : s.ctx? t v = some c) (f : Ctx → Ctx) :
    onlyCtx s (s.issued t v f) t v { f c with waiting := false, onSlot := none } :=
  ⟨⟨rfl, fun _ hu => State.tile_issued_ne v f hu⟩, rfl, by simp [State.tile_issued h]⟩

/-- The same after an update of that context. -/
theorem onlyCtx_issued₂ {s : State} {t : Nat} {v : Bool} {c : Ctx} (h : s.ctx? t v = some c) (f g : Ctx → Ctx) :
    onlyCtx s ((s.updCtx t v f).issued t v g) t v { g (f c) with waiting := false, onSlot := none } := by
  refine ⟨⟨rfl, fun u hu => ?_⟩, rfl, ?_⟩
  · rw [State.tile_issued_ne v g hu, State.tile_updCtx_ne s v f hu]
  · rw [State.tile_issued (State.ctx?_updCtx s h f), State.tile_updCtx s h f, TileState.setCtx_setCtx]
    simp

/-- A word that waits changes one context alone: it waits. -/
theorem onlyCtx_waits {s : State} {t : Nat} {v : Bool} {c : Ctx} (h : s.ctx? t v = some c) (f : Ctx → Ctx) (hw : (f c).waiting = true) :
    onlyCtx s (s.updCtx t v f) t v (f c) :=
  ⟨⟨rfl, fun _ hu => State.tile_updCtx_ne s v f hu⟩, rfl, by rw [State.tile_updCtx s h f, hw]; cases v <;> rfl⟩

end Sys2Proof.Machine
end

