-- ==== Sys2Proof/Laws/Keeps.lean ====
section
/-!
SUPPORT. One lemma for every operation over the state: what it keeps, whatever its operands. A lemma takes the relation from
an earlier state up to the operation's result, so that lemmas chain; one for an operation that answers a pair speaks of its
state, and its second form of a result that is known by an equation.
-/
namespace Sys2Proof.Machine

set_option Elab.async false
set_option linter.unusedTactic false
set_option linter.unreachableTactic false

/-- From `s` to `t` the commands that wait are the same, the fused rollback level does not fall, and these stay: the canonical form
of the stacked memory, the bound of the log's queue (R482), and rollback levels from 0 to 63 (R427). -/
def Keeps (s t : State) : Prop :=
  t.pending = s.pending ∧ s.img.fused ≤ t.img.fused ∧ (dramCanonical s → dramCanonical t) ∧ (queueBounded s → queueBounded t) ∧
    (s.img.fused ≤ 63 ∧ s.img.rollback ≤ 63 → t.img.fused ≤ 63 ∧ t.img.rollback ≤ 63)
/-- The same of a command's outcome. -/
def KeepsO (s : State) (o : Host.Outcome State Fault Refusal) : Prop := ∀ t, o = .next t → Keeps s t

/-- The same of a state that may be absent. -/
def KeepsP (s : State) (o : Option State) : Prop := ∀ t, o = some t → Keeps s t

/-- The same of what issuing a word comes to. -/
def KeepsW (s : State) : WordRes → Prop
  | .ok t => Keeps s t
  | .goto _ t => Keeps s t
  | .hold t => Keeps s t
  | .accepted _ t => Keeps s t
  | .wait t => Keeps s t
  | .fault _ t => Keeps s t
  | .ended t => Keeps s t

/-- The same of how a word begins. -/
def KeepsB (s : State) : Begun → Prop
  | .wait _ t => Keeps s t
  | .go _ t => Keeps s t
  | .fault _ t => Keeps s t

/-! ### Ways to show it -/

theorem Keeps.bWait {s t : State} {w} (h : Keeps s t) : KeepsB s (.wait w t) := h

theorem Keeps.bGo {s t : State} {w} (h : Keeps s t) : KeepsB s (.go w t) := h

theorem Keeps.bFault {s t : State} {w} (h : Keeps s t) : KeepsB s (.fault w t) := h

theorem Keeps.outNext {s t : State} (h : Keeps s t) : KeepsO s (.next t) := by intro u e; cases e; exact h

theorem Keeps.outRef {s : State} {r} : KeepsO s (.refused r) := by intro u e; cases e

theorem Keeps.pSome {s t : State} (h : Keeps s t) : KeepsP s (some t) := by intro u e; cases e; exact h

theorem Keeps.pNone {s : State} : KeepsP s none := by intro u e; cases e

theorem Keeps.wOk {s t : State} (h : Keeps s t) : KeepsW s (.ok t) := h

theorem Keeps.wGoto {s t : State} {p} (h : Keeps s t) : KeepsW s (.goto p t) := h

theorem Keeps.wHold {s t : State} (h : Keeps s t) : KeepsW s (.hold t) := h

theorem Keeps.wAccepted {s t : State} {w} (h : Keeps s t) : KeepsW s (.accepted w t) := h

theorem Keeps.wWait {s t : State} (h : Keeps s t) : KeepsW s (.wait t) := h

theorem Keeps.wFault {s t : State} {p} (h : Keeps s t) : KeepsW s (.fault p t) := h

theorem Keeps.wEnded {s t : State} (h : Keeps s t) : KeepsW s (.ended t) := h

theorem Keeps.refl {s : State} : Keeps s s := ⟨rfl, le_rfl, id, id, id⟩

/-- An update of other fields. -/
theorem Keeps.upd {s0 s t : State} (h : Keeps s0 s) (e1 : t.pending = s.pending) (e2 : t.img.fused = s.img.fused)
    (e3 : t.img.rollback = s.img.rollback)
  (e4 : t.mem.dram = s.mem.dram) (e5 : t.log.queue = s.log.queue) : Keeps s0 t := by
  unfold Keeps dramCanonical queueBounded at *; rw [e1, e2, e3, e4, e5]; exact h

theorem Keeps.foldl {α : Type} {s0 s : State} {f : State → α → State} {l : List α} (h : Keeps s0 s)
    (hf : ∀ s x, Keeps s0 s → Keeps s0 (f s x)) : Keeps s0 (l.foldl f s) := by
  induction l generalizing s with
  | nil => exact h
  | cons x xs ih => exact ih (hf s x h)

/-- The same of a state given field by field. -/
theorem Keeps.mk {s0 a : State} {cfg start tiles mem jobs pkgs eval imagos ports crossings xfers nextXfer tallies power arbs conns nextConn
    hostQueues assemblies quarantined hostViol opens sec health log img stat pub pubExact out freeCtr} (h : Keeps s0 a)
        (e2 : ImgState.fused img = a.img.fused := by rfl) (e3 : ImgState.rollback img = a.img.rollback := by rfl)
  (e4 : MemState.dram mem = a.mem.dram := by rfl) (e5 : LogState.queue log = a.log.queue := by rfl) :
  Keeps s0 (State.mk cfg start tiles mem jobs pkgs eval imagos ports crossings xfers nextXfer tallies power arbs conns nextConn hostQueues assemblies
      quarantined hostViol opens sec health log img stat pub pubExact out freeCtr a.pending) := Keeps.upd h rfl e2 e3 e4 e5

theorem Keeps.ite {s0 a b : State} {c : Prop} [Decidable c] (h1 : Keeps s0 a) (h2 : Keeps s0 b) : Keeps s0 (if c then a else b) := by
  split <;> assumption

theorem Keeps.iteW {s0 : State} {a b : WordRes} {c : Prop} [Decidable c] (h1 : KeepsW s0 a) (h2 : KeepsW s0 b) : KeepsW s0 (if c then a else b) := by
  split <;> assumption

/-- What each way a word may begin says of its state. -/
theorem Keeps.bStep {s0 w t r} (e : r = Begun.go w t) (h : KeepsB s0 r) : Keeps s0 t := by
  subst e; exact h

theorem Keeps.bStop {s0 w t r} (e : r = Begun.wait w t) (h : KeepsB s0 r) : Keeps s0 t := by
  subst e; exact h

theorem Keeps.bErr {s0 f t r} (e : r = Begun.fault f t) (h : KeepsB s0 r) : Keeps s0 t := by
  subst e; exact h

theorem Keeps.pOf {s0 t r} (e : r = some t) (h : KeepsP s0 r) : Keeps s0 t := h t e

theorem Keeps.cond {s0 a b : State} {c : Bool} (h1 : Keeps s0 a) (h2 : Keeps s0 b) : Keeps s0 (bif c then a else b) := by
  cases c <;> assumption

theorem Keeps.trans {s t u : State} (h1 : Keeps s t) (h2 : Keeps t u) : Keeps s u :=
  ⟨h2.1.trans h1.1, h1.2.1.trans h2.2.1, fun x => h2.2.2.1 (h1.2.2.1 x), fun x => h2.2.2.2.1 (h1.2.2.2.1 x), fun x => h2.2.2.2.2 (h1.2.2.2.2 x)⟩

/-! ### The operations, in the order of their definitions -/

theorem State.tick_keeps {s0} {a0} (h : Keeps s0 a0) : Keeps s0 (State.tick a0) := by
  unfold State.tick
  with_reducible repeat' (first | assumption | (refine Keeps.mk ?_; first | assumption | split) | split)

theorem State.setTile_keeps {s0} {a0 a1 a2} (h : Keeps s0 a0) : Keeps s0 (State.setTile a0 a1 a2) := by
  unfold State.setTile
  with_reducible repeat' (first | assumption | (refine Keeps.mk ?_; first | assumption | split) | split)

theorem State.setPort_keeps {s0} {a0 a1 a2} (h : Keeps s0 a0) : Keeps s0 (State.setPort a0 a1 a2) := by
  unfold State.setPort
  with_reducible repeat' (first | assumption | (refine Keeps.mk ?_; first | assumption | split) | split)

theorem State.setArb_keeps {s0} {a0 a1 a2} (h : Keeps s0 a0) : Keeps s0 (State.setArb a0 a1 a2) := by
  unfold State.setArb
  with_reducible repeat' (first | assumption | (refine Keeps.mk ?_; first | assumption | split) | split)

theorem State.setWord_keeps {s0} {a0 a1 a2} (h : Keeps s0 a0) : Keeps s0 (State.setWord a0 a1 a2) := by
  unfold State.setWord
  with_reducible repeat' (first | assumption | (refine Keeps.mk ?_; first | assumption | split) | split)

theorem State.bump_keeps {s0} {a0 a1 a2} (h : Keeps s0 a0) : Keeps s0 (State.bump a0 a1 a2) := by
  unfold State.bump
  with_reducible repeat' (first | assumption | apply State.setWord_keeps | split)

theorem State.drawn_keeps {s0} {a0} (h : Keeps s0 a0) : Keeps s0 (State.drawn a0) := by
  unfold State.drawn
  with_reducible repeat' (first | assumption | (refine Keeps.mk ?_; first | assumption | split) | split)

theorem State.emit_keeps {s0} {a0 a1} (h : Keeps s0 a0) : Keeps s0 (State.emit a0 a1) := by
  unfold State.emit
  with_reducible repeat' (first | assumption | (refine Keeps.mk ?_; first | assumption | split) | split)

theorem State.updJob_keeps {s0} {a0 a1 a2} (h : Keeps s0 a0) : Keeps s0 (State.updJob a0 a1 a2) := by
  unfold State.updJob
  with_reducible repeat' (first | assumption | (refine Keeps.mk ?_; first | assumption | split) | split)

theorem State.updPkg_keeps {s0} {a0 a1 a2} (h : Keeps s0 a0) : Keeps s0 (State.updPkg a0 a1 a2) := by
  unfold State.updPkg
  with_reducible repeat' (first | assumption | (refine Keeps.mk ?_; first | assumption | split) | split)

theorem State.updConn_keeps {s0} {a0 a1 a2} (h : Keeps s0 a0) : Keeps s0 (State.updConn a0 a1 a2) := by
  unfold State.updConn
  with_reducible repeat' (first | assumption | (refine Keeps.mk ?_; first | assumption | split) | split)

theorem State.logAs_keeps {s0 s} {k c j d} (h : Keeps s0 s) : Keeps s0 (State.logAs s k c j d) := by
  obtain ⟨h1, h2, h3, h4, h5⟩ := h
  unfold State.logAs
  have hu : ∀ (p : LogRec → Bool) f (l : List LogRec), (updFirst p f l).length = l.length := by
    intro p f l; induction l with
    | nil => rfl
    | cons x xs ih => simp only [updFirst]; split <;> simp [ih]
  have key : ∀ z : State, z.pending = s.pending → z.mem = s.mem → z.img = s.img →
      (s.log.queue.length ≤ 1024 → z.log.queue.length ≤ 1024) → Keeps s0 z := by
    intro z e1 e2 e3 e4
    refine ⟨by rw [e1]; exact h1, by rw [e3]; exact h2, fun x => ?_, fun x => e4 (h4 x), by rw [e3]; exact h5⟩
    unfold dramCanonical at *; rw [e2]; exact h3 x
  have z : ∀ c k, ((if k = 2 ∧ c ≠ 0x9305 then { s with power := { s.power with hardware := some (c, s.now) } } else s : State).log = s.log) := by
    intro c k; split <;> rfl
  dsimp only
  split <;> split <;> (try split) <;> apply key <;> first | rfl | (simp_all [State.bump, State.setWord]; try omega)

theorem State.logEvent_keeps {s0} {a0 a1 a2 a3} (h : Keeps s0 a0) : Keeps s0 (State.logEvent a0 a1 a2 a3) := by
  unfold State.logEvent
  with_reducible repeat' (first | assumption | apply State.logAs_keeps | split)

theorem State.record_keeps {s0} {a0 a1 a2 a3} (h : Keeps s0 a0) : Keeps s0 (State.record a0 a1 a2 a3) := by
  unfold State.record
  with_reducible repeat' (first | assumption | apply State.bump_keeps | apply State.setWord_keeps | split)

theorem State.syncFault_keeps {s0} {a0 a1 a2 a3 a4 a5 a6} (h : Keeps s0 a0) : Keeps s0 (State.syncFault a0 a1 a2 a3 a4 a5 a6) := by
  unfold State.syncFault
  with_reducible repeat' (first | assumption | apply State.logEvent_keeps | apply State.record_keeps | split)

theorem State.chrEvent_keeps {s0} {a0 a1 a2 a3 a4 a5 a6} (h : Keeps s0 a0) : Keeps s0 (State.chrEvent a0 a1 a2 a3 a4 a5 a6) := by
  unfold State.chrEvent
  with_reducible repeat' (first | assumption | apply State.logEvent_keeps | apply State.record_keeps | split)

theorem State.hostFault_keeps {s0} {a0 a1 a2 a3 a4 a5} (h : Keeps s0 a0) : Keeps s0 (State.hostFault a0 a1 a2 a3 a4 a5) := by
  unfold State.hostFault
  with_reducible repeat' (first | assumption | apply State.logEvent_keeps | apply State.record_keeps | split)

theorem State.secFault_keeps {s0} {a0 a1 a2 a3} (h : Keeps s0 a0) : Keeps s0 (State.secFault a0 a1 a2 a3) := by
  unfold State.secFault
  with_reducible repeat' (first | assumption | apply State.logEvent_keeps | apply State.record_keeps | split)

theorem State.xingEvent_keeps {s0} {a0 a1 a2 a3 a4} (h : Keeps s0 a0) : Keeps s0 (State.xingEvent a0 a1 a2 a3 a4) := by
  unfold State.xingEvent
  with_reducible repeat' (first | assumption | apply State.logEvent_keeps | apply State.record_keeps | split)

theorem State.points_keeps {s0} {a0 a1} (h : Keeps s0 a0) : Keeps s0 (State.points a0 a1) := by
  unfold State.points
  with_reducible repeat' (first | assumption | (refine Keeps.mk ?_; first | assumption | split) | split)

theorem State.wake_keeps {s0} {a0 a1} (h : Keeps s0 a0) : Keeps s0 (State.wake a0 a1) := by
  unfold State.wake
  with_reducible repeat' (first | assumption | apply State.setTile_keeps | split)

theorem State.wakeAll_keeps {s0} {a0 a1} (h : Keeps s0 a0) : Keeps s0 (State.wakeAll a0 a1) := by
  revert h; fun_induction State.wakeAll <;> intro h <;> with_reducible repeat' (first | assumption | apply State.wake_keeps | apply_assumption
                                                                                      | split)

theorem State.raiseCount_keeps {s0} {a0 a1 a2 a3 a4} (h : Keeps s0 a0) : Keeps s0 ((State.raiseCount a0 a1 a2 a3 a4)).2 := by
  unfold State.raiseCount
  with_reducible repeat' (first | assumption | apply State.bump_keeps | apply State.syncFault_keeps | apply State.updJob_keeps
                                | apply State.wakeAll_keeps | split)

theorem State.raiseCount_keeps2 {s0} {a0 a1 a2 a3 a4} {r} (e : State.raiseCount a0 a1 a2 a3 a4 = r)
    (h : Keeps s0 a0) : Keeps s0 r.2 := e ▸ State.raiseCount_keeps h

theorem State.ueFound_keeps {s0} {a0 a1 a2} (h : Keeps s0 a0) : Keeps s0 (State.ueFound a0 a1 a2) := by
  unfold State.ueFound
  with_reducible repeat' (first | assumption | apply State.points_keeps | apply State.record_keeps | apply State.bump_keeps | split)

theorem State.ueEach_keeps {s0} {a0 a1 a2} (h : Keeps s0 a0) : Keeps s0 (State.ueEach a0 a1 a2) := by
  revert h; fun_induction State.ueEach <;> intro h <;> with_reducible repeat' (first | assumption | apply State.ueFound_keeps | apply_assumption
                                                                                     | split)

theorem State.ueAll_keeps {s0} {a0 a1 a2} (h : Keeps s0 a0) : Keeps s0 (State.ueAll a0 a1 a2) := by
  unfold State.ueAll
  split
  · exact h
  · exact Keeps.mk (State.ueEach_keeps h)

theorem State.readPlaces_keeps {s0} {a0 a1} (h : Keeps s0 a0) : Keeps s0 ((State.readPlaces a0 a1)).2 := by
  unfold State.readPlaces
  with_reducible repeat' (first | assumption | apply State.ueAll_keeps | split)

theorem State.readPlaces_keeps2 {s0} {a0 a1} {r} (e : State.readPlaces a0 a1 = r) (h : Keeps s0 a0) : Keeps s0 r.2 := e ▸ State.readPlaces_keeps h

theorem State.countXlate_keeps {s0} {a0 a1} (h : Keeps s0 a0) : Keeps s0 (State.countXlate a0 a1) := by
  unfold State.countXlate
  with_reducible repeat' (first | assumption | apply State.bump_keeps | split)

theorem State.readMem_keeps {s0} {a0 a1 a2 a3 a4 a5} (h : Keeps s0 a0) : Keeps s0 ((State.readMem a0 a1 a2 a3 a4 a5)).2 := by
  unfold State.readMem
  with_reducible repeat' (first | assumption | apply State.countXlate_keeps | apply State.readPlaces_keeps | split)

theorem State.readMem_keeps2 {s0} {a0 a1 a2 a3 a4 a5} {r} (e : State.readMem a0 a1 a2 a3 a4 a5 = r)
    (h : Keeps s0 a0) : Keeps s0 r.2 := e ▸ State.readMem_keeps h

theorem State.putByte_keeps {s0 s} {p b} (h : Keeps s0 s) : Keeps s0 (State.putByte s p b) := by
  unfold State.putByte
  split
  · obtain ⟨h1, h2, h3, h4, h5⟩ := h
    exact ⟨h1, h2, fun x => Mem.wf_set (h3 x) _ _, h4, h5⟩
  · exact State.setTile_keeps h

theorem State.writePlaces_keeps {s0} {a0 a1 a2} (h : Keeps s0 a0) : Keeps s0 ((State.writePlaces a0 a1 a2)).2 := by
  unfold State.writePlaces
  with_reducible repeat' (first | assumption | apply State.putByte_keeps | apply State.ueAll_keeps
                                | (refine Keeps.mk ?_; first | assumption | apply State.putByte_keeps | apply State.ueAll_keeps | split)
                                | refine Keeps.foldl ?_ ?_ | split | dsimp only | intro s_ x_ h_)

theorem State.writePlaces_keeps2 {s0} {a0 a1 a2} {r} (e : State.writePlaces a0 a1 a2 = r) (h : Keeps s0 a0) : Keeps s0 r.2 := e ▸
    State.writePlaces_keeps h

theorem State.writeMem_keeps {s0} {a0 a1 a2 a3 a4 a5} (h : Keeps s0 a0) : Keeps s0 ((State.writeMem a0 a1 a2 a3 a4 a5)).2 := by
  unfold State.writeMem
  with_reducible repeat' (first | assumption | apply State.countXlate_keeps | apply State.writePlaces_keeps | split)

theorem State.writeMem_keeps2 {s0} {a0 a1 a2 a3 a4 a5} {r} (e : State.writeMem a0 a1 a2 a3 a4 a5 = r)
    (h : Keeps s0 a0) : Keeps s0 r.2 := e ▸ State.writeMem_keeps h

theorem State.modifyPlaces_keeps {s0} {a0 a1} (h : Keeps s0 a0) : Keeps s0 ((State.modifyPlaces a0 a1)).2 := by
  unfold State.modifyPlaces
  with_reducible repeat' (first | assumption | apply State.putByte_keeps | apply State.ueAll_keeps
                                | (refine Keeps.mk ?_; first | assumption | apply State.putByte_keeps | apply State.ueAll_keeps | split)
                                | refine Keeps.foldl ?_ ?_ | split | dsimp only | intro s_ x_ h_)

theorem State.modifyPlaces_keeps2 {s0} {a0 a1} {r} (e : State.modifyPlaces a0 a1 = r) (h : Keeps s0 a0) : Keeps s0 r.2 := e ▸
    State.modifyPlaces_keeps h

theorem State.countGrant_keeps {s0} {a0 a1 a2} (h : Keeps s0 a0) : Keeps s0 (State.countGrant a0 a1 a2) := by
  unfold State.countGrant
  with_reducible repeat' (first | assumption | apply State.bump_keeps | split)

theorem State.arbGive_keeps {s0} {a0 a1 a2 a3} (h : Keeps s0 a0) : Keeps s0 (State.arbGive a0 a1 a2 a3) := by
  unfold State.arbGive
  with_reducible repeat' (first | assumption | apply State.bump_keeps | apply State.setWord_keeps | apply State.countGrant_keeps
                                | apply State.setArb_keeps | split | dsimp only)

theorem State.arbSettle_keeps {s0} {a0 a1} (h : Keeps s0 a0) : Keeps s0 (State.arbSettle a0 a1) := by
  unfold State.arbSettle
  with_reducible repeat' (first | assumption | apply State.arbGive_keeps | split | dsimp only)

theorem State.arbAsk_keeps {s0} {a0 a1 a2 a3} (h : Keeps s0 a0) : Keeps s0 (State.arbAsk a0 a1 a2 a3) := by
  unfold State.arbAsk
  with_reducible repeat' (first | assumption | apply State.arbSettle_keeps | apply State.arbGive_keeps | apply State.setArb_keeps
                                | apply State.bump_keeps
                                | split | dsimp only)

theorem State.requests_keeps {s0} {a0 a1 a2 a3 a4} (h : Keeps s0 a0) : Keeps s0 (State.requests a0 a1 a2 a3 a4) := by
  revert h; fun_induction State.requests <;> intro h <;> with_reducible repeat' (first | assumption | apply State.arbAsk_keeps | apply_assumption
                                                                                       | split)

theorem State.deliver_keeps {s0} {a0 a1 a2} (h : Keeps s0 a0) : Keeps s0 (State.deliver a0 a1 a2) := by
  unfold State.deliver
  with_reducible repeat' (first | assumption | apply State.setPort_keeps | split)

theorem State.queueAt_keeps {s0} {a0 a1 a2} (h : Keeps s0 a0) : Keeps s0 (State.queueAt a0 a1 a2) := by
  unfold State.queueAt
  with_reducible repeat' (first | assumption | apply State.bump_keeps | apply State.setPort_keeps | split)

theorem State.takeSeq_keeps {s0} {a0 a1 a2 a3 a4} (h : Keeps s0 a0) : Keeps s0 ((State.takeSeq a0 a1 a2 a3 a4)).2.2 := by
  unfold State.takeSeq
  dsimp only
  with_reducible repeat' (first | assumption | apply State.updJob_keeps | (refine Keeps.mk ?_; first | assumption | apply State.updJob_keeps | split)
                                | split | dsimp only)

theorem State.takeSeq_keeps2 {s0} {a0 a1 a2 a3 a4} {r} (e : State.takeSeq a0 a1 a2 a3 a4 = r)
    (h : Keeps s0 a0) : Keeps s0 r.2.2 := e ▸ State.takeSeq_keeps h

theorem State.number_keeps {s0} {a0 a1} (h : Keeps s0 a0) : Keeps s0 ((State.number a0 a1)).2 := by
  unfold State.number
  with_reducible repeat' (first | assumption | apply State.takeSeq_keeps | split)

theorem State.number_keeps2 {s0} {a0 a1} {r} (e : State.number a0 a1 = r) (h : Keeps s0 a0) : Keeps s0 r.2 := e ▸ State.number_keeps h

theorem State.resetSeq_keeps {s0} {a0 a1 a2 a3 a4} (h : Keeps s0 a0) : Keeps s0 (State.resetSeq a0 a1 a2 a3 a4) := by
  unfold State.resetSeq
  with_reducible repeat' (first | assumption | apply State.updJob_keeps | split)

theorem State.sendReply_keeps {s0} {a0 a1} (h : Keeps s0 a0) : Keeps s0 (State.sendReply a0 a1) := by
  unfold State.sendReply
  with_reducible repeat' (first | assumption | apply State.number_keeps | apply State.deliver_keeps | apply State.queueAt_keeps
                                | apply State.resetSeq_keeps
                                | (refine Keeps.mk ?_; first | assumption | apply State.number_keeps | apply State.deliver_keeps | apply State.queueAt_keeps | apply State.resetSeq_keeps | split)
                                | split)

theorem State.sendError_keeps {s0} {a0 a1 a2 a3} (h : Keeps s0 a0) : Keeps s0 (State.sendError a0 a1 a2 a3) := by
  unfold State.sendError
  with_reducible repeat' (first | assumption | apply State.bump_keeps | apply State.setPort_keeps | apply State.sendReply_keeps | split)

theorem State.ownError_keeps {s0} {a0 a1} (h : Keeps s0 a0) : Keeps s0 (State.ownError a0 a1) := by
  unfold State.ownError
  with_reducible repeat' (first | assumption | apply State.number_keeps | apply State.bump_keeps | apply State.logEvent_keeps
                                | apply State.deliver_keeps | split)

theorem State.inject_keeps {s0} {a0 a1} (h : Keeps s0 a0) : Keeps s0 (State.inject a0 a1) := by
  unfold State.inject
  with_reducible repeat' (first | assumption | apply State.deliver_keeps | apply State.queueAt_keeps | apply State.ownError_keeps | split)

theorem State.sendAll_keeps {s0} {a0 a1} (h : Keeps s0 a0) : Keeps s0 (State.sendAll a0 a1) := by
  revert h; fun_induction State.sendAll <;> intro h <;> with_reducible repeat' (first | assumption | apply State.number_keeps
                                                                                      | apply State.inject_keeps | apply_assumption | split)

theorem State.sendControl_keeps {s0} {a0 a1 a2 a3 a4 a5 a6 a7 a8} (h : Keeps s0 a0) : Keeps s0 (State.sendControl a0 a1 a2 a3 a4 a5 a6 a7 a8) := by
  unfold State.sendControl
  with_reducible repeat' (first | assumption | apply State.sendAll_keeps
                                | (refine Keeps.mk ?_; first | assumption | apply State.sendAll_keeps | split) | split)

theorem State.signalTo_keeps {s0} {a0 a1 a2 a3 a4} (h : Keeps s0 a0) : Keeps s0 (State.signalTo a0 a1 a2 a3 a4) := by
  unfold State.signalTo
  with_reducible repeat' (first | assumption | apply State.raiseCount_keeps | apply State.sendControl_keeps | split)

theorem State.signalAll_keeps {s0} {a0 a1 a2 a3 a4} (h : Keeps s0 a0) : Keeps s0 (State.signalAll a0 a1 a2 a3 a4) := by
  revert h; fun_induction State.signalAll <;> intro h <;> with_reducible repeat' (first | assumption | apply State.signalTo_keeps | apply_assumption
                                                                                        | split)

theorem State.fabricNotice_keeps {s0} {a0 a1 a2 a3 a4 a5} (h : Keeps s0 a0) : Keeps s0 (State.fabricNotice a0 a1 a2 a3 a4 a5) := by
  unfold State.fabricNotice
  with_reducible repeat' (first | assumption | apply State.sendControl_keeps | split)

theorem State.takeBack_keeps {s0} {s gs} (h : Keeps s0 s) : Keeps s0 (State.takeBack s gs) := by
  unfold State.takeBack
  dsimp only
  generalize hz : (List.range 40).foldl _ s = z
  have hk : Keeps s0 z := hz ▸ Keeps.foldl h fun _ _ hx => State.setPort_keeps hx
  exact Keeps.mk hk

theorem State.openXfer_keeps {s0} {a0 a1} (h : Keeps s0 a0) : Keeps s0 ((State.openXfer a0 a1)).2 := by
  unfold State.openXfer
  with_reducible repeat' (first | assumption | (refine Keeps.mk ?_; first | assumption | split) | split)

theorem State.openXfer_keeps2 {s0} {a0 a1} {r} (e : State.openXfer a0 a1 = r) (h : Keeps s0 a0) : Keeps s0 r.2 := e ▸ State.openXfer_keeps h

theorem State.writeRecord_keeps {s0} {a0 a1 a2 a3 a4 a5 a6 a7} (h : Keeps s0 a0) : Keeps s0 ((State.writeRecord a0 a1 a2 a3 a4 a5 a6 a7)).s := by
  unfold State.writeRecord
  dsimp only
  with_reducible repeat' (first | assumption | apply State.writeMem_keeps | apply State.raiseCount_keeps | apply State.openXfer_keeps
                                | apply State.sendAll_keeps | refine State.writeMem_keeps2 (r := (_, _)) (by assumption) ?_
                                | refine State.raiseCount_keeps2 (r := (_, _)) (by assumption) ?_
                                | refine State.openXfer_keeps2 (r := (_, _)) (by assumption) ?_
                                | (refine Keeps.mk ?_; first | assumption | apply State.writeMem_keeps | apply State.raiseCount_keeps | apply State.openXfer_keeps | apply State.sendAll_keeps | refine State.writeMem_keeps2 (r := (_, _)) (by assumption) ?_ | refine State.raiseCount_keeps2 (r := (_, _)) (by assumption) ?_ | refine State.openXfer_keeps2 (r := (_, _)) (by assumption) ?_ | split)
                                | split | dsimp only)

theorem State.updCtx_keeps {s0} {a0 a1 a2 a3} (h : Keeps s0 a0) : Keeps s0 (State.updCtx a0 a1 a2 a3) := by
  unfold State.updCtx
  with_reducible repeat' (first | assumption | apply State.setTile_keeps | split)

theorem State.setEng_keeps {s0} {a0 a1 a2 a3 a4} (h : Keeps s0 a0) : Keeps s0 (State.setEng a0 a1 a2 a3 a4) := by
  unfold State.setEng
  with_reducible repeat' (first | assumption | apply State.updCtx_keeps | split)

theorem State.countFormats_keeps {s0} {a0 a1 a2} (h : Keeps s0 a0) : Keeps s0 (State.countFormats a0 a1 a2) := by
  unfold State.countFormats
  with_reducible repeat' (first | assumption | apply State.bump_keeps | split)

theorem State.countMove_keeps {s0} {a0 a1 a2} (h : Keeps s0 a0) : Keeps s0 (State.countMove a0 a1 a2) := by
  unfold State.countMove
  with_reducible repeat' (first | assumption | apply State.bump_keeps | split)

theorem State.moveWrite_keeps {s0} {a0 a1 a2 a3 a4 a5} (h : Keeps s0 a0) : Keeps s0 (State.moveWrite a0 a1 a2 a3 a4 a5) := by
  unfold State.moveWrite
  with_reducible repeat' (first | assumption | apply State.putByte_keeps
                                | (refine Keeps.mk ?_; first | assumption | apply State.putByte_keeps | split) | refine Keeps.foldl ?_ ?_ | split
                                | dsimp only | intro s_ x_ h_)

theorem State.clearBeats_keeps {s0} {a0 a1 a2 a3 a4 a5} (h : Keeps s0 a0) : Keeps s0 (State.clearBeats a0 a1 a2 a3 a4 a5) := by
  unfold State.clearBeats
  with_reducible repeat' (first | assumption | (refine Keeps.mk ?_; first | assumption | split) | refine Keeps.foldl ?_ ?_ | split | dsimp only
                                | intro s_ x_ h_)

theorem State.moveFault_keeps {s0} {a0 a1 a2} (h : Keeps s0 a0) : Keeps s0 (State.moveFault a0 a1 a2) := by
  unfold State.moveFault
  with_reducible repeat' (first | assumption | apply State.ueAll_keeps | apply State.countXlate_keeps | split)

theorem State.runMatmul_keeps {s0} {a0 a1 a2 a3 a4} (h : Keeps s0 a0) : Keeps s0 ((State.runMatmul a0 a1 a2 a3 a4)).s := by
  unfold State.runMatmul
  with_reducible repeat' (first | assumption | apply State.countFormats_keeps | apply State.setTile_keeps | split | dsimp only)

theorem State.runAccMove_keeps {s0} {a0 a1 a2 a3 a4} (h : Keeps s0 a0) : Keeps s0 ((State.runAccMove a0 a1 a2 a3 a4)).s := by
  unfold State.runAccMove
  with_reducible repeat' (first | assumption | apply State.countFormats_keeps | apply State.setTile_keeps | split | dsimp only)

theorem State.passLeft_keeps {s0} {a0 a1 a2 a3 a4 a5 a6} (h : Keeps s0 a0) : Keeps s0 ((State.passLeft a0 a1 a2 a3 a4 a5 a6)).s := by
  unfold State.passLeft
  with_reducible repeat' (first | assumption | apply State.countFormats_keeps | apply State.setTile_keeps | split | dsimp only)

theorem State.runPass_keeps {s0} {a0 a1 a2 a3 a4} (h : Keeps s0 a0) : Keeps s0 ((State.runPass a0 a1 a2 a3 a4)).s := by
  unfold State.runPass
  with_reducible repeat' (first | assumption | apply State.passLeft_keeps | split | dsimp only)

theorem State.moveLeft_keeps {s0} {a0 a1 a2 a3 a4 a5 a6 a7 a8} (h : Keeps s0 a0) : Keeps s0 ((State.moveLeft a0 a1 a2 a3 a4 a5 a6 a7 a8)).s := by
  unfold State.moveLeft
  with_reducible repeat' (first | assumption | apply State.moveWrite_keeps | apply State.clearBeats_keeps | apply State.countMove_keeps
                                | apply State.countFormats_keeps | apply State.setTile_keeps | apply State.moveFault_keeps
                                | (refine Keeps.mk ?_; first | assumption | apply State.moveWrite_keeps | apply State.clearBeats_keeps | apply State.countMove_keeps | apply State.countFormats_keeps | apply State.setTile_keeps | apply State.moveFault_keeps | split)
                                | refine Keeps.foldl ?_ ?_ | split | dsimp only | intro s_ x_ h_)

theorem State.runMove_keeps {s0} {a0 a1 a2 a3 a4 a5 a6} (h : Keeps s0 a0) : Keeps s0 ((State.runMove a0 a1 a2 a3 a4 a5 a6)).s := by
  unfold State.runMove
  with_reducible repeat' (first | assumption | apply State.moveLeft_keeps | split | dsimp only)

theorem State.runRecs_keeps {s0} {a0 a1 a2 a3 a4 a5} (h : Keeps s0 a0) : Keeps s0 ((State.runRecs a0 a1 a2 a3 a4 a5)).s := by
  unfold State.runRecs
  with_reducible repeat' (first | assumption | apply State.writeRecord_keeps | apply RecOut.s_keeps | split | dsimp only)

theorem State.runWord_keeps {s0} {a0 a1 a2 a3 a4 a5} (h : Keeps s0 a0) : Keeps s0 ((State.runWord a0 a1 a2 a3 a4 a5)).s := by
  unfold State.runWord
  with_reducible repeat' (first | assumption | apply State.runMatmul_keeps | apply State.runAccMove_keeps | apply State.runPass_keeps
                                | apply State.runMove_keeps | apply State.runRecs_keeps | split | dsimp only)

theorem State.stopPass_keeps {s0} {a0 a1 a2 a3 a4} (h : Keeps s0 a0) : Keeps s0 ((State.stopPass a0 a1 a2 a3 a4)).s := by
  unfold State.stopPass
  with_reducible repeat' (first | assumption | apply State.passLeft_keeps | split | dsimp only)

theorem State.stopMove_keeps {s0} {a0 a1 a2 a3 a4 a5 a6} (h : Keeps s0 a0) : Keeps s0 ((State.stopMove a0 a1 a2 a3 a4 a5 a6)).s := by
  unfold State.stopMove
  with_reducible repeat' (first | assumption | apply State.moveLeft_keeps | split | dsimp only)

theorem State.stopWord_keeps {s0} {a0 a1 a2 a3 a4} (h : Keeps s0 a0) : Keeps s0 ((State.stopWord a0 a1 a2 a3 a4)).s := by
  unfold State.stopWord
  with_reducible repeat' (first | assumption | apply State.stopPass_keeps | apply State.drawn_keeps | apply State.stopMove_keeps
                                | apply State.runWord_keeps | split | dsimp only)

theorem State.stopFrom_keeps {s0} {a0 a1 a2 a3 a4 a5} (h : Keeps s0 a5) : Keeps s0 ((State.stopFrom a0 a1 a2 a3 a4 a5)).1 := by
  revert h; fun_induction State.stopFrom <;> intro h <;> with_reducible repeat' (first | assumption | apply State.stopWord_keeps
                                                                                       | apply State.setEng_keeps | apply RunOut.s_keeps
                                                                                       | apply_assumption | split | dsimp only)

theorem State.noteFault_keeps {s0} {a0 a1 a2 a3 a4} (h : Keeps s0 a0) : Keeps s0 (State.noteFault a0 a1 a2 a3 a4) := by
  unfold State.noteFault
  with_reducible repeat' (first | assumption | apply State.logAs_keeps | apply State.record_keeps | split)

theorem State.noteFaults_keeps {s0} {a0 a1 a2 a3} (h : Keeps s0 a0) : Keeps s0 (State.noteFaults a0 a1 a2 a3) := by
  revert h; fun_induction State.noteFaults <;> intro h <;> with_reducible repeat' (first | assumption | apply State.noteFault_keeps | apply_assumption
                                                                                         | split)

theorem State.recall_keeps {s0} {a0 a1 a2} (h : Keeps s0 a0) : Keeps s0 (State.recall a0 a1 a2) := by
  unfold State.recall
  with_reducible repeat' (first | assumption | apply State.takeBack_keeps | apply State.drawn_keeps
                                | (refine Keeps.mk ?_; first | assumption | apply State.takeBack_keeps | apply State.drawn_keeps | split) | split)

theorem State.haltCtx_keeps {s0} {a0 a1 a2 a3} (h : Keeps s0 a0) : Keeps s0 (State.haltCtx a0 a1 a2 a3) := by
  unfold State.haltCtx
  with_reducible repeat' (first | assumption | apply State.recall_keeps | apply State.stopFrom_keeps | apply State.noteFaults_keeps | split)

theorem State.haltTag_keeps {s0} {a0 a1 a2} (h : Keeps s0 a0) : Keeps s0 (State.haltTag a0 a1 a2) := by
  revert h; fun_induction State.haltTag <;> intro h <;> with_reducible repeat' (first | assumption | apply State.haltCtx_keeps | apply_assumption
                                                                                      | split)

theorem State.setCrossing_keeps {s0} {a0 a1 a2} (h : Keeps s0 a0) : Keeps s0 (State.setCrossing a0 a1 a2) := by
  unfold State.setCrossing
  with_reducible repeat' (first | assumption | (refine Keeps.mk ?_; first | assumption | split) | split)

theorem State.resetCrossings_keeps {s0} {a0 a1} (h : Keeps s0 a0) : Keeps s0 (State.resetCrossings a0 a1) := by
  revert h; fun_induction State.resetCrossings <;> intro h <;> with_reducible repeat' (first | assumption | apply State.setCrossing_keeps
                                                                                             | apply_assumption | split)

theorem State.holdAt_keeps {s0} {a0 a1 a2} (h : Keeps s0 a0) : Keeps s0 (State.holdAt a0 a1 a2) := by
  unfold State.holdAt
  with_reducible repeat' (first | assumption | apply State.setCrossing_keeps | split)

theorem State.restartAt_keeps {s0} {a0 a1 a2} (h : Keeps s0 a0) : Keeps s0 (State.restartAt a0 a1 a2) := by
  unfold State.restartAt
  with_reducible repeat' (first | assumption | apply State.setCrossing_keeps | split)

theorem State.across_keeps {s0} {a0 a1 a2} (h : Keeps s0 a0) : Keeps s0 (State.across a0 a1 a2) := by
  unfold State.across
  with_reducible repeat' (first | assumption | apply State.setCrossing_keeps | apply State.holdAt_keeps | split)

theorem State.overran_keeps {s0} {a0 a1 a2 a3 a4 a5} (h : Keeps s0 a0) : Keeps s0 (State.overran a0 a1 a2 a3 a4 a5) := by
  unfold State.overran
  with_reducible repeat' (first | assumption | apply State.points_keeps | apply State.xingEvent_keeps | apply State.bump_keeps
                                | apply State.setCrossing_keeps | split)

theorem State.portOverrun_keeps {s0} {a0 a1 a2} (h : Keeps s0 a0) : Keeps s0 (State.portOverrun a0 a1 a2) := by
  unfold State.portOverrun
  with_reducible repeat' (first | assumption | apply State.overran_keeps | apply State.bump_keeps | split)

theorem State.dramOverruns_keeps {s0} {a0 a1 a2} (h : Keeps s0 a0) : Keeps s0 (State.dramOverruns a0 a1 a2) := by
  revert h; fun_induction State.dramOverruns <;> intro h <;> with_reducible repeat' (first | assumption | apply State.overran_keeps
                                                                                           | apply State.setWord_keeps | apply_assumption | split)

theorem State.hostTx_keeps {s0} {a0 a1 a2} (h : Keeps s0 a0) : Keeps s0 (State.hostTx a0 a1 a2) := by
  unfold State.hostTx
  with_reducible repeat' (first | assumption | apply State.bump_keeps | split)

theorem State.hostRx_keeps {s0} {a0 a1 a2} (h : Keeps s0 a0) : Keeps s0 (State.hostRx a0 a1 a2) := by
  unfold State.hostRx
  with_reducible repeat' (first | assumption | apply State.bump_keeps | split)

theorem State.khtSent_keeps {s0} {a0 a1 a2 a3} (h : Keeps s0 a0) : Keeps s0 (State.khtSent a0 a1 a2 a3) := by
  unfold State.khtSent
  with_reducible repeat' (first | assumption | apply State.emit_keeps | apply State.across_keeps | apply State.hostTx_keeps | apply State.bump_keeps
                                | split)

theorem State.datagram_keeps {s0} {a0 a1 a2} (h : Keeps s0 a0) : Keeps s0 (State.datagram a0 a1 a2) := by
  unfold State.datagram
  with_reducible repeat' (first | assumption | apply State.khtSent_keeps | apply State.updConn_keeps | split)

theorem State.flush_keeps {s0} {a0 a1} (h : Keeps s0 a0) : Keeps s0 (State.flush a0 a1) := by
  unfold State.flush
  with_reducible repeat' (first | assumption | apply State.datagram_keeps
                                | (refine Keeps.mk ?_; first | assumption | apply State.datagram_keeps | split) | refine Keeps.foldl ?_ ?_ | split
                                | dsimp only | intro s_ x_ h_)

theorem State.sendMsg_keeps {s0} {a0 a1 a2} (h : Keeps s0 a0) : Keeps s0 (State.sendMsg a0 a1 a2) := by
  unfold State.sendMsg
  with_reducible repeat' (first | assumption | apply State.flush_keeps | apply State.updConn_keeps | split)

theorem State.sendAck_keeps {s0} {a0 a1} (h : Keeps s0 a0) : Keeps s0 (State.sendAck a0 a1) := by
  unfold State.sendAck
  with_reducible repeat' (first | assumption | apply State.khtSent_keeps | apply State.updConn_keeps | split)

theorem State.errorReply_keeps {s0} {a0 a1 a2 a3} (h : Keeps s0 a0) : Keeps s0 (State.errorReply a0 a1 a2 a3) := by
  unfold State.errorReply
  with_reducible repeat' (first | assumption | apply State.bump_keeps | apply State.sendMsg_keeps | apply State.updConn_keeps | split)

theorem State.markSent_keeps {s0} {a0 a1 a2 a3} (h : Keeps s0 a0) : Keeps s0 (State.markSent a0 a1 a2 a3) := by
  unfold State.markSent
  with_reducible repeat' (first | assumption | apply State.updJob_keeps | split)

theorem State.enq_keeps {s0} {a0 a1 a2} (h : Keeps s0 a0) : Keeps s0 (State.enq a0 a1 a2) := by
  unfold State.enq
  with_reducible repeat' (first | assumption | apply State.bump_keeps | apply State.markSent_keeps
                                | (refine Keeps.mk ?_; first | assumption | apply State.bump_keeps | apply State.markSent_keeps | split) | split)

theorem State.originate_keeps {s0} {a0 a1 a2 a3} (h : Keeps s0 a0) : Keeps s0 (State.originate a0 a1 a2 a3) := by
  unfold State.originate
  with_reducible repeat' (first | assumption | apply State.sendMsg_keeps | apply State.enq_keeps | split)

theorem State.noticeHost_keeps {s0} {a0 a1 a2 a3 a4 a5} (h : Keeps s0 a0) : Keeps s0 (State.noticeHost a0 a1 a2 a3 a4 a5) := by
  unfold State.noticeHost
  with_reducible repeat' (first | assumption | apply State.originate_keeps | split)

theorem State.sendLate_keeps {s0} {a0 a1 a2 a3} (h : Keeps s0 a0) : Keeps s0 (State.sendLate a0 a1 a2 a3) := by
  unfold State.sendLate
  with_reducible repeat' (first | assumption | apply State.noticeHost_keeps | apply State.bump_keeps | apply State.updPkg_keeps
                                | apply State.fabricNotice_keeps
                                | (refine Keeps.mk ?_; first | assumption | apply State.noticeHost_keeps | apply State.bump_keeps | apply State.updPkg_keeps | apply State.fabricNotice_keeps | split)
                                | split)

theorem State.healthHosts_keeps {s0} {a0 a1} (h : Keeps s0 a0) : Keeps s0 (State.healthHosts a0 a1) := by
  revert h; fun_induction State.healthHosts <;> intro h <;> with_reducible repeat' (first | assumption | apply State.sendMsg_keeps | apply_assumption
                                                                                          | split)

theorem State.healthFabric_keeps {s0} {a0 a1} (h : Keeps s0 a0) : Keeps s0 (State.healthFabric a0 a1) := by
  revert h; fun_induction State.healthFabric <;> intro h <;> with_reducible repeat' (first | assumption | apply State.fabricNotice_keeps
                                                                                           | apply_assumption
                                                                                           | (refine Keeps.mk ?_; first | assumption | apply State.fabricNotice_keeps | apply_assumption | split)
                                                                                           | refine Keeps.foldl ?_ ?_ | split | dsimp only
                                                                                           | intro s_ x_ h_)

theorem State.setLevel_keeps {s0} {a0 a1} (h : Keeps s0 a0) : Keeps s0 (State.setLevel a0 a1) := by
  unfold State.setLevel
  with_reducible repeat' (first | assumption | apply State.bump_keeps | apply State.chrEvent_keeps | apply State.healthHosts_keeps
                                | apply State.healthFabric_keeps
                                | (refine Keeps.mk ?_; first | assumption | apply State.bump_keeps | apply State.chrEvent_keeps | apply State.healthHosts_keeps | apply State.healthFabric_keeps | split)
                                | split)

theorem State.immediate_keeps {s0} {a0 a1} (h : Keeps s0 a0) : Keeps s0 (State.immediate a0 a1) := by
  unfold State.immediate
  with_reducible repeat' (first | assumption | apply State.setLevel_keeps
                                | (refine Keeps.mk ?_; first | assumption | apply State.setLevel_keeps | split) | split)

theorem State.endContext_keeps {s0} {a0 a1} (h : Keeps s0 a0) : Keeps s0 (State.endContext a0 a1) := by
  unfold State.endContext
  with_reducible repeat' (first | assumption | (refine Keeps.mk ?_; first | assumption | split) | split)

theorem State.dropTag_keeps {s0} {a0 a1 a2} (h : Keeps s0 a0) : Keeps s0 (State.dropTag a0 a1 a2) := by
  revert h; fun_induction State.dropTag <;> intro h <;> with_reducible repeat' (first | assumption | apply State.setTile_keeps | apply_assumption
                                                                                      | split)

theorem State.removePkg_keeps {s0} {a0 a1} (h : Keeps s0 a0) : Keeps s0 (State.removePkg a0 a1) := by
  unfold State.removePkg
  with_reducible repeat' (first | assumption | apply State.endContext_keeps
                                | (refine Keeps.mk ?_; first | assumption | apply State.endContext_keeps | split) | split)

theorem State.abandon_keeps {s0} {a0 a1 a2 a3 a4 a5 a6} (h : Keeps s0 a0) : Keeps s0 (State.abandon a0 a1 a2 a3 a4 a5 a6) := by
  unfold State.abandon
  with_reducible repeat' (first | assumption | apply State.wakeAll_keeps | apply State.dropTag_keeps | apply State.haltTag_keeps
                                | apply State.noticeHost_keeps | apply State.bump_keeps | apply State.sendLate_keeps | apply State.fabricNotice_keeps
                                | apply State.removePkg_keeps
                                | (refine Keeps.mk ?_; first | assumption | apply State.wakeAll_keeps | apply State.dropTag_keeps | apply State.haltTag_keeps | apply State.noticeHost_keeps | apply State.bump_keeps | apply State.sendLate_keeps | apply State.fabricNotice_keeps | apply State.removePkg_keeps | split)
                                | split)

theorem State.abandonAll_keeps {s0} {a0 a1 a2 a3 a4} (h : Keeps s0 a0) : Keeps s0 (State.abandonAll a0 a1 a2 a3 a4) := by
  revert h; fun_induction State.abandonAll <;> intro h <;> with_reducible repeat' (first | assumption | apply State.abandon_keeps | apply_assumption
                                                                                         | split)

theorem State.endTask_keeps {s0} {a0 a1 a2 a3} (h : Keeps s0 a0) : Keeps s0 (State.endTask a0 a1 a2 a3) := by
  unfold State.endTask
  with_reducible repeat' (first | assumption | apply State.abandon_keeps | split)

theorem State.faultTask_keeps {s0} {a0 a1 a2 a3 a4} (h : Keeps s0 a0) : Keeps s0 (State.faultTask a0 a1 a2 a3 a4) := by
  unfold State.faultTask
  with_reducible repeat' (first | assumption | apply State.endTask_keeps | apply State.noteFault_keeps | split)

theorem State.faultRemote_keeps {s0} {a0 a1 a2 a3 a4} (h : Keeps s0 a0) : Keeps s0 (State.faultRemote a0 a1 a2 a3 a4) := by
  unfold State.faultRemote
  with_reducible repeat' (first | assumption | apply State.abandon_keeps | apply State.logAs_keeps | apply State.record_keeps | split)

theorem State.withdraw_keeps {s0} {a0} (h : Keeps s0 a0) : Keeps s0 (State.withdraw a0) := by
  unfold State.withdraw
  with_reducible repeat' (first | assumption | apply State.immediate_keeps | apply State.abandonAll_keeps | apply State.chrEvent_keeps
                                | (refine Keeps.mk ?_; first | assumption | apply State.immediate_keeps | apply State.abandonAll_keeps | apply State.chrEvent_keeps | split)
                                | split)

theorem State.setReg_keeps {s0} {a0 a1 a2 a3 a4} (h : Keeps s0 a0) : Keeps s0 (State.setReg a0 a1 a2 a3 a4) := by
  unfold State.setReg
  with_reducible repeat' (first | assumption | apply State.updCtx_keeps | split)

theorem State.waitFaulted_keeps {s0} {a0 a1 a2 a3} (h : Keeps s0 a0) : Keeps s0 (State.waitFaulted a0 a1 a2 a3) := by
  unfold State.waitFaulted
  with_reducible repeat' (first | assumption | apply State.syncFault_keeps | apply State.drawn_keeps | split)

theorem State.watch_keeps {s0} {a0 a1 a2 a3} (h : Keeps s0 a0) : Keeps s0 (State.watch a0 a1 a2 a3) := by
  unfold State.watch
  with_reducible repeat' (first | assumption | apply State.updJob_keeps | split)

theorem sendData_keeps {s0} {a0 a1 a2 a3 a4 a5 a6 a7 a8 a9 a10 a11} (h : Keeps s0 a11) : KeepsB s0 (sendData a0 a1 a2 a3 a4 a5 a6 a7 a8 a9 a10 a11) := by
  
  
  unfold sendData
  dsimp only
  with_reducible repeat' (first | assumption | apply Keeps.bWait | apply Keeps.bGo | apply Keeps.bFault | apply State.openXfer_keeps
                                | apply State.sendAll_keeps | refine State.openXfer_keeps2 (r := (_, _)) (by assumption) ?_
                                | (refine Keeps.mk ?_; first | assumption | apply State.openXfer_keeps | apply State.sendAll_keeps | refine State.openXfer_keeps2 (r := (_, _)) (by assumption) ?_ | split)
                                | split | dsimp only)

theorem beginPut_keeps {s0} {a0 a1 a2 a3 a4 a5} (h : Keeps s0 a5) : KeepsB s0 (beginPut a0 a1 a2 a3 a4 a5) := by
  unfold beginPut
  with_reducible repeat' (first | assumption | apply Keeps.bWait | apply Keeps.bGo | apply Keeps.bFault | apply sendData_keeps | split)

theorem beginGet_keeps {s0} {a0 a1 a2 a3 a4 a5} (h : Keeps s0 a5) : KeepsB s0 (beginGet a0 a1 a2 a3 a4 a5) := by
  unfold beginGet
  dsimp only
  with_reducible repeat' (first | assumption | apply Keeps.bWait | apply Keeps.bGo | apply Keeps.bFault | apply State.openXfer_keeps
                                | apply State.sendAll_keeps | refine State.openXfer_keeps2 (r := (_, _)) (by assumption) ?_
                                | (refine Keeps.mk ?_; first | assumption | apply State.openXfer_keeps | apply State.sendAll_keeps | refine State.openXfer_keeps2 (r := (_, _)) (by assumption) ?_ | split)
                                | split | dsimp only)

theorem beginAccumulate_keeps {s0 t v c w r s} (h : Keeps s0 s) : KeepsB s0 (beginAccumulate t v c w r s) := by
  unfold beginAccumulate
  dsimp only
  generalize accumulateData _ _ _ _ _ _ = d
  split
  · rename_i e
    exact Keeps.bGo (State.countFormats_keeps (State.setTile_keeps (Keeps.bStep e (sendData_keeps h))))
  · exact sendData_keeps h

theorem beginAtomic_keeps {s0} {a0 a1 a2 a3 a4 a5} (h : Keeps s0 a5) : KeepsB s0 (beginAtomic a0 a1 a2 a3 a4 a5) := by
  unfold beginAtomic
  with_reducible repeat' (first | assumption | apply Keeps.bWait | apply Keeps.bGo | apply Keeps.bFault | apply sendData_keeps | split)

theorem openMembers_keeps {s0} {a0 a1 a2 a3 a4 a5 a6 a7 a8} (h : Keeps s0 a7) : Keeps s0 ((openMembers a0 a1 a2 a3 a4 a5 a6 a7 a8)).2.2 := by
  revert h; fun_induction openMembers <;> intro h <;> with_reducible repeat' (first | assumption | apply State.openXfer_keeps | apply_assumption
                                                                                    | split)

theorem openMembers_keeps2 {s0} {a0 a1 a2 a3 a4 a5 a6 a7 a8} {r} (e : openMembers a0 a1 a2 a3 a4 a5 a6 a7 a8 = r)
    (h : Keeps s0 a7) : Keeps s0 r.2.2 := e ▸ openMembers_keeps h

theorem beginMulticast_keeps {s0 t v c w r s} (h : Keeps s0 s) : KeepsB s0 (beginMulticast t v c w r s) := by
  unfold beginMulticast
  split
  · exact h
  · rename_i j ds _
    dsimp only
    split
    · exact h
    · have key : ∀ (m : Option Nat) (bs : List Byte) (f : Nat → Nat) (sig : Option (Nat × Nat)), Keeps s0 (match m with
          | none => ((none : Option Nat), s)
          | some d => (match s.writeMem c.job .tile v (f d) bs with
            | (some f, s1) => (some f, s1)
            | (none, s1) => (match sig with | some q => s1.raiseCount c.job (refIndex q.1) q.2 0x3FFF | none => (none, s1)))).2 := by
        intro m bs f sig
        cases m with
        | none => exact h
        | some d =>
          dsimp only
          split
          · exact State.writeMem_keeps2 ‹_› h
          · have h1 := State.writeMem_keeps2 ‹_› h
            split
            · exact State.raiseCount_keeps h1
            · exact h1
      have h2 := key (List.find? (s.plays j) ds) (Mem.bytes (s.tile t).scratch r.loc r.bytes) (withDevice r.addr) r.sig
      split
      · rename_i e
        exact Keeps.bFault ((congrArg (fun r => Keeps s0 r.2) e).mp h2)
      · rename_i e
        exact Keeps.bGo (State.sendAll_keeps (openMembers_keeps ((congrArg (fun r => Keeps s0 r.2) e).mp h2)))

theorem beginSignal_keeps {s0} {a0 a1 a2 a3 a4 a5} (h : Keeps s0 a5) : KeepsB s0 (beginSignal a0 a1 a2 a3 a4 a5) := by
  unfold beginSignal
  dsimp only
  with_reducible repeat' (first | assumption | apply Keeps.bWait | apply Keeps.bGo | apply Keeps.bFault | apply State.openXfer_keeps
                                | apply State.sendAll_keeps | refine State.openXfer_keeps2 (r := (_, _)) (by assumption) ?_
                                | (refine Keeps.mk ?_; first | assumption | apply State.openXfer_keeps | apply State.sendAll_keeps | refine State.openXfer_keeps2 (r := (_, _)) (by assumption) ?_ | split)
                                | split | dsimp only)

theorem State.fetchRecord_keeps {s0} {a0 a1 a2 a3 a4 a5 a6 a7 a8} (h : Keeps s0 a0) : KeepsB s0 (State.fetchRecord a0 a1 a2 a3 a4 a5 a6 a7 a8) := by
  unfold State.fetchRecord
  dsimp only
  with_reducible repeat' (first | assumption | apply Keeps.bWait | apply Keeps.bGo | apply Keeps.bFault | apply State.readMem_keeps
                                | apply State.openXfer_keeps | apply State.sendAll_keeps
                                | refine State.readMem_keeps2 (r := (_, _)) (by assumption) ?_
                                | refine State.openXfer_keeps2 (r := (_, _)) (by assumption) ?_
                                | (refine Keeps.mk ?_; first | assumption | apply State.readMem_keeps | apply State.openXfer_keeps | apply State.sendAll_keeps | refine State.readMem_keeps2 (r := (_, _)) (by assumption) ?_ | refine State.openXfer_keeps2 (r := (_, _)) (by assumption) ?_ | split)
                                | split | dsimp only)

theorem State.publishMs_keeps {s0} {a0 a1} (h : Keeps s0 a0) : Keeps s0 (State.publishMs a0 a1) := by
  unfold State.publishMs
  with_reducible repeat' (first | assumption | (refine Keeps.mk ?_; first | assumption | split) | split)

theorem State.publishBoth_keeps {s0} {a0 a1} (h : Keeps s0 a0) : Keeps s0 (State.publishBoth a0 a1) := Keeps.mk h

theorem State.awaits_keeps {s0} {a0 a1 a2 a3} (h : Keeps s0 a0) : KeepsP s0 (State.awaits a0 a1 a2 a3) := by
  revert h; fun_induction State.awaits <;> intro h <;> with_reducible repeat' (first | assumption | apply Keeps.pSome | exact Keeps.pNone
                                                                                     | apply State.watch_keeps | apply_assumption | split)

theorem State.gather_keeps {s0 t v c n w s} (h : Keeps s0 s) : KeepsB s0 (State.gather t v c n w s) := by
  induction n generalizing w s with
  | zero => exact h
  | succ n ih =>
    simp only [State.gather]
    split
    · exact h
    · split
      · exact h
      · split
        · rename_i e
          exact ih (Keeps.bStep e (State.fetchRecord_keeps h))
        · exact State.fetchRecord_keeps h

theorem State.beginPass_keeps {s0 s t v c w p} (h : Keeps s0 s) : KeepsB s0 (State.beginPass s t v c w p) := by
  unfold State.beginPass
  dsimp only
  split
  · exact h
  · split
    · rename_i e
      exact Keeps.bWait (Keeps.pOf e (State.awaits_keeps h))
    · split
      · rename_i e
        have h1 := Keeps.bStep e (State.gather_keeps h)
        split
        · exact h1
        · split <;> exact h1
      · exact State.gather_keeps h

theorem State.beginRec_keeps {s0 s t v c w b} (h : Keeps s0 s) : KeepsB s0 (State.beginRec s t v c w b) := by
  unfold State.beginRec
  split
  · rename_i e
    exact Keeps.bWait (Keeps.pOf e (State.awaits_keeps h))
  · split
    · rename_i e
      have h1 := Keeps.bStep e (State.gather_keeps h)
      dsimp only
      split <;> exact h1
    · exact State.gather_keeps h

theorem State.beginLoad_keeps {s0} {a0 a1 a2 a3 a4 a5 a6} (h : Keeps s0 a0) : KeepsB s0 (State.beginLoad a0 a1 a2 a3 a4 a5 a6) := by
  unfold State.beginLoad
  dsimp only
  with_reducible repeat' (first | assumption | apply Keeps.bWait | apply Keeps.bGo | apply Keeps.bFault | apply State.readMem_keeps
                                | apply State.setTile_keeps | refine State.readMem_keeps2 (r := (_, _)) (by assumption) ?_
                                | (refine Keeps.mk ?_; first | assumption | apply State.readMem_keeps | apply State.setTile_keeps | refine State.readMem_keeps2 (r := (_, _)) (by assumption) ?_ | split)
                                | split | dsimp only)

theorem State.beginWord_keeps {s0} {a0 a1 a2 a3 a4} (h : Keeps s0 a0) : KeepsB s0 (State.beginWord a0 a1 a2 a3 a4) := by
  unfold State.beginWord
  dsimp only
  with_reducible repeat' (first | assumption | apply Keeps.bWait | apply Keeps.bGo | apply Keeps.bFault | apply State.setTile_keeps
                                | apply State.beginPass_keeps | apply State.beginRec_keeps | apply State.beginLoad_keeps | apply beginPut_keeps
                                | apply beginGet_keeps | apply beginAccumulate_keeps | apply beginAtomic_keeps | apply beginMulticast_keeps
                                | apply beginSignal_keeps
                                | (refine Keeps.mk ?_; first | assumption | apply State.setTile_keeps | apply State.beginPass_keeps | apply State.beginRec_keeps | apply State.beginLoad_keeps | apply beginPut_keeps | apply beginGet_keeps | apply beginAccumulate_keeps | apply beginAtomic_keeps | apply beginMulticast_keeps | apply beginSignal_keeps | split)
                                | split | dsimp only)

theorem State.beginOne_keeps {s0 t v s k} (h : Keeps s0 s) : Keeps s0 (State.beginOne t v s k) := by
  unfold State.beginOne
  split
  · exact h
  · split
    · exact h
    · split
      · exact h
      · split
        · rename_i e
          exact State.setEng_keeps (Keeps.bStop e (State.beginWord_keeps h))
        · rename_i e
          exact State.setEng_keeps (Keeps.bStep e (State.beginWord_keeps h))
        · rename_i e
          exact State.faultTask_keeps (State.setEng_keeps (Keeps.bErr e (State.beginWord_keeps h)))

theorem State.beginWords_keeps {s0} {a0 a1 a2} (h : Keeps s0 a0) : Keeps s0 (State.beginWords a0 a1 a2) := by
  unfold State.beginWords
  with_reducible repeat' (first | assumption | apply State.beginOne_keeps
                                | (refine Keeps.mk ?_; first | assumption | apply State.beginOne_keeps | split) | refine Keeps.foldl ?_ ?_ | split
                                | dsimp only | intro s_ x_ h_)

theorem State.leaveRecord_keeps {s0} {a0 a1 a2 a3 a4 a5 a6 a7} (h : Keeps s0 a0) : KeepsB s0 (State.leaveRecord a0 a1 a2 a3 a4 a5 a6 a7) := by
  unfold State.leaveRecord
  dsimp only
  with_reducible repeat' (first | assumption | apply Keeps.bWait | apply Keeps.bGo | apply Keeps.bFault | apply State.writeRecord_keeps
                                | apply RecOut.s_keeps
                                | (refine Keeps.mk ?_; first | assumption | apply State.writeRecord_keeps | apply RecOut.s_keeps | split) | split
                                | dsimp only)

theorem State.countUnchanged_keeps {s0} {a0 a1 a2 a3} (h : Keeps s0 a0) : Keeps s0 (State.countUnchanged a0 a1 a2 a3) := by
  unfold State.countUnchanged
  with_reducible repeat' (first | assumption | apply State.bump_keeps | (refine Keeps.mk ?_; first | assumption | apply State.bump_keeps | split)
                                | split)

theorem State.finishWord_keeps {s0} {a0 a1 a2 a3 a4} (h : Keeps s0 a0) : KeepsB s0 (State.finishWord a0 a1 a2 a3 a4) := by
  unfold State.finishWord
  dsimp only
  with_reducible repeat' (first | assumption | apply Keeps.bWait | apply Keeps.bGo | apply Keeps.bFault | apply State.setReg_keeps
                                | apply State.setTile_keeps | apply State.runPass_keeps | apply RunOut.s_keeps | apply State.countUnchanged_keeps
                                | apply State.leaveRecord_keeps | apply State.runWord_keeps
                                | (refine Keeps.mk ?_; first | assumption | apply State.setReg_keeps | apply State.setTile_keeps | apply State.runPass_keeps | apply RunOut.s_keeps | apply State.countUnchanged_keeps | apply State.leaveRecord_keeps | apply State.runWord_keeps | split)
                                | split | dsimp only)

theorem State.wordWaves_keeps {s0} {a0 a1 a2 a3} (h : Keeps s0 a0) : Keeps s0 (State.wordWaves a0 a1 a2 a3) := by
  unfold State.wordWaves
  with_reducible repeat' (first | assumption | apply State.bump_keeps | apply State.drawn_keeps | split)

theorem State.leaveWord_keeps {s0} {a0 a1 a2 a3 a4 a5} (h : Keeps s0 a0) : Keeps s0 (State.leaveWord a0 a1 a2 a3 a4 a5) := by
  unfold State.leaveWord
  with_reducible repeat' (first | assumption | apply State.wordWaves_keeps | apply State.updCtx_keeps | apply State.setEng_keeps | split)

theorem State.completeWord_keeps {s0 s t v c k w n} (h : Keeps s0 s) : Keeps s0 (State.completeWord s t v c k w n) := by
  unfold State.completeWord
  split
  · exact State.leaveWord_keeps h
  · split
    · rename_i e
      exact State.setEng_keeps (Keeps.bStop e (State.finishWord_keeps h))
    · rename_i e
      exact State.leaveWord_keeps (Keeps.bStep e (State.finishWord_keeps h))
    · rename_i e
      exact State.faultTask_keeps (State.setEng_keeps (Keeps.bErr e (State.finishWord_keeps h)))

theorem State.suspendNoon_keeps {s0} {a0 a1} (h : Keeps s0 a0) : Keeps s0 (State.suspendNoon a0 a1) := by
  unfold State.suspendNoon
  with_reducible repeat' (first | assumption | apply State.stopFrom_keeps | apply State.endTask_keeps | apply State.noteFaults_keeps
                                | apply State.noteFault_keeps | apply State.setTile_keeps
                                | (refine Keeps.mk ?_; first | assumption | apply State.stopFrom_keeps | apply State.endTask_keeps | apply State.noteFaults_keeps | apply State.noteFault_keeps | apply State.setTile_keeps | split)
                                | split)

theorem State.fetch_keeps {s0} {a0 a1 a2} (h : Keeps s0 a0) : Keeps s0 ((State.fetch a0 a1 a2)).2 := by
  unfold State.fetch
  with_reducible repeat' (first | assumption | apply State.readMem_keeps | refine State.readMem_keeps2 (r := (_, _)) (by assumption) ?_
                                | (refine Keeps.mk ?_; first | assumption | apply State.readMem_keeps | refine State.readMem_keeps2 (r := (_, _)) (by assumption) ?_ | split)
                                | refine Keeps.foldl ?_ ?_ | split | dsimp only | intro s_ x_ h_)

theorem State.fetch_keeps2 {s0} {a0 a1 a2} {r} (e : State.fetch a0 a1 a2 = r) (h : Keeps s0 a0) : Keeps s0 r.2 := e ▸ State.fetch_keeps h

theorem State.issued_keeps {s0} {a0 a1 a2 a3} (h : Keeps s0 a0) : Keeps s0 (State.issued a0 a1 a2 a3) := by
  unfold State.issued
  with_reducible repeat' (first | assumption | apply State.updCtx_keeps | apply State.setTile_keeps | split)

theorem settle_keeps {s0 t v o} {r : WordRes} (h : KeepsW s0 r) : Keeps s0 (settle t v o r) := by
  cases r <;> simp only [settle] <;> first
    | exact h
    | exact State.updCtx_keeps h
    | exact State.faultTask_keeps h
    | exact State.issued_keeps h
    | exact State.beginWords_keeps (State.issued_keeps h)

theorem State.issueWord_keeps {s0 s} {t v c w} {act : Ctx → Nat → State → WordRes} (h : Keeps s0 s) (ha : KeepsW s0 (act c (c.reg (xregOf w)) s)) :
    Keeps s0 (State.issueWord s t v c w act) := by
  unfold State.issueWord
  repeat' (first | exact settle_keeps ha | exact settle_keeps (Keeps.wHold h) | exact settle_keeps (Keeps.wFault h) | split)

theorem nopWord_keeps {s0} {a0 a1 a2 a3} (h : Keeps s0 a3) : KeepsW s0 (nopWord a0 a1 a2 a3) := by
  unfold nopWord
  with_reducible repeat' (first | assumption | apply Keeps.wOk | apply Keeps.wFault | apply Keeps.wHold | split)

theorem setWord_keeps {s0} {a0 a1 a2 a3 a4 a5} (h : Keeps s0 a5) : KeepsW s0 (setWord a0 a1 a2 a3 a4 a5) := by
  unfold setWord
  with_reducible repeat' (first | assumption | apply Keeps.wOk | apply Keeps.wFault | apply Keeps.wHold | apply State.setReg_keeps | split)

theorem aluWord_keeps {s0} {a0 a1 a2 a3 a4 a5} (h : Keeps s0 a5) : KeepsW s0 (aluWord a0 a1 a2 a3 a4 a5) := by
  unfold aluWord
  with_reducible repeat' (first | assumption | apply Keeps.wOk | apply Keeps.wFault | apply Keeps.wHold | apply State.setReg_keeps | split)

theorem branchWord_keeps {s0} {a0 a1 a2 a3} (h : Keeps s0 a3) : KeepsW s0 (branchWord a0 a1 a2 a3) := by
  unfold branchWord
  with_reducible repeat' (first | assumption | apply Keeps.wOk | apply Keeps.wFault | apply Keeps.wHold | apply Keeps.wGoto | apply Keeps.wEnded
                                | apply Keeps.wAccepted | apply Keeps.wWait | (refine Keeps.mk ?_; first | assumption | split)
                                | refine Keeps.foldl ?_ ?_ | split | dsimp only | intro s_ x_ h_)

theorem loopWord_keeps {s0 a0 a1 a2 a3 a4 a5} (h : Keeps s0 a5) : KeepsW s0 (loopWord a0 a1 a2 a3 a4 a5) := by
  unfold loopWord
  with_reducible (
    refine Keeps.iteW ?_ ?_
    · apply Keeps.wFault; exact h
    · refine Keeps.iteW ?_ ?_
      · apply Keeps.wOk; apply State.setReg_keeps; exact h
      · apply Keeps.wGoto; apply State.setReg_keeps; exact h)

theorem loadWord_keeps {s0} {a0 a1 a2 a3 a4 a5} (h : Keeps s0 a5) : KeepsW s0 (loadWord a0 a1 a2 a3 a4 a5) := by
  unfold loadWord
  dsimp only
  with_reducible repeat' (first | assumption | apply Keeps.wOk | apply Keeps.wFault | apply Keeps.wHold | apply State.setReg_keeps
                                | apply State.countXlate_keeps | apply State.readMem_keeps
                                | refine State.readMem_keeps2 (r := (_, _)) (by assumption) ?_
                                | (refine Keeps.mk ?_; first | assumption | apply State.setReg_keeps | apply State.countXlate_keeps | apply State.readMem_keeps | refine State.readMem_keeps2 (r := (_, _)) (by assumption) ?_ | split)
                                | split | dsimp only)

theorem storeWord_keeps {s0} {a0 a1 a2 a3 a4 a5} (h : Keeps s0 a5) : KeepsW s0 (storeWord a0 a1 a2 a3 a4 a5) := by
  unfold storeWord
  dsimp only
  with_reducible repeat' (first | assumption | apply Keeps.wOk | apply Keeps.wFault | apply Keeps.wHold | apply State.setTile_keeps
                                | apply State.writeMem_keeps | refine State.writeMem_keeps2 (r := (_, _)) (by assumption) ?_
                                | (refine Keeps.mk ?_; first | assumption | apply State.setTile_keeps | apply State.writeMem_keeps | refine State.writeMem_keeps2 (r := (_, _)) (by assumption) ?_ | split)
                                | split | dsimp only)

theorem State.costEnd_keeps {s0} {a0 a1 a2} (h : Keeps s0 a0) : Keeps s0 (State.costEnd a0 a1 a2) := by
  unfold State.costEnd
  with_reducible repeat' (first | assumption | apply State.bump_keeps | apply State.updPkg_keeps
                                | (refine Keeps.mk ?_; first | assumption | apply State.bump_keeps | apply State.updPkg_keeps | split) | split)

theorem State.endOf_keeps {s0} {a0 a1 a2 a3 a4} (h : Keeps s0 a0) : Keeps s0 (State.endOf a0 a1 a2 a3 a4) := by
  unfold State.endOf
  with_reducible repeat' (first | assumption | apply State.bump_keeps | apply State.setTile_keeps | apply State.costEnd_keeps
                                | apply State.updPkg_keeps | split)

theorem endWord_keeps {s0} {a0 a1 a2 a3 a4 a5 a6} (h : Keeps s0 a6) : KeepsW s0 (endWord a0 a1 a2 a3 a4 a5 a6) := by
  unfold endWord
  with_reducible repeat' (first | assumption | apply Keeps.wOk | apply Keeps.wFault | apply Keeps.wHold | apply Keeps.wGoto | apply Keeps.wEnded
                                | apply Keeps.wAccepted | apply Keeps.wWait | apply State.endOf_keeps | apply State.raiseCount_keeps
                                | refine State.raiseCount_keeps2 (r := (_, _)) (by assumption) ?_
                                | (refine Keeps.mk ?_; first | assumption | apply State.endOf_keeps | apply State.raiseCount_keeps | refine State.raiseCount_keeps2 (r := (_, _)) (by assumption) ?_ | split)
                                | refine Keeps.foldl ?_ ?_ | split | dsimp only | intro s_ x_ h_)

theorem matmulWord_keeps {s0 a0 a1 a2 a3 a4 a5} (h : Keeps s0 a5) : KeepsW s0 (matmulWord a0 a1 a2 a3 a4 a5) := by
  unfold matmulWord
  generalize stray _ _ = b
  generalize paramAt a1 a2 a4 48 = q
  generalize State.undeclared _ _ _ _ = u
  with_reducible
    refine Keeps.iteW (Keeps.wFault h) ?_
    cases q with
    | error f => exact Keeps.wFault h
    | ok a =>
      dsimp only
      generalize matPrepare _ _ _ _ = m
      cases m with
      | error f => exact Keeps.wFault h
      | ok o => exact Keeps.iteW (Keeps.wFault h) (Keeps.wAccepted h)

theorem accMoveWord_keeps {s0} {a0 a1 a2 a3 a4 a5} (h : Keeps s0 a5) : KeepsW s0 (accMoveWord a0 a1 a2 a3 a4 a5) := by
  unfold accMoveWord
  with_reducible repeat' (first | assumption | apply Keeps.wOk | apply Keeps.wFault | apply Keeps.wHold | apply Keeps.wGoto | apply Keeps.wEnded
                                | apply Keeps.wAccepted | apply Keeps.wWait | (refine Keeps.mk ?_; first | assumption | split)
                                | refine Keeps.foldl ?_ ?_ | split | dsimp only | intro s_ x_ h_)

theorem accStatusWord'_keeps {s0} {a0 a1 a2 a3 a4 a5} (h : Keeps s0 a5) : KeepsW s0 (accStatusWord' a0 a1 a2 a3 a4 a5) := by
  unfold accStatusWord'
  with_reducible repeat' (first | assumption | apply Keeps.wOk | apply Keeps.wFault | apply Keeps.wHold | apply Keeps.wGoto | apply Keeps.wEnded
                                | apply Keeps.wAccepted | apply Keeps.wWait | (refine Keeps.mk ?_; first | assumption | split)
                                | refine Keeps.foldl ?_ ?_ | split | dsimp only | intro s_ x_ h_)

theorem acceptPass_keeps {s0} {a0 a1 a2 a3} (h : Keeps s0 a3) : KeepsW s0 (acceptPass a0 a1 a2 a3) := by
  unfold acceptPass
  with_reducible repeat' (first | assumption | apply Keeps.wOk | apply Keeps.wFault | apply Keeps.wHold | apply Keeps.wGoto | apply Keeps.wEnded
                                | apply Keeps.wAccepted | apply Keeps.wWait | (refine Keeps.mk ?_; first | assumption | split)
                                | refine Keeps.foldl ?_ ?_ | split | dsimp only | intro s_ x_ h_)

theorem passWord_keeps {s0 a0 a1 a2 a3 a4 a5} (h : Keeps s0 a5) : KeepsW s0 (passWord a0 a1 a2 a3 a4 a5) := by
  unfold passWord
  generalize stray _ _ = b
  generalize paramAt a1 a2 a4 320 = q
  generalize State.undeclared _ _ _ _ = u
  with_reducible
    refine Keeps.iteW (Keeps.wFault h) ?_
    cases q with
    | error f => exact Keeps.wFault h
    | ok a =>
      dsimp only
      generalize passPrepare _ _ _ _ _ _ = m
      cases m with
      | error f => exact Keeps.wFault h
      | ok p =>
        refine Keeps.iteW (Keeps.wFault h) ?_
        generalize p.scan.bind _ = y
        cases y with
        | none => exact acceptPass_keeps h
        | some f => exact Keeps.wFault (State.waitFaulted_keeps h)

theorem sfnBatchWord_keeps {s0} {a0 a1 a2 a3 a4 a5} (h : Keeps s0 a5) : KeepsW s0 (sfnBatchWord a0 a1 a2 a3 a4 a5) := by
  unfold sfnBatchWord
  dsimp only
  with_reducible repeat' (first | assumption | apply Keeps.wOk | apply Keeps.wFault | apply Keeps.wHold | apply acceptPass_keeps
                                | (refine Keeps.mk ?_; first | assumption | apply acceptPass_keeps | split) | split | dsimp only)

theorem acceptRec_keeps {s0} {a0 a1 a2 a3 a4} (h : Keeps s0 a4) : KeepsW s0 (acceptRec a0 a1 a2 a3 a4) := by
  unfold acceptRec
  with_reducible repeat' (first | assumption | apply Keeps.wOk | apply Keeps.wFault | apply Keeps.wHold | apply Keeps.wGoto | apply Keeps.wEnded
                                | apply Keeps.wAccepted | apply Keeps.wWait | apply State.waitFaulted_keeps
                                | (refine Keeps.mk ?_; first | assumption | apply State.waitFaulted_keeps | split) | refine Keeps.foldl ?_ ?_ | split
                                | dsimp only | intro s_ x_ h_)

theorem composeWord_keeps {s0} {a0 a1 a2 a3 a4 a5} (h : Keeps s0 a5) : KeepsW s0 (composeWord a0 a1 a2 a3 a4 a5) := by
  unfold composeWord
  with_reducible repeat' (first | assumption | apply Keeps.wOk | apply Keeps.wFault | apply Keeps.wHold | apply acceptRec_keeps | split)

theorem combineWord_keeps {s0} {a0 a1 a2 a3 a4 a5} (h : Keeps s0 a5) : KeepsW s0 (combineWord a0 a1 a2 a3 a4 a5) := by
  unfold combineWord
  with_reducible repeat' (first | assumption | apply Keeps.wOk | apply Keeps.wFault | apply Keeps.wHold | apply acceptRec_keeps | split)

theorem finaliseWord_keeps {s0} {a0 a1 a2 a3 a4 a5} (h : Keeps s0 a5) : KeepsW s0 (finaliseWord a0 a1 a2 a3 a4 a5) := by
  unfold finaliseWord
  with_reducible repeat' (first | assumption | apply Keeps.wOk | apply Keeps.wFault | apply Keeps.wHold | apply acceptRec_keeps | split)

theorem instarLoadWord_keeps {s0} {a0 a1 a2 a3} (h : Keeps s0 a3) : KeepsW s0 (instarLoadWord a0 a1 a2 a3) := by
  unfold instarLoadWord
  with_reducible repeat' (first | assumption | apply Keeps.wOk | apply Keeps.wFault | apply Keeps.wHold | apply Keeps.wGoto | apply Keeps.wEnded
                                | apply Keeps.wAccepted | apply Keeps.wWait | (refine Keeps.mk ?_; first | assumption | split)
                                | refine Keeps.foldl ?_ ?_ | split | dsimp only | intro s_ x_ h_)

theorem moveWord_keeps {s0} {a0 a1 a2 a3 a4 a5 a6} (h : Keeps s0 a6) : KeepsW s0 (moveWord a0 a1 a2 a3 a4 a5 a6) := by
  unfold moveWord
  with_reducible repeat' (first | assumption | apply Keeps.wOk | apply Keeps.wFault | apply Keeps.wHold | apply Keeps.wGoto | apply Keeps.wEnded
                                | apply Keeps.wAccepted | apply Keeps.wWait | (refine Keeps.mk ?_; first | assumption | split)
                                | refine Keeps.foldl ?_ ?_ | split | dsimp only | intro s_ x_ h_)

theorem acceptRemote_keeps {s0} {a0 a1 a2 a3 a4 a5} (h : Keeps s0 a5) : KeepsW s0 (acceptRemote a0 a1 a2 a3 a4 a5) := by
  unfold acceptRemote
  with_reducible repeat' (first | assumption | apply Keeps.wOk | apply Keeps.wFault | apply Keeps.wHold | apply Keeps.wGoto | apply Keeps.wEnded
                                | apply Keeps.wAccepted | apply Keeps.wWait | (refine Keeps.mk ?_; first | assumption | split)
                                | refine Keeps.foldl ?_ ?_ | split | dsimp only | intro s_ x_ h_)

theorem putWord'_keeps {s0} {a0 a1 a2 a3 a4} (h : Keeps s0 a4) : KeepsW s0 (putWord' a0 a1 a2 a3 a4) := by
  unfold putWord'
  with_reducible repeat' (first | assumption | apply Keeps.wOk | apply Keeps.wFault | apply Keeps.wHold | apply acceptRemote_keeps | split)

theorem getWord'_keeps {s0} {a0 a1 a2 a3 a4} (h : Keeps s0 a4) : KeepsW s0 (getWord' a0 a1 a2 a3 a4) := by
  unfold getWord'
  with_reducible repeat' (first | assumption | apply Keeps.wOk | apply Keeps.wFault | apply Keeps.wHold | apply acceptRemote_keeps | split)

theorem accumulateWord'_keeps {s0} {a0 a1 a2 a3 a4} (h : Keeps s0 a4) : KeepsW s0 (accumulateWord' a0 a1 a2 a3 a4) := by
  unfold accumulateWord'
  with_reducible repeat' (first | assumption | apply Keeps.wOk | apply Keeps.wFault | apply Keeps.wHold | apply acceptRemote_keeps | split)

theorem atomicWord'_keeps {s0} {a0 a1 a2 a3 a4} (h : Keeps s0 a4) : KeepsW s0 (atomicWord' a0 a1 a2 a3 a4) := by
  unfold atomicWord'
  with_reducible repeat' (first | assumption | apply Keeps.wOk | apply Keeps.wFault | apply Keeps.wHold | apply acceptRemote_keeps | split)

theorem multicastWord'_keeps {s0} {a0 a1 a2 a3 a4} (h : Keeps s0 a4) : KeepsW s0 (multicastWord' a0 a1 a2 a3 a4) := by
  unfold multicastWord'
  with_reducible repeat' (first | assumption | apply Keeps.wOk | apply Keeps.wFault | apply Keeps.wHold | apply acceptRemote_keeps | split)

theorem signalWord'_keeps {s0} {a0 a1 a2 a3 a4} (h : Keeps s0 a4) : KeepsW s0 (signalWord' a0 a1 a2 a3 a4) := by
  unfold signalWord'
  with_reducible repeat' (first | assumption | apply Keeps.wOk | apply Keeps.wFault | apply Keeps.wHold | apply acceptRemote_keeps | split)

theorem State.setBarrier_keeps {s0} {a0 a1 a2 a3} (h : Keeps s0 a0) : Keeps s0 (State.setBarrier a0 a1 a2 a3) := by
  unfold State.setBarrier
  with_reducible repeat' (first | assumption | apply State.updJob_keeps | split)

theorem State.barrierFrame_keeps {s0} {a0 a1 a2 a3 a4 a5 a6 a7 a8} (h : Keeps s0 a0) : Keeps s0 (State.barrierFrame a0 a1 a2 a3 a4 a5 a6 a7 a8) := by
  unfold State.barrierFrame
  with_reducible repeat' (first | assumption | apply State.sendControl_keeps | split)

theorem State.releaseEpoch_keeps {s0} {a0 a1 a2 a3} (h : Keeps s0 a0) : Keeps s0 (State.releaseEpoch a0 a1 a2 a3) := by
  unfold State.releaseEpoch
  with_reducible repeat' (first | assumption | apply State.bump_keeps | apply State.setBarrier_keeps | apply State.wakeAll_keeps | split)

theorem State.releaseDown_keeps {s0} {a0 a1 a2 a3 a4 a5} (h : Keeps s0 a0) : Keeps s0 (State.releaseDown a0 a1 a2 a3 a4 a5) := by
  revert h; fun_induction State.releaseDown <;> intro h <;> with_reducible repeat' (first | assumption | apply State.barrierFrame_keeps
                                                                                          | apply_assumption | split)

theorem State.phaseOut_keeps {s0} {a0 a1 a2 a3 a4 a5 a6} (h : Keeps s0 a0) : Keeps s0 (State.phaseOut a0 a1 a2 a3 a4 a5 a6) := by
  revert h; fun_induction State.phaseOut <;> intro h <;> with_reducible repeat' (first | assumption | apply State.barrierFrame_keeps
                                                                                       | apply_assumption | split)

theorem State.barrierStep_keeps {s0} {a0 a1 a2} (h : Keeps s0 a0) : KeepsP s0 (State.barrierStep a0 a1 a2) := by
  unfold State.barrierStep
  dsimp only
  with_reducible repeat' (first | assumption | apply Keeps.pSome | exact Keeps.pNone | apply State.releaseEpoch_keeps | apply State.releaseDown_keeps
                                | apply State.setBarrier_keeps | apply State.barrierFrame_keeps | apply State.phaseOut_keeps
                                | (refine Keeps.mk ?_; first | assumption | exact Keeps.pNone | apply State.releaseEpoch_keeps | apply State.releaseDown_keeps | apply State.setBarrier_keeps | apply State.barrierFrame_keeps | apply State.phaseOut_keeps | split)
                                | split | dsimp only)

theorem State.barrierRun_keeps {s0} {j k n s} (h : Keeps s0 s) : Keeps s0 (State.barrierRun j k n s) := by
  induction n generalizing s with
  | zero => exact h
  | succ n ih =>
    simp only [State.barrierRun]
    split
    · exact ih (State.barrierStep_keeps h _ (by assumption))
    · exact h

theorem State.arriveLocal_keeps {s0} {a0 a1 a2 a3} (h : Keeps s0 a0) : Keeps s0 ((State.arriveLocal a0 a1 a2 a3)).2 := by
  unfold State.arriveLocal
  dsimp only
  with_reducible repeat' (first | assumption | apply State.syncFault_keeps | apply State.barrierRun_keeps | apply State.setBarrier_keeps
                                | (refine Keeps.mk ?_; first | assumption | apply State.syncFault_keeps | apply State.barrierRun_keeps | apply State.setBarrier_keeps | split)
                                | split | dsimp only)

theorem State.arriveLocal_keeps2 {s0} {a0 a1 a2 a3} {r} (e : State.arriveLocal a0 a1 a2 a3 = r)
    (h : Keeps s0 a0) : Keeps s0 r.2 := e ▸ State.arriveLocal_keeps h

theorem State.noteAll_keeps {s0} {a0 a1 a2} (h : Keeps s0 a0) : Keeps s0 (State.noteAll a0 a1 a2) := by
  revert h; fun_induction State.noteAll <;> intro h <;> with_reducible repeat' (first | assumption | apply State.noteFault_keeps | apply_assumption
                                                                                      | split)

theorem State.endAll_keeps {s0} {a0 a1 a2} (h : Keeps s0 a0) : Keeps s0 (State.endAll a0 a1 a2) := by
  revert h; fun_induction State.endAll <;> intro h <;> with_reducible repeat' (first | assumption | apply State.endTask_keeps | apply_assumption
                                                                                     | split)

theorem State.faultAll_keeps {s0} {a0 a1 a2} (h : Keeps s0 a0) : Keeps s0 (State.faultAll a0 a1 a2) := by
  unfold State.faultAll
  with_reducible repeat' (first | assumption | apply State.endAll_keeps | apply State.noteAll_keeps | split)

theorem State.barrierFail_keeps {s0} {a0 a1 a2} (h : Keeps s0 a0) : Keeps s0 (State.barrierFail a0 a1 a2) := by
  unfold State.barrierFail
  with_reducible repeat' (first | assumption | apply State.setBarrier_keeps | apply State.bump_keeps | apply State.syncFault_keeps
                                | apply State.sendLate_keeps | apply State.faultAll_keeps
                                | (refine Keeps.mk ?_; first | assumption | apply State.setBarrier_keeps | apply State.bump_keeps | apply State.syncFault_keeps | apply State.sendLate_keeps | apply State.faultAll_keeps | split)
                                | refine Keeps.foldl ?_ ?_ | split | dsimp only | intro s_ x_ h_)

theorem countWaitWord_keeps {s0} {a0 a1 a2 a3 a4} (h : Keeps s0 a4) : KeepsW s0 (countWaitWord a0 a1 a2 a3 a4) := by
  unfold countWaitWord
  with_reducible repeat' (first | assumption | apply Keeps.wOk | apply Keeps.wFault | apply Keeps.wHold | apply Keeps.wGoto | apply Keeps.wEnded
                                | apply Keeps.wAccepted | apply Keeps.wWait | apply State.waitFaulted_keeps | apply State.watch_keeps
                                | (refine Keeps.mk ?_; first | assumption | apply State.waitFaulted_keeps | apply State.watch_keeps | split)
                                | refine Keeps.foldl ?_ ?_ | split | dsimp only | intro s_ x_ h_)

theorem barrierHold_keeps {s0} {a0 a1 a2 a3 a4 a5} (h : Keeps s0 a5) : KeepsW s0 (barrierHold a0 a1 a2 a3 a4 a5) := by
  unfold barrierHold
  with_reducible repeat' (first | assumption | apply Keeps.wOk | apply Keeps.wFault | apply Keeps.wHold | apply Keeps.wGoto | apply Keeps.wEnded
                                | apply Keeps.wAccepted | apply Keeps.wWait | apply State.updCtx_keeps
                                | (refine Keeps.mk ?_; first | assumption | apply State.updCtx_keeps | split) | refine Keeps.foldl ?_ ?_ | split
                                | dsimp only | intro s_ x_ h_)

theorem barrierArriveWord_keeps {s0} {a0 a1 a2 a3 a4 a5} (h : Keeps s0 a5) : KeepsW s0 (barrierArriveWord a0 a1 a2 a3 a4 a5) := by
  unfold barrierArriveWord
  dsimp only
  with_reducible repeat' (first | assumption | apply Keeps.wOk | apply Keeps.wFault | apply Keeps.wHold | apply barrierHold_keeps
                                | apply State.arriveLocal_keeps | apply State.updCtx_keeps
                                | refine State.arriveLocal_keeps2 (r := (_, _)) (by assumption) ?_
                                | (refine Keeps.mk ?_; first | assumption | apply barrierHold_keeps | apply State.arriveLocal_keeps | apply State.updCtx_keeps | refine State.arriveLocal_keeps2 (r := (_, _)) (by assumption) ?_ | split)
                                | split | dsimp only)

theorem barrierWaitWord_keeps {s0} {a0 a1 a2 a3 a4 a5} (h : Keeps s0 a5) : KeepsW s0 (barrierWaitWord a0 a1 a2 a3 a4 a5) := by
  unfold barrierWaitWord
  dsimp only
  with_reducible repeat' (first | assumption | apply Keeps.wOk | apply Keeps.wFault | apply Keeps.wHold | apply State.syncFault_keeps
                                | apply barrierHold_keeps
                                | (refine Keeps.mk ?_; first | assumption | apply State.syncFault_keeps | apply barrierHold_keeps | split) | split
                                | dsimp only)

theorem hostSignalWord_keeps {s0} {a0 a1 a2 a3} (h : Keeps s0 a3) : KeepsW s0 (hostSignalWord a0 a1 a2 a3) := by
  unfold hostSignalWord
  with_reducible repeat' (first | assumption | apply Keeps.wOk | apply Keeps.wFault | apply Keeps.wHold | apply State.bump_keeps
                                | apply State.updJob_keeps | split)

theorem hostWaitWord_keeps {s0} {a0 a1 a2 a3 a4 a5} (h : Keeps s0 a5) : KeepsW s0 (hostWaitWord a0 a1 a2 a3 a4 a5) := by
  unfold hostWaitWord
  with_reducible repeat' (first | assumption | apply Keeps.wOk | apply Keeps.wFault | apply Keeps.wHold | apply Keeps.wGoto | apply Keeps.wEnded
                                | apply Keeps.wAccepted | apply Keeps.wWait | apply State.updJob_keeps | apply State.setReg_keeps
                                | apply State.wakeAll_keeps
                                | (refine Keeps.mk ?_; first | assumption | apply State.updJob_keeps | apply State.setReg_keeps | apply State.wakeAll_keeps | split)
                                | refine Keeps.foldl ?_ ?_ | split | dsimp only | intro s_ x_ h_)

theorem State.enterQueue_keeps {s0} {a0 a1 a2} (h : Keeps s0 a0) : Keeps s0 (State.enterQueue a0 a1 a2) := by
  unfold State.enterQueue
  with_reducible repeat' (first | assumption | apply State.wake_keeps | apply State.setTile_keeps | split)

theorem State.losePinned_keeps {s0} {a0 a1 a2} (h : Keeps s0 a0) : Keeps s0 (State.losePinned a0 a1 a2) := by
  unfold State.losePinned
  with_reducible repeat' (first | assumption | apply State.abandon_keeps | split)

theorem enqueueWord_keeps {s0} {a0 a1 a2 a3 a4 a5} (h : Keeps s0 a5) : KeepsW s0 (enqueueWord a0 a1 a2 a3 a4 a5) := by
  unfold enqueueWord
  with_reducible repeat' (first | assumption | apply Keeps.wOk | apply Keeps.wFault | apply Keeps.wHold | apply Keeps.wGoto | apply Keeps.wEnded
                                | apply Keeps.wAccepted | apply Keeps.wWait | apply State.losePinned_keeps | apply State.enterQueue_keeps
                                | (refine Keeps.mk ?_; first | assumption | apply State.losePinned_keeps | apply State.enterQueue_keeps | split)
                                | refine Keeps.foldl ?_ ?_ | split | dsimp only | intro s_ x_ h_)

theorem queueStateWord_keeps {s0} {a0 a1 a2 a3 a4 a5} (h : Keeps s0 a5) : KeepsW s0 (queueStateWord a0 a1 a2 a3 a4 a5) := by
  unfold queueStateWord
  with_reducible repeat' (first | assumption | apply Keeps.wOk | apply Keeps.wFault | apply Keeps.wHold | apply State.setReg_keeps | split)

theorem State.startTask_keeps {s0} {a0 a1 a2 a3} (h : Keeps s0 a0) : Keeps s0 (State.startTask a0 a1 a2 a3) := by
  unfold State.startTask
  with_reducible repeat' (first | assumption | apply State.setTile_keeps | split)

theorem State.steal_keeps {s0} {a0 a1 a2 a3} (h : Keeps s0 a0) : Keeps s0 (State.steal a0 a1 a2 a3) := by
  unfold State.steal
  with_reducible repeat' (first | assumption | apply State.setTile_keeps | apply State.wake_keeps | apply State.bump_keeps | split)

theorem State.moveDescs_keeps {s0} {a0 a1 a2} (h : Keeps s0 a0) : Keeps s0 ((State.moveDescs a0 a1 a2)).1 := by
  revert h; fun_induction State.moveDescs <;> intro h <;> with_reducible repeat' (first | assumption | apply State.enterQueue_keeps | apply_assumption
                                                                                        | split | dsimp only)

theorem State.abandonOn_keeps {s0} {a0 a1 a2 a3 a4} (h : Keeps s0 a0) : Keeps s0 (State.abandonOn a0 a1 a2 a3 a4) := by
  revert h; fun_induction State.abandonOn <;> intro h <;> with_reducible repeat' (first | assumption | apply State.abandon_keeps | apply_assumption
                                                                                        | split)

theorem State.isolate_keeps {s0} {a0 a1 a2} (h : Keeps s0 a0) : Keeps s0 (State.isolate a0 a1 a2) := by
  unfold State.isolate
  with_reducible repeat' (first | assumption | apply State.points_keeps | apply State.logEvent_keeps | apply State.record_keeps
                                | apply State.setTile_keeps | apply State.moveDescs_keeps | apply State.wakeAll_keeps | apply State.abandonOn_keeps
                                | (refine Keeps.mk ?_; first | assumption | apply State.points_keeps | apply State.logEvent_keeps | apply State.record_keeps | apply State.setTile_keeps | apply State.moveDescs_keeps | apply State.wakeAll_keeps | apply State.abandonOn_keeps | split)
                                | split)

theorem State.setBusy_keeps {s0} {a0 a1} (h : Keeps s0 a0) : Keeps s0 (State.setBusy a0 a1) := by
  revert h; fun_induction State.setBusy <;> intro h <;> with_reducible repeat' (first | assumption | apply State.setWord_keeps | apply_assumption
                                                                                      | split)

theorem State.clearBusy_keeps {s0} {a0 a1} (h : Keeps s0 a0) : Keeps s0 (State.clearBusy a0 a1) := by
  revert h; fun_induction State.clearBusy <;> intro h <;> with_reducible repeat' (first | assumption | apply State.setWord_keeps | apply_assumption
                                                                                        | split)

theorem State.repairRow_keeps {s0} {a0 a1 a2} (h : Keeps s0 a0) : Keeps s0 (State.repairRow a0 a1 a2) := by
  unfold State.repairRow
  with_reducible repeat' (first | assumption | apply State.points_keeps | apply State.bump_keeps
                                | (refine Keeps.mk ?_; first | assumption | apply State.points_keeps | apply State.bump_keeps | split) | split)

theorem State.corrected_keeps {s0} {a0 a1 a2 a3} (h : Keeps s0 a0) : Keeps s0 (State.corrected a0 a1 a2 a3) := by
  unfold State.corrected
  with_reducible repeat' (first | assumption | apply State.bump_keeps | apply State.repairRow_keeps
                                | (refine Keeps.mk ?_; first | assumption | apply State.bump_keeps | apply State.repairRow_keeps | split) | split)

theorem State.poisonBeat_keeps {s0} {a0 a1 a2} (h : Keeps s0 a0) : Keeps s0 (State.poisonBeat a0 a1 a2) := by
  unfold State.poisonBeat
  with_reducible repeat' (first | assumption | (refine Keeps.mk ?_; first | assumption | split) | split)

theorem State.observeBeat_keeps {s0 s c p b e} (h : Keeps s0 s) : Keeps s0 (State.observeBeat s c p b e) := by
  unfold State.observeBeat
  split
  · exact h
  · split
    · exact h
    · exact State.corrected_keeps h
    · exact State.poisonBeat_keeps h
    · split
      · exact State.poisonBeat_keeps (State.drawn_keeps h)
      · obtain ⟨h1, h2, h3, h4, h5⟩ := h
        exact State.corrected_keeps ⟨h1, h2, fun x => Mem.wf_setBytes (h3 x) _ _, h4, h5⟩

theorem State.observeAll_keeps {s0} {a0 a1 a2 a3} (h : Keeps s0 a0) : Keeps s0 (State.observeAll a0 a1 a2 a3) := by
  revert h; fun_induction State.observeAll <;> intro h <;> with_reducible repeat' (first | assumption | apply State.observeBeat_keeps
                                                                                         | apply_assumption | split)

theorem State.serve_keeps {s0} {a0 a1 a2} (h : Keeps s0 a0) : Keeps s0 ((State.serve a0 a1 a2)).2 := by
  unfold State.serve
  dsimp only
  with_reducible repeat' (first | assumption | apply State.readPlaces_keeps | apply State.writePlaces_keeps | apply State.modifyPlaces_keeps
                                | refine State.readPlaces_keeps2 (r := (_, _)) (by assumption) ?_
                                | refine State.writePlaces_keeps2 (r := (_, _)) (by assumption) ?_
                                | refine State.modifyPlaces_keeps2 (r := (_, _)) (by assumption) ?_
                                | (refine Keeps.mk ?_; first | assumption | apply State.readPlaces_keeps | apply State.writePlaces_keeps | apply State.modifyPlaces_keeps | refine State.readPlaces_keeps2 (r := (_, _)) (by assumption) ?_ | refine State.writePlaces_keeps2 (r := (_, _)) (by assumption) ?_ | refine State.modifyPlaces_keeps2 (r := (_, _)) (by assumption) ?_ | split)
                                | split | dsimp only)

theorem State.serve_keeps2 {s0} {a0 a1 a2} {r} (e : State.serve a0 a1 a2 = r) (h : Keeps s0 a0) : Keeps s0 r.2 := e ▸ State.serve_keeps h

theorem State.faultOf_keeps {s0} {a0 a1 a2} (h : Keeps s0 a0) : Keeps s0 (State.faultOf a0 a1 a2) := by
  unfold State.faultOf
  with_reducible repeat' (first | assumption | apply State.faultTask_keeps | split)

theorem State.refuseAll_keeps {s0} {a0 a1} (h : Keeps s0 a0) : Keeps s0 (State.refuseAll a0 a1) := by
  revert h; fun_induction State.refuseAll <;> intro h <;> with_reducible repeat' (first | assumption | apply State.faultOf_keeps | apply_assumption
                                                                                        | split)

theorem State.dramItems_keeps {s0} {a0 a1 a2} (h : Keeps s0 a0) : Keeps s0 (State.dramItems a0 a1 a2) := by
  unfold State.dramItems
  with_reducible repeat' (first | assumption | apply State.across_keeps | (refine Keeps.mk ?_; first | assumption | apply State.across_keeps | split)
                                | refine Keeps.foldl ?_ ?_ | split | dsimp only | intro s_ x_ h_)

theorem State.serveOver_keeps {s0} {a0 a1 a2} (h : Keeps s0 a0) : Keeps s0 ((State.serveOver a0 a1 a2)).2 := by
  unfold State.serveOver
  with_reducible repeat' (first | assumption | apply State.serve_keeps | apply State.dramOverruns_keeps | apply State.poisonBeat_keeps
                                | (refine Keeps.mk ?_; first | assumption | apply State.serve_keeps | apply State.dramOverruns_keeps | apply State.poisonBeat_keeps | split)
                                | split)

theorem State.serveOver_keeps2 {s0} {a0 a1 a2} {r} (e : State.serveOver a0 a1 a2 = r) (h : Keeps s0 a0) : Keeps s0 r.2 := e ▸ State.serveOver_keeps h

theorem State.failChannel_keeps {s0 s} {ch} (h : Keeps s0 s) : Keeps s0 (State.failChannel s ch) := by
  unfold State.failChannel
  split
  · exact h
  dsimp only
  refine Keeps.ite ?_ ?_ <;> (try apply State.withdraw_keeps) <;> apply State.abandonAll_keeps <;> apply State.immediate_keeps <;> apply State.logEvent_keeps <;>
    (obtain ⟨h1, h2, h3, h4, h5⟩ := h; exact ⟨h1, h2, fun x => Sp.wf_filter (h3 x) _, h4, h5⟩)

theorem State.clearImmediate_keeps {s0} {a0 a1} (h : Keeps s0 a0) : Keeps s0 (State.clearImmediate a0 a1) := by
  unfold State.clearImmediate
  with_reducible repeat' (first | assumption | (refine Keeps.mk ?_; first | assumption | split) | split)

theorem State.meetLost_keeps {s0} {a0 a1} (h : Keeps s0 a0) : Keeps s0 (State.meetLost a0 a1) := by
  unfold State.meetLost
  with_reducible repeat' (first | assumption | apply State.logEvent_keeps | split)

theorem State.looked_keeps {s0} {a0 a1 a2 a3} (h : Keeps s0 a0) : Keeps s0 (State.looked a0 a1 a2 a3) := by
  unfold State.looked
  with_reducible repeat' (first | assumption | apply State.meetLost_keeps | apply State.ueAll_keeps | split)

theorem State.poke_keeps {s0} {a0 a1 a2 a3} (h : Keeps s0 a0) : Keeps s0 (State.poke a0 a1 a2 a3) := by
  unfold State.poke
  with_reducible repeat' (first | assumption | apply State.meetLost_keeps | apply State.writePlaces_keeps | split)

theorem State.updBucket_keeps {s0} {a0 a1 a2 a3} (h : Keeps s0 a0) : Keeps s0 (State.updBucket a0 a1 a2 a3) := by
  unfold State.updBucket
  with_reducible repeat' (first | assumption | apply State.updJob_keeps | split)

theorem State.sawGranule_keeps {s0} {a0 a1 a2 a3 a4} (h : Keeps s0 a0) : Keeps s0 (State.sawGranule a0 a1 a2 a3 a4) := by
  unfold State.sawGranule
  with_reducible repeat' (first | assumption | apply State.looked_keeps | split)

theorem State.setGranule_keeps {s0} {a0 a1 a2 a3 a4 a5} (h : Keeps s0 a0) : Keeps s0 (State.setGranule a0 a1 a2 a3 a4 a5) := by
  unfold State.setGranule
  with_reducible repeat' (first | assumption | apply State.poke_keeps | split)

theorem State.closeGranule_keeps {s0} {a0 a1 a2 a3 a4} (h : Keeps s0 a0) : Keeps s0 ((State.closeGranule a0 a1 a2 a3 a4)).2 := by
  unfold State.closeGranule
  with_reducible repeat' (first | assumption | apply State.sawGranule_keeps | apply State.bump_keeps | apply State.setGranule_keeps
                                | (refine Keeps.mk ?_; first | assumption | apply State.sawGranule_keeps | apply State.bump_keeps | apply State.setGranule_keeps | split)
                                | split)

theorem State.closeGranule_keeps2 {s0} {a0 a1 a2 a3 a4} {r} (e : State.closeGranule a0 a1 a2 a3 a4 = r)
    (h : Keeps s0 a0) : Keeps s0 r.2 := e ▸ State.closeGranule_keeps h

theorem State.closeGranules_keeps {s0} {a0 a1 a2 a3 a4 a5} (h : Keeps s0 a0) : Keeps s0 ((State.closeGranules a0 a1 a2 a3 a4 a5)).2 := by
  revert h; fun_induction State.closeGranules <;> intro h <;> with_reducible repeat' (first | assumption | apply State.closeGranule_keeps
                                                                                            | apply_assumption | split)

theorem State.closeGranules_keeps2 {s0} {a0 a1 a2 a3 a4 a5} {r} (e : State.closeGranules a0 a1 a2 a3 a4 a5 = r)
    (h : Keeps s0 a0) : Keeps s0 r.2 := e ▸ State.closeGranules_keeps h

theorem State.closeBucket_keeps {s0} {a0 a1 a2 a3 a4} (h : Keeps s0 a0) : Keeps s0 (State.closeBucket a0 a1 a2 a3 a4) := by
  unfold State.closeBucket
  with_reducible repeat' (first | assumption | apply State.closeGranules_keeps | apply State.updBucket_keeps | apply State.updJob_keeps
                                | apply State.bump_keeps
                                | (refine Keeps.mk ?_; first | assumption | apply State.closeGranules_keeps | apply State.updBucket_keeps | apply State.updJob_keeps | apply State.bump_keeps | split)
                                | split)

theorem State.openBucket_keeps {s0} {a0 a1 a2 a3 a4} (h : Keeps s0 a0) : Keeps s0 (State.openBucket a0 a1 a2 a3 a4) := by
  unfold State.openBucket
  with_reducible repeat' (first | assumption | apply State.updBucket_keeps | apply State.bump_keeps | split)

theorem State.mapGranules_keeps {s0} {a0 a1 a2 a3 a4 a5} (h : Keeps s0 a0) : Keeps s0 (State.mapGranules a0 a1 a2 a3 a4 a5) := by
  revert h; fun_induction State.mapGranules <;> intro h <;> with_reducible repeat' (first | assumption | apply State.setGranule_keeps
                                                                                          | apply State.sawGranule_keeps | apply_assumption | split)

theorem State.beginContrib_keeps {s0} {a0 a1 a2 a3 a4} (h : Keeps s0 a0) : Keeps s0 (State.beginContrib a0 a1 a2 a3 a4) := by
  unfold State.beginContrib
  with_reducible repeat' (first | assumption | apply State.mapGranules_keeps | apply State.updBucket_keeps | split)

theorem State.markNonfinite_keeps {s0} {a0 a1 a2 a3 a4 a5} (h : Keeps s0 a0) : Keeps s0 (State.markNonfinite a0 a1 a2 a3 a4 a5) := by
  revert h; fun_induction State.markNonfinite <;> intro h <;> with_reducible repeat' (first | assumption | apply State.setGranule_keeps
                                                                                            | apply State.sawGranule_keeps | apply_assumption | split)

theorem State.creditGranules_keeps {s0} {a0 a1 a2 a3 a4 a5} (h : Keeps s0 a0) : Keeps s0 (State.creditGranules a0 a1 a2 a3 a4 a5) := by
  revert h; fun_induction State.creditGranules <;> intro h <;> with_reducible repeat' (first | assumption | apply State.setGranule_keeps
                                                                                             | apply State.sawGranule_keeps | apply_assumption
                                                                                             | split)

theorem State.credit_keeps {s0} {a0 a1 a2 a3 a4} (h : Keeps s0 a0) : Keeps s0 (State.credit a0 a1 a2 a3 a4) := by
  unfold State.credit
  with_reducible repeat' (first | assumption | apply State.mapGranules_keeps | apply State.creditGranules_keeps | apply State.updBucket_keeps
                                | apply State.closeBucket_keeps
                                | (refine Keeps.mk ?_; first | assumption | apply State.mapGranules_keeps | apply State.creditGranules_keeps | apply State.updBucket_keeps | apply State.closeBucket_keeps | split)
                                | split)

theorem State.addAgain_keeps {s0} {a0 a1 a2 a3} (h : Keeps s0 a0) : Keeps s0 ((State.addAgain a0 a1 a2 a3)).2 := by
  unfold State.addAgain
  with_reducible repeat' (first | assumption | apply State.poke_keeps | apply State.looked_keeps | split)

theorem State.addAgain_keeps2 {s0} {a0 a1 a2 a3} {r} (e : State.addAgain a0 a1 a2 a3 = r) (h : Keeps s0 a0) : Keeps s0 r.2 := e ▸
    State.addAgain_keeps h

theorem State.addAllAgain_keeps {s0} {a0 a1 a2 a3} (h : Keeps s0 a0) : Keeps s0 ((State.addAllAgain a0 a1 a2 a3)).2 := by
  revert h; fun_induction State.addAllAgain <;> intro h <;> with_reducible repeat' (first | assumption | apply State.addAgain_keeps | apply_assumption
                                                                                          | split)

theorem State.addAllAgain_keeps2 {s0} {a0 a1 a2 a3} {r} (e : State.addAllAgain a0 a1 a2 a3 = r)
    (h : Keeps s0 a0) : Keeps s0 r.2 := e ▸ State.addAllAgain_keeps h

theorem State.takeOut_keeps {s0} {a0 a1 a2 a3 a4} (h : Keeps s0 a0) : Keeps s0 (State.takeOut a0 a1 a2 a3 a4) := by
  unfold State.takeOut
  with_reducible repeat' (first | assumption | apply State.poke_keeps | apply State.addAllAgain_keeps | apply State.mapGranules_keeps
                                | apply State.updBucket_keeps | apply State.setWord_keeps
                                | refine State.addAllAgain_keeps2 (r := (_, _)) (by assumption) ?_
                                | (refine Keeps.mk ?_; first | assumption | apply State.poke_keeps | apply State.addAllAgain_keeps | apply State.mapGranules_keeps | apply State.updBucket_keeps | apply State.setWord_keeps | refine State.addAllAgain_keeps2 (r := (_, _)) (by assumption) ?_ | split)
                                | refine Keeps.foldl ?_ ?_ | split | dsimp only | intro s_ x_ h_)

theorem State.note_keeps {s0} {a0 a1 a2} (h : Keeps s0 a0) : Keeps s0 (State.note a0 a1 a2) := by
  unfold State.note
  with_reducible repeat' (first | assumption | apply State.updJob_keeps | split)

theorem State.updChrys_keeps {s0} {a0 a1 a2} (h : Keeps s0 a0) : Keeps s0 (State.updChrys a0 a1 a2) := by
  unfold State.updChrys
  with_reducible repeat' (first | assumption | apply State.updJob_keeps | split)

theorem State.writeRecordHead_keeps {s0} {a0 a1 a2 a3} (h : Keeps s0 a0) : Keeps s0 (State.writeRecordHead a0 a1 a2 a3) := by
  unfold State.writeRecordHead
  with_reducible repeat' (first | assumption | apply State.poke_keeps | apply State.looked_keeps | split)

theorem State.writeGeneration_keeps {s0} {a0 a1 a2 a3} (h : Keeps s0 a0) : Keeps s0 (State.writeGeneration a0 a1 a2 a3) := by
  unfold State.writeGeneration
  with_reducible repeat' (first | assumption | apply State.poke_keeps | split)

theorem State.copyOwn_keeps {s0} {a0 a1 a2 a3 a4} (h : Keeps s0 a0) : Keeps s0 (State.copyOwn a0 a1 a2 a3 a4) := by
  unfold State.copyOwn
  with_reducible repeat' (first | assumption | apply State.poke_keeps | apply State.looked_keeps | split)

theorem State.zeroRecordNorms_keeps {s0} {a0 a1 a2} (h : Keeps s0 a0) : Keeps s0 (State.zeroRecordNorms a0 a1 a2) := by
  unfold State.zeroRecordNorms
  with_reducible repeat' (first | assumption | apply State.poke_keeps | split)

theorem State.clearNorms_keeps {s0} {a0 a1 a2} (h : Keeps s0 a0) : Keeps s0 (State.clearNorms a0 a1 a2) := by
  unfold State.clearNorms
  with_reducible repeat' (first | assumption | apply State.poke_keeps | split)

theorem State.pumpOut_keeps {s0 s j v l} (h : Keeps s0 s) : Keeps s0 (State.pumpOut s j v l).2.2 := by
  induction l generalizing s with
  | nil => exact h
  | cons c cs ih =>
    simp only [State.pumpOut]
    generalize (if v = true then 1 else 16) = ch
    split
    · exact h
    · apply ih
      apply State.sendAll_keeps
      apply State.openXfer_keeps
      exact Keeps.ite (State.looked_keeps h) h

theorem State.pumpOut_keeps2 {s0 s j v l r} (e : State.pumpOut s j v l = r) (h : Keeps s0 s) : Keeps s0 r.2.2 :=
  e ▸ State.pumpOut_keeps h

theorem State.pumpIn_keeps {s0} {a0 a1 a2 a3} (h : Keeps s0 a0) : Keeps s0 ((State.pumpIn a0 a1 a2 a3)).2.2 := by
  revert h; fun_induction State.pumpIn <;> intro h <;> with_reducible repeat' (first | assumption | apply State.openXfer_keeps
                                                                                     | apply State.sendAll_keeps | apply_assumption | split)

theorem State.pumpIn_keeps2 {s0} {a0 a1 a2 a3} {r} (e : State.pumpIn a0 a1 a2 a3 = r) (h : Keeps s0 a0) : Keeps s0 r.2.2 := e ▸ State.pumpIn_keeps h

theorem State.pump_keeps {s0 s j} (h : Keeps s0 s) : Keeps s0 (State.pump s j) := by
  unfold State.pump
  split
  · exact h
  · exact State.updChrys_keeps (State.pumpIn_keeps (State.pumpOut_keeps h))

theorem State.foldIn_keeps {s0} {a0 a1 a2 a3} (h : Keeps s0 a0) : Keeps s0 (State.foldIn a0 a1 a2 a3) := by
  unfold State.foldIn
  with_reducible repeat' (first | assumption | apply State.poke_keeps | (refine Keeps.mk ?_; first | assumption | apply State.poke_keeps | split)
                                | refine Keeps.foldl ?_ ?_ | split | dsimp only | intro s_ x_ h_)

theorem State.reportPrepared_keeps {s0} {a0 a1} (h : Keeps s0 a0) : Keeps s0 (State.reportPrepared a0 a1) := by
  unfold State.reportPrepared
  with_reducible repeat' (first | assumption | apply State.signalTo_keeps | apply State.updChrys_keeps | split)

theorem State.engineDone_keeps {s0} {a0 a1 a2} (h : Keeps s0 a0) : Keeps s0 (State.engineDone a0 a1 a2) := by
  unfold State.engineDone
  with_reducible repeat' (first | assumption | apply State.reportPrepared_keeps | apply State.pump_keeps | apply State.updChrys_keeps | split)

theorem State.copyBlocks_keeps {s0} {a0 a1 a2 a3} (h : Keeps s0 a0) : Keeps s0 (State.copyBlocks a0 a1 a2 a3) := by
  revert h; fun_induction State.copyBlocks <;> intro h <;> with_reducible repeat' (first | assumption | apply State.copyOwn_keeps | apply_assumption
                                                                                         | split)

theorem State.promoteTensors_keeps {s0} {a0 a1 a2 a3} (h : Keeps s0 a0) : Keeps s0 (State.promoteTensors a0 a1 a2 a3) := by
  revert h; fun_induction State.promoteTensors <;> intro h <;> with_reducible repeat' (first | assumption | apply State.copyOwn_keeps
                                                                                             | apply State.copyBlocks_keeps | apply_assumption
                                                                                             | split)

theorem State.promote_keeps {s0} {a0 a1} (h : Keeps s0 a0) : Keeps s0 (State.promote a0 a1) := by
  unfold State.promote
  with_reducible repeat' (first | assumption | apply State.copyOwn_keeps | apply State.promoteTensors_keeps | apply State.bump_keeps
                                | apply State.updChrys_keeps | split)

theorem State.markDue_keeps {s0} {a0 a1 a2} (h : Keeps s0 a0) : Keeps s0 (State.markDue a0 a1 a2) := by
  unfold State.markDue
  with_reducible repeat' (first | assumption | apply State.updChrys_keeps | split)

theorem State.report_keeps {s0} {a0 a1} (h : Keeps s0 a0) : Keeps s0 (State.report a0 a1) := by
  unfold State.report
  with_reducible repeat' (first | assumption | apply State.pump_keeps | apply State.updChrys_keeps
                                | (refine Keeps.mk ?_; first | assumption | apply State.pump_keeps | apply State.updChrys_keeps | split) | split)

theorem State.violation_keeps {s0} {a0 a1 a2 a3 a4} (h : Keeps s0 a0) : Keeps s0 (State.violation a0 a1 a2 a3 a4) := by
  unfold State.violation
  with_reducible repeat' (first | assumption | apply State.bump_keeps | apply State.setPort_keeps | apply State.logEvent_keeps
                                | apply State.record_keeps | split)

theorem State.left_keeps {s0} {a0 a1} (h : Keeps s0 a0) : Keeps s0 (State.left a0 a1) := by
  unfold State.left
  with_reducible repeat' (first | assumption | (refine Keeps.mk ?_; first | assumption | split) | split)

theorem State.sent_keeps {s0} {a0 a1 a2 a3} (h : Keeps s0 a0) : Keeps s0 (State.sent a0 a1 a2 a3) := by
  unfold State.sent
  with_reducible repeat' (first | assumption | apply State.bump_keeps | apply State.across_keeps | apply State.setPort_keeps | apply State.emit_keeps
                                | apply State.drawn_keeps | split)

theorem State.ctrl_keeps {s0} {a0 a1 a2} (h : Keeps s0 a0) : Keeps s0 (State.ctrl a0 a1 a2) := by
  unfold State.ctrl
  with_reducible repeat' (first | assumption | apply State.sent_keeps | apply State.setPort_keeps
                                | (refine Keeps.mk ?_; first | assumption | apply State.sent_keeps | apply State.setPort_keeps | split) | split)

theorem State.linkCtrl_keeps {s0} {a0 a1 a2 a3 a4} (h : Keeps s0 a0) : Keeps s0 (State.linkCtrl a0 a1 a2 a3 a4) := by
  revert h; fun_induction State.linkCtrl <;> intro h <;> with_reducible repeat' (first | assumption | apply State.ctrl_keeps | apply_assumption
                                                                                       | split)

theorem State.setSt_keeps {s0} {a0 a1 a2} (h : Keeps s0 a0) : Keeps s0 (State.setSt a0 a1 a2) := by
  unfold State.setSt
  with_reducible repeat' (first | assumption | apply State.setPort_keeps | apply State.linkCtrl_keeps
                                | (refine Keeps.mk ?_; first | assumption | apply State.setPort_keeps | apply State.linkCtrl_keeps | split) | split)

theorem State.answer_keeps {s0} {a0 a1 a2 a3} (h : Keeps s0 a0) : Keeps s0 (State.answer a0 a1 a2 a3) := by
  unfold State.answer
  with_reducible repeat' (first | assumption | apply State.logEvent_keeps | apply State.sendError_keeps | split)

theorem State.unreachable_keeps {s0} {a0 a1 a2} (h : Keeps s0 a0) : Keeps s0 (State.unreachable a0 a1 a2) := by
  unfold State.unreachable
  with_reducible repeat' (first | assumption | apply State.ownError_keeps | apply State.answer_keeps | split)

theorem State.detourAll_keeps {s0 s p k t fs} (h : Keeps s0 s) : Keeps s0 (State.detourAll s p k t fs) := by
  induction fs generalizing s with
  | nil => exact h
  | cons f fs ih =>
    simp only [State.detourAll]
    apply ih
    split
    · exact h
    · split
      · exact State.setPort_keeps h
      · exact State.unreachable_keeps h

theorem State.downEvent_keeps {s0} {a0} (h : Keeps s0 a0) : Keeps s0 (State.downEvent a0) := by
  unfold State.downEvent
  with_reducible repeat' (first | assumption | apply State.points_keeps | apply State.logEvent_keeps | split)

theorem State.attemptFails_keeps {s0} {a0 a1} (h : Keeps s0 a0) : Keeps s0 (State.attemptFails a0 a1) := by
  unfold State.attemptFails
  with_reducible repeat' (first | assumption | apply State.setPort_keeps | apply State.setSt_keeps | apply State.resetCrossings_keeps | split)

theorem State.hostPortDown_keeps {s0} {a0 a1} (h : Keeps s0 a0) : Keeps s0 (State.hostPortDown a0 a1) := by
  unfold State.hostPortDown
  with_reducible repeat' (first | assumption | apply State.downEvent_keeps | apply State.resetCrossings_keeps | apply State.setPort_keeps
                                | (refine Keeps.mk ?_; first | assumption | apply State.downEvent_keeps | apply State.resetCrossings_keeps | apply State.setPort_keeps | split)
                                | split)

theorem State.linkLost_keeps {s0} {a0 a1 a2} (h : Keeps s0 a0) : Keeps s0 (State.linkLost a0 a1 a2) := by
  unfold State.linkLost
  with_reducible repeat' (first | assumption | apply State.attemptFails_keeps | apply State.resetCrossings_keeps | apply State.setPort_keeps
                                | apply State.setSt_keeps | apply State.downEvent_keeps | apply State.detourAll_keeps
                                | (refine Keeps.mk ?_; first | assumption | apply State.attemptFails_keeps | apply State.resetCrossings_keeps | apply State.setPort_keeps | apply State.setSt_keeps | apply State.downEvent_keeps | apply State.detourAll_keeps | split)
                                | split)

theorem State.police_keeps {s0} {a0 a1} (h : Keeps s0 a0) : Keeps s0 (State.police a0 a1) := by
  unfold State.police
  with_reducible repeat' (first | assumption | apply State.linkLost_keeps | apply State.points_keeps | apply State.logEvent_keeps
                                | apply State.setPort_keeps
                                | (refine Keeps.mk ?_; first | assumption | apply State.linkLost_keeps | apply State.points_keeps | apply State.logEvent_keeps | apply State.setPort_keeps | split)
                                | split)

theorem State.trackOn_keeps {s0} {a0 a1} (h : Keeps s0 a0) : Keeps s0 (State.trackOn a0 a1) := by
  unfold State.trackOn
  with_reducible repeat' (first | assumption | apply State.updJob_keeps | split)

theorem State.enterTally_keeps {s0} {a0 a1 a2} (h : Keeps s0 a0) : Keeps s0 (State.enterTally a0 a1 a2) := by
  unfold State.enterTally
  with_reducible repeat' (first | assumption | (refine Keeps.mk ?_; first | assumption | split) | split)

theorem State.openTally_keeps {s0} {a0 a1} (h : Keeps s0 a0) : Keeps s0 (State.openTally a0 a1) := by
  unfold State.openTally
  with_reducible repeat' (first | assumption | apply State.enterTally_keeps | apply State.setWord_keeps | split)

theorem State.addTally_keeps {s0} {a0 a1 a2} (h : Keeps s0 a0) : Keeps s0 (State.addTally a0 a1 a2) := by
  unfold State.addTally
  with_reducible repeat' (first | assumption | apply State.enterTally_keeps | apply State.openTally_keeps
                                | (refine Keeps.mk ?_; first | assumption | apply State.enterTally_keeps | apply State.openTally_keeps | split)
                                | split)

theorem State.closeTally_keeps {s0} {a0 a1} (h : Keeps s0 a0) : Keeps s0 (State.closeTally a0 a1) := by
  unfold State.closeTally
  with_reducible repeat' (first | assumption | (refine Keeps.mk ?_; first | assumption | split) | split)

theorem State.expireTallies_keeps {s0} {a0} (h : Keeps s0 a0) : Keeps s0 (State.expireTallies a0) := by
  unfold State.expireTallies
  with_reducible repeat' (first | assumption | (refine Keeps.mk ?_; first | assumption | split) | split)

theorem State.forget_keeps {s0} {a0 a1} (h : Keeps s0 a0) : Keeps s0 (State.forget a0 a1) := by
  unfold State.forget
  with_reducible repeat' (first | assumption | apply State.closeTally_keeps | split)

theorem State.failFrame_keeps {s0} {a0 a1 a2 a3} (h : Keeps s0 a0) : Keeps s0 (State.failFrame a0 a1 a2 a3) := by
  unfold State.failFrame
  with_reducible repeat' (first | assumption | apply State.forget_keeps | apply State.addTally_keeps | apply State.answer_keeps
                                | apply State.openTally_keeps | split)

theorem State.replyAll_keeps {s0} {a0 a1} (h : Keeps s0 a0) : Keeps s0 (State.replyAll a0 a1) := by
  revert h; fun_induction State.replyAll <;> intro h <;> with_reducible repeat' (first | assumption | apply State.sendReply_keeps | apply_assumption
                                                                                       | split)

theorem State.applied_keeps {s0} {a0 a1 a2 a3} (h : Keeps s0 a0) : Keeps s0 (State.applied a0 a1 a2 a3) := by
  unfold State.applied
  dsimp only
  with_reducible repeat' (first | assumption | apply State.addTally_keeps | apply State.forget_keeps | apply State.bump_keeps
                                | apply State.replyAll_keeps | apply State.closeTally_keeps | apply State.raiseCount_keeps | apply State.answer_keeps
                                | refine State.raiseCount_keeps2 (r := (_, _)) (by assumption) ?_
                                | (refine Keeps.mk ?_; first | assumption | apply State.addTally_keeps | apply State.forget_keeps | apply State.bump_keeps | apply State.replyAll_keeps | apply State.closeTally_keeps | apply State.raiseCount_keeps | apply State.answer_keeps | refine State.raiseCount_keeps2 (r := (_, _)) (by assumption) ?_ | split)
                                | split | dsimp only)

theorem State.takeFrame_keeps {s0} {a0 a1 a2 a3} (h : Keeps s0 a0) : KeepsP s0 (State.takeFrame a0 a1 a2 a3) := by
  unfold State.takeFrame
  dsimp only
  with_reducible repeat' (first | assumption | apply Keeps.pSome | exact Keeps.pNone | apply State.setPort_keeps
                                | (refine Keeps.mk ?_; first | assumption | exact Keeps.pNone | apply State.setPort_keeps | split) | split
                                | dsimp only)

theorem State.request_keeps {s0 s} {p f act} (h : Keeps s0 s) (ha : ∀ x, Keeps s0 x → Keeps s0 (act x)) : Keeps s0 (State.request s p f act) := by
  unfold State.request
  have h0 := State.expireTallies_keeps h
  dsimp only
  split
  · exact State.failFrame_keeps (State.countXlate_keeps h0)
  · split
    · exact State.bump_keeps h0
    · exact State.police_keeps (State.failFrame_keeps (State.violation_keeps h0))
    · rename_i j _ _
      have h1 := Keeps.ite (c := (decide (f.channel.toNat ≤ 15) && f.offset == 0 && (State.expireTallies s).answered f) = true) (State.closeTally_keeps (a1 := f) h0) h0
      exact Keeps.ite (State.sendError_keeps (State.syncFault_keeps h1)) (ha _ (State.trackOn_keeps h1))

theorem State.writeFrame_keeps {s0} {a0 a1 a2} (h : Keeps s0 a0) : Keeps s0 (State.writeFrame a0 a1 a2) := by
  unfold State.writeFrame
  with_reducible repeat' (first | assumption | apply State.writeMem_keeps | apply State.failFrame_keeps | apply State.applied_keeps
                                | refine State.writeMem_keeps2 (r := (_, _)) (by assumption) ?_
                                | (refine Keeps.mk ?_; first | assumption | apply State.writeMem_keeps | apply State.failFrame_keeps | apply State.applied_keeps | refine State.writeMem_keeps2 (r := (_, _)) (by assumption) ?_ | split)
                                | refine Keeps.foldl ?_ ?_ | split | dsimp only | intro s_ x_ h_)

theorem State.readFor_keeps {s0} {a0 a1} (h : Keeps s0 a0) : Keeps s0 ((State.readFor a0 a1)).2 := by
  unfold State.readFor
  dsimp only
  with_reducible repeat' (first | assumption | apply State.countXlate_keeps | apply State.readMem_keeps
                                | refine State.readMem_keeps2 (r := (_, _)) (by assumption) ?_
                                | (refine Keeps.mk ?_; first | assumption | apply State.countXlate_keeps | apply State.readMem_keeps | refine State.readMem_keeps2 (r := (_, _)) (by assumption) ?_ | split)
                                | split | dsimp only)

theorem State.readFor_keeps2 {s0} {a0 a1} {r} (e : State.readFor a0 a1 = r) (h : Keeps s0 a0) : Keeps s0 r.2 := e ▸ State.readFor_keeps h

theorem State.dropLate_keeps {s0} {a0 a1 a2} (h : Keeps s0 a0) : Keeps s0 (State.dropLate a0 a1 a2) := by
  unfold State.dropLate
  with_reducible repeat' (first | assumption | apply State.applied_keeps | apply State.bump_keeps | split)

theorem State.addFrame_keeps {s0} {a0 a1 a2} (h : Keeps s0 a0) : Keeps s0 ((State.addFrame a0 a1 a2)).2 := by
  unfold State.addFrame
  with_reducible repeat' (first | assumption | apply State.modifyPlaces_keeps | split)

theorem State.addFrame_keeps2 {s0} {a0 a1 a2} {r} (e : State.addFrame a0 a1 a2 = r) (h : Keeps s0 a0) : Keeps s0 r.2 := e ▸ State.addFrame_keeps h

theorem State.contribute_keeps {s0} {a0 a1 a2 a3 a4 a5 a6 a7} (h : Keeps s0 a0) : Keeps s0 (State.contribute a0 a1 a2 a3 a4 a5 a6 a7) := by
  unfold State.contribute
  dsimp only
  with_reducible repeat' (first | assumption | apply State.dropLate_keeps | apply State.failFrame_keeps | apply State.takeOut_keeps
                                | apply State.updBucket_keeps | apply State.beginContrib_keeps | apply State.openBucket_keeps
                                | apply State.addFrame_keeps | apply State.markNonfinite_keeps | apply State.addTally_keeps | apply State.credit_keeps
                                | apply State.applied_keeps | refine State.addFrame_keeps2 (r := (_, _)) (by assumption) ?_
                                | (refine Keeps.mk ?_; first | assumption | apply State.dropLate_keeps | apply State.failFrame_keeps | apply State.takeOut_keeps | apply State.updBucket_keeps | apply State.beginContrib_keeps | apply State.openBucket_keeps | apply State.addFrame_keeps | apply State.markNonfinite_keeps | apply State.addTally_keeps | apply State.credit_keeps | apply State.applied_keeps | refine State.addFrame_keeps2 (r := (_, _)) (by assumption) ?_ | split)
                                | split | dsimp only)

theorem State.accumulateFrame_keeps {s0} {a0 a1 a2} (h : Keeps s0 a0) : Keeps s0 (State.accumulateFrame a0 a1 a2) := by
  unfold State.accumulateFrame
  with_reducible repeat' (first | assumption | apply State.failFrame_keeps | apply State.countXlate_keeps | apply State.contribute_keeps
                                | apply State.addFrame_keeps | apply State.applied_keeps
                                | refine State.addFrame_keeps2 (r := (_, _)) (by assumption) ?_
                                | (refine Keeps.mk ?_; first | assumption | apply State.failFrame_keeps | apply State.countXlate_keeps | apply State.contribute_keeps | apply State.addFrame_keeps | apply State.applied_keeps | refine State.addFrame_keeps2 (r := (_, _)) (by assumption) ?_ | split)
                                | refine Keeps.foldl ?_ ?_ | split | dsimp only | intro s_ x_ h_)

theorem State.atomicFrame_keeps {s0} {a0 a1 a2} (h : Keeps s0 a0) : Keeps s0 (State.atomicFrame a0 a1 a2) := by
  unfold State.atomicFrame
  dsimp only
  with_reducible repeat' (first | assumption | apply State.failFrame_keeps | apply State.countXlate_keeps | apply State.modifyPlaces_keeps
                                | apply State.applied_keeps | refine State.modifyPlaces_keeps2 (r := (_, _)) (by assumption) ?_
                                | (refine Keeps.mk ?_; first | assumption | apply State.failFrame_keeps | apply State.countXlate_keeps | apply State.modifyPlaces_keeps | apply State.applied_keeps | refine State.modifyPlaces_keeps2 (r := (_, _)) (by assumption) ?_ | split)
                                | split | dsimp only)

theorem State.barrierFrameIn_keeps {s0 s} {p f act} (h : Keeps s0 s) (ha : ∀ j k b l x, Keeps s0 x → Keeps s0 (act j k b l x)) : Keeps s0
    (State.barrierFrameIn s p f act) := by
  unfold State.barrierFrameIn
  repeat' (first | with_reducible assumption | with_reducible apply State.failFrame_keeps | with_reducible apply State.syncFault_keeps
                 | with_reducible apply State.applied_keeps | with_reducible apply ha | with_reducible apply Keeps.wOk
                 | with_reducible apply Keeps.wGoto | with_reducible apply Keeps.wHold | with_reducible apply Keeps.wFault
                 | with_reducible apply Keeps.wEnded | with_reducible refine Keeps.foldl ?_ ?_ | (intro s_ x_ h_) | split | dsimp only
                 | (with_reducible refine Keeps.mk ?_ (by rfl) (by rfl) (by rfl) (by rfl); first | with_reducible assumption | with_reducible apply State.failFrame_keeps | with_reducible apply State.syncFault_keeps | with_reducible apply State.applied_keeps | with_reducible apply ha | split))

theorem State.forwardNotice_keeps {s0} {a0 a1 a2 a3 a4 a5} (h : Keeps s0 a0) : Keeps s0 (State.forwardNotice a0 a1 a2 a3 a4 a5) := by
  revert h; fun_induction State.forwardNotice <;> intro h <;> with_reducible repeat' (first | assumption | apply State.originate_keeps
                                                                                            | apply_assumption | split)

theorem State.releaseWord_keeps {s0} {a0 a1 a2} (h : Keeps s0 a0) : Keeps s0 (State.releaseWord a0 a1 a2) := by
  unfold State.releaseWord
  with_reducible repeat' (first | assumption | apply State.updCtx_keeps | split)

theorem State.engineXfer_keeps {s0} {a0 a1 a2} (h : Keeps s0 a0) : Keeps s0 (State.engineXfer a0 a1 a2) := by
  unfold State.engineXfer
  with_reducible repeat' (first | assumption | apply State.engineDone_keeps | apply State.abandon_keeps | apply State.chrEvent_keeps
                                | (refine Keeps.mk ?_; first | assumption | apply State.engineDone_keeps | apply State.abandon_keeps | apply State.chrEvent_keeps | split)
                                | split)

theorem State.endXfer_keeps {s0} {a0 a1 a2} (h : Keeps s0 a0) : Keeps s0 (State.endXfer a0 a1 a2) := by
  unfold State.endXfer
  with_reducible repeat' (first | assumption | apply State.engineXfer_keeps | apply State.releaseWord_keeps | apply State.faultRemote_keeps
                                | apply State.beginWords_keeps
                                | (refine Keeps.mk ?_; first | assumption | apply State.engineXfer_keeps | apply State.releaseWord_keeps | apply State.faultRemote_keeps | apply State.beginWords_keeps | split)
                                | split)

theorem State.strayReply_keeps {s0} {a0 a1 a2} (h : Keeps s0 a0) : Keeps s0 (State.strayReply a0 a1 a2) := by
  unfold State.strayReply
  with_reducible repeat' (first | assumption | apply State.police_keeps | apply State.violation_keeps | split)

theorem State.replyIn_keeps {s0 s} {p f fits act} (h : Keeps s0 s) (ha : ∀ y x, Keeps s0 x → Keeps s0 (act y x)) :
    Keeps s0 (State.replyIn s p f fits act) := by
  unfold State.replyIn
  have go : ∀ past : State → State, Keeps s0 (past s) → Keeps s0 (match s.xfers.find? (replyKey f) with
      | none => s.strayReply p f
      | some x => if fits x then act x (past s) else s.strayReply p f) := by
    intro past hp
    split
    · exact State.strayReply_keeps h
    · exact Keeps.ite (ha _ _ hp) (State.strayReply_keeps h)
  dsimp only
  split
  · exact go (fun s => s) h
  · split
    · exact State.bump_keeps h
    · exact State.police_keeps (State.violation_keeps h)
    · exact go (fun s => s.trackOn f) (State.trackOn_keeps h)

theorem State.writeLocal_keeps {s0} {a0 a1 a2 a3} (h : Keeps s0 a0) : Keeps s0 (State.writeLocal a0 a1 a2 a3) := by
  unfold State.writeLocal
  with_reducible repeat' (first | assumption | apply State.foldIn_keeps | apply State.setTile_keeps | apply State.updCtx_keeps | split)

theorem State.getDone_keeps {s0} {a0 a1} (h : Keeps s0 a0) : Keeps s0 (State.getDone a0 a1) := by
  unfold State.getDone
  with_reducible repeat' (first | assumption | apply State.endXfer_keeps | apply State.raiseCount_keeps
                                | refine State.raiseCount_keeps2 (r := (_, _)) (by assumption) ?_
                                | (refine Keeps.mk ?_; first | assumption | apply State.endXfer_keeps | apply State.raiseCount_keeps | refine State.raiseCount_keeps2 (r := (_, _)) (by assumption) ?_ | split)
                                | refine Keeps.foldl ?_ ?_ | split | dsimp only | intro s_ x_ h_)

theorem State.barrierCut_keeps {s0} {a0 a1 a2} (h : Keeps s0 a0) : Keeps s0 (State.barrierCut a0 a1 a2) := by
  unfold State.barrierCut
  with_reducible repeat' (first | assumption | apply State.barrierFail_keeps | split)

theorem State.predict_keeps {s0} {a0 a1 a2} (h : Keeps s0 a0) : Keeps s0 (State.predict a0 a1 a2) := by
  revert h; fun_induction State.predict <;> intro h <;> with_reducible repeat' (first | assumption | apply State.setTile_keeps | apply_assumption
                                                                                      | split)

theorem State.scaleGrants_keeps {s0} {a0 a1 a2} (h : Keeps s0 a0) : Keeps s0 (State.scaleGrants a0 a1 a2) := by
  revert h; fun_induction State.scaleGrants <;> intro h <;> with_reducible repeat' (first | assumption | apply State.setTile_keeps | apply_assumption
                                                                                          | split)

theorem State.countWindow_keeps {s0} {a0 a1} (h : Keeps s0 a0) : Keeps s0 (State.countWindow a0 a1) := by
  unfold State.countWindow
  with_reducible repeat' (first | assumption | apply State.logEvent_keeps
                                | (refine Keeps.mk ?_; first | assumption | apply State.logEvent_keeps | split) | split)

theorem State.pastWindow_keeps {s0} {a0 a1 a2} (h : Keeps s0 a0) : Keeps s0 (State.pastWindow a0 a1 a2) := by
  unfold State.pastWindow
  with_reducible repeat' (first | assumption | apply State.bump_keeps | (refine Keeps.mk ?_; first | assumption | apply State.bump_keeps | split)
                                | split)

theorem State.setSupply_keeps {s0} {a0 a1 a2} (h : Keeps s0 a0) : Keeps s0 (State.setSupply a0 a1 a2) := by
  unfold State.setSupply
  with_reducible repeat' (first | assumption | (refine Keeps.mk ?_; first | assumption | split) | split)

theorem State.coolTimer_keeps {s0} {a0} (h : Keeps s0 a0) : Keeps s0 (State.coolTimer a0) := by
  unfold State.coolTimer
  repeat' (first | with_reducible assumption | with_reducible apply Keeps.pSome | with_reducible exact Keeps.pNone
                 | with_reducible apply Keeps.outNext | with_reducible apply Keeps.outRef | with_reducible apply Keeps.wOk
                 | with_reducible apply Keeps.wGoto | with_reducible apply Keeps.wHold | with_reducible apply Keeps.wFault
                 | with_reducible apply Keeps.wAccepted | with_reducible apply Keeps.bWait | with_reducible apply Keeps.bGo
                 | with_reducible apply Keeps.bFault | with_reducible apply Keeps.wWait | with_reducible apply Keeps.wEnded
                 | with_reducible refine Keeps.foldl ?_ ?_ | (intro s_ x_ h_) | split | dsimp only
                 | (with_reducible refine Keeps.mk ?_ (by rfl) (by rfl) (by rfl) (by rfl); first | with_reducible assumption | split))

theorem State.zeroFrame_keeps {s0 s} {p} (h : Keeps s0 s) : Keeps s0 (State.zeroFrame s p) := by
  obtain ⟨h1, h2, h3, h4, h5⟩ := h
  exact ⟨h1, h2, fun x => Sp.wf_filter (h3 x) _, h4, h5⟩

theorem State.zeroWindow_keeps {s0} {a0 a1} (h : Keeps s0 a0) : Keeps s0 (State.zeroWindow a0 a1) := by
  unfold State.zeroWindow
  with_reducible repeat' (first | assumption | apply State.setTile_keeps | split)

theorem State.zeroPages_keeps {s0} {a0 a1} (h : Keeps s0 a0) : Keeps s0 (State.zeroPages a0 a1) := by
  revert h; fun_induction State.zeroPages <;> intro h <;> with_reducible repeat' (first | assumption | apply State.zeroWindow_keeps
                                                                                        | apply State.zeroFrame_keeps | apply_assumption | split)

theorem State.seedTiles_keeps {s0} {a0 a1 a2 a3} (h : Keeps s0 a0) : Keeps s0 (State.seedTiles a0 a1 a2 a3) := by
  revert h; fun_induction State.seedTiles <;> intro h <;> with_reducible repeat' (first | assumption | apply State.setTile_keeps | apply_assumption
                                                                                        | split)

theorem State.zeroTensors_keeps {s0} {a0 a1 a2} (h : Keeps s0 a0) : Keeps s0 (State.zeroTensors a0 a1 a2) := by
  revert h; fun_induction State.zeroTensors <;> intro h <;> with_reducible repeat' (first | assumption | apply State.poke_keeps | apply_assumption
                                                                                          | split)

theorem State.zeroSecured_keeps {s0} {a0 a1 a2} (h : Keeps s0 a0) : Keeps s0 (State.zeroSecured a0 a1 a2) := by
  unfold State.zeroSecured
  with_reducible repeat' (first | assumption | apply State.poke_keeps | apply State.zeroTensors_keeps | split)

theorem State.zeroNew_keeps {s0} {a0 a1 a2 a3} (h : Keeps s0 a0) : Keeps s0 (State.zeroNew a0 a1 a2 a3) := by
  unfold State.zeroNew
  with_reducible repeat' (first | assumption | apply State.zeroTensors_keeps | apply State.poke_keeps | split)

theorem State.installBlocks_keeps {s0} {a0 a1 a2 a3} (h : Keeps s0 a0) : Keeps s0 (State.installBlocks a0 a1 a2 a3) := by
  unfold State.installBlocks
  with_reducible repeat' (first | assumption | apply State.updJob_keeps | split)

theorem State.contextFor_keeps {s0} {a0 a1 a2 a3} (h : Keeps s0 a0) : Keeps s0 (State.contextFor a0 a1 a2 a3) := by
  unfold State.contextFor
  with_reducible repeat' (first | assumption | apply State.updJob_keeps | apply State.seedTiles_keeps | apply State.bump_keeps
                                | apply State.zeroPages_keeps
                                | (refine Keeps.mk ?_; first | assumption | apply State.updJob_keeps | apply State.seedTiles_keeps | apply State.bump_keeps | apply State.zeroPages_keeps | split)
                                | split)

theorem State.zeroAccepted_keeps {s0} {a0 a1 a2} (h : Keeps s0 a0) : Keeps s0 (State.zeroAccepted a0 a1 a2) := by
  unfold State.zeroAccepted
  with_reducible repeat' (first | assumption | apply State.zeroSecured_keeps | apply State.updJob_keeps | split)

theorem State.restoreContext_keeps {s0} {a0 a1 a2} (h : Keeps s0 a0) : Keeps s0 (State.restoreContext a0 a1 a2) := by
  unfold State.restoreContext
  with_reducible repeat' (first | assumption | apply State.updJob_keeps | apply State.zeroSecured_keeps | apply State.zeroNew_keeps | split)

theorem State.admitPkg_keeps {s0 s} {p c k i t} (h : Keeps s0 s) : Keeps s0 (State.admitPkg s p c k i t) := by
  unfold State.admitPkg
  have h1 := State.restoreContext_keeps (a1 := p) (a2 := s.shapeFor p) (State.drawn_keeps (State.contextFor_keeps (a1 := p) (a2 := c) (a3 := k) h))
  dsimp only
  apply State.bump_keeps; apply State.bump_keeps; apply State.bump_keeps
  generalize State.restoreContext _ _ _ = z at h1
  generalize s.blocksFor p = b
  cases b with
  | none => exact Keeps.upd h1 rfl rfl rfl rfl rfl
  | some b =>
    refine Keeps.upd (Keeps.ite (c := (s.pkgs.any fun q => q.job == p.head.job && q.kind == 1) = true) (State.zeroAccepted_keeps (a1 := p.head.job) (a2 := b.2.2) h1)
      (State.installBlocks_keeps (a1 := p.head.job) (a2 := p.head.vesper) (a3 := b) (State.zeroAccepted_keeps (a1 := p.head.job) (a2 := b.2.2) h1))) ?_ ?_ ?_ ?_ ?_ <;>
    rfl

theorem State.settleNorms_keeps {s0} {a0 a1} (h : Keeps s0 a0) : Keeps s0 (State.settleNorms a0 a1) := by
  unfold State.settleNorms
  with_reducible repeat' (first | assumption | apply State.updJob_keeps | apply State.copyOwn_keeps | apply State.pump_keeps
                                | apply State.updChrys_keeps
                                | (refine Keeps.mk ?_; first | assumption | apply State.updJob_keeps | apply State.copyOwn_keeps | apply State.pump_keeps | apply State.updChrys_keeps | split)
                                | split)

theorem State.freeSlot_keeps {s0} {a0 a1 a2} (h : Keeps s0 a0) : Keeps s0 (State.freeSlot a0 a1 a2) := by
  unfold State.freeSlot
  with_reducible repeat' (first | assumption | apply State.updJob_keeps | apply State.signalAll_keeps | split)

theorem State.passSlot_keeps {s0} {a0 a1 a2 a3 a4} (h : Keeps s0 a0) : Keeps s0 (State.passSlot a0 a1 a2 a3 a4) := by
  unfold State.passSlot
  with_reducible repeat' (first | assumption | apply State.updJob_keeps | apply State.freeSlot_keeps | split)

theorem State.passSkipped_keeps {s0} {a0 a1 a2 a3} (h : Keeps s0 a0) : Keeps s0 (State.passSkipped a0 a1 a2 a3) := by
  revert h; fun_induction State.passSkipped <;> intro h <;> with_reducible repeat' (first | assumption | apply State.passSlot_keeps | apply_assumption
                                                                                          | split)

theorem State.passSkips_keeps {s0} {a0 a1 a2 a3} (h : Keeps s0 a0) : Keeps s0 (State.passSkips a0 a1 a2 a3) := by
  revert h; fun_induction State.passSkips <;> intro h <;> with_reducible repeat' (first | assumption | apply State.passSkipped_keeps
                                                                                        | apply_assumption | split)

theorem State.settleSkips_keeps {s0} {a0 a1 a2} (h : Keeps s0 a0) : Keeps s0 (State.settleSkips a0 a1 a2) := by
  unfold State.settleSkips
  with_reducible repeat' (first | assumption | apply State.updJob_keeps | apply State.passSkips_keeps | split)

theorem State.beginStep_keeps {s0} {a0 a1} (h : Keeps s0 a0) : Keeps s0 (State.beginStep a0 a1) := by
  unfold State.beginStep
  with_reducible repeat' (first | assumption | apply State.updPkg_keeps | apply State.updJob_keeps | split)

theorem State.firstGrants_keeps {s0} {a0 a1} (h : Keeps s0 a0) : Keeps s0 (State.firstGrants a0 a1) := by
  unfold State.firstGrants
  with_reducible repeat' (first | assumption | apply State.freeSlot_keeps
                                | (refine Keeps.mk ?_; first | assumption | apply State.freeSlot_keeps | split) | refine Keeps.foldl ?_ ?_ | split
                                | dsimp only | intro s_ x_ h_)

theorem State.evalStreams_keeps {s0} {a0 a1 a2} (h : Keeps s0 a0) : Keeps s0 (State.evalStreams a0 a1 a2) := by
  revert h; fun_induction State.evalStreams <;> intro h <;> with_reducible repeat' (first | assumption | apply State.setTile_keeps | apply_assumption
                                                                                          | split)

theorem State.closeAll_keeps {s0} {a0 a1 a2 a3 a4} (h : Keeps s0 a0) : Keeps s0 (State.closeAll a0 a1 a2 a3 a4) := by
  revert h; fun_induction State.closeAll <;> intro h <;> with_reducible repeat' (first | assumption | apply State.closeBucket_keeps | apply_assumption
                                                                                       | split)

theorem State.checkReads_keeps {s0} {a0 a1 a2 a3 a4 a5 a6} (h : Keeps s0 a0) : Keeps s0 (State.checkReads a0 a1 a2 a3 a4 a5 a6) := by
  revert h; fun_induction State.checkReads <;> intro h <;> with_reducible repeat' (first | assumption | apply State.looked_keeps | apply_assumption
                                                                                         | split)

theorem State.mismatchAt_keeps {s0} {a0 a1 a2 a3 a4 a5} (h : Keeps s0 a0) : Keeps s0 (State.mismatchAt a0 a1 a2 a3 a4 a5) := by
  unfold State.mismatchAt
  with_reducible repeat' (first | assumption | apply State.updBucket_keeps | apply State.updJob_keeps | apply State.bump_keeps
                                | apply State.points_keeps | apply State.logEvent_keeps | apply State.setWord_keeps | apply State.abandonAll_keeps
                                | apply State.immediate_keeps | split)

theorem State.countVerdict_keeps {s0} {a0 a1} (h : Keeps s0 a0) : Keeps s0 (State.countVerdict a0 a1) := by
  unfold State.countVerdict
  with_reducible repeat' (first | assumption | apply State.bump_keeps | split)

theorem State.skipLayers_keeps {s0} {a0 a1} (h : Keeps s0 a0) : Keeps s0 (State.skipLayers a0 a1) := by
  unfold State.skipLayers
  with_reducible repeat' (first | assumption | apply State.settleSkips_keeps | apply State.updJob_keeps | split)

theorem State.clearSet_keeps {s0} {a0 a1 a2 a3} (h : Keeps s0 a0) : Keeps s0 (State.clearSet a0 a1 a2 a3) := by
  unfold State.clearSet
  with_reducible repeat' (first | assumption | apply State.updBucket_keeps | apply State.poke_keeps | split)

theorem State.compared_keeps {s0} {a0 a1 a2} (h : Keeps s0 a0) : Keeps s0 (State.compared a0 a1 a2) := by
  revert h; fun_induction State.compared <;> intro h <;> with_reducible repeat' (first | assumption | apply State.looked_keeps | apply_assumption
                                                                                       | split)

theorem State.prepare_keeps {s0} {a0 a1 a2 a3} (h : Keeps s0 a0) : Keeps s0 (State.prepare a0 a1 a2 a3) := by
  unfold State.prepare
  with_reducible repeat' (first | assumption | apply State.bump_keeps | apply State.compared_keeps | apply State.reportPrepared_keeps
                                | apply State.pump_keeps | apply State.updChrys_keeps | split)

theorem State.bitmapReads_keeps {s0} {a0 a1 a2} (h : Keeps s0 a0) : Keeps s0 (State.bitmapReads a0 a1 a2) := by
  revert h; fun_induction State.bitmapReads <;> intro h <;> with_reducible repeat' (first | assumption | apply State.looked_keeps | apply_assumption
                                                                                          | split)

theorem State.copySlots_keeps {s0} {a0 a1 a2 a3} (h : Keeps s0 a0) : Keeps s0 (State.copySlots a0 a1 a2 a3) := by
  revert h; fun_induction State.copySlots <;> intro h <;> with_reducible repeat' (first | assumption | apply State.copyOwn_keeps | apply_assumption
                                                                                        | split)

theorem State.dueAfter_keeps {s0} {a0 a1 a2} (h : Keeps s0 a0) : Keeps s0 (State.dueAfter a0 a1 a2) := by
  unfold State.dueAfter
  with_reducible repeat' (first | assumption | apply State.markDue_keeps | apply State.writeGeneration_keeps
                                | (refine Keeps.mk ?_; first | assumption | apply State.markDue_keeps | apply State.writeGeneration_keeps | split)
                                | split)

theorem State.followScore_keeps {s0} {a0} (h : Keeps s0 a0) : Keeps s0 (State.followScore a0) := by
  unfold State.followScore
  repeat' (first | with_reducible assumption | with_reducible apply Keeps.pSome | with_reducible exact Keeps.pNone
                 | with_reducible apply State.setLevel_keeps | with_reducible apply Keeps.outNext | with_reducible apply Keeps.outRef
                 | with_reducible apply Keeps.wOk | with_reducible apply Keeps.wGoto | with_reducible apply Keeps.wHold
                 | with_reducible apply Keeps.wFault | with_reducible apply Keeps.wAccepted | with_reducible apply Keeps.bWait
                 | with_reducible apply Keeps.bGo | with_reducible apply Keeps.bFault | with_reducible apply Keeps.wWait
                 | with_reducible apply Keeps.wEnded | with_reducible refine Keeps.foldl ?_ ?_ | (intro s_ x_ h_) | split | dsimp only
                 | (with_reducible refine Keeps.mk ?_ (by rfl) (by rfl) (by rfl) (by rfl); first | with_reducible assumption | with_reducible apply State.setLevel_keeps | split))

theorem State.setStage_keeps {s0} {a0 a1 a2} (h : Keeps s0 a0) : Keeps s0 (State.setStage a0 a1 a2) := by
  unfold State.setStage
  with_reducible repeat' (first | assumption | apply State.updPkg_keeps | split)

theorem State.revert_keeps {s0} {a0 a1 a2} (h : Keeps s0 a0) : Keeps s0 (State.revert a0 a1 a2) := by
  revert h; fun_induction State.revert <;> intro h <;> with_reducible repeat' (first | assumption | apply State.copyOwn_keeps | apply_assumption
                                                                                     | split)

theorem State.primeSlots_keeps {s0 s} {r j p g ts} (h : Keeps s0 s) : Keeps s0 (State.primeSlots s r j p g ts) := by
  induction ts generalizing s with
  | nil => exact h
  | cons t ts ih =>
    simp only [State.primeSlots]
    apply ih
    generalize List.replicate t.chunk 0#8 = z
    repeat' (first | exact h | exact State.poke_keeps h | exact State.copyOwn_keeps h | split)

theorem State.refillReads_keeps {s0} {a0 a1 a2 a3 a4} (h : Keeps s0 a0) : Keeps s0 (State.refillReads a0 a1 a2 a3 a4) := by
  unfold State.refillReads
  with_reducible repeat' (first | assumption | apply State.primeSlots_keeps | apply State.looked_keeps | apply State.pump_keeps
                                | apply State.setStage_keeps | apply State.updChrys_keeps | split)

theorem State.recordLosses_keeps {s0} {a0 a1 a2 a3} (h : Keeps s0 a0) : Keeps s0 (State.recordLosses a0 a1 a2 a3) := by
  revert h; fun_induction State.recordLosses <;> intro h <;> with_reducible repeat' (first | assumption | apply State.chrEvent_keeps
                                                                                           | apply_assumption | split)

theorem State.loadStreams_keeps {s0} {a0 a1 a2 a3} (h : Keeps s0 a0) : Keeps s0 (State.loadStreams a0 a1 a2 a3) := by
  revert h; fun_induction State.loadStreams <;> intro h <;> with_reducible repeat' (first | assumption | apply State.setTile_keeps | apply_assumption
                                                                                          | split)

theorem State.clearSets_keeps {s0} {a0 a1 a2} (h : Keeps s0 a0) : Keeps s0 (State.clearSets a0 a1 a2) := by
  revert h; fun_induction State.clearSets <;> intro h <;> with_reducible repeat' (first | assumption | apply State.clearSet_keeps | apply_assumption
                                                                                        | split)

theorem State.loadRecord_keeps {s0} {a0 a1 a2} (h : Keeps s0 a0) : Keeps s0 (State.loadRecord a0 a1 a2) := by
  unfold State.loadRecord
  with_reducible repeat' (first | assumption | apply State.poke_keeps | apply State.loadStreams_keeps | apply State.looked_keeps
                                | apply State.clearSets_keeps | apply State.updJob_keeps | split)

theorem State.restoreEnds_keeps {s0} {a0 a1} (h : Keeps s0 a0) : Keeps s0 (State.restoreEnds a0 a1) := by
  unfold State.restoreEnds
  with_reducible repeat' (first | assumption | apply State.removePkg_keeps | apply State.bump_keeps | apply State.originate_keeps | split)

theorem State.imagoBody_keeps {s0 s j o xs} (h : Keeps s0 s) : Keeps s0 (State.imagoBody s j o xs).2 := by
  induction xs generalizing s with
  | nil => exact h
  | cons x xs ih => exact ih (State.looked_keeps (Keeps.cond (State.drawn_keeps h) h))

theorem State.imagoBody_keeps2 {s0 s j o xs r} (e : State.imagoBody s j o xs = r) (h : Keeps s0 s) : Keeps s0 r.2 :=
  e ▸ State.imagoBody_keeps h

theorem State.imagoMessages_keeps {s0} {a0 a1 a2 a3} (h : Keeps s0 a0) : Keeps s0 ((State.imagoMessages a0 a1 a2 a3)).2 := by
  unfold State.imagoMessages
  with_reducible repeat' (first | assumption | apply State.imagoBody_keeps | apply State.looked_keeps | apply State.drawn_keeps | split)

theorem State.imagoMessages_keeps2 {s0} {a0 a1 a2 a3} {r} (e : State.imagoMessages a0 a1 a2 a3 = r)
    (h : Keeps s0 a0) : Keeps s0 r.2 := e ▸ State.imagoMessages_keeps h

theorem State.sendMsgs_keeps {s0} {a0 a1 a2} (h : Keeps s0 a0) : Keeps s0 (State.sendMsgs a0 a1 a2) := by
  revert h; fun_induction State.sendMsgs <;> intro h <;> with_reducible repeat' (first | assumption | apply State.sendMsg_keeps | apply_assumption
                                                                                       | split)

theorem State.snapshot_keeps {s0} {a0 a1 a2 a3} (h : Keeps s0 a0) : Keeps s0 (State.snapshot a0 a1 a2 a3) := by
  unfold State.snapshot
  with_reducible repeat' (first | assumption | apply State.imagoMessages_keeps | apply State.sendMsgs_keeps
                                | (refine Keeps.mk ?_; first | assumption | apply State.imagoMessages_keeps | apply State.sendMsgs_keeps | split)
                                | split)

theorem State.returnStreams_keeps {s0} {a0 a1} (h : Keeps s0 a0) : Keeps s0 (State.returnStreams a0 a1) := by
  revert h; fun_induction State.returnStreams <;> intro h <;> with_reducible repeat' (first | assumption | apply State.setTile_keeps
                                                                                            | apply_assumption | split)

theorem State.closeWindow_keeps {s0} {a0 a1} (h : Keeps s0 a0) : Keeps s0 (State.closeWindow a0 a1) := by
  unfold State.closeWindow
  with_reducible repeat' (first | assumption | apply State.returnStreams_keeps | apply State.bump_keeps
                                | (refine Keeps.mk ?_; first | assumption | apply State.returnStreams_keeps | apply State.bump_keeps | split) | split)

theorem State.closeWindows_keeps {s0} {a0 a1} (h : Keeps s0 a0) : Keeps s0 (State.closeWindows a0 a1) := by
  revert h; fun_induction State.closeWindows <;> intro h <;> with_reducible repeat' (first | assumption | apply State.closeWindow_keeps
                                                                                           | apply_assumption | split)

theorem State.noteWindow_keeps {s0} {a0 a1} (h : Keeps s0 a0) : Keeps s0 (State.noteWindow a0 a1) := by
  unfold State.noteWindow
  with_reducible repeat' (first | assumption | apply State.updChrys_keeps | split)

theorem State.openWindow_keeps {s0} {a0 a1 a2 a3} (h : Keeps s0 a0) : Keeps s0 (State.openWindow a0 a1 a2 a3) := by
  unfold State.openWindow
  with_reducible repeat' (first | assumption | apply State.noteWindow_keeps | apply State.snapshot_keeps | apply State.closeWindow_keeps
                                | (refine Keeps.mk ?_; first | assumption | apply State.noteWindow_keeps | apply State.snapshot_keeps | apply State.closeWindow_keeps | split)
                                | split)

theorem State.abortImago_keeps {s0} {a0 a1} (h : Keeps s0 a0) : Keeps s0 (State.abortImago a0 a1) := by
  unfold State.abortImago
  with_reducible repeat' (first | assumption | apply State.chrEvent_keeps | apply State.closeWindow_keeps
                                | (refine Keeps.mk ?_; first | assumption | apply State.chrEvent_keeps | apply State.closeWindow_keeps | split)
                                | split)

theorem State.logScan_keeps {s0} {a0} (h : Keeps s0 a0) : Keeps s0 (State.logScan a0) := by
  unfold State.logScan
  with_reducible repeat' (first | assumption | apply State.bump_keeps | (refine Keeps.mk ?_; first | assumption | apply State.bump_keeps | split)
                                | split)

theorem State.beginSector_keeps {s0} {a0 a1} (h : Keeps s0 a0) : Keeps s0 (State.beginSector a0 a1) := by
  unfold State.beginSector
  with_reducible repeat' (first | assumption | (refine Keeps.mk ?_; first | assumption | split) | split)

theorem State.roomForRecord_keeps {s0} {a0} (h : Keeps s0 a0) : Keeps s0 (State.roomForRecord a0) := by
  unfold State.roomForRecord
  with_reducible repeat' (first | assumption | apply State.beginSector_keeps | split)

theorem State.setWords_keeps {s0} {a0 a1 a2} (h : Keeps s0 a0) : Keeps s0 (State.setWords a0 a1 a2) := by
  revert h; fun_induction State.setWords <;> intro h <;> with_reducible repeat' (first | assumption | apply State.setWord_keeps | apply_assumption
                                                                                       | split)

theorem State.flashPass_keeps {s0} {a0 a1} (h : Keeps s0 a0) : Keeps s0 (State.flashPass a0 a1) := by
  unfold State.flashPass
  with_reducible repeat' (first | assumption | apply State.restartAt_keeps | split)

theorem State.logOut_keeps {s0} {a0 a1} (h : Keeps s0 a0) : Keeps s0 (State.logOut a0 a1) := by
  unfold State.logOut
  with_reducible repeat' (first | assumption | apply State.roomForRecord_keeps | apply State.setWords_keeps | apply State.flashPass_keeps
                                | (refine Keeps.mk ?_; first | assumption | apply State.roomForRecord_keeps | apply State.setWords_keeps | apply State.flashPass_keeps | split)
                                | split)

theorem State.replayShow_keeps {s0} {a0 a1} (h : Keeps s0 a0) : Keeps s0 (State.replayShow a0 a1) := by
  unfold State.replayShow
  with_reducible repeat' (first | assumption | apply State.setWords_keeps
                                | (refine Keeps.mk ?_; first | assumption | apply State.setWords_keeps | split) | split)

theorem State.replayStart_keeps {s0} {a0} (h : Keeps s0 a0) : Keeps s0 (State.replayStart a0) := by
  unfold State.replayStart
  with_reducible repeat' (first | assumption | apply State.replayShow_keeps | split)

theorem State.replayEnd_keeps {s0} {a0} (h : Keeps s0 a0) : Keeps s0 (State.replayEnd a0) := by
  unfold State.replayEnd
  with_reducible repeat' (first | assumption | apply State.setWords_keeps
                                | (refine Keeps.mk ?_; first | assumption | apply State.setWords_keeps | split) | split)

theorem State.noteBind_keeps {s0} {a0} (h : Keeps s0 a0) : Keeps s0 (State.noteBind a0) := by
  unfold State.noteBind
  with_reducible repeat' (first | assumption | (refine Keeps.mk ?_; first | assumption | split) | split)

theorem State.m5Event_keeps {s0} {a0 a1} (h : Keeps s0 a0) : Keeps s0 (State.m5Event a0 a1) := by
  unfold State.m5Event
  with_reducible repeat' (first | assumption | (refine Keeps.mk ?_; first | assumption | split) | split)

theorem State.endUnlock_keeps {s0} {a0 a1} (h : Keeps s0 a0) : Keeps s0 (State.endUnlock a0 a1) := by
  unfold State.endUnlock
  with_reducible repeat' (first | assumption | apply State.m5Event_keeps | apply State.updConn_keeps | apply State.replayEnd_keeps
                                | (refine Keeps.mk ?_; first | assumption | apply State.m5Event_keeps | apply State.updConn_keeps | apply State.replayEnd_keeps | split)
                                | split)

theorem State.answerAll_keeps {s0} {a0 a1 a2 a3} (h : Keeps s0 a0) : Keeps s0 (State.answerAll a0 a1 a2 a3) := by
  revert h; fun_induction State.answerAll <;> intro h <;> with_reducible repeat' (first | assumption | apply State.errorReply_keeps | apply_assumption
                                                                                        | split)

theorem State.stageEnd_keeps {s0} {a0 a1 a2} (h : Keeps s0 a0) : Keeps s0 (State.stageEnd a0 a1 a2) := by
  unfold State.stageEnd
  with_reducible repeat' (first | assumption | apply State.answerAll_keeps | apply State.logEvent_keeps
                                | (refine Keeps.mk ?_; first | assumption | apply State.answerAll_keeps | apply State.logEvent_keeps | split) | split)

theorem State.stageAbort_keeps {s0} {a0 a1} (h : Keeps s0 a0) : Keeps s0 (State.stageAbort a0 a1) := by
  unfold State.stageAbort
  with_reducible repeat' (first | assumption | apply State.stageEnd_keeps | split)

theorem State.requeue_keeps {s0} {a0 a1 a2} (h : Keeps s0 a0) : Keeps s0 (State.requeue a0 a1 a2) := by
  revert h; fun_induction State.requeue <;> intro h <;> with_reducible repeat' (first | assumption | apply State.enq_keeps | apply_assumption | split)

theorem State.endImago_keeps {s0} {a0 a1} (h : Keeps s0 a0) : Keeps s0 (State.endImago a0 a1) := by
  unfold State.endImago
  with_reducible repeat' (first | assumption | apply State.bump_keeps | apply State.closeWindow_keeps | apply State.abortImago_keeps
                                | (refine Keeps.mk ?_; first | assumption | apply State.bump_keeps | apply State.closeWindow_keeps | apply State.abortImago_keeps | split)
                                | split)

theorem State.endEach_keeps {s0} {a0 a1} (h : Keeps s0 a0) : Keeps s0 (State.endEach a0 a1) := by
  revert h; fun_induction State.endEach <;> intro h <;> with_reducible repeat' (first | assumption | apply State.endImago_keeps | apply_assumption
                                                                                      | split)

theorem State.endImagos_keeps {s0} {a0 a1} (h : Keeps s0 a0) : Keeps s0 (State.endImagos a0 a1) := by
  unfold State.endImagos
  with_reducible repeat' (first | assumption | apply State.endEach_keeps
                                | (refine Keeps.mk ?_; first | assumption | apply State.endEach_keeps | split) | split)

theorem State.closed_keeps {s0} {a0 a1} (h : Keeps s0 a0) : Keeps s0 (State.closed a0 a1) := by
  unfold State.closed
  with_reducible repeat' (first | assumption | apply State.requeue_keeps | apply State.stageAbort_keeps | apply State.endImagos_keeps
                                | apply State.endUnlock_keeps
                                | (refine Keeps.mk ?_; first | assumption | apply State.requeue_keeps | apply State.stageAbort_keeps | apply State.endImagos_keeps | apply State.endUnlock_keeps | split)
                                | split)

theorem State.closeAllConns_keeps {s0} {a0 a1} (h : Keeps s0 a0) : Keeps s0 (State.closeAllConns a0 a1) := by
  revert h; fun_induction State.closeAllConns <;> intro h <;> with_reducible repeat' (first | assumption | apply State.closed_keeps | apply_assumption
                                                                                            | split)

theorem State.connFailed_keeps {s0} {a0 a1} (h : Keeps s0 a0) : Keeps s0 (State.connFailed a0 a1) := by
  unfold State.connFailed
  with_reducible repeat' (first | assumption | apply State.closed_keeps | apply State.hostFault_keeps | split)

theorem State.closeIfDone_keeps {s0} {a0 a1} (h : Keeps s0 a0) : Keeps s0 (State.closeIfDone a0 a1) := by
  unfold State.closeIfDone
  with_reducible repeat' (first | assumption | apply State.closed_keeps | split)

theorem State.hostViolation_keeps {s0} {a0 a1 a2} (h : Keeps s0 a0) : Keeps s0 (State.hostViolation a0 a1 a2) := by
  unfold State.hostViolation
  dsimp only
  with_reducible repeat' (first | assumption | apply State.hostFault_keeps | apply State.closeAllConns_keeps | apply State.bump_keeps
                                | (refine Keeps.mk ?_; first | assumption | apply State.hostFault_keeps | apply State.closeAllConns_keeps | apply State.bump_keeps | split)
                                | split | dsimp only)

theorem State.ackSignals_keeps {s0} {a0 a1 a2} (h : Keeps s0 a0) : Keeps s0 (State.ackSignals a0 a1 a2) := by
  revert h; fun_induction State.ackSignals <;> intro h <;> with_reducible repeat' (first | assumption | apply State.markSent_keeps | apply_assumption
                                                                                         | split)

theorem State.takeAck_keeps {s0} {a0 a1 a2 a3} (h : Keeps s0 a0) : Keeps s0 (State.takeAck a0 a1 a2 a3) := by
  unfold State.takeAck
  with_reducible repeat' (first | assumption | apply State.updConn_keeps | apply State.closeIfDone_keeps | apply State.flush_keeps
                                | apply State.ackSignals_keeps | split)

theorem State.sendQueued_keeps {s0} {a0 a1 a2} (h : Keeps s0 a0) : Keeps s0 (State.sendQueued a0 a1 a2) := by
  revert h; fun_induction State.sendQueued <;> intro h <;> with_reducible repeat' (first | assumption | apply State.sendMsg_keeps
                                                                                         | apply State.markSent_keeps | apply_assumption | split)

theorem State.openPending_keeps {s0} {a0 a1} (h : Keeps s0 a0) : Keeps s0 (State.openPending a0 a1) := by
  unfold State.openPending
  with_reducible repeat' (first | assumption | apply State.sendQueued_keeps | apply State.updConn_keeps
                                | (refine Keeps.mk ?_; first | assumption | apply State.sendQueued_keeps | apply State.updConn_keeps | split) | split)

theorem State.outcome_keeps {s0} {a0 a1 a2 a3} (h : Keeps s0 a0) : Keeps s0 (State.outcome a0 a1 a2 a3) := by
  unfold State.outcome
  with_reducible repeat' (first | assumption | apply State.sendMsg_keeps | apply State.errorReply_keeps | split)

theorem State.connFault_keeps {s0} {a0 a1 a2 a3} (h : Keeps s0 a0) : Keeps s0 (State.connFault a0 a1 a2 a3) := by
  unfold State.connFault
  with_reducible repeat' (first | assumption | apply State.hostFault_keeps | split)

theorem State.sessionFault_keeps {s0} {a0 a1 a2} (h : Keeps s0 a0) : Keeps s0 (State.sessionFault a0 a1 a2) := by
  unfold State.sessionFault
  with_reducible repeat' (first | assumption | apply State.secFault_keeps | split)

theorem State.noteCode_keeps {s0} {a0 a1 a2 a3 a4} (h : Keeps s0 a0) : Keeps s0 (State.noteCode a0 a1 a2 a3 a4) := by
  unfold State.noteCode
  with_reducible repeat' (first | assumption | apply State.connFault_keeps | apply State.sessionFault_keeps | apply State.chrEvent_keeps
                                | apply State.logAs_keeps | split)

theorem State.hostPut_keeps {s0} {a0 a1 a2 a3} (h : Keeps s0 a0) : Keeps s0 ((State.hostPut a0 a1 a2 a3)).2 := by
  unfold State.hostPut
  with_reducible repeat' (first | assumption | apply State.writeMem_keeps | split)

theorem State.hostPut_keeps2 {s0} {a0 a1 a2 a3} {r} (e : State.hostPut a0 a1 a2 a3 = r) (h : Keeps s0 a0) : Keeps s0 r.2 := e ▸ State.hostPut_keeps h

theorem State.getPieces_keeps {s0} {a0 a1 a2 a3 a4 a5 a6 a7} (h : Keeps s0 a0) : Keeps s0 (State.getPieces a0 a1 a2 a3 a4 a5 a6 a7) := by
  revert h; fun_induction State.getPieces <;> intro h <;> with_reducible repeat' (first | assumption | apply State.readMem_keeps
                                                                                        | apply State.sendMsg_keeps | apply State.noteCode_keeps
                                                                                        | apply_assumption | split)

theorem State.hostGet_keeps {s0} {a0 a1 a2 a3 a4 a5} (h : Keeps s0 a0) : Keeps s0 (State.hostGet a0 a1 a2 a3 a4 a5) := by
  unfold State.hostGet
  with_reducible repeat' (first | assumption | apply State.sendMsg_keeps | apply State.connFault_keeps | apply State.noteCode_keeps
                                | apply State.bump_keeps | apply State.sessionFault_keeps | apply State.getPieces_keeps | split)

theorem State.inboxSignal_keeps {s0 s} {j n p} (h : Keeps s0 s) : Keeps s0 (State.inboxSignal s j n p) := by
  unfold State.inboxSignal
  cases s.job? j with
  | none => exact h
  | some q =>
    dsimp only [cond]
    repeat' (first | with_reducible exact h | with_reducible apply State.bump_keeps | with_reducible apply State.wakeAll_keeps
                   | with_reducible apply State.updJob_keeps | split)

theorem State.hostSignal_keeps {s0} {a0 a1 a2 a3 a4} (h : Keeps s0 a0) : Keeps s0 ((State.hostSignal a0 a1 a2 a3 a4)).2 := by
  unfold State.hostSignal
  dsimp only
  with_reducible repeat' (first | assumption | apply State.bump_keeps | apply State.inboxSignal_keeps | apply State.raiseCount_keeps
                                | refine State.raiseCount_keeps2 (r := (_, _)) (by assumption) ?_
                                | (refine Keeps.mk ?_; first | assumption | apply State.bump_keeps | apply State.inboxSignal_keeps | apply State.raiseCount_keeps | refine State.raiseCount_keeps2 (r := (_, _)) (by assumption) ?_ | split)
                                | split | dsimp only)

theorem State.hostSignal_keeps2 {s0} {a0 a1 a2 a3 a4} {r} (e : State.hostSignal a0 a1 a2 a3 a4 = r)
    (h : Keeps s0 a0) : Keeps s0 r.2 := e ▸ State.hostSignal_keeps h

theorem State.statusData_keeps {s0} {a0 a1 a2 a3 a4} (h : Keeps s0 a0) : Keeps s0 (State.statusData a0 a1 a2 a3 a4) := by
  unfold State.statusData
  with_reducible repeat' (first | assumption | apply State.sendMsg_keeps | split)

theorem State.noteDecline_keeps {s0} {a0 a1 a2 a3} (h : Keeps s0 a0) : Keeps s0 (State.noteDecline a0 a1 a2 a3) := by
  unfold State.noteDecline
  with_reducible repeat' (first | assumption | apply State.logAs_keeps | apply State.noteCode_keeps | split)

theorem State.declined_keeps {s0} {a0 a1 a2 a3 a4 a5 a6} (h : Keeps s0 a0) : Keeps s0 (State.declined a0 a1 a2 a3 a4 a5 a6) := by
  unfold State.declined
  with_reducible repeat' (first | assumption | apply State.bump_keeps | apply State.sendMsg_keeps | split)

theorem State.decline_keeps {s0} {a0 a1 a2 a3 a4 a5 a6} (h : Keeps s0 a0) : Keeps s0 (State.decline a0 a1 a2 a3 a4 a5 a6) := by
  unfold State.decline
  with_reducible repeat' (first | assumption | apply State.declined_keeps | apply State.noteDecline_keeps | split)

theorem State.declinePkg_keeps {s0 s i r p q c t} (h : Keeps s0 s) : Keeps s0 (State.declinePkg s i r p q c t) := by
  unfold State.declinePkg
  split
  · exact State.declined_keeps (State.syncFault_keeps (Keeps.cond (State.drawn_keeps h) h))
  · exact State.decline_keeps h

theorem State.submitDone_keeps {s0} {a0 a1 a2 a3 a4 a5 a6} (h : Keeps s0 a0) : Keeps s0 (State.submitDone a0 a1 a2 a3 a4 a5 a6) := by
  unfold State.submitDone
  with_reducible repeat' (first | assumption | apply State.decline_keeps | apply State.declinePkg_keeps | apply State.sendMsg_keeps
                                | apply State.admitPkg_keeps | split)

theorem State.submitFragment_keeps {s0} {a0 a1 a2 a3 a4 a5 a6} (h : Keeps s0 a0) : Keeps s0 (State.submitFragment a0 a1 a2 a3 a4 a5 a6) := by
  unfold State.submitFragment
  with_reducible repeat' (first | assumption | apply State.decline_keeps | apply State.submitDone_keeps
                                | (refine Keeps.mk ?_; first | assumption | apply State.decline_keeps | apply State.submitDone_keeps | split) | split)

theorem State.hostAbandon_keeps {s0} {a0 a1 a2 a3 a4} (h : Keeps s0 a0) : Keeps s0 (State.hostAbandon a0 a1 a2 a3 a4) := by
  unfold State.hostAbandon
  with_reducible repeat' (first | assumption | apply State.sendMsg_keeps | apply State.abandon_keeps | apply State.connFault_keeps | split)

theorem State.attest_keeps {s0} {a0 a1 a2 a3 a4} (h : Keeps s0 a0) : Keeps s0 (State.attest a0 a1 a2 a3 a4) := by
  unfold State.attest
  with_reducible repeat' (first | assumption | apply State.sendMsg_keeps | apply State.bump_keeps | apply State.updConn_keeps
                                | apply State.drawn_keeps | split)

theorem State.vaultRead_keeps {s0} {a0 a1 a2 a3} (h : Keeps s0 a0) : Keeps s0 ((State.vaultRead a0 a1 a2 a3)).2 := by
  unfold State.vaultRead
  with_reducible repeat' (first | assumption | apply State.readPlaces_keeps | split)

theorem State.vaultRead_keeps2 {s0} {a0 a1 a2 a3} {r} (e : State.vaultRead a0 a1 a2 a3 = r)
    (h : Keeps s0 a0) : Keeps s0 r.2 := e ▸ State.vaultRead_keeps h

theorem State.unsealChunk_keeps {s0 s} {j key x c} (h : Keeps s0 s) : Keeps s0 (State.unsealChunk s j key x c).2 := by
  unfold State.unsealChunk
  cases s.job? j with
  | none => exact h
  | some q =>
    dsimp only
    generalize x.1.toNat + 1048576 * c = at1
    generalize min 1048576 (x.2.1 - 1048576 * c) = n
    have h1 := State.vaultRead_keeps (a1 := q) (a2 := at1) (a3 := n) h
    have h2 := State.vaultRead_keeps (a1 := q) (a2 := x.2.2.2.toNat + 16 * c) (a3 := 16) h1
    generalize s.vaultRead q at1 n = r1 at *
    generalize State.vaultRead _ q (x.2.2.2.toNat + 16 * c) 16 = r2 at *
    rcases r1 with ⟨_ | _, _⟩ <;> rcases r2 with ⟨_ | _, _⟩ <;> dsimp only at * <;> try assumption
    split
    · exact h2
    · exact State.bump_keeps (State.poke_keeps h2)

theorem State.unsealFrom_keeps {s0 s} {j key x cs} (h : Keeps s0 s) : Keeps s0 (State.unsealFrom s j key x cs).2 := by
  induction cs generalizing s with
  | nil => exact h
  | cons c cs ih =>
    simp only [State.unsealFrom]
    split
    · exact ih (State.unsealChunk_keeps h)
    · exact State.unsealChunk_keeps h

theorem State.unsealAll_keeps {s0 s} {j key xs} (h : Keeps s0 s) : Keeps s0 (State.unsealAll s j key xs).2 := by
  induction xs generalizing s with
  | nil => exact h
  | cons x xs ih =>
    simp only [State.unsealAll]
    split
    · exact ih (State.unsealFrom_keeps h)
    · exact State.unsealFrom_keeps h

theorem State.beginUnseal_keeps {s0} {a0 a1 a2 a3 a4 a5} (h : Keeps s0 a0) : Keeps s0 (State.beginUnseal a0 a1 a2 a3 a4 a5) := by
  unfold State.beginUnseal
  with_reducible repeat' (first | assumption | apply State.bump_keeps | apply State.sendMsg_keeps
                                | (refine Keeps.mk ?_; first | assumption | apply State.bump_keeps | apply State.sendMsg_keeps | split) | split)

theorem State.keyRefused_keeps {s0} {a0 a1 a2 a3} (h : Keeps s0 a0) : Keeps s0 (State.keyRefused a0 a1 a2 a3) := by
  unfold State.keyRefused
  with_reducible repeat' (first | assumption | apply State.errorReply_keeps | apply State.noteCode_keeps | split)

theorem State.weightKey_keeps {s0} {a0 a1 a2 a3 a4 a5} (h : Keeps s0 a0) : Keeps s0 (State.weightKey a0 a1 a2 a3 a4 a5) := by
  unfold State.weightKey
  with_reducible repeat' (first | assumption | apply State.keyRefused_keeps | apply State.beginUnseal_keeps | apply State.updJob_keeps
                                | (refine Keeps.mk ?_; first | assumption | apply State.keyRefused_keeps | apply State.beginUnseal_keeps | apply State.updJob_keeps | split)
                                | split)

theorem State.unseal_keeps {s0} {a0 a1 a2 a3 a4 a5} (h : Keeps s0 a0) : Keeps s0 (State.unseal a0 a1 a2 a3 a4 a5) := by
  unfold State.unseal
  with_reducible repeat' (first | assumption | apply State.keyRefused_keeps | apply State.beginUnseal_keeps | split)

theorem State.endUnlocks_keeps {s0} {a0 a1} (h : Keeps s0 a0) : Keeps s0 (State.endUnlocks a0 a1) := by
  revert h; fun_induction State.endUnlocks <;> intro h <;> with_reducible repeat' (first | assumption | apply State.endUnlock_keeps | apply_assumption
                                                                                         | split)

theorem State.bind_keeps {s0} {a0 a1 a2} (h : Keeps s0 a0) : Keeps s0 (State.bind a0 a1 a2) := by
  unfold State.bind
  with_reducible repeat' (first | assumption | apply State.m5Event_keeps | apply State.bump_keeps | apply State.endUnlocks_keeps
                                | apply State.noteBind_keeps
                                | (refine Keeps.mk ?_; first | assumption | apply State.m5Event_keeps | apply State.bump_keeps | apply State.endUnlocks_keeps | apply State.noteBind_keeps | split)
                                | split)

theorem State.unbind_keeps {s0} {a0} (h : Keeps s0 a0) : Keeps s0 (State.unbind a0) := by
  unfold State.unbind
  with_reducible repeat' (first | assumption | apply State.m5Event_keeps | apply State.bump_keeps | apply State.endUnlocks_keeps
                                | apply State.noteBind_keeps
                                | (refine Keeps.mk ?_; first | assumption | apply State.m5Event_keeps | apply State.bump_keeps | apply State.endUnlocks_keeps | apply State.noteBind_keeps | split)
                                | split)

theorem State.releasePkgs_keeps {s0} {a0 a1 a2} (h : Keeps s0 a0) : Keeps s0 (State.releasePkgs a0 a1 a2) := by
  revert h; fun_induction State.releasePkgs <;> intro h <;> with_reducible repeat' (first | assumption | apply State.abandon_keeps
                                                                                          | apply State.sessionFault_keeps | apply_assumption | split)

theorem State.release_keeps {s0} {a0 a1} (h : Keeps s0 a0) : Keeps s0 (State.release a0 a1) := by
  unfold State.release
  with_reducible repeat' (first | assumption | apply State.releasePkgs_keeps | apply State.closeWindows_keeps | apply State.wakeAll_keeps
                                | apply State.closeAllConns_keeps
                                | (refine Keeps.mk ?_; first | assumption | apply State.releasePkgs_keeps | apply State.closeWindows_keeps | apply State.wakeAll_keeps | apply State.closeAllConns_keeps | split)
                                | split)

theorem State.beginZeroing_keeps {s0} {a0 a1 a2 a3 a4} (h : Keeps s0 a0) : Keeps s0 (State.beginZeroing a0 a1 a2 a3 a4) := by
  unfold State.beginZeroing
  with_reducible repeat' (first | assumption | (refine Keeps.mk ?_; first | assumption | split) | split)

theorem State.tenantGrant_keeps {s0} {a0 a1 a2 a3 a4 a5} (h : Keeps s0 a0) : Keeps s0 (State.tenantGrant a0 a1 a2 a3 a4 a5) := by
  unfold State.tenantGrant
  with_reducible repeat' (first | assumption | apply State.sendMsg_keeps | apply State.bump_keeps | apply State.keyRefused_keeps
                                | apply State.bind_keeps | apply State.beginZeroing_keeps | apply State.release_keeps
                                | apply State.closeAllConns_keeps
                                | (refine Keeps.mk ?_; first | assumption | apply State.sendMsg_keeps | apply State.bump_keeps | apply State.keyRefused_keeps | apply State.bind_keeps | apply State.beginZeroing_keeps | apply State.release_keeps | apply State.closeAllConns_keeps | split)
                                | split)

theorem State.zeroTiles_keeps {s0} {a0 a1} (h : Keeps s0 a0) : Keeps s0 (State.zeroTiles a0 a1) := by
  revert h; fun_induction State.zeroTiles <;> intro h <;> with_reducible repeat' (first | assumption | apply State.setTile_keeps | apply_assumption
                                                                                        | split)

theorem State.zeroed_keeps {s0 s} (h : Keeps s0 s) : Keeps s0 (State.zeroed s) := by
  unfold State.zeroed
  cases s.sec.zeroing with
  | none => exact h
  | some z =>
    generalize BitVec.ofNat 32 (hundredths s.cfg.calSeed) = k
    generalize BitVec.ofNat 64 ((s.now - z.since) / 1000) = w
    have h0 : Keeps s0 { s with mem := { s.mem with dram := [], poison := [] }, power := { s.power with kappa := k } } := by
      obtain ⟨h1, h2, h3, h4, h5⟩ := h
      exact ⟨h1, h2, fun _ => rfl, h4, h5⟩
    dsimp only
    generalize ({ s with mem := { s.mem with dram := [], poison := [] }, power := { s.power with kappa := k } } : State).tiles.map (·.1) = ts
    apply State.sendMsg_keeps; apply State.bump_keeps
    have h2 := State.setWord_keeps (a1 := 0x8020) (a2 := w) (State.zeroTiles_keeps (a1 := ts) h0)
    cases z.tenant
    · apply State.unbind_keeps; exact Keeps.upd h2 rfl rfl rfl rfl rfl
    · apply State.bind_keeps; exact Keeps.upd h2 rfl rfl rfl rfl rfl

theorem State.keyRelease_keeps {s0} {a0 a1 a2 a3 a4 a5} (h : Keeps s0 a0) : Keeps s0 (State.keyRelease a0 a1 a2 a3 a4 a5) := by
  unfold State.keyRelease
  with_reducible repeat' (first | assumption | apply State.keyRefused_keeps | apply State.weightKey_keeps | apply State.unseal_keeps
                                | apply State.tenantGrant_keeps | split)

theorem State.imagoRequest_keeps {s0} {a0 a1 a2 a3 a4 a5} (h : Keeps s0 a0) : Keeps s0 (State.imagoRequest a0 a1 a2 a3 a4 a5) := by
  unfold State.imagoRequest
  with_reducible repeat' (first | assumption | apply State.sendMsg_keeps | apply State.errorReply_keeps | apply State.noteCode_keeps
                                | (refine Keeps.mk ?_; first | assumption | apply State.sendMsg_keeps | apply State.errorReply_keeps | apply State.noteCode_keeps | split)
                                | split)

theorem State.unlockFailed_keeps {s0} {a0 a1 a2} (h : Keeps s0 a0) : Keeps s0 (State.unlockFailed a0 a1 a2) := by
  unfold State.unlockFailed
  with_reducible repeat' (first | assumption | apply State.sessionFault_keeps | apply State.bump_keeps | apply State.errorReply_keeps
                                | (refine Keeps.mk ?_; first | assumption | apply State.sessionFault_keeps | apply State.bump_keeps | apply State.errorReply_keeps | split)
                                | split)

theorem State.unlockGranted_keeps {s0} {a0 a1 a2 a3} (h : Keeps s0 a0) : Keeps s0 (State.unlockGranted a0 a1 a2 a3) := by
  unfold State.unlockGranted
  with_reducible repeat' (first | assumption | apply State.replayStart_keeps | apply State.updConn_keeps | apply State.sendMsg_keeps
                                | apply State.m5Event_keeps | apply State.bump_keeps
                                | (refine Keeps.mk ?_; first | assumption | apply State.replayStart_keeps | apply State.updConn_keeps | apply State.sendMsg_keeps | apply State.m5Event_keeps | apply State.bump_keeps | split)
                                | split)

theorem State.unlock1_keeps {s0} {a0 a1 a2 a3} (h : Keeps s0 a0) : Keeps s0 (State.unlock1 a0 a1 a2 a3) := by
  unfold State.unlock1
  with_reducible repeat' (first | assumption | apply State.errorReply_keeps | apply State.sessionFault_keeps | apply State.unlockGranted_keeps
                                | apply State.unlockFailed_keeps | split)

theorem State.unlock2_keeps {s0} {a0 a1 a2} (h : Keeps s0 a0) : Keeps s0 (State.unlock2 a0 a1 a2) := by
  unfold State.unlock2
  with_reducible repeat' (first | assumption | apply State.errorReply_keeps | apply State.sessionFault_keeps | apply State.sendMsg_keeps
                                | apply State.updConn_keeps | apply State.drawn_keeps | split)

theorem State.unlock2Response_keeps {s0} {a0 a1 a2 a3 a4} (h : Keeps s0 a0) : Keeps s0 (State.unlock2Response a0 a1 a2 a3 a4) := by
  unfold State.unlock2Response
  with_reducible repeat' (first | assumption | apply State.errorReply_keeps | apply State.sessionFault_keeps | apply State.updConn_keeps
                                | apply State.unlockGranted_keeps | apply State.unlockFailed_keeps
                                | (refine Keeps.mk ?_; first | assumption | apply State.errorReply_keeps | apply State.sessionFault_keeps | apply State.updConn_keeps | apply State.unlockGranted_keeps | apply State.unlockFailed_keeps | split)
                                | split)

theorem State.bankRejects_keeps {s0} {a0 a1} (h : Keeps s0 a0) : Keeps s0 (State.bankRejects a0 a1) := by
  revert h; fun_induction State.bankRejects <;> intro h <;> with_reducible repeat' (first | assumption | apply State.logEvent_keeps | apply_assumption
                                                                                          | split)

theorem flashProgram_far {f : Sp Byte} {off k : Nat} {bs : List Byte} (h : k < off) : Sp.get 0xFF#8 (flashProgram f off bs) k = Sp.get 0xFF#8 f k :=
    by
  induction bs generalizing f off with
  | nil => rfl
  | cons b bs ih => rw [flashProgram, ih (by omega), Sp.get_put_ne _ _ (by omega)]

theorem flashProgram_past {f : Sp Byte} {off k : Nat} {bs : List Byte} (h : off + bs.length ≤ k) : Sp.get 0xFF#8 (flashProgram f off bs) k = Sp.get
    0xFF#8 f k := by
  induction bs generalizing f off with
  | nil => rfl
  | cons b bs ih => simp only [List.length_cons] at h; rw [flashProgram, ih (by omega), Sp.get_put_ne _ _ (by omega)]

theorem leBytes_length (n x : Nat) : (leBytes n x).length = n := by
  induction n generalizing x with
  | zero => rfl
  | succ n ih => simp [leBytes, ih]

theorem rollback_of {f g : Sp Byte} {b : Nat} (h : Sp.get 0xFF#8 f (b + 0x18) = Sp.get 0xFF#8 g (b + 0x18)) : imageRollback f b = imageRollback g b := by
  
  
  simp [imageRollback, flashRead, List.range_succ, h]

theorem clearTry_rollback (f : Sp Byte) (b c : Bool) : imageRollback (clearTry f b) (bankBase c) = imageRollback f (bankBase c) := by
  refine rollback_of ?_
  unfold clearTry
  generalize leNat _ &&& _ = x
  cases b <;> cases c
  · exact flashProgram_far (by simp [recordAt, bankBase])
  · exact flashProgram_past (by rw [leBytes_length]; simp [recordAt, bankBase])
  · exact flashProgram_far (by simp [recordAt, bankBase])
  · exact flashProgram_far (by simp [recordAt, bankBase])

theorem takeBanks_rollback (f : Sp Byte) (bs : List Bool) (c : Bool) : imageRollback (takeBanks f bs).1 (bankBase c) = imageRollback f (bankBase c) := by
  
  
  induction bs generalizing f with
  | nil => rfl
  | cons b bs ih =>
    have h1 : imageRollback (if confirmed f b then f else clearTry f b) (bankBase c) = imageRollback f (bankBase c) := by
      split
      · rfl
      · exact clearTry_rollback f b c
    simp only [takeBanks]
    generalize (if confirmed f b then f else clearTry f b) = g at *
    generalize checkFields _ = k
    generalize (k.1.strict && !k.2.isEmpty) = q
    cases q
    · exact h1
    · exact (ih g).trans h1

theorem takeBanks_mem (f : Sp Byte) (bs : List Bool) (x : Bool × Cfg × List (W64 × W64)) (h : (takeBanks f bs).2.2 = some x) : x.1 ∈ bs := by
  induction bs generalizing f with
  | nil => simp [takeBanks] at h
  | cons b bs ih =>
    simp only [takeBanks] at h
    generalize (if confirmed f b then f else clearTry f b) = g at *
    generalize checkFields _ = k at *
    generalize (k.1.strict && !k.2.isEmpty) = q at h
    cases q
    · simp only [Bool.false_eq_true, if_false, Option.some.injEq] at h; subst h; exact List.mem_cons_self
    · exact List.mem_cons_of_mem _ (ih _ h)

theorem examine_rollback (f : Sp Byte) (n : Nat) (b : Bool) (h : examine f n b = 0) : imageRollback f (bankBase b) ≤ 63 := by
  unfold examine at h
  generalize recordValid f b = q at h
  cases q
  · simp at h
  · simp only [if_true, verifyImage] at h
    repeat' (split at h)
    all_goals first | exact absurd h (by decide) | (rename_i h7 _ _; omega)

theorem Keeps.rb {s0 a t : State} (h : Keeps s0 a) (e1 : t.pending = a.pending) (e2 : t.img.fused = a.img.fused) (e3 : t.img.rollback ≤ 63)
    (e4 : t.mem.dram = a.mem.dram) (e5 : t.log.queue = a.log.queue) : Keeps s0 t := by
  unfold Keeps dramCanonical queueBounded at *; rw [e1, e2, e4, e5]; exact ⟨h.1, h.2.1, h.2.2.1, h.2.2.2.1, fun x => ⟨(h.2.2.2.2 x).1, e3⟩⟩

theorem mem_bankOrder {f : Sp Byte} {bs : List Bool} {b : Bool} (h : b ∈ bankOrder f bs) : b ∈ bs := by
  unfold bankOrder at h
  split at h <;> simp only [List.mem_append, List.mem_filter] at h <;> rcases h with h | h <;> exact h.1

theorem bankChoice_rollback (f : Sp Byte) (n : Nat) (u : List Bool) (c : Bool) : imageRollback (bankChoice f n u).1 (bankBase c) = imageRollback f
    (bankBase c) := by
  simp only [bankChoice]
  have h1 := takeBanks_rollback f (bankOrder f (eligibleBanks f n u)) c
  generalize takeBanks f (bankOrder f (eligibleBanks f n u)) = r at *
  have h2 := takeBanks_rollback r.1 (bankOrder f ((examinedBanks f n u).filter fun b => !r.2.1.contains b)) c
  generalize takeBanks r.1 (bankOrder f ((examinedBanks f n u).filter fun b => !r.2.1.contains b)) = q at *
  generalize r.2.2.isSome = o
  cases o
  · simp only [Bool.false_eq_true, if_false]; rw [h2, h1]
  · simp only [if_true]; exact h1

theorem examinedBanks_rollback {f : Sp Byte} {n : Nat} {u : List Bool} {b : Bool} (h : b ∈ examinedBanks f n u) : imageRollback f (bankBase b) ≤ 63 := by
  
  
  have h2 : bankCause f n u b = 0 := by
    unfold examinedBanks at h
    rw [List.mem_filter] at h
    exact eq_of_beq h.2
  unfold bankCause at h2
  generalize u.contains b = q at h2
  cases q
  · simp only [Bool.false_eq_true, if_false] at h2; exact examine_rollback _ _ _ h2
  · simp at h2

theorem bankChoice_mem {f : Sp Byte} {n : Nat} {u : List Bool} {x : Bool × Cfg × List (W64 × W64)}
    (h : (bankChoice f n u).2.2 = some x) : x.1 ∈ examinedBanks f n u := by
  simp only [bankChoice] at h
  have h1 := takeBanks_mem f (bankOrder f (eligibleBanks f n u)) x
  generalize takeBanks f (bankOrder f (eligibleBanks f n u)) = r at *
  have h2 := takeBanks_mem r.1 (bankOrder f ((examinedBanks f n u).filter fun b => !r.2.1.contains b)) x
  generalize takeBanks r.1 (bankOrder f ((examinedBanks f n u).filter fun b => !r.2.1.contains b)) = q at *
  generalize r.2.2.isSome = o at h
  cases o
  · simp only [Bool.false_eq_true, if_false] at h
    exact List.mem_of_mem_filter (mem_bankOrder (h2 h))
  · simp only [if_true] at h
    exact List.mem_of_mem_filter (mem_bankOrder (h1 h))

theorem bankRejects_img (s : State) (l : List Bool) : (s.bankRejects l).img = s.img := by
  have hl : ∀ (s : State) k c j d, (s.logAs k c j d).img = s.img := by
    intro s k c j d; unfold State.logAs; dsimp only; split <;> split <;> first | rfl | (split <;> rfl)
  induction l generalizing s with
  | nil => rfl
  | cons x l ih => rw [State.bankRejects, ih]; exact hl _ _ _ _ _

theorem State.enterSafe_keeps {s0 s} (h : Keeps s0 s) : Keeps s0 (State.enterSafe s) := by
  unfold State.enterSafe
  exact State.logEvent_keeps (Keeps.rb h rfl rfl (Nat.zero_le _) rfl rfl)

theorem State.runImage_keeps {s0 s} {b c r f} (h : Keeps s0 s) (hb : imageRollback s.img.flash (bankBase b) ≤ 63) : Keeps s0
    (State.runImage s b c r f) := by
  simp only [State.runImage]
  generalize leNat (sha512 (flashRead s.img.flash (bankBase b) (imageBytes s.img.flash (bankBase b)))) = m
  have h1 : Keeps s0 { s with cfg := c, img := { s.img with bank := some b, seq := BitVec.ofNat 64 (imageSeq s.img.flash (bankBase b)), rollback := imageRollback s.img.flash (bankBase b), clamps := r }, sec := { s.sec with m1 := BitVec.ofNat 512 m, m2 := reportDigest r } } := Keeps.rb h rfl rfl hb rfl rfl
  repeat' (first | exact h1 | apply State.logEvent_keeps | apply Keeps.ite)

theorem State.chooseImage_keeps {s0 s} {u} (h : Keeps s0 s) : Keeps s0 (State.chooseImage s u) := by
  unfold State.chooseImage
  dsimp only
  have h1 : ∀ a b l, Keeps s0 (({ s with img := { s.img with flash := (bankChoice s.img.flash s.img.fused u).1, checkA := a, checkB := b, staging := none, outcome := (0, 0, false, 0) } } : State).bankRejects l) :=
    fun a b l => State.bankRejects_keeps (Keeps.upd h rfl rfl rfl rfl rfl)
  split
  · apply State.enterSafe_keeps; apply h1
  · rename_i b _ _ e
    apply State.runImage_keeps
    · apply h1
    · have h2 := examinedBanks_rollback (bankChoice_mem e)
      have h3 := bankChoice_rollback s.img.flash s.img.fused u b
      rw [bankRejects_img]
      dsimp only at h2 ⊢
      omega

theorem State.confirmImage_keeps {s0 s} (h : Keeps s0 s) : Keeps s0 (State.confirmImage s) := by
  unfold State.confirmImage
  split
  · exact h
  · obtain ⟨h1, h2, h3, h4, h5⟩ := h
    exact ⟨h1, Nat.le_trans h2 (Nat.le_max_left _ _), h3, h4, fun x => ⟨Nat.max_le.mpr (h5 x), (h5 x).2⟩⟩

theorem State.stageRefused_keeps {s0} {a0 a1 a2 a3} (h : Keeps s0 a0) : Keeps s0 (State.stageRefused a0 a1 a2 a3) := by
  unfold State.stageRefused
  with_reducible repeat' (first | assumption | apply State.errorReply_keeps | apply State.noteCode_keeps | split)

theorem State.flashGiven_keeps {s0} {a0 a1 a2} (h : Keeps s0 a0) : Keeps s0 (State.flashGiven a0 a1 a2) := by
  unfold State.flashGiven
  with_reducible repeat' (first | assumption | apply State.holdAt_keeps | split)

theorem State.stageFirst_keeps {s0} {a0 a1 a2 a3 a4} (h : Keeps s0 a0) : Keeps s0 (State.stageFirst a0 a1 a2 a3 a4) := by
  unfold State.stageFirst
  with_reducible repeat' (first | assumption | apply State.stageRefused_keeps | apply State.flashGiven_keeps | apply State.restartAt_keeps
                                | (refine Keeps.mk ?_; first | assumption | apply State.stageRefused_keeps | apply State.flashGiven_keeps | apply State.restartAt_keeps | split)
                                | split)

theorem State.stage_keeps {s0} {a0 a1 a2 a3 a4 a5} (h : Keeps s0 a0) : Keeps s0 (State.stage a0 a1 a2 a3 a4 a5) := by
  unfold State.stage
  with_reducible repeat' (first | assumption | apply State.stageRefused_keeps | apply State.stageFirst_keeps | apply State.stageEnd_keeps
                                | apply State.errorReply_keeps | apply State.flashGiven_keeps
                                | (refine Keeps.mk ?_; first | assumption | apply State.stageRefused_keeps | apply State.stageFirst_keeps | apply State.stageEnd_keeps | apply State.errorReply_keeps | apply State.flashGiven_keeps | split)
                                | split)

theorem State.setFlash_keeps {s0} {a0 a1} (h : Keeps s0 a0) : Keeps s0 (State.setFlash a0 a1) := by
  unfold State.setFlash
  with_reducible repeat' (first | assumption | (refine Keeps.mk ?_; first | assumption | split) | split)

theorem State.setStaging_keeps {s0} {a0 a1} (h : Keeps s0 a0) : Keeps s0 (State.setStaging a0 a1) := by
  unfold State.setStaging
  with_reducible repeat' (first | assumption | (refine Keeps.mk ?_; first | assumption | split) | split)

theorem State.spoil_keeps {s0} {a0 a1 a2} (h : Keeps s0 a0) : Keeps s0 (State.spoil a0 a1 a2) := by
  unfold State.spoil
  with_reducible repeat' (first | assumption | apply State.setFlash_keeps
                                | (refine Keeps.mk ?_; first | assumption | apply State.setFlash_keeps | split) | split)

theorem State.stageFailed_keeps {s0} {a0 a1 a2 a3} (h : Keeps s0 a0) : Keeps s0 (State.stageFailed a0 a1 a2 a3) := by
  unfold State.stageFailed
  with_reducible repeat' (first | assumption | apply State.spoil_keeps | apply State.setFlash_keeps | apply State.stageEnd_keeps | split)

theorem State.stageProgrammed_keeps {s0} {a0 a1 a2 a3} (h : Keeps s0 a0) : Keeps s0 (State.stageProgrammed a0 a1 a2 a3) := by
  unfold State.stageProgrammed
  with_reducible repeat' (first | assumption | apply State.setFlash_keeps | apply State.sendMsg_keeps | apply State.setStaging_keeps
                                | apply State.stageEnd_keeps
                                | (refine Keeps.mk ?_; first | assumption | apply State.setFlash_keeps | apply State.sendMsg_keeps | apply State.setStaging_keeps | apply State.stageEnd_keeps | split)
                                | split)

theorem State.flashTook_keeps {s0} {a0 a1 a2} (h : Keeps s0 a0) : Keeps s0 (State.flashTook a0 a1 a2) := by
  unfold State.flashTook
  with_reducible repeat' (first | assumption | apply State.restartAt_keeps | apply State.holdAt_keeps | split)

theorem State.notPermitted_keeps {s0} {a0 a1 a2 a3} (h : Keeps s0 a0) : Keeps s0 (State.notPermitted a0 a1 a2 a3) := by
  unfold State.notPermitted
  with_reducible repeat' (first | assumption | apply State.decline_keeps | apply State.errorReply_keeps | apply State.sessionFault_keeps
                                | apply State.stageAbort_keeps | split)

theorem codeReply_keeps {s0} {i t r j} {x : Nat × State} (h : Keeps s0 x.2) : Keeps s0 (codeReply i t r j x) :=
  State.outcome_keeps (Keeps.ite h (State.noteCode_keeps h))

theorem State.applyMsg_keeps {s0} {a0 a1 a2 a3} (h : Keeps s0 a0) : Keeps s0 (State.applyMsg a0 a1 a2 a3) := by
  unfold State.applyMsg
  with_reducible repeat' (first | assumption | apply State.notPermitted_keeps | apply State.errorReply_keeps | apply State.closeIfDone_keeps
                                | apply State.updConn_keeps | apply State.submitFragment_keeps | apply State.hostAbandon_keeps | apply codeReply_keeps
                                | apply State.hostPut_keeps | apply State.hostGet_keeps | apply State.hostSignal_keeps | apply State.statusData_keeps
                                | apply State.attest_keeps | apply State.keyRelease_keeps | apply State.imagoRequest_keeps | apply State.unlock1_keeps
                                | apply State.unlock2_keeps | apply State.unlock2Response_keeps | apply State.stage_keeps | split)

theorem State.applyHeld_keeps {s0} {a0 a1 a2} (h : Keeps s0 a0) : Keeps s0 (State.applyHeld a0 a1 a2) := by
  revert h; fun_induction State.applyHeld <;> intro h <;> with_reducible repeat' (first | assumption | apply State.applyMsg_keeps
                                                                                        | apply State.updConn_keeps | apply_assumption | split)

theorem State.hold_keeps {s0} {a0 a1 a2 a3} (h : Keeps s0 a0) : Keeps s0 (State.hold a0 a1 a2 a3) := by
  unfold State.hold
  with_reducible repeat' (first | assumption | apply State.updConn_keeps | apply State.sendAck_keeps | apply State.applyHeld_keeps | split)

theorem State.countedIn_keeps {s0} {a0 a1 a2} (h : Keeps s0 a0) : Keeps s0 (State.countedIn a0 a1 a2) := by
  unfold State.countedIn
  with_reducible repeat' (first | assumption | apply State.updConn_keeps | split)

theorem State.heard_keeps {s0} {a0 a1 a2} (h : Keeps s0 a0) : Keeps s0 (State.heard a0 a1 a2) := by
  unfold State.heard
  with_reducible repeat' (first | assumption | apply State.takeAck_keeps | apply State.updConn_keeps | apply State.openPending_keeps | split)

theorem State.violated_keeps {s0} {a0 a1 a2 a3} (h : Keeps s0 a0) : Keeps s0 (State.violated a0 a1 a2 a3) := by
  unfold State.violated
  with_reducible repeat' (first | assumption | apply State.hostViolation_keeps | apply State.hold_keeps | apply State.sendAck_keeps
                                | apply State.errorReply_keeps | split)

theorem State.authentic_keeps {s0} {a0 a1 a2 a3 a4} (h : Keeps s0 a0) : Keeps s0 (State.authentic a0 a1 a2 a3 a4) := by
  unfold State.authentic
  with_reducible repeat' (first | assumption | apply State.violated_keeps | apply State.heard_keeps | apply State.hold_keeps
                                | apply State.sendAck_keeps | apply State.bump_keeps | apply State.hostViolation_keeps | split)

theorem State.sealed_keeps {s0} {a0 a1 a2 a3} (h : Keeps s0 a0) : Keeps s0 (State.sealed a0 a1 a2 a3) := by
  unfold State.sealed
  with_reducible repeat' (first | assumption | apply State.closed_keeps | apply State.closeIfDone_keeps | apply State.authentic_keeps
                                | apply State.countedIn_keeps | apply State.hostViolation_keeps | apply State.bump_keeps | split)

theorem State.khtOverrun_keeps {s0} {a0 a1} (h : Keeps s0 a0) : Keeps s0 (State.khtOverrun a0 a1) := by
  unfold State.khtOverrun
  with_reducible repeat' (first | assumption | apply State.overran_keeps | apply State.portOverrun_keeps | split)

theorem State.frameIn_keeps {s0} {a0 a1} (h : Keeps s0 a0) : Keeps s0 (State.frameIn a0 a1) := by
  unfold State.frameIn
  with_reducible repeat' (first | assumption | apply State.bump_keeps | apply State.hostRx_keeps | split)

theorem State.takeDatagram_keeps {s0 s} {k f} (h : Keeps s0 s) (hf : ∀ x, Keeps s0 x → Keeps s0 (f x)) : Keeps s0 (State.takeDatagram s k f) := by
  unfold State.takeDatagram
  repeat' (first | exact h | exact hf _ (State.bump_keeps h) | exact State.bump_keeps h | split)

theorem State.inward_keeps {s0} {a0 a1} (h : Keeps s0 a0) : Keeps s0 (State.inward a0 a1) := by
  unfold State.inward
  with_reducible repeat' (first | assumption | apply State.across_keeps | apply State.frameIn_keeps | split)

theorem State.arrive_keeps {s0 s} {k f} (h : Keeps s0 s) (hf : ∀ x, Keeps s0 x → Keeps s0 (f x)) : Keeps s0 (State.arrive s k f) := by
  unfold State.arrive
  repeat' (first | exact h | exact State.khtOverrun_keeps (State.frameIn_keeps h) | exact State.takeDatagram_keeps (State.inward_keeps h) hf | split)

theorem State.openReply_keeps {s0} {a0 a1 a2 a3 a4 a5 a6 a7 a8} (h : Keeps s0 a0) : Keeps s0 (State.openReply a0 a1 a2 a3 a4 a5 a6 a7 a8) := by
  unfold State.openReply
  with_reducible repeat' (first | assumption | apply State.khtSent_keeps | split)

theorem State.openWith_keeps {s0} {a0 a1 a2 a3 a4 a5 a6} (h : Keeps s0 a0) : Keeps s0 (State.openWith a0 a1 a2 a3 a4 a5 a6) := by
  unfold State.openWith
  dsimp only
  with_reducible repeat' (first | assumption | apply State.hostViolation_keeps | apply State.bump_keeps | apply State.openReply_keeps
                                | apply State.hostFault_keeps
                                | (refine Keeps.mk ?_; first | assumption | apply State.hostViolation_keeps | apply State.bump_keeps | apply State.openReply_keeps | apply State.hostFault_keeps | split)
                                | split | dsimp only)

theorem State.openArrives_keeps {s0} {a0 a1 a2 a3 a4 a5 a6} (h : Keeps s0 a0) : Keeps s0 (State.openArrives a0 a1 a2 a3 a4 a5 a6) := by
  unfold State.openArrives
  with_reducible repeat' (first | assumption | apply State.bump_keeps | apply State.openWith_keeps
                                | (refine Keeps.mk ?_; first | assumption | apply State.bump_keeps | apply State.openWith_keeps | split) | split)

theorem State.freeBuffer_keeps {s0} {a0 a1 a2} (h : Keeps s0 a0) : Keeps s0 (State.freeBuffer a0 a1 a2) := by
  unfold State.freeBuffer
  with_reducible repeat' (first | assumption | apply State.setPort_keeps | split)

theorem State.nak_keeps {s0} {a0 a1 a2} (h : Keeps s0 a0) : Keeps s0 (State.nak a0 a1 a2) := by
  unfold State.nak
  with_reducible repeat' (first | assumption | apply State.setPort_keeps | apply State.ctrl_keeps
                                | (refine Keeps.mk ?_; first | assumption | apply State.setPort_keeps | apply State.ctrl_keeps | split) | split)

theorem State.sequenceBad_keeps {s0} {a0 a1 a2} (h : Keeps s0 a0) : Keeps s0 (State.sequenceBad a0 a1 a2) := by
  unfold State.sequenceBad
  with_reducible repeat' (first | assumption | apply State.violation_keeps | apply State.setPort_keeps | apply State.linkLost_keeps
                                | apply State.police_keeps
                                | (refine Keeps.mk ?_; first | assumption | apply State.violation_keeps | apply State.setPort_keeps | apply State.linkLost_keeps | apply State.police_keeps | split)
                                | split)

theorem State.takeAcks_keeps {s0} {a0 a1 a2 a3} (h : Keeps s0 a0) : Keeps s0 (State.takeAcks a0 a1 a2 a3) := by
  unfold State.takeAcks
  with_reducible repeat' (first | assumption | apply State.setPort_keeps | split)

theorem State.refuse_keeps {s0} {a0 a1 a2 a3} (h : Keeps s0 a0) : Keeps s0 (State.refuse a0 a1 a2 a3) := by
  unfold State.refuse
  with_reducible repeat' (first | assumption | apply State.violation_keeps | apply State.sendError_keeps | apply State.police_keeps | split)

theorem State.cameIn_keeps {s0} {a0 a1 a2} (h : Keeps s0 a0) : Keeps s0 (State.cameIn a0 a1 a2) := by
  unfold State.cameIn
  with_reducible repeat' (first | assumption | apply State.setPort_keeps | split)

theorem State.accepted_keeps {s0} {a0 a1 a2} (h : Keeps s0 a0) : Keeps s0 (State.accepted a0 a1 a2) := by
  unfold State.accepted
  with_reducible repeat' (first | assumption | apply State.cameIn_keeps | apply State.refuse_keeps | apply State.freeBuffer_keeps
                                | apply State.setPort_keeps
                                | (refine Keeps.mk ?_; first | assumption | apply State.cameIn_keeps | apply State.refuse_keeps | apply State.freeBuffer_keeps | apply State.setPort_keeps | split)
                                | split)

theorem State.inOrder_keeps {s0} {a0 a1 a2} (h : Keeps s0 a0) : Keeps s0 (State.inOrder a0 a1 a2) := by
  unfold State.inOrder
  with_reducible repeat' (first | assumption | apply State.refuse_keeps | apply State.cameIn_keeps | apply State.deliver_keeps
                                | apply State.sequenceBad_keeps | apply State.accepted_keeps | split)

theorem State.receive_keeps {s0} {a0 a1 a2} (h : Keeps s0 a0) : Keeps s0 (State.receive a0 a1 a2) := by
  unfold State.receive
  with_reducible repeat' (first | assumption | apply State.bump_keeps | apply State.nak_keeps | apply State.portOverrun_keeps
                                | apply State.across_keeps | apply State.setPort_keeps | apply State.police_keeps | apply State.violation_keeps
                                | apply State.sequenceBad_keeps | apply State.takeAcks_keeps | apply State.inOrder_keeps
                                | (refine Keeps.mk ?_; first | assumption | apply State.bump_keeps | apply State.nak_keeps | apply State.portOverrun_keeps | apply State.across_keeps | apply State.setPort_keeps | apply State.police_keeps | apply State.violation_keeps | apply State.sequenceBad_keeps | apply State.takeAcks_keeps | apply State.inOrder_keeps | split)
                                | split)

theorem State.depart_keeps {s0} {a0 a1 a2 a3 a4} (h : Keeps s0 a0) : Keeps s0 (State.depart a0 a1 a2 a3 a4) := by
  unfold State.depart
  with_reducible repeat' (first | assumption | apply State.sent_keeps | apply State.setPort_keeps | apply State.left_keeps | split)

theorem State.transmit_keeps {s0} {a0 a1 a2} (h : Keeps s0 a0) : Keeps s0 (State.transmit a0 a1 a2) := by
  unfold State.transmit
  with_reducible repeat' (first | assumption | apply State.sent_keeps | apply State.setPort_keeps | apply State.depart_keeps
                                | (refine Keeps.mk ?_; first | assumption | apply State.sent_keeps | apply State.setPort_keeps | apply State.depart_keeps | split)
                                | split)

theorem State.pnSpent_keeps {s0} {a0 a1} (h : Keeps s0 a0) : Keeps s0 (State.pnSpent a0 a1) := by
  unfold State.pnSpent
  with_reducible repeat' (first | assumption | apply State.linkLost_keeps | apply State.secFault_keeps | split)

theorem State.spoiled_keeps {s0} {a0 a1} (h : Keeps s0 a0) : Keeps s0 (State.spoiled a0 a1) := by
  unfold State.spoiled
  with_reducible repeat' (first | assumption | apply State.emit_keeps | apply State.overran_keeps | apply State.portOverrun_keeps | split)

theorem State.sendIdentity_keeps {s0} {a0 a1} (h : Keeps s0 a0) : Keeps s0 (State.sendIdentity a0 a1) := by
  unfold State.sendIdentity
  with_reducible repeat' (first | assumption | apply State.ctrl_keeps | split)

theorem State.sendEcho_keeps {s0} {a0 a1 a2 a3} (h : Keeps s0 a0) : Keeps s0 (State.sendEcho a0 a1 a2 a3) := by
  unfold State.sendEcho
  with_reducible repeat' (first | assumption | apply State.ctrl_keeps | split)

theorem State.offer_keeps {s0} {a0 a1} (h : Keeps s0 a0) : Keeps s0 (State.offer a0 a1) := by
  unfold State.offer
  with_reducible repeat' (first | assumption | apply State.drawn_keeps | apply State.setPort_keeps | split)

theorem State.rekey_keeps {s0} {a0 a1} (h : Keeps s0 a0) : Keeps s0 (State.rekey a0 a1) := by
  unfold State.rekey
  with_reducible repeat' (first | assumption | apply State.offer_keeps | apply State.setPort_keeps | apply State.sendIdentity_keeps | split)

theorem State.switchKey_keeps {s0} {a0 a1 a2} (h : Keeps s0 a0) : Keeps s0 (State.switchKey a0 a1 a2) := by
  unfold State.switchKey
  with_reducible repeat' (first | assumption | apply State.setPort_keeps | apply State.bump_keeps | split)

theorem State.takeOffer_keeps {s0} {a0 a1 a2 a3} (h : Keeps s0 a0) : Keeps s0 (State.takeOffer a0 a1 a2 a3) := by
  unfold State.takeOffer
  with_reducible repeat' (first | assumption | apply State.setPort_keeps | apply State.sendIdentity_keeps | apply State.switchKey_keeps
                                | (refine Keeps.mk ?_; first | assumption | apply State.setPort_keeps | apply State.sendIdentity_keeps | apply State.switchKey_keeps | split)
                                | split)

theorem State.rekeyStep_keeps {s0} {a0 a1 a2 a3} (h : Keeps s0 a0) : Keeps s0 (State.rekeyStep a0 a1 a2 a3) := by
  unfold State.rekeyStep
  with_reducible repeat' (first | assumption | apply State.takeOffer_keeps | apply State.rekey_keeps
                                | (refine Keeps.mk ?_; first | assumption | apply State.takeOffer_keeps | apply State.rekey_keeps | split) | split)

theorem State.badLink_keeps {s0} {a0 a1 a2 a3} (h : Keeps s0 a0) : Keeps s0 (State.badLink a0 a1 a2 a3) := by
  unfold State.badLink
  with_reducible repeat' (first | assumption | apply State.setSt_keeps | apply State.logEvent_keeps | apply State.setPort_keeps | split)

theorem State.ready_keeps {s0} {a0 a1 a2} (h : Keeps s0 a0) : Keeps s0 (State.ready a0 a1 a2) := by
  unfold State.ready
  with_reducible repeat' (first | assumption | apply State.setPort_keeps | apply State.setSt_keeps
                                | (refine Keeps.mk ?_; first | assumption | apply State.setPort_keeps | apply State.setSt_keeps | split) | split)

theorem State.restored_keeps {s0} {a0 a1} (h : Keeps s0 a0) : Keeps s0 (State.restored a0 a1) := by
  unfold State.restored
  with_reducible repeat' (first | assumption | apply State.setSt_keeps | apply State.setPort_keeps | split)

theorem State.sendFence_keeps {s0} {a0 a1 a2 a3} (h : Keeps s0 a0) : Keeps s0 (State.sendFence a0 a1 a2 a3) := by
  unfold State.sendFence
  with_reducible repeat' (first | assumption | apply State.setPort_keeps | split)

theorem State.halted_keeps {s0 s} {b} (h : Keeps s0 s) : Keeps s0 (State.halted s b) := by
  obtain ⟨h1, h2, h3, h4, h5⟩ := h
  refine ⟨h1, h2, fun x => ?_, fun _ => by simp [State.halted, queueBounded, LogState.start], fun x => ⟨(h5 x).1, by simp [State.halted, ImgState.start]⟩⟩
  cases b
  · rfl
  · exact h3 x

theorem State.rowDone_keeps {s0} {a0 a1} (h : Keeps s0 a0) : Keeps s0 (State.rowDone a0 a1) := by
  unfold State.rowDone
  with_reducible repeat' (first | assumption | (refine Keeps.mk ?_; first | assumption | split) | split)

theorem State.runRow_keeps {s0} {a0 a1 a2} (h : Keeps s0 a0) : Keeps s0 (State.runRow a0 a1 a2) := by
  unfold State.runRow
  with_reducible repeat' (first | assumption | apply State.rowDone_keeps
                                | (refine Keeps.mk ?_; first | assumption | apply State.rowDone_keeps | split) | split)

theorem State.logOwed_keeps {s0} {a0 a1} (h : Keeps s0 a0) : Keeps s0 (State.logOwed a0 a1) := by
  revert h; fun_induction State.logOwed <;> intro h <;> with_reducible repeat' (first | assumption | apply State.logEvent_keeps | apply_assumption
                                                                                      | split)

theorem State.startCore_keeps {s0} {a0 a1} (h : Keeps s0 a0) : Keeps s0 (State.startCore a0 a1) := by
  unfold State.startCore
  with_reducible repeat' (first | assumption | apply State.runRow_keeps | apply State.logOwed_keeps
                                | (refine Keeps.mk ?_; first | assumption | apply State.runRow_keeps | apply State.logOwed_keeps | split) | split)

theorem State.trainFailed_keeps {s0} {a0 a1} (h : Keeps s0 a0) : Keeps s0 (State.trainFailed a0 a1) := by
  revert h; fun_induction State.trainFailed <;> intro h <;> with_reducible repeat' (first | assumption | apply State.failChannel_keeps
                                                                                          | apply State.xingEvent_keeps | apply_assumption | split)

theorem State.feedDomain_keeps {s0} {a0} (h : Keeps s0 a0) : Keeps s0 (State.feedDomain a0) := by
  unfold State.feedDomain
  with_reducible repeat' (first | assumption | apply State.chrEvent_keeps
                                | (refine Keeps.mk ?_; first | assumption | apply State.chrEvent_keeps | split) | split)

theorem State.startUnits_keeps {s0} {a0 a1} (h : Keeps s0 a0) : Keeps s0 (State.startUnits a0 a1) := by
  unfold State.startUnits
  with_reducible repeat' (first | assumption | apply State.trainFailed_keeps | apply State.followScore_keeps | apply State.runRow_keeps
                                | apply State.logScan_keeps | apply State.feedDomain_keeps
                                | (refine Keeps.mk ?_; first | assumption | apply State.trainFailed_keeps | apply State.followScore_keeps | apply State.runRow_keeps | apply State.logScan_keeps | apply State.feedDomain_keeps | split)
                                | split)

theorem State.startLinks_keeps {s0} {a0} (h : Keeps s0 a0) : Keeps s0 (State.startLinks a0) := by
  unfold State.startLinks
  with_reducible repeat' (first | assumption | apply State.secFault_keeps | apply State.setPort_keeps
                                | (refine Keeps.mk ?_; first | assumption | apply State.secFault_keeps | apply State.setPort_keeps | split)
                                | refine Keeps.foldl ?_ ?_ | split | dsimp only | intro s_ x_ h_)

theorem State.holdTiles_keeps {s0} {a0} (h : Keeps s0 a0) : Keeps s0 (State.holdTiles a0) := by
  unfold State.holdTiles
  with_reducible repeat' (first | assumption | (refine Keeps.mk ?_; first | assumption | split) | split)

theorem State.portsSettle_keeps {s0} {a0} (h : Keeps s0 a0) : Keeps s0 (State.portsSettle a0) := by
  unfold State.portsSettle
  with_reducible repeat' (first | assumption | apply State.setSt_keeps | apply State.setPort_keeps
                                | (refine Keeps.mk ?_; first | assumption | apply State.setSt_keeps | apply State.setPort_keeps | split)
                                | refine Keeps.foldl ?_ ?_ | split | dsimp only | intro s_ x_ h_)

theorem State.refreshBlock_keeps {s0} {a0 a1} (h : Keeps s0 a0) : Keeps s0 (State.refreshBlock a0 a1) := by
  unfold State.refreshBlock
  with_reducible repeat' (first | assumption | apply State.publishBoth_keeps | apply State.bump_keeps | split)

end Sys2Proof.Machine
end

