-- ==== Sys2Proof/Laws/Log.lean ====
section
/-!
SUPPORT. What recording writes, once: a log record writes the log, the status words and what is known of a hardware failure; a
crossing's event and its overrun write the crossing and the module's score besides (R362, R453, R462, R482).
-/
namespace Sys2Proof.Machine

/-- Two states that agree but for the log, the status words and the hardware failure known. -/
def Logged (s t : State) : Prop := ∃ p l w, t = { s with power := p, log := l, stat := w }

theorem Logged.refl (s : State) : Logged s s := ⟨s.power, s.log, s.stat, rfl⟩

theorem Logged.trans {s t u : State} (h : Logged s t) (g : Logged t u) : Logged s u := by
  obtain ⟨_, _, _, rfl⟩ := h
  obtain ⟨p, l, w, rfl⟩ := g
  exact ⟨p, l, w, rfl⟩

theorem State.setWord_logged (s : State) (k : Nat) (x : W64) : Logged s (s.setWord k x) := ⟨s.power, s.log, _, rfl⟩

theorem State.bump_logged (s : State) (k n : Nat) : Logged s (s.bump k n) := State.setWord_logged s _ _

theorem State.logAs_logged (s : State) (k c : Nat) (j : Option (BitVec 16)) (d : W64 × W64) : Logged s (s.logAs k c j d) := by
  have h : Logged s (if isFailure k c then { s with power := { s.power with hardware := some (c, s.now) } } else s) := by
    split
    · exact ⟨_, s.log, s.stat, rfl⟩
    · exact Logged.refl s
  refine h.trans ?_
  unfold State.logAs
  generalize (if isFailure k c then { s with power := { s.power with hardware := some (c, s.now) } } else s : State) = t
  dsimp only
  split
  · exact ⟨t.power, _, t.stat, rfl⟩
  · split
    · exact Logged.trans ⟨t.power, _, t.stat, rfl⟩ (State.bump_logged _ _ _)
    · exact ⟨t.power, _, t.stat, rfl⟩

theorem State.logEvent_logged (s : State) (c : Nat) (j : Option (BitVec 16)) (d : W64 × W64) : Logged s (s.logEvent c j d) :=
  State.logAs_logged s _ c j d

theorem State.record_logged (s : State) (b n : Nat) (w : W64 × W64) : Logged s (s.record b n w) :=
  (State.setWord_logged s _ _).trans ((State.setWord_logged _ _ _).trans (State.bump_logged _ _ _))

theorem State.xingEvent_logged (s : State) (c k i : Nat) (d : Bool) : Logged s (s.xingEvent c k i d) :=
  (State.record_logged s _ _ _).trans (State.logEvent_logged _ _ _ _)

/-- An overrun of a port's crossing writes the crossings, the module's points and what a log record writes (R453). -/
theorem State.portOverrun_frame (s : State) (p : Nat) (rx : Bool) :
    ∃ c h q l w, s.portOverrun p rx = { s with crossings := c, health := h, power := q, log := l, stat := w } := by
  unfold State.portOverrun State.overran
  obtain ⟨q1, l1, w1, h1⟩ := State.bump_logged s (0xB100 + 8 * p) 1
  rw [h1]
  generalize (if rx then portRx p else portTx p) = k
  obtain ⟨q2, l2, w2, h2⟩ := State.bump_logged ({ s with power := q1, log := l1, stat := w1 }.setCrossing k
    { { s with power := q1, log := l1, stat := w1 }.crossing k with overrun := true }) (0xB010 + 8 * bit (!rx)) 1
  rw [h2]
  obtain ⟨q3, l3, w3, h3⟩ := State.xingEvent_logged { { s with power := q1, log := l1, stat := w1 }.setCrossing k
    { { s with power := q1, log := l1, stat := w1 }.crossing k with overrun := true } with power := q2, log := l2, stat := w2 } 0xB201 0 p rx
  rw [h3]
  exact ⟨_, _, q3, l3, w3, rfl⟩

theorem State.portOverrun_ports (s : State) (p : Nat) (rx : Bool) : (s.portOverrun p rx).ports = s.ports := by
  obtain ⟨_, _, _, _, _, h⟩ := s.portOverrun_frame p rx; rw [h]

theorem State.portOverrun_cfg (s : State) (p : Nat) (rx : Bool) : (s.portOverrun p rx).cfg = s.cfg := by
  obtain ⟨_, _, _, _, _, h⟩ := s.portOverrun_frame p rx; rw [h]

theorem State.portOverrun_start (s : State) (p : Nat) (rx : Bool) : (s.portOverrun p rx).start = s.start := by
  obtain ⟨_, _, _, _, _, h⟩ := s.portOverrun_frame p rx; rw [h]

end Sys2Proof.Machine
end

