-- ==== Sys2Proof/Tests/Slice0.lean ====
section
/-!
SUPPORT. Tests: ill-formed commands are refused, the hypotheses of the statements can be met, and values the spec works out.
-/
open Sys2Proof Sys2Proof.Machine
namespace Sys2Proof.Tests

set_option Elab.async false

/-! ### Small states -/

/-- A tile word: its opcode and its fields, each with its lowest bit. -/
def wd (op : Nat) (fs : List (Nat × Nat)) : BitVec 128 := BitVec.ofNat 128 (fs.foldl (fun n f => n + f.2 * 2 ^ f.1) (op * 2 ^ 120))

/-- A descriptor for tile 0 from its four words. -/
def desc (w0 w3 : Nat) : Desc := ⟨BitVec.ofNat 64 w0, BitVec.ofNat 64 (0x3FFF * 2 ^ 42), 0, BitVec.ofNat 64 w3⟩

/-- Job 5 with every right: page 0 is frame 0 of channel 0, and page 0 of the window is the first 2 MiB of tile 0. -/
def job5 : JobCtx :=
  { freshJob 5 1 0 with
    localRights := List.replicate 64 0xFF#8, remoteRights := List.replicate 64 0xFF#8, hostRights := List.replicate 64 0xFF#8,
    pages := [⟨false, 0, 0, false, 0, 0⟩, ⟨true, 0, 0, false, 0, 0⟩] }

/-- Package 0 of job 5, one kernel of one task. -/
def pkg0 : Pkg :=
  { tag := 0, vesper := false, kind := 1, pid := 0, job := 5, jobEnd := false, stepCount := 2, faultNotify := 0, seed := 0, conn := 1, hostKey := 0,
    kernels := [⟨1, 0, 0, 1, []⟩], tasks := [desc 1 0], landing := none, cost := none, restore := none, acceptedAt := 0, t := 0, kappa := 0,
    running := true, step := 1, untold := [], ready := [], written := [], ended := [], overran := false, late := false, blocks := none }

/-- The control state of a task that has just started on tile 0. -/
def ctx0 : Ctx := Ctx.start (desc 1 0) 5 0

/-- A READY module in which job 5 runs; these bytes stand at frame 0 of channel 0. -/
def lab (prog : List Byte) : State :=
  { State.reset with jobs := [job5], pkgs := [pkg0], mem := { MemState.start with dram := Mem.setBytes [] 0 prog },
                     start := { StartState.start with phase := .ready } }

/-- A module long after its start. -/
def later (s : State) : State := { s with start := { s.start with timer := 2 ^ 60 } }

/-- The same with a Noon task of tile 0 in control state `c` at a word. -/
def atWord (w : BitVec 128) (c : Ctx) : State := (lab (leBytes 16 w.toNat)).setTile 0 { TileState.start with noon := some c }

/-- A module at a hall position, so that device 1 is another. -/
def placed (s : State) : State := { s with cfg := { Cfg.start with hallPos := some (0, 0, 0, 0) } }

/-- These bytes at an offset of tile 0's scratchpad. -/
def load (s : State) (a : Nat) (bs : List Byte) : State := s.setTile 0 { s.tile 0 with scratch := Mem.setBytes (s.tile 0).scratch a bs }

/-- 64-bit words as bytes. -/
def wordBytes (ws : List Nat) : List Byte := ws.flatMap (leBytes 8)

/-- A word of tile 0 with a block of 64-bit words at an offset of its scratchpad. -/
def atBlock (w : BitVec 128) (c : Ctx) (a : Nat) (ws : List Nat) : State := load (atWord w c) a (wordBytes ws)

/-- Is a result a value with this property? -/
def okWith {α : Type} (x : Except Nat α) (p : α → Bool) : Bool := match x with | .ok a => p a | .error _ => false

theorem okWith_ex {α : Type} {x : Except Nat α} {p : α → Bool} (h : okWith x p = true) : ∃ a, x = .ok a ∧ p a = true := by
  cases x with
  | ok a => exact ⟨a, rfl, h⟩
  | error e => cases h

/-- Is a result this value? -/
def isOk {α : Type} [DecidableEq α] (x : Except Nat α) (a : α) : Bool := match x with | .ok b => b == a | .error _ => false

theorem isOk_eq {α : Type} [DecidableEq α] {x : Except Nat α} {a : α} (h : isOk x a = true) : x = .ok a := by
  cases x with
  | ok b => simp only [isOk, beq_iff_eq] at h; rw [h]
  | error e => cases h

/-- Is a result this code? -/
def isErr {α : Type} (x : Except Nat α) (e : Nat) : Bool := match x with | .ok _ => false | .error f => f == e

theorem isErr_eq {α : Type} {x : Except Nat α} {e : Nat} (h : isErr x e = true) : x = .error e := by
  cases x with
  | ok b => cases h
  | error f => simp only [isErr, beq_iff_eq] at h; rw [h]

/-- OPEN connection 1 of a tenant, from port P40. -/
def conn1 : Conn :=
  { id := 1, entry := 0, st := 2, role := 0, hostKey := 0, nonce := 0, eph := (0, 0), keys := (0, 0), port := 0, addr := 1, udp := 1, rxNext := 1,
    held := [], txNext := 1, ack := 1, window := 64, pkt := 1, seenPkts := [], unacked := [], lastAt := 0, errAt := 0, datagrams := 0, report := none,
    unlock := none, challenge := none }

/-- Is a word's result a completed issue? -/
def issued (r : WordRes) : Bool := match r with | .ok _ => true | _ => false

/-- `stands` as a test. -/
def standsB (s : State) (t : TileId) (v : Bool) (w : BitVec 128) (c : Ctx) : Bool :=
  decide (s.ctx? t.val v = some c) && !c.waiting && (s.tile t.val).issues v && isOk (s.fetch v c).1 w.toNat && !c.gated w.toNat &&
    (decide (fld w.toNat 116 4 ≠ 0) || decide (lagOf w.toNat = 0))

theorem standsOf {s : State} {t : TileId} {v : Bool} {w : BitVec 128} {c : Ctx} (h : standsB s t v w c = true) : stands s t v w c := by
  simp only [standsB, Bool.and_eq_true, decide_eq_true_eq, Bool.not_eq_true', Bool.or_eq_true] at h
  exact ⟨h.1.1.1.1.1, h.1.1.1.1.2, h.1.1.1.2, isOk_eq h.1.1.2, h.1.2, fun e => h.2.resolve_left fun n => n e⟩

/-! ### Ill-formed commands -/

/-- A header of a datagram that an OPEN host connection 1 sends. -/
def hdr (type : Byte) : KHdr := ⟨0, 1, 1, 0, 0, 17, 0, 0, false, 1, type, 0, 1, 1, 0, 8, 1, 0, 1, []⟩

theorem test_refuses_word_of_another_opcode : (Instr.set 0 false (wd 0 [])).wf = false ∧ (Instr.set 0 false (wd 2 [])).wf = true ∧
    (Instr.set 0 false (wd 0x10 [])).wf = true := by decide

theorem test_refuses_move_of_another_kind : (Instr.moveGather 0 false (wd 0x40 [])).wf = false ∧
    (Instr.moveGather 0 false (wd 0x40 [(72, 1)])).wf = true ∧ (Instr.moveGather 0 false (wd 0x40 [(72, 7)])).wf = true := by decide

theorem test_refuses_request_beyond_its_channel : (Instr.channelRequest 0 [⟨false, 0, 0xFFFFFFFF, .read 2, [], none, 0⟩]).wf = false ∧
    (Instr.channelRequest 0 [⟨false, 0, 0, .read 0, [], none, 0⟩]).wf = false ∧
    (Instr.channelRequest 0 [⟨false, 0, 2, .accumulate [1], [], none, 0⟩]).wf = false ∧
    (Instr.channelRequest 0 [⟨false, 0, 4, .atomic 0 0 0, [], none, 0⟩]).wf = false ∧
    (Instr.channelRequest 0 [⟨false, 0, 8, .atomic 9 0 0, [], none, 0⟩]).wf = false ∧
    (Instr.channelRequest 0 [⟨false, 0, 8, .atomic 8 0 0, [], none, 0⟩]).wf = true := by decide

theorem test_refuses_increment : (Instr.countIncrement 5 0x00000001 1).wf = false ∧ (Instr.countIncrement 5 0xC0000001 1).wf = false ∧
    (Instr.countIncrement 5 0x80000001 0).wf = false ∧ (Instr.countIncrement 5 0x80000001 0x80000000).wf = false ∧
    (Instr.countIncrement 5 0x80000001 1).wf = true := by decide

theorem test_refuses_message_of_another_type : (Instr.openConn (hdr 3) 0 0 0 0 0).wf = false ∧ (Instr.khtAck (hdr 3)).wf = false ∧
    (Instr.khtAck (hdr 4)).wf = true ∧ (Instr.khtAck (hdr 0x7F)).wf = true := by decide

theorem test_refuses_row_and_crossing : (Instr.startRowOverrun 0).wf = false ∧ (Instr.startRowOverrun 7).wf = true ∧
    (Instr.crossingStall ⟨621, false⟩).wf = false ∧ (Instr.crossingStall ⟨620, true⟩).wf = true := by decide

/-- Is an outcome the refusal of an ill-formed command? -/
def refuses (o : Host.Outcome State Fault Refusal) : Bool := match o with | .refused .illFormed => true | _ => false

/-- What exec answers to them. -/
theorem test_exec_refuses : refuses (exec (.set 0 false (wd 0 [])) State.reset) = true ∧
    refuses (exec (.moveGather 0 false (wd 0x40 [])) State.reset) = true ∧
    refuses (exec (.countIncrement 5 1 1) State.reset) = true ∧ refuses (exec (.crossingStall ⟨621, true⟩) State.reset) = true ∧
    refuses (exec (.openConn (hdr 3) 0 0 0 0 0) State.reset) = true ∧ refuses (exec (.startRowOverrun 0) State.reset) = true ∧
    refuses (exec (.channelRequest 0 [⟨false, 0, 0, .read 0, [], none, 0⟩]) (lab [])) = true ∧
    refuses (exec (.set 0 false (wd 2 [])) State.reset) = false := by decide +kernel

/-! ### The machine -/

/-- StepRunsFrontCommand, WellFormedCommandsRun, ExecKeepsQueue. -/
theorem witness_front_command : { State.reset with pending := [.taskTake 0] }.pending = Instr.taskTake 0 :: [] ∧ (Instr.taskTake 0).wf = true ∧
    exec (.taskTake 0) State.reset = .next State.reset := ⟨rfl, rfl, rfl⟩

/-- QueueEdges: an empty queue with and without a running timer. -/
theorem witness_queue_edges : State.reset.pending = [] ∧ State.reset.start.runs = false ∧
    tableOpcodes.contains (wordOpcode (wd 0 [])) = true ∧ wordOpcode (wd 0 []) ≠ 0x02 ∧
    hostMessageTypes.contains (hdr 3).type.toNat = true ∧ (hdr 3).type.toNat ≠ 0x04 ∧ (hdr 3).type ≠ 1 ∧ countRefOk 1 = false := by decide

/-- The invariants' premises, at reset. -/
theorem witness_invariants : dramCanonical State.reset ∧ queueBounded State.reset ∧ (State.reset.img.fused ≤ 63 ∧ State.reset.img.rollback ≤ 63) ∧
    step State.reset = .next State.reset.tick := ⟨rfl, by unfold queueBounded; decide, by decide, rfl⟩

/-- RollbackLevel: a module that runs bank A and reaches READY. -/
theorem witness_ready : let s := { State.reset with start := { StartState.start with phase := .starting }, img := { ImgState.start with bank := some false } }
    s.start.phase = .starting ∧ s.img.bank = some false := by decide

/-! ### Tile words -/

/-- TileNumbering at the last tile; ScalarRegisters. -/
theorem witness_registers : (3 : Nat) < 4 ∧ (11 : Nat) < 12 ∧ 3 * 144 + 11 * 12 + 11 = 575 ∧ (15 : Nat) ≠ 0 ∧ (2 : Nat) ^ 64 - 1 < 2 ^ 64 ∧ (14 : Nat) ≠ 15 ∧
    (lab []).pkg? (desc 1 0).tag = some pkg0 := by decide

/-- ControlWords: one word of each kind, taken branches and both ends of a loop. -/
theorem witness_control_words :
    (let w := wd 0x00 []; stands (atWord w ctx0) 0 false w ctx0 ∧ opcodeOf w.toNat = 0x00 ∧ stray w.toNat [] = false) ∧
    (let w := wd 0x02 [(106, 5), (0, 2 ^ 64 - 1)]; stands (atWord w ctx0) 0 false w ctx0 ∧ opcodeOf w.toNat = 0x02 ∧ stray w.toNat [(106, 4), (0, 64)] = false) ∧
    (let w := wd 0x03 [(106, 5), (102, 1), (94, 0), (93, 1), (0, 7)]; stands (atWord w ctx0) 0 false w ctx0 ∧ opcodeOf w.toNat = 0x03 ∧
      stray w.toNat [(106, 4), (102, 4), (98, 4), (94, 4), (93, 1), (0, 48)] = false ∧
      aluOp (fld w.toNat 94 4) (ctx0.reg (fld w.toNat 102 4)) (second ctx0 w.toNat) = some 7) ∧
    (let w := wd 0x04 [(94, 0), (64, 2 ^ 24 - 1)]; stands (atWord w ctx0) 0 false w ctx0 ∧ opcodeOf w.toNat = 0x04 ∧
      stray w.toNat [(102, 4), (98, 4), (94, 4), (93, 1), (64, 24), (0, 48)] = false ∧
      branchCond (fld w.toNat 94 4) (ctx0.reg (fld w.toNat 102 4)) (second ctx0 w.toNat) = some true) ∧
    (let w := wd 0x05 [(102, 5), (64, 3)]; stands (atWord w (ctx0.setReg 5 1)) 0 false w (ctx0.setReg 5 1) ∧ opcodeOf w.toNat = 0x05 ∧
      stray w.toNat [(102, 4), (64, 24)] = false ∧ fld w.toNat 102 4 ≠ 0) ∧
    (let w := wd 0x00 [(3, 1)]; stands (atWord w ctx0) 0 false w ctx0 ∧ opcodeOf w.toNat = 0x00 ∧ stray w.toNat [] = true) ∧
    (let w := wd 0x10 []; stands (atWord w ctx0) 0 false w ctx0 ∧ opcodeOk (opcodeOf w.toNat) = false) := by
  refine ⟨⟨standsOf ?_, ?_⟩, ⟨standsOf ?_, ?_⟩, ⟨standsOf ?_, ?_⟩, ⟨standsOf ?_, ?_⟩, ⟨standsOf ?_, ?_⟩, ⟨standsOf ?_, ?_⟩, standsOf ?_, ?_⟩ <;> decide

/-- The control words with a stray bit each, in the order of their opcodes. -/
def strayWords : List (BitVec 128 × List (Nat × Nat)) :=
  [(wd 0 [(3, 1)], []), (wd 1 [(3, 1)], []), (wd 2 [(70, 1)], [(106, 4), (0, 64)]),
   (wd 3 [(60, 1)], [(106, 4), (102, 4), (98, 4), (94, 4), (93, 1), (0, 48)]), (wd 4 [(60, 1)], [(102, 4), (98, 4), (94, 4), (93, 1), (64, 24), (0, 48)]),
   (wd 5 [(0, 1)], [(102, 4), (64, 24)]), (wd 6 [(70, 1)], [(106, 4), (93, 1), (0, 64)]), (wd 7 [(70, 1)], [(102, 4), (93, 1), (0, 64)])]

/-- ControlWords: each control word with a stray bit, reserved codes of ALU and BRANCH, and LOOP on S0. -/
theorem witness_stray_words :
    strayWords.map (fun x => opcodeOf x.1.toNat) = List.range 8 ∧
    (∀ x ∈ strayWords, standsB (atWord x.1 ctx0) 0 false x.1 ctx0 = true ∧ stray x.1.toNat x.2 = true) ∧
    (let w := wd 3 [(94, 15)]; standsB (atWord w ctx0) 0 false w ctx0 = true ∧ opcodeOf w.toNat = 3 ∧
      aluOp (fld w.toNat 94 4) (ctx0.reg (fld w.toNat 102 4)) (second ctx0 w.toNat) = none) ∧
    (let w := wd 4 [(94, 15)]; standsB (atWord w ctx0) 0 false w ctx0 = true ∧ opcodeOf w.toNat = 4 ∧
      branchCond (fld w.toNat 94 4) (ctx0.reg (fld w.toNat 102 4)) (second ctx0 w.toNat) = none) ∧
    (let w := wd 5 []; standsB (atWord w ctx0) 0 false w ctx0 = true ∧ opcodeOf w.toNat = 5 ∧ fld w.toNat 102 4 = 0) := by
  decide +kernel

/-- ScalarAccess: scratchpad and global addresses, with a word of data below them, and the status space of this module. -/
theorem witness_scalar_access :
    (let w := wd 0x06 [(106, 5), (93, 1), (0, 0x55FFF8)]; stands (atWord w ctx0) 0 false w ctx0 ∧ opcodeOf w.toNat = 0x06 ∧
      stray w.toNat [(106, 4), (93, 1), (0, 64)] = false ∧ scalarAddr false false w.toNat (ctx0.reg (xregOf w.toNat)) = .ok (true, 0x55FFF8)) ∧
    (let w := wd 0x07 [(102, 1), (93, 1), (0, 8)]; stands (atWord w ctx0) 0 false w ctx0 ∧ opcodeOf w.toNat = 0x07 ∧
      stray w.toNat [(102, 4), (93, 1), (0, 64)] = false ∧ scalarAddr false true w.toNat (ctx0.reg (xregOf w.toNat)) = .ok (true, 8)) ∧
    (let w := wd 0x06 [(106, 5), (0, 0x3FFF * 2 ^ 42 + 16)]; stands (atWord w ctx0) 0 false w ctx0 ∧ opcodeOf w.toNat = 0x06 ∧
      stray w.toNat [(106, 4), (93, 1), (0, 64)] = false ∧
      scalarAddr false false w.toNat (ctx0.reg (xregOf w.toNat)) = .ok (false, 0x3FFF * 2 ^ 42 + 16) ∧ fld (0x3FFF * 2 ^ 42 + 16) 56 8 ≠ 2 ∧
      ((atWord w ctx0).readMem 5 .tile false (0x3FFF * 2 ^ 42 + 16) 8).1 = .ok (List.replicate 8 0)) ∧
    (let w := wd 0x07 [(102, 1), (0, 0x3FFF * 2 ^ 42 + 32)]; stands (atWord w ctx0) 0 false w ctx0 ∧ opcodeOf w.toNat = 0x07 ∧
      stray w.toNat [(102, 4), (93, 1), (0, 64)] = false ∧
      scalarAddr false true w.toNat (ctx0.reg (xregOf w.toNat)) = .ok (false, 0x3FFF * 2 ^ 42 + 32) ∧
      okWith ((atWord w ctx0).places 5 .tile .write false (0x3FFF * 2 ^ 42 + 32) 8) (fun ps => ps.length == 8) = true ∧
      ((atWord w ctx0).writeMem 5 .tile false (0x3FFF * 2 ^ 42 + 32) (leBytes 8 (ctx0.reg 1))).1 = none) ∧
    (let w := wd 0x06 [(106, 5), (0, 2 * 2 ^ 56 + 0x3FFF * 2 ^ 42 + 0x1000)]; stands (atWord w ctx0) 0 false w ctx0 ∧ opcodeOf w.toNat = 0x06 ∧
      stray w.toNat [(106, 4), (93, 1), (0, 64)] = false ∧
      scalarAddr false false w.toNat (ctx0.reg (xregOf w.toNat)) = .ok (false, 2 * 2 ^ 56 + 0x3FFF * 2 ^ 42 + 0x1000) ∧
      (atWord w ctx0).refLocal 5 (0x3FFF * 2 ^ 12) = true) := by
  refine ⟨⟨standsOf ?_, ?_, ?_, isOk_eq ?_⟩, ⟨standsOf ?_, ?_, ?_, isOk_eq ?_⟩, ⟨standsOf ?_, ?_, ?_, isOk_eq ?_, ?_, isOk_eq ?_⟩,
    ⟨standsOf ?_, ?_, ?_, isOk_eq ?_, ?_, ?_⟩, standsOf ?_, ?_, ?_, isOk_eq ?_, ?_⟩ <;> decide +kernel

/-- WritesReadBack: a byte at the end of a beat and one of the next. -/
theorem witness_writes : ∀ i, i < [1#8, 2#8].length → Sp.get false State.reset.mem.poison ((31 + i) / 32) = false := by decide

/-- EndWord: a task whose words are complete, without and with DONE_COUNT, and one that waits. -/
theorem witness_end : (let w := wd 0x01 []
    let cd := Ctx.start (desc 1 (2 ^ 12 + 7)) 5 0
    let cw := ctx0.only (EngWord.fresh (.accStatus 5) 0 (false, false))
    (stands (atWord w ctx0) 0 false w ctx0 ∧ ctx0.words = [] ∧ ctx0.desc.done = none ∧ (atWord w ctx0).pkg? ctx0.desc.tag = some pkg0) ∧
    (stands (atWord w cd) 0 false w cd ∧ cd.words = [] ∧ cd.desc.done = some 7 ∧ ((atWord w cd).raiseCount 5 7 1 0x3FFF).1 = none) ∧
    (stands ({ atWord w cw with mem := { MemState.start with dram := Mem.setBytes [] 16 (leBytes 16 w.toNat) } }) 0 false w cw ∧ cw.words ≠ []) ∧
    opcodeOf w.toNat = 0x01 ∧ stray w.toNat [] = false) := by
  refine ⟨⟨standsOf ?_, ?_⟩, ⟨standsOf ?_, ?_⟩, ⟨standsOf ?_, ?_⟩, ?_⟩ <;> decide

/-! ### Engine words -/

/-- MatrixWords: a 1 by 1 by 1 product under ACC_INIT, a move of one accumulator, and ACC_STATUS. -/
theorem witness_matrix_words :
    (let w := wd 0x20 []; let s := atBlock w ctx0 0x100 [2 ^ 41, 0, 0, 0, 0, 0]
     let w := wd 0x20 [(0, 0x100)]; let s := { s with mem := (atWord w ctx0).mem }
     standsB s 0 false w ctx0 = true ∧ ctx0.words = [] ∧ s.undeclared 0 false ctx0 = false ∧ opcodeOf w.toNat = 0x20 ∧
      stray w.toNat [(0, 24), (106, 4), (102, 4)] = false ∧ isOk (paramAt false w.toNat (ctx0.reg (xregOf w.toNat)) 48) 0x100 = true ∧
      okWith (matPrepare false (memWords (s.tile 0).scratch 0x100 6) 0 0) (fun o => !matTagFault o (s.tile 0).mat) = true) ∧
    (let w := wd 0x21 [(24, 1), (56, 16)]; let s := atWord w ctx0; standsB s 0 false w ctx0 = true ∧ opcodeOf w.toNat = 0x21 ∧
      okWith (accMovePrepare false w.toNat (ctx0.reg (xregOf w.toNat)) (ctx0.projected (s.tile 0).mat)) (fun _ => true) = true) ∧
    (let w := wd 0x22 [(106, 5)]; standsB (atWord w ctx0) 0 false w ctx0 = true ∧ opcodeOf w.toNat = 0x22 ∧ stray w.toNat [(106, 4)] = false) := by
  decide +kernel

/-- A PASS block at offset 0x100: `h` is its first word, with one stage that fuses three immediates, and `sc` its scan word. -/
def passBlock (h sc : Nat) : List Nat :=
  (((h + 2 ^ 25 + 1) :: List.replicate 39 0).set 36 (2 ^ 26 + 2 ^ 22 + 8 * 2 ^ 17 + 8 * 2 ^ 12 + 8 * 2 ^ 7)).set 26 sc

/-- PASS over that block. -/
def passWordAt : BitVec 128 := wd 0x30 [(0, 0x100)]

/-- The checks of a PASS, and what is asked of the pass. -/
def passMeets (s : State) (p : VPass → Bool) : Bool :=
  let n := passWordAt.toNat
  let y := s.tile 0
  standsB s 0 false passWordAt ctx0 && opcodeOf n == 0x30 && !stray n [(0, 24), (106, 4), (102, 4)] && isOk (paramAt false n 0 320) 0x100 &&
    okWith (passPrepare false (memWords y.scratch 0x100 40) 0 0 (ctx0.projected y.mat) y.slotImage) fun q =>
      !(s.undeclared 0 false ctx0 && q.usesAcc) && p q

/-- Does a pass that begins on this carry end without F-3503? -/
def passEnds (s : State) (p : VPass) (k : Option Carry) : Bool :=
  let y := s.tile 0
  let q := p.readConsts y.scratch
  let z : EngWord := { EngWord.fresh (.pass q) 0 (p.halves y.mat) with begun := true, latched := latchedOf y p, pass := q.enter k }
  !(passRun q (z.image y) y.streamK.toNat y.streamC.toNat y.scratch y.mat z.pass z.left).bad

/-- PassWords: a plain pass, a scan on no carry, a scan on a carry record of the scratchpad, and SFN_BATCH. -/
theorem witness_pass_words :
    (let s := atBlock passWordAt ctx0 0x100 (passBlock 0 0); passMeets s (fun p => p.scan.isNone && passEnds s p none) = true) ∧
    (let s := atBlock passWordAt ctx0 0x100 (passBlock (2 ^ 40) (15 * 2 ^ 4 + 8 * 2 ^ 17))
     passMeets s (fun p => match p.scan with
       | some sc => !sc.carryOut && sc.carryIn == 0 && (s.waitFault 5 sc.carryIn sc.waitCount).isNone && passEnds s p none
       | none => false) = true) ∧
    (let s := load (atBlock passWordAt ctx0 0x100 ((passBlock (2 ^ 40) (15 * 2 ^ 4 + 8 * 2 ^ 17 + 2 ^ 27)).set 28 0x400)) 0x400 [0xF0]
     passMeets s (fun p => match p.scan with
       | some sc => let k := Carry.ofBytes (Mem.bytes (s.tile 0).scratch sc.inAddr (carryLen sc.lanes))
         !sc.carryOut && sc.carryIn == 1 && k.fits sc.op sc.fmt sc.lanes sc.tag && passEnds s p (some k)
       | none => false) = true) ∧
    (let w := wd 0x31 [(24, 4096), (48, 1), (73, 1), (77, 1)]; let s := atWord w ctx0; let y := s.tile 0
     standsB s 0 false w ctx0 = true ∧ opcodeOf w.toNat = 0x31 ∧
      okWith (sfnBatchPrepare false w.toNat (ctx0.reg (xregOf w.toNat)) (ctx0.projected y.mat) y.slotImage) (fun p =>
        p.scan.isNone && passEnds s p none) = true) := by
  decide +kernel

/-- A scan that continues from a record of page 0 whose count is reached, and one that leaves its record in page 0. -/
def scanIn2 : State :=
  let s := atBlock passWordAt ctx0 0x100 ((((passBlock (2 ^ 40) (15 * 2 ^ 4 + 8 * 2 ^ 17 + 2 * 2 ^ 27)).set 28 (0x3FFF * 2 ^ 42 + 0x200)).set 27
    ((2 ^ 31 + 0x3FFF * 2 ^ 12 + 3) * 2 ^ 32)))
  { s with mem := { s.mem with dram := Mem.setBytes s.mem.dram 0x200 [0xF0] } }
@[inherit_doc scanIn2] def scanOut : State :=
  atBlock passWordAt ctx0 0x100 ((passBlock (2 ^ 40) (15 * 2 ^ 4 + 8 * 2 ^ 17 + 2 ^ 29)).set 29 (0x3FFF * 2 ^ 42 + 0x200))

/-- A pass whose one stage is NORM_APPLY of a coefficient record that is all zero. -/
def badPass : State :=
  atBlock passWordAt ctx0 0x100 (((passBlock 0 0).set 36 (0x15 * 2 ^ 26 + 2 ^ 22 + 8 * 2 ^ 17 + 18 * 2 ^ 7)).set 20 (0x600 + 2 ^ 24))

/-- The word of a pass of one of these states as it begins on a carry. -/
def passBegun (s : State) (p : VPass) (k : Option Carry) (bs : List Byte) : EngWord :=
  let y := s.tile 0
  let q := p.readConsts y.scratch
  { EngWord.fresh (.pass p) 0 (p.halves (ctx0.projected y.mat)) with op := .pass q, begun := true, latched := latchedOf y p, pass := q.enter k, bufs := (bs, []) }

/-- PassWords: a carry-in of this module's memory, a carry-out, and a pass that meets F-3503. -/
theorem witness_pass_carries :
    passMeets scanIn2 (fun p => match p.scan with
      | some sc => let bs := Mem.bytes scanIn2.mem.dram 0x200 (carryLen sc.lanes); let k := Carry.ofBytes bs
        !sc.carryOut && sc.carryIn == 2 && scanIn2.countReached 5 sc.waitCount sc.waitTarget && scanIn2.plays job5 (fld sc.inAddr 42 14) &&
          sc.inAddr == 0x3FFF * 2 ^ 42 + 0x200 && carryLen sc.lanes == 32 &&
          k.fits sc.op sc.fmt sc.lanes sc.tag && passEnds scanIn2 p (some k)
      | none => false) = true ∧
    passMeets scanOut (fun p => match p.scan with
      | some sc => sc.carryOut && sc.carryIn == 0 && passEnds scanOut p none && (match exec (.pass 0 false passWordAt) scanOut with
        | .next s1 =>
          let z := passBegun scanOut p none []
          let q := p.readConsts (scanOut.tile 0).scratch
          let u := s1.runPass 0 z q z.left
          let r := passRun q (z.image (scanOut.tile 0)) (scanOut.tile 0).streamK.toNat (scanOut.tile 0).streamC.toNat (scanOut.tile 0).scratch
            (scanOut.tile 0).mat z.pass z.left
          ((u.s.countUnchanged (ctx0.only z) u.w q).writeRecord 0 false (ctx0.only z) z.off.toNat sc.outDest sc.raise (carryOut sc r.scan)).fault.isNone
        | _ => false)
      | none => false) = true ∧
    passMeets badPass (fun p => p.scan.isNone && !passEnds badPass p none) = true := by
  decide +kernel

/-- The record of that carry-in is read as it stands, and the read changes nothing. -/
theorem witness_carry_read (z : EngWord) : (scanIn2.placed 0 false z).readMem 5 .tile false (0x3FFF * 2 ^ 42 + 0x200) 32 =
    (.ok (0xF0#8 :: List.replicate 31 0#8), scanIn2.placed 0 false z) := rfl

/-- A record operation's word with its block at offset 0x100 and these bytes of the scratchpad. -/
def recState (op : Nat) (blk : List Nat) (bs : List (Nat × Byte)) : State :=
  bs.foldl (fun s b => load s b.1 [b.2]) (atBlock (wd op [(0, 0x100)]) ctx0 0x100 blk)

/-- DEST in page 0. -/
def dest0 : Nat := 0x3FFF * 2 ^ 42 + 0x200

/-- Does the record word that this command issues write these bytes without a fault? -/
def recEnds (i : Instr) (s : State) (b : RecBlock) (bs : List Byte) : Bool :=
  match exec i s with
  | .next s1 => match s1.ctx? 0 false with
    | some c => (s1.writeRecord 0 false c 0 b.dest b.raise bs).fault.isNone && c.words.length == 1
    | none => false
  | _ => false

/-- RecordWords: two carries, two pairs of row records, and one to finalise, in the scratchpad. -/
theorem witness_record_words :
    (let w := wd 0x32 [(0, 0x100)]; let s := recState 0x32 [37, 0x400, 0x420, dest0, 0, 0, 0, 0] [(0x400, 0xF0), (0x420, 0xF0)]
     standsB s 0 false w ctx0 = true ∧ opcodeOf w.toNat = 0x32 ∧
      okWith (recPrepare 0 false w.toNat (ctx0.reg (xregOf w.toNat)) s (fun b => b.yMode != 1 || b.n != 1 || b.rms || b.eps != 0)
        (fun b => recAddrFaults false b.xMode b.x 32 ++ recAddrFaults false 1 b.y 32)) (fun b =>
          (s.waitFault 5 b.xMode b.xWait).isNone && b.xMode != 2 &&
            okWith (composeBytes false (s.tile 0).scratch b []) (recEnds (.carryCompose 0 false w) s b)) = true) ∧
    (let w := wd 0x33 [(0, 0x100)]; let s := recState 0x33 [37, 0x400, 0x420, dest0, 0, 0, 0, 0] [(0x418, 1), (0x438, 1)]
     standsB s 0 false w ctx0 = true ∧ opcodeOf w.toNat = 0x33 ∧
      okWith (recPrepare 0 false w.toNat (ctx0.reg (xregOf w.toNat)) s
        (fun b => b.yMode == 3 || b.rms || b.eps != 0 || (b.xMode == 0 && b.yMode == 0))
        (fun b => recAddrFaults false b.xMode b.x (32 * b.n) ++ recAddrFaults false b.yMode b.y (32 * b.n) ++
          recRowFaults (s.tile 0).scratch b true)) (fun b =>
          (s.waitFault 5 b.xMode b.xWait).isNone && (s.waitFault 5 b.yMode b.yWait).isNone && b.xMode != 2 && b.yMode != 2 &&
          (match combineRows b.tag (rowsOf (s.tile 0).scratch b.xMode b.x b.n []) (rowsOf (s.tile 0).scratch b.yMode b.y b.n []) with
            | some zs => recEnds (.rowstatCombine 0 false w) s b (zs.flatMap RowStat.toBytes)
            | none => false)) = true) ∧
    (let w := wd 0x34 [(0, 0x100)]; let s := recState 0x34 [33, 0x400, 0, dest0, 0, 0, 0, 0] [(0x418, 1)]
     standsB s 0 false w ctx0 = true ∧ opcodeOf w.toNat = 0x34 ∧
      okWith (recPrepare 0 false w.toNat (ctx0.reg (xregOf w.toNat)) s (fun b => b.xMode == 0 || b.namesY)
        (fun b => recAddrFaults false b.xMode b.x (32 * b.n) ++ recRowFaults (s.tile 0).scratch b false ++ when (epsBad b.eps) 0x3504)) (fun b =>
          let xs := rowsOf (s.tile 0).scratch b.xMode b.x b.n []
          (s.waitFault 5 b.xMode b.xWait).isNone && b.xMode != 2 && xs.all (rowOk b.tag) &&
            recEnds (.rowstatFinalise 0 false w) s b (xs.flatMap fun r => (rowFinalise r b.rms b.eps).toBytes)) = true) := by
  decide +kernel

/-- An Instar image of one segment with the program END alone: domain 0 to 1. -/
def image : List Byte :=
  wordBytes [1 + 2 ^ 8, 0x3F800000 * 2 ^ 32, 0, 0] ++ leBytes 4 (0x3F * 2 ^ 26) ++ List.replicate 12 0#8 ++ leBytes 4 0

/-- InstarLoad: that image at offset 0x100 of page 0, for slot 7. -/
theorem witness_instar_load :
    let w := wd 0x35 [(0, 0x3FFF * 2 ^ 42 + 0x100), (64, 7)]
    let s := { atWord w ctx0 with mem := { MemState.start with dram := Mem.setBytes (atWord w ctx0).mem.dram 0x100 image } }
    let n := w.toNat
    let a := (fld n 0 64 + ctx0.reg (xregOf n)) % 2 ^ 64
    let y := s.tile 0
    let sl := y.slot (fld n 64 3)
    (standsB s 0 false w ctx0 && opcodeOf n == 0x35 && fld n 67 43 == 0 && a % 16 == 0 && decide (a / 2 ^ 56 ≤ 1) && ctx0.words.isEmpty &&
      !holdsGen y.noon 7 (!sl.cur) && !holdsGen y.vesper 7 (!sl.cur) && okWith (s.readMem 5 .tile false a 32).1 (fun h =>
        decide (instarLen (leNat (h.take 8)) ≤ 12288) && isOk (s.readMem 5 .tile false a (instarLen (leNat (h.take 8)))).1 image) &&
      instarOk image) = true := by
  decide +kernel

/-- A one-element tensor of a format in the scratchpad. -/
def tensor (fmt base : Nat) : List Nat := [fmt, base, 0, 0, 1 + 2 ^ 32, 2 ^ 32, 0, 0] ++ List.replicate 12 0

/-- MoveWords: each kind from FP32 at 0x400 to FP32 at 0x500 under the index 0 at 0x600, whose data gives no fault. -/
theorem witness_move_words : ∀ kind : Fin 4,
    let w := wd 0x40 [(0, 0x1000), (24, 0x1100), (48, if kind = 0 then 0 else 0x1200), (72, kind.val)]
    let s := load (load (load (atWord w ctx0) 0x1000 (wordBytes (tensor 1 0x400))) 0x1100 (wordBytes (tensor 1 0x500))) 0x1200 (wordBytes (tensor 9 0x600))
    let n := w.toNat
    let x := ctx0.reg (xregOf n)
    let y := s.tile 0
    (standsB s 0 false w ctx0 && opcodeOf n == 0x40 && fld n 72 3 == kind.val && fld n 87 23 == 0 && fld n 75 2 != 3 && fld n 77 2 != 3 &&
      (kind != 0 || fld n 48 24 == 0) && isOk (descAt false ((fld n 0 24 + x) % 2 ^ 64)) 0x1000 && isOk (descAt false ((fld n 24 24 + x) % 2 ^ 64)) 0x1100 &&
      (kind == 0 || isOk (descAt false (fld n 48 24)) 0x1200) &&
      okWith (movePrepare false (s.ownDevice 5) kind.val (fld n 75 2) (fld n 77 2) (memWords y.scratch 0x1000 20) (memWords y.scratch 0x1100 20)
        (if kind.val = 0 then [] else memWords y.scratch 0x1200 20) (ctx0.reg (fld n 79 4)) (ctx0.reg (fld n 83 4)))
        (fun o => let z : EngWord := { EngWord.fresh (.move o) 0 (false, false) with begun := true }; (s.runMove 0 false 5 z o z.left).fault.isNone)) = true := by
  decide +kernel

/-- The control state of a task with S1 = 8 bytes and S2 a COUNT_REF of count 3 of device 1. -/
def ctxR : Ctx := (ctx0.setReg 1 8).setReg 2 (2 ^ 31 + 2 ^ 12 + 3)

/-- The address of a byte of device 1. -/
def far : Nat := 2 ^ 42 + 0x300

/-- RemoteDataWords: PUT, ACCUMULATE and ATOMIC of 8 bytes to device 1. -/
theorem witness_remote_data :
    (let w := wd 0x50 [(0, far), (64, 0x400), (88, 1)]; let s := placed (atWord w ctxR)
     let r := remoteOf w.toNat ctxR (ctxR.reg (xregOf w.toNat))
     standsB s 0 false w ctxR = true ∧ ctxR.words = [] ∧ opcodeOf w.toNat = 0x50 ∧ remoteFirst (putFaults false r) = none ∧
      s.holdsBack (s.hallFor 5 r.device) r.ch (frameCount false (Mem.bytes (s.tile 0).scratch r.loc r.bytes).length) = false) ∧
    (let w := wd 0x52 [(0, far), (64, 0x400), (88, 1)]; let s := placed (atWord w ctxR)
     let r := remoteOf w.toNat ctxR (ctxR.reg (xregOf w.toNat))
     standsB s 0 false w ctxR = true ∧ opcodeOf w.toNat = 0x52 ∧ remoteFirst (accumulateFaults false r) = none ∧
      s.holdsBack (s.hallFor 5 r.device) r.ch (frameCount false (accumulateData (s.tile 0) (fld r.var 0 2) false true r.loc r.bytes).1.length) = false) ∧
    (let w := wd 0x53 [(0, far), (64, 0x400), (105, 1), (101, 8)]; let s := placed (atWord w ctxR)
     let r := remoteOf w.toNat ctxR (ctxR.reg (xregOf w.toNat))
     standsB s 0 false w ctxR = true ∧ opcodeOf w.toNat = 0x53 ∧ remoteFirst (atomicFaults false r) = none ∧
      s.holdsBack (s.hallFor 5 r.device) r.ch (frameCount false 16) = false) := by
  decide +kernel

/-- RemoteRequestWords: GET and SIGNAL to device 1, and MULTICAST to devices 0 and 1, of which this module plays 0. -/
theorem witness_remote_request :
    (let w := wd 0x51 [(0, far), (64, 0x400), (88, 1)]; let s := placed (atWord w ctxR)
     let r := remoteOf w.toNat ctxR (ctxR.reg (xregOf w.toNat))
     standsB s 0 false w ctxR = true ∧ ctxR.words = [] ∧ opcodeOf w.toNat = 0x51 ∧ remoteFirst (getFaults false r) = none ∧
      s.holdsBack (s.hallFor 5 r.device) r.ch 1 = false) ∧
    (let w := wd 0x55 [(92, 2), (88, 1)]; let s := placed (atWord w ctxR)
     let r := remoteOf w.toNat ctxR (ctxR.reg (xregOf w.toNat))
     standsB s 0 false w ctxR = true ∧ opcodeOf w.toNat = 0x55 ∧ remoteFirst (signalFaults false r) = none ∧
      refDevice (fld r.cnt 0 32) < 14641 ∧ s.holdsBack (s.hallFor 5 (refDevice (fld r.cnt 0 32))) r.ch 1 = false) ∧
    (let w := wd 0x54 [(0, 0x300), (64, 0x400), (88, 1), (101, 9)]
     let j := { job5 with groups := [(9, [0, 1])], devices := 2 }
     let s := { placed (atWord w ctxR) with jobs := [j] }
     let r := remoteOf w.toNat ctxR (ctxR.reg (xregOf w.toNat))
     standsB s 0 false w ctxR = true ∧ opcodeOf w.toNat = 0x54 ∧
      remoteFirst (multicastFaults false s 5 r) = none ∧
      s.members 5 r.var = some (j, [0, 1]) ∧ ([1].any fun d => s.holdsBack (j.hallOf d) r.ch (frameCount false r.bytes)) = false ∧
      [0, 1].find? (s.plays j) = some 0 ∧
      (s.writeMem 5 .tile false (withDevice r.addr 0) (Mem.bytes (s.tile 0).scratch r.loc r.bytes)).1 = none ∧ r.sig = none) := by
  decide +kernel

/-! ### Counts, barriers, signals, queues -/

/-- CountRule and CountWait: count 3 of this module, reached at 0 and not at 1, and a count of device 1. -/
theorem witness_counts :
    (lab []).job? 5 = some job5 ∧ (lab []).waitRefFault 5 (2 ^ 31 + 0x3FFF * 2 ^ 12 + 3) = none ∧ countRefBad (2 ^ 31 + 2 ^ 12 + 3) = false ∧
    (placed (lab [])).plays job5 (refDevice (2 ^ 31 + 2 ^ 12 + 3)) = false ∧ (placed (lab [])).job? 5 = some job5 ∧ job5.grad = none ∧
    (let w := wd 0x60 [(0, 2 ^ 31 + 0x3FFF * 2 ^ 12 + 3)]; standsB (atWord w ctx0) 0 false w ctx0 = true ∧ opcodeOf w.toNat = 0x60 ∧ fld w.toNat 68 42 = 0 ∧
      (atWord w ctx0).waitRefFault 5 (fld w.toNat 0 32) = none ∧
      (atWord w ctx0).countReached 5 (fld w.toNat 0 32) ((fld w.toNat 32 32 + ctx0.reg (fld w.toNat 64 4)) % 2 ^ 32) = true) ∧
    (let w := wd 0x60 [(0, 2 ^ 31 + 0x3FFF * 2 ^ 12 + 3), (32, 1)]; standsB (atWord w ctx0) 0 false w ctx0 = true ∧
      (atWord w ctx0).waitRefFault 5 (fld w.toNat 0 32) = none ∧
      (atWord w ctx0).countReached 5 (fld w.toNat 0 32) ((fld w.toNat 32 32 + ctx0.reg (fld w.toNat 64 4)) % 2 ^ 32) = false) ∧
    (let w := wd 0x60 [(0, 2 ^ 31 + 2 ^ 12 + 3)]; standsB (placed (atWord w ctx0)) 0 false w ctx0 = true ∧
      (placed (atWord w ctx0)).waitRefFault 5 (fld w.toNat 0 32) = some 0x4101) := by
  decide +kernel

/-- CountRule: a scan and the record operations that wait on a count of device 1. -/
theorem witness_foreign_counts : (let ref := 2 ^ 31 + 2 ^ 12 + 3
    (let s := placed (atBlock passWordAt ctx0 0x100 (((passBlock (2 ^ 40) (15 * 2 ^ 4 + 8 * 2 ^ 17 + 2 * 2 ^ 27)).set 27 (ref * 2 ^ 32)).set 28 dest0))
     passMeets s (fun p => match p.scan with | some sc => s.waitFault 5 sc.carryIn sc.waitCount == some (0x4101, sc.waitCount) | none => false) = true) ∧
    (let w := wd 0x32 [(0, 0x100)]; let s := placed (recState 0x32 [2 + 4 + 32, dest0, 0x420, dest0, ref, 0, 0, 0] [])
     standsB s 0 false w ctx0 = true ∧ okWith (recPrepare 0 false w.toNat (ctx0.reg (xregOf w.toNat)) s (fun b => b.yMode != 1 || b.n != 1 || b.rms || b.eps != 0)
        (fun b => recAddrFaults false b.xMode b.x 32 ++ recAddrFaults false 1 b.y 32))
        (fun b => s.waitFault 5 b.xMode b.xWait == some (0x4101, b.xWait)) = true) ∧
    (let w := wd 0x33 [(0, 0x100)]; let s := placed (recState 0x33 [1 + 8 + 32, 0x400, dest0, dest0, 0, ref, 0, 0] [(0x418, 1)])
     standsB s 0 false w ctx0 = true ∧ okWith (recPrepare 0 false w.toNat (ctx0.reg (xregOf w.toNat)) s
        (fun b => b.yMode == 3 || b.rms || b.eps != 0 || (b.xMode == 0 && b.yMode == 0))
        (fun b => recAddrFaults false b.xMode b.x (32 * b.n) ++ recAddrFaults false b.yMode b.y (32 * b.n) ++ recRowFaults (s.tile 0).scratch b true))
        (fun b => (s.waitFault 5 b.xMode b.xWait).isNone && s.waitFault 5 b.yMode b.yWait == some (0x4101, b.yWait)) = true) ∧
    (let w := wd 0x33 [(0, 0x100)]; let s := placed (recState 0x33 [2 + 4 + 32, dest0, 0x400, dest0, ref, 0, 0, 0] [(0x418, 1)])
     standsB s 0 false w ctx0 = true ∧ okWith (recPrepare 0 false w.toNat (ctx0.reg (xregOf w.toNat)) s
        (fun b => b.yMode == 3 || b.rms || b.eps != 0 || (b.xMode == 0 && b.yMode == 0))
        (fun b => recAddrFaults false b.xMode b.x (32 * b.n) ++ recAddrFaults false b.yMode b.y (32 * b.n) ++ recRowFaults (s.tile 0).scratch b true))
        (fun b => s.waitFault 5 b.xMode b.xWait == some (0x4101, b.xWait)) = true) ∧
    (let w := wd 0x34 [(0, 0x100)]; let s := placed (recState 0x34 [2 + 32, dest0, 0, dest0, ref, 0, 0, 0] [])
     standsB s 0 false w ctx0 = true ∧ okWith (recPrepare 0 false w.toNat (ctx0.reg (xregOf w.toNat)) s (fun b => b.xMode == 0 || b.namesY)
        (fun b => recAddrFaults false b.xMode b.x (32 * b.n) ++ recRowFaults (s.tile 0).scratch b false ++ when (epsBad b.eps) 0x3504))
        (fun b => s.waitFault 5 b.xMode b.xWait == some (0x4101, b.xWait)) = true)) := by
  decide +kernel

/-- CountIncrement: count 3, watched by tile 0; and a pair of capacity 1 that forbids an increment by 2. -/
theorem witness_increment :
    countRefOk (0x80000000 + 0x3FFF * 2 ^ 12 + 3) = true ∧ 0 < (1 : BitVec 32).toNat ∧ (0x7FFFFFFF : BitVec 32).toNat < 2 ^ 31 ∧
    (lab []).refLocal 5 (2 ^ 31 + 0x3FFF * 2 ^ 12 + 3) = true ∧ (lab []).job? 5 = some job5 ∧
    { job5 with watch := [(3, 0)] }.pairFault (refIndex (2 ^ 31 + 0x3FFF * 2 ^ 12 + 3)) 1 = none ∧
    { job5 with pairs := [(3, 579, 1)] }.pairFault (refIndex (2 ^ 31 + 0x3FFF * 2 ^ 12 + 3)) 2 = some 0x4201 ∧
    { job5 with pairs := [(579, 3, 1)] }.pairFault (refIndex (2 ^ 31 + 0x3FFF * 2 ^ 12 + 3)) 1 = some 0x4202 := by
  decide +kernel

/-- The group record of this module alone, of one arrival, and one of two. -/
def group1 : W64 × W64 := (BitVec.ofNat 64 (1 + 2 ^ 11 + 2 ^ 22 + 2 ^ 33), 1)
@[inherit_doc group1] def group2 : W64 × W64 := (BitVec.ofNat 64 (1 + 2 ^ 11 + 2 ^ 22 + 2 ^ 33), 2)

/-- Job 5 with a barrier in slot 9. -/
def jobB (b : Barrier) : JobCtx := { job5 with barriers := [(9, b)] }

/-- BarrierWords: an arrival of a group of two, a wait on a released and on an unreleased epoch, and the three cases of an arrival. -/
theorem witness_barrier :
    (let w := wd 0x61 [(0, 9), (6, 0x200)]; let s := atBlock w ctx0 0x200 [group2.1.toNat, 2]
     standsB s 0 false w ctx0 = true ∧ opcodeOf w.toNat = 0x61 ∧ fld w.toNat 31 79 = 0 ∧ ctx0.arrived = false ∧ flag w.toNat 30 = false ∧
      isOk (groupAt false w.toNat (ctx0.reg (xregOf w.toNat))) 0x200 = true ∧
      (let ws := memWords (s.tile 0).scratch 0x200 2; isOk (s.arriveLocal 5 9 (BitVec.ofNat 64 (nth 0 ws 0), BitVec.ofNat 64 (nth 0 ws 1))).1 0) = true) ∧
    (let w := wd 0x62 [(0, 9)]; let c := { ctx0 with arrivals := [(9, 0)] }; let s := { atWord w c with jobs := [jobB { Barrier.start with released := 0 }] }
     standsB s 0 false w c = true ∧ opcodeOf w.toNat = 0x62 ∧ fld w.toNat 6 104 = 0 ∧ c.arrivals.find? (·.1 == fld w.toNat 0 6) = some (9, 0) ∧
      s.job? 5 = some (jobB { Barrier.start with released := 0 }) ∧ ((jobB { Barrier.start with released := 0 }).barrier 9).passed 0 = true) ∧
    (let w := wd 0x62 [(0, 9)]; let c := { ctx0 with arrivals := [(9, 0)] }
     standsB (atWord w c) 0 false w c = true ∧ (job5.barrier 9).passed 0 = false) ∧
    (lab []).groupBad ((lab []).deviceOf job5) group2.1.toNat 2 = false ∧
    (job5.barrier 9).complete = false ∧ (job5.barrier 9).group = none ∧
    ((jobB { Barrier.start with group := some group1, count := 1 }).barrier 9).complete = true ∧
    ((jobB { Barrier.start with group := some group1, count := 1 }).barrier 9).group1 = none ∧
    ((jobB { Barrier.start with group := some group2, count := 1 }).barrier 9).complete = false ∧
    ((jobB { Barrier.start with group := some group2, count := 1 }).barrier 9).group.isSome = true ∧
    ((jobB { Barrier.start with group := some group2, count := 1 }).barrier 9).group ≠ some group1 := by
  decide +kernel

/-- HostSignals: HOST_SIGNAL 0xFFFF, HOST_WAIT with a pending signal, a slot that waits for release, and an unreported signal. -/
theorem witness_host_signals :
    (let w := wd 0x63 [(0, 0xFFFF), (16, 4)]; standsB (atWord w ctx0) 0 false w ctx0 = true ∧ opcodeOf w.toNat = 0x63 ∧ fld w.toNat 20 90 = 0 ∧
      (atWord w ctx0).job? 5 = some job5) ∧
    (let w := wd 0x64 [(0, 0xFFFF), (16, 4)]; let j := { job5 with inbox := [(0xFFFF, 2, 77)] }; let s := { atWord w ctx0 with jobs := [j] }
     standsB s 0 false w ctx0 = true ∧ opcodeOf w.toNat = 0x64 ∧ fld w.toNat 20 90 = 0 ∧ s.job? 5 = some j ∧
      j.inbox.find? (·.1 == fld w.toNat 0 16) = some (fld w.toNat 0 16, 2, 77) ∧ (2 : BitVec 32) ≠ 0 ∧ j.hostWaiters.find? (·.1 == fld w.toNat 0 16) = none) ∧
    (let s := later (lab []); let b := (jobB { Barrier.start with since := 5 }).barrier 9
     b.since ≠ 0 ∧ s.passed (b.since - 1) (s.cfg.barrierTimeout * 1000000) = true) ∧
    ({ job5 with outbound := [(7, ⟨1, 0, none⟩)] }).outbound.find? (fun e : Nat × OutSig => e.2.pend != 0 && e.2.sent.isNone) = some (7, ⟨1, 0, none⟩) := by
  decide +kernel

/-- QueueWords: a descriptor for tile 575, one for a full queue of another tile and of its own, one out of form, one of the other
CLASS, one pinned to an isolated tile, and QUEUE_STATE. -/
theorem witness_queue_words :
    (let w := wd 0x70 [(0, 0x200)]; let s := atBlock w ctx0 0x200 [1 + 575 * 2 ^ 38, 0, 0, 0]
     standsB s 0 false w ctx0 = true ∧ opcodeOf w.toNat = 0x70 ∧ stray w.toNat [(0, 24)] = false ∧
      isOk (paramAt false w.toNat (ctx0.reg (xregOf w.toNat)) 32) 0x200 = true ∧
      (let ws := memWords (s.tile 0).scratch 0x200 4
       let d : Desc := ⟨BitVec.ofNat 64 (nth 0 ws 0), BitVec.ofNat 64 (nth 0 ws 1), BitVec.ofNat 64 (nth 0 ws 2), BitVec.ofNat 64 (nth 0 ws 3)⟩
       d.bad none = none ∧ s.homeFor d = some 575 ∧ (s.tile 575).room d.vesper = true ∧
       (let z := s.setTile 575 { TileState.start with queue := List.replicate 64 d }; z.homeFor d = some 575 ∧ (z.tile 575).room d.vesper = false))) ∧
    (desc (1 + 600 * 2 ^ 38) 0).bad none = some 0x3201 ∧
    (let d := desc (1 + 2 ^ 32) 65536; d.bad none = none ∧ d.vesper = true ∧ (match (lab []).pkg? 0 with | some p => p.vesper | none => true) = false) ∧
    (let s := (lab []).setTile 3 { TileState.start with isolated := true }; let d := desc (1 + 3 * 2 ^ 38) 0; d.bad none = none ∧ s.homeFor d = none) ∧
    (let w := wd 0x71 [(106, 5)]; standsB (atWord w ctx0) 0 false w ctx0 = true ∧ opcodeOf w.toNat = 0x71 ∧ stray w.toNat [(106, 4)] = false) := by
  decide +kernel

/-! ### Tiles -/

/-- A word that has run, and the control state of a task with that word alone. -/
def wordRan : EngWord := { EngWord.fresh (.accStatus 5) 0 (false, false) with begun := true, ran := true }
@[inherit_doc wordRan] def ctxRan : Ctx := ctx0.only wordRan

theorem ctx_ran : (atWord 0 ctxRan).ctx? 0 false = some ctxRan := by decide +kernel

theorem nothing_begins : (atWord 0 ctxRan).beginWords 0 false = atWord 0 ctxRan := by
  have g : (atWord 0 ctxRan).beginOne 0 false 0 = atWord 0 ctxRan := by
    simp only [State.beginOne, ctx_ran]; rfl
  simp only [State.beginWords, ctx_ran]
  exact g

/-- EngineWordCompletes: no word, and a word that has run. -/
theorem witness_engine_word :
    (ctx0.nextDone 0 = none ∧ (atWord 0 ctx0).beginWords 0 false = atWord 0 ctx0) ∧
    (let s := atWord 0 ctxRan
     s.ctx? 0 false = some ctxRan ∧ ctxRan.nextDone 0 = some (0, wordRan) ∧ (s.tile 0).engines false = true ∧ s.beginWords 0 false = s ∧
      wordRan.ran = true ∧ wordRan.waits = [] ∧ (s.tile 0).isolated = false) :=
  ⟨⟨by decide +kernel, rfl⟩, ctx_ran, by decide +kernel, by decide +kernel, nothing_begins, rfl, rfl, by decide +kernel⟩

/-- A tile with a queue. -/
def queued (t : Nat) (ds : List Desc) : State := (lab []).setTile t { TileState.start with queue := ds }

/-- A Vesper descriptor of tile 0, PORTABLE in the die. -/
def vdesc : Desc := desc (1 + 2 ^ 32 + 2 ^ 33 + 2 * 2 ^ 34) (16 * 2 ^ 16)

/-- TaskTakeStartsTask: a Vesper descriptor behind a Noon one, a Noon one alone, and a Vesper one over a suspended Noon task. -/
theorem witness_task_take :
    ((queued 0 [desc 1 0, vdesc]).tile 0).queue.find? (·.vesper) = some vdesc ∧ ((queued 0 [desc 1 0]).tile 0).queue.find? (·.vesper) = none ∧
    ((queued 0 [desc 1 0]).tile 0).queue.head? = some (desc 1 0) ∧ (desc 1 0).vesper = false ∧ vdesc.vesper = true ∧
    (queued 0 [desc 1 0]).pkg? (desc 1 0).tag = some pkg0 ∧ (queued 0 [vdesc]).pkg? vdesc.tag = some pkg0 ∧
    ((queued 0 [vdesc]).tile 0).isolated = false ∧ ((queued 0 [vdesc]).tile 0).retained = false ∧ ((queued 0 [vdesc]).tile 0).vesper = none ∧
    ((queued 0 [vdesc]).tile 0).noon = none := by decide

/-- A PORTABLE Noon descriptor of tile 0 for any tile. -/
def pdesc (kernel : Nat) : Desc := desc (kernel + 2 ^ 33 + 3 * 2 ^ 34) 0

/-- StealingMovesDescriptors: tile 1 probes tile 0, and an order that finds nothing. -/
theorem witness_stealing :
    let s := queued 0 [pdesc 1, pdesc 2, pdesc 3]
    (s.tile 1).mayProbe = true ∧ (s.tile 1).probed = false ∧ s.probeOrder 1 = some (0, [pdesc 3]) ∧ (lab []).probeOrder 1 = none ∧
      ((lab []).tile 1).mayProbe = true ∧ s.handed 0 1 = [pdesc 3] := by decide +kernel

/-- StealingEligibility: Noon across dies, Vesper within one, and the cases of what is handed over. -/
theorem witness_eligibility :
    (let s := queued 0 [pdesc 1]; s.eligible 0 150 0 (pdesc 1) = true ∧ (pdesc 1).vesper = false ∧ s.eligibles 0 150 = [pdesc 1] ∧ dieOf 0 ≠ dieOf 150 ∧
      (s.eligibles 0 150).length < s.cfg.crossDieMin ∧ (s.eligibles 0 150).any (·.vesper) = false) ∧
    (let s := queued 0 (List.replicate 8 (pdesc 1)); s.cfg.crossDieMin ≤ (s.eligibles 0 150).length ∧ (s.eligibles 0 150).any (·.vesper) = false) ∧
    (let v := desc (1 + 2 ^ 32) (1024 * 2 ^ 16); let s := queued 0 [v, vdesc]
     s.eligible 0 1 1024 vdesc = true ∧ (s.eligibles 0 1).filter (·.vesper) = [vdesc] ∧ (s.tile 0).queue = [v] ++ vdesc :: [] ∧
      sumNat (([v].filter (·.vesper)).map Desc.cost) = 1024) ∧
    ((queued 0 []).eligibles 0 1 = []) ∧
    (let s := (lab []).setTile 0 { TileState.start with queue := [pdesc 1], isolated := true }; (s.tile 0).isolated = true) ∧
    (let s := (lab []).setTile 0 { TileState.start with queue := [pdesc 1], retained := true }; (s.tile 0).retained = true) := by decide +kernel

/-- TileConditions: a Noon task to suspend and to resume, waiting tiles, a tile woken, and a surplus. -/
theorem witness_tile_conditions :
    (let s := (lab []).setTile 0 { TileState.start with queue := [vdesc], noon := some ctx0 }
     (s.tile 0).noon = some ctx0 ∧ (s.tile 0).isolated = false ∧ (s.tile 0).suspended = false ∧ (s.tile 0).queue.any (·.vesper) = true ∧
      (s.tile 0).noon.isSome = true ∧ ctx0.words.any EngWord.midst = false) ∧
    (let s := { lab [] with pkgs := [] }; (s.tile 0).isolated = false ∧ s.lostWith 0 = [] ∧ (s.tile 0).queue = [] ∧ s.start.phase ≠ .safe ∧
      nearestThat 0 (fun u => !(s.tile u).isolated && (s.tile u).room false) = some 1) ∧
    (let s := { lab [] with tiles := (List.range 144).map fun t => (t, { TileState.start with isolated := true }) }
     nearestThat 0 (fun u => !(s.tile u).isolated && (s.tile u).room false) = none) ∧ { StartState.start with phase := .safe }.phase = .safe ∧
    (let s := (lab []).setTile 0 { TileState.start with noon := some ctx0, suspended := true }
     (s.tile 0).noon = some ctx0 ∧ (s.tile 0).suspended = true ∧ (s.tile 0).vesper = none ∧ (s.tile 0).queue.any (·.vesper) = false) ∧
    (let s := (lab []).setTile 0 { TileState.start with noon := some { ctx0 with waiting := true } }
     (s.tile 0).allWait = true ∧ (s.tile 0).queue = [] ∧ (s.tile 0).retained = false) ∧
    ({ TileState.start with woken := true }.woken = true ∧ { TileState.start with retained := true }.retained = true) ∧
    (let s := (queued 0 (List.replicate 4 (pdesc 1))).setTile 1 { TileState.start with noon := some { ctx0 with waiting := true } }
     s.surplusFor 1 = true) := by decide +kernel

/-! ### Packages -/

/-- StatusRefreshPublishes: a module with and without a session that holds an unlock, and a block with a 1 ms refresh and one without. -/
theorem witness_status : (lab []).start.phase ≠ .off ∧ (lab []).unlockLevel = 0 ∧ msBlock 3 = true ∧ msBlock 11 = false ∧
    (let s := { lab [] with conns := [{ conn1 with unlock := some (1, 0) }] }; s.unlockLevel ≠ 0) ∧ (0 : Fin 12) ≠ 3 ∧ (11 : Fin 12) ≠ 10 := by
  decide

/-- SequencersWriteTasks: kernel 1 becomes ready, another module's one does not, and its one task is written to tile 0, lost with
an isolated tile, or refused. -/
theorem witness_sequencers :
    (lab []).pkg? 0 = some pkg0 ∧ pkg0.kernel? 1 = some ⟨1, 0, 0, 1, []⟩ ∧ (lab []).kernelMayStart 0 pkg0 ⟨1, 0, 0, 1, []⟩ = true ∧
    (lab []).job? pkg0.job = some job5 ∧ (lab []).kernelMayStart 1 pkg0 ⟨1, 0, 0, 1, []⟩ = false ∧
    (let p := { pkg0 with ready := [1] }; let s := { lab [] with pkgs := [p] }; let k : Kernel := ⟨1, 0, 0, 1, []⟩
     s.pkg? 0 = some p ∧ p.kernel? 1 = some k ∧ p.task k 0 = some (desc 1 0) ∧ p.running = true ∧ k.die = 0 ∧ p.ready.contains k.id = true ∧
      p.written.contains (k.id, 0) = false ∧ p.inOrder k 0 (desc 1 0).home = true ∧ p.descBad k (desc 1 0) = none ∧
      s.homeFor (desc 1 0) = some 0 ∧ (s.tile 0).room (desc 1 0).vesper = true ∧ s.vesperFirst 0 = false ∧
      (s.setTile 0 { TileState.start with isolated := true }).homeFor (desc 1 0) = none) ∧
    (let x := desc (1 + 2 ^ 32) 0; { pkg0 with tasks := [x] }.task ⟨1, 0, 0, 1, []⟩ 0 = some x ∧ pkg0.descBad ⟨1, 0, 0, 1, []⟩ x = some 0x3201 ∧
      pkg0.inOrder ⟨1, 0, 0, 1, []⟩ 0 x.home = true) := by
  decide +kernel

/-- Layer 0 of one page at page 0, whose slot is slot 0 at page 1. -/
def landing0 : Landing := ⟨[(1, 1)], [⟨0, 1, 0, 8, 1, 0, 0⟩]⟩

/-- PackagesAndSteps: a package that may start, a step that is over, a layer that has landed, and a last step that is over. -/
theorem witness_packages :
    (let p := { pkg0 with running := false, step := 0 }; let s := { lab [] with pkgs := [p], start := { StartState.start with phase := .ready } }
     s.pkg? 0 = some p ∧ s.mayStart p = true ∧ s.xfers = []) ∧
    (let p := { pkg0 with ready := [1], written := [(1, 0)], ended := [(1, 0)] }; let j := { job5 with verdict := some 1 }
     let s := { lab [] with pkgs := [p], jobs := [j] }
     s.pkg? 0 = some p ∧ p.running = true ∧ p.kind = 1 ∧ p.step < p.stepCount ∧ s.stepOver p = true ∧ s.windowOpen p.job = false ∧ s.windowDue p.job = false ∧ s.job? p.job = some j ∧
      s.xfers = [] ∧ (let q := { p with step := 2 }; let z := { s with pkgs := [q] }; z.pkg? 0 = some q ∧ q.running = true ∧ q.step = q.stepCount ∧ q.kind ≠ 3 ∧
        z.stepOver q = true ∧ (z.settleNorms q.job).recordDone q = true ∧
        (z.settleNorms q.job).handsOver q.conn = true ∧ ({ z with conns := [{ conn1 with window := 0 }] }.settleNorms q.job).handsOver q.conn = false)) ∧
    (let p := { pkg0 with landing := some landing0 }
     let j := { job5 with verdicts := 1, counts := [(8, 1)], pages := job5.pages ++ [⟨false, 1, 0, false, 1, 0⟩] }; let s := { lab [] with pkgs := [p], jobs := [j] }
     s.pkg? 0 = some p ∧ p.landing = some landing0 ∧ s.job? p.job = some j ∧ landing0.layers[0]? = some ⟨0, 1, 0, 8, 1, 0, 0⟩ ∧ p.running = true ∧
      j.skipped.contains (Sp.get 0 j.flips 0 + 1) = false ∧ j.slotTurn landing0 0 0 = true ∧ p.readersEnded j 0 = true ∧
      1 ≤ ((Sp.get 0#32 j.counts 8) - (Sp.get 0#32 j.landedAt 8)).toNat) := by
  decide +kernel

/-! ### Stacked memory -/

/-- ChannelRequests: a Noon write of one beat to channel 575, behind which a Vesper request of a later requester goes first; a due
refresh, a failed channel, and beats in error. -/
theorem witness_channel_request :
    (let q : ChReq := ⟨false, 3, 0xFFFFFFE0, .write (List.replicate 32 1), [], none, 0⟩; let m := State.reset.mem
     Sp.get false m.failed 575 = false ∧ State.reset.refreshDue 575 = false ∧ nextRequest (fun v => Sp.get 0 m.turn (575 * 2 + bit v)) [q] = some q ∧
      chOk q = true ∧ (lab []).alive = true ∧ (lab []).mem.failed = [] ∧ (lab []).mem.poison = [] ∧ (lab []).refreshDue 575 = false ∧ q.overruns = 0 ∧ q.errors = [] ∧ m.poison = [] ∧ q.op = .write (List.replicate 32 1)) ∧
    (let a : ChReq := ⟨false, 0, 0, .read 8, [], none, 0⟩; let b : ChReq := ⟨true, 2, 0, .read 8, [], none, 0⟩
     let c : ChReq := ⟨true, 1, 0, .read 8, [], none, 0⟩
     nextRequest (fun _ => 2) [a, c, b] = some b ∧ nextRequest (fun _ => 3) [a, b, c] = some c) ∧
    (let s := { State.reset with mem := { MemState.start with refreshedAt := [(575 * 2 ^ 16, 1)] },
                                 start := { StartState.start with phase := .ready, timer := 31998000 } }
     s.alive = true ∧ s.refreshDue 575 = true ∧ Sp.get false s.mem.failed 575 = false) ∧
    Sp.get false { MemState.start with failed := [(575, true)] }.failed 575 = true ∧
    beatCheck ⟨[], false⟩ = .clean ∧ (35 : Fin 36) ≠ 0 := by
  decide +kernel

/-- ChannelCare: a module out of reset, a channel in service, beats without and with errors, a package with a page in a channel and none,
readings below 97 degrees and at it, and a hold whose stacks have been cool for 10 s, for less, and not at all. -/
theorem witness_channel_care :
    (let s := lab []
     s.alive = true ∧ s.start.phase ≠ .off ∧ Sp.get false s.mem.failed 0 = false ∧ Sp.get false s.mem.poison (0 * 2 ^ 27 + Sp.get 0 s.mem.scrubPos 0) = false ∧
      s.pkgsOn 0 = [0] ∧ s.pkgsOn 5 = [] ∧ s.mem.failed.length + 1 < 576) ∧
    beatCheck ⟨[], false⟩ = .clean ∧ beatCheck ⟨[], true⟩ = .uncorrectable ∧ max (96 : Celsius) 20 < 97 ∧ 97 ≤ max (97 : Celsius) 20 ∧
    (let s := { lab [] with mem := { MemState.start with hold := true, below := 1 } }
     s.mem.hold = true ∧ s.mem.below = 0 + 1 ∧ s.passed 0 10000000000 = false ∧ (later s).passed 0 10000000000 = true ∧
      { s with mem := { s.mem with below := 0 } }.mem.below = 0) := by
  decide +kernel

/-- R14's example: channel 317 is the one of the tile at row 2, column 5 of die 2; stack 12, channel 17 of it. -/
theorem test_stack_of_channel : stackOf 317 = 12 ∧ inStack 317 = 17 ∧ stackOf 575 = 23 := by decide

/-! ### The fabric -/

/-- An UP port. -/
def up : Port := { Port.start with st := 2, phy := true, identified := true }

/-- The module at hall position 0 with a frame in the inbox of its UP port P00, and job 5 as given. -/
def atPort (f : Frame) (j : JobCtx := job5) : State := (placed { lab [] with jobs := [j] }).setPort 0 { up with inbox := [f] }

/-- A request or reply of hall 1331, behind P00, for job 5. -/
def fr (op : BitVec 4) (ch : Nat := 0) : Frame := { Frame.plain op false ch 0 1331 5 1 with hops := 1 }

/-- `arrives` and `replies` as tests. -/
def arrivesB (s : State) (p : PortId) (op : BitVec 4) (f : Frame) (j : JobCtx) : Bool :=
  f.op == op && (s.port p.val).inbox.contains f && decide (s.job? f.job = some j) && decide (j.judge f = .apply) && !(s.known p f).noTally f

theorem arrivesOf {s : State} {p : PortId} {op : BitVec 4} {f : Frame} {j : JobCtx} (h : arrivesB s p op f j = true) : arrives s p op f j := by
  simp only [arrivesB, Bool.and_eq_true, beq_iff_eq, decide_eq_true_eq, Bool.not_eq_true'] at h
  exact ⟨h.1.1.1.1, h.1.1.1.2, h.1.1.2, h.1.2, h.2⟩

theorem repliesOf {s : State} {p : PortId} {op : BitVec 4} {f : Frame} {j : JobCtx} (h : arrivesB s p op f j = true) : replies s p op f j :=
  have a := arrivesOf h
  ⟨a.1, a.2.1, a.2.2.1, a.2.2.2.1⟩

/-- A module with a HALL_CAK whose port P00 is UP under the key 0. -/
def secured : State := { (placed (lab [])).setPort 0 up with sec := { SecState.start with hallCak := some 5 } }

/-- A frame as the peer of P00 sends it under the key 0: Table 16-8's SecTAG with PN 1, the ICV and the FCS. -/
def wired (h : EthHdr) (f : Frame) : RxFrame :=
  let bs := wireBytes 0 (secured.ssci 0 false) 1 h f
  ⟨h, f, true, BitVec.ofNat 128 (leNat (bs.drop (bs.length - 16))), fcsOf bs, 0, false⟩

/-- The headers of a frame to a MAC address, and a WRITE of 8 bytes. -/
def ethTo (dst : BitVec 48) : EthHdr := ⟨dst, macOf 1331 9, 0x88E5, 3, 0, 0, 1, 0x88B5⟩
@[inherit_doc ethTo] def write8 : Frame := { fr 0 with payload := List.replicate 8 0, length := 8 }

/-- FrameReceive: a WRITE of 8 bytes in order on P00, a damaged one, one of another address, and a dark port. -/
theorem witness_frame_receive :
    let f := write8
    let x := secured.port 0
    x.credited f = true ∧
    (let rx := wired (ethTo (macOf 0 0)) f
     rx.overrun = false ∧ x.phy = true ∧ secured.verifies 0 rx = true ∧ rx.hdr.inner = 0x88B5 ∧ rx.hdr.dst = macOf secured.hall 0 ∧ f.op ≠ 0xE ∧
      x.linked = true ∧ f.ackValid = false ∧ f.linkSeq = (if f.vesper then x.rxV else x.rxN) ∧ headerBad f = false ∧ opBad f = false ∧
      secured.routeBad 0 f = false ∧ secured.verifies 0 { rx with icv := rx.icv + 1 } = false ∧ { rx with overrun := true }.overrun = true) ∧
    (secured.verifies 0 (wired (ethTo (macOf 0 1)) f) = true ∧ macOf 0 1 ≠ macOf secured.hall 0) ∧ (secured.port 1).phy = false := by
  refine ⟨Port.credited_of_small (by decide +kernel), ?_⟩
  decide +kernel

/-- FrameForwardAndTransmit: a frame at its destination, one for hall 1331 by P00, one that has made six hops, one without a way; a
port with nothing to resend, one with a Vesper frame to resend, one with a LINK_CTRL frame, and one whose PN is spent. -/
theorem witness_frame_forward :
    let sent (d : Nat) (h : BitVec 3) : Frame := { Frame.plain 0 false 0 d 2662 5 1 with hops := h }
    let st (f : Frame) (x : Port) : State := (placed (lab [])).setPort 0 { x with rxq := [f] }
    (((st (sent 0 1) up).port 0).head = some (sent 0 1) ∧ (sent 0 1).dst.toNat = (st (sent 0 1) up).hall) ∧
    (((st (sent 1331 1) up).port 0).head = some (sent 1331 1) ∧ (sent 1331 1).dst.toNat ≠ (st (sent 1331 1) up).hall ∧ (sent 1331 1).hops.toNat < 6 ∧
      (((st (sent 1331 1) up).setPort 0 { (st (sent 1331 1) up).port 0 with rxq := [] }).freeBuffer 0 (sent 1331 1)).routeOf { sent 1331 1 with detour := false } =
        some (0, false, false)) ∧
    ((sent 1331 6).op ≠ 0xD ∧ 6 ≤ (sent 1331 6).hops.toNat) ∧
    ((((st (sent 1331 1) Port.start).setPort 0 { (st (sent 1331 1) Port.start).port 0 with rxq := [] }).freeBuffer 0 (sent 1331 1)).routeOf
      { sent 1331 1 with detour := false } = none) ∧
    secured.sec.hallCak.isSome = true ∧ (lab []).sec.hallCak = none ∧ (lab []).start.phase ≠ .off ∧
    (up.phy = true ∧ up.spent = false ∧ up.st = 2 ∧ up.resend = [] ∧ up.ctrlq = [] ∧ { up with pn := 2 ^ 64 - 1 }.spent = true) ∧
    (let f := { sent 1331 1 with vesper := true }; { up with resend := [f] }.resend = f :: [] ∧ f.vesper = true ∧
      { up with ctrlq := [f] }.ctrlq = f :: [] ∧ up.hasReplay f = true) := by
  decide +kernel

/-- WriteAndMulticastFrames: frames that arrive, a missing context, and a frame ahead of its channel. -/
theorem witness_write_frames :
    arrives (atPort (fr 0)) 0 0 (fr 0) job5 ∧ arrives (atPort (fr 9)) 0 9 (fr 9) job5 ∧
    ((fr 0).op = 0 ∧ ((atPort (fr 0)).port 0).inbox.contains (fr 0) = true ∧ ({ atPort (fr 0) with jobs := [] }).job? 5 = none) ∧
    job5.judge { fr 0 with chanSeq := 1 } = .ahead := by
  refine ⟨arrivesOf ?_, arrivesOf ?_, ?_, ?_⟩ <;> decide +kernel

/-- WriteAndMulticastFrames: no tally is free. -/
theorem witness_no_tally :
    let s := { atPort (fr 0) with tallies := List.replicate 65536 ⟨1, 0, false, 0, 0, none, none, false, 0⟩ }
    (s.known 0 (fr 0)).noTally (fr 0) = true := by
  intro s
  have h : tallyKey (fr 0) ⟨1, 0, false, 0, 0, none, none, false, 0⟩ = false := by decide
  have e : (s.drained 0 (fr 0)).expireTallies.tallies = s.tallies := List.filter_eq_self.2 fun t ht => by
    rw [show t = _ from List.eq_of_mem_replicate ht]; rfl
  have a : (s.drained 0 (fr 0)).expireTallies.answered (fr 0) = false := by
    rw [State.answered, e]
    exact List.any_eq_false.2 fun t ht => by rw [show t = _ from List.eq_of_mem_replicate ht, h]; decide
  have o : s.tallies.filter (fun t => !t.bad) = s.tallies := List.filter_eq_self.2 fun t ht => by
    rw [show t = _ from List.eq_of_mem_replicate ht]; rfl
  have n : s.tallies.any (tallyKey (fr 0)) = false :=
    List.any_eq_false.2 fun t ht => by rw [show t = _ from List.eq_of_mem_replicate ht, h]; decide
  have l : s.tallies.length = 65536 := List.length_replicate
  simp only [State.known, a, Bool.and_false, Bool.false_eq_true, if_false, State.noTally, State.openTallies, countIf, e, o, n, l]
  decide

/-- A transfer of this module to hall 1331 under XFER_ID 1. -/
def xf (op : Nat) : Xfer := ⟨1, none, false, 5, 1331, 0, op, 0x400, 8, 0, none, 0, none, 1, 0, 0, false⟩

/-- ReadFrames: a READ of 8 bytes, its data, data beyond what was asked for, and a duplicate of either. -/
theorem witness_read_frames :
    (let f := { fr 1 with addr := BitVec.ofNat 64 (0x3FFF * 2 ^ 42), aux := 8 }; arrivesB (atPort f) 0 1 f job5 = true ∧
      isOk (((atPort f).taken 0 f).readFor f).1 (List.replicate 8 0) = true) ∧
    (let f := { fr 2 with payload := List.replicate 8 1, length := 8 }; let s := { atPort f with xfers := [xf 1] }
     arrivesB s 0 2 f job5 = true ∧ (s.heeded 0 f).xfers.find? (replyKey f) = some (xf 1) ∧ (xf 1).op = 1 ∧ f.offset.toNat + f.payload.length ≤ (xf 1).bytes) ∧
    (let f := { fr 2 with payload := List.replicate 9 1, length := 9 }; let s := { atPort f with xfers := [xf 1] }
     arrivesB s 0 2 f job5 = true ∧ s.xfers.find? (replyKey f) = some (xf 1) ∧ readFits f (xf 1) = false) ∧
    (∀ k : Fin 2, let f := { fr (if k = 0 then 1 else 2) with chanSeq := 0xFFFF }
     (atPort f).job? f.job = some job5 ∧ job5.judge f = .duplicate ∧ ((atPort f).port 0).inbox.contains f = true) := by
  decide +kernel

/-- AccumulateAndAtomicFrames: one sum, an atomic addition and its answer. -/
theorem witness_accumulate_frames :
    (let f := { fr 3 with addr := BitVec.ofNat 64 (0x3FFF * 2 ^ 42), payload := leBytes 4 0x3F800000, length := 4 }; let s := (atPort f).taken 0 f
     arrivesB (atPort f) 0 3 f job5 = true ∧ okWith (s.places 5 .remote .accumulate false f.addr.toNat (accBytes f)) (fun ps => (s.addFrame ps f).1.isNone &&
      (match s.job? 5 with | some j1 => (j1.region? f.addr.toNat (accBytes f)).isNone | none => false)) = true) ∧
    (let f := { fr 4 with addr := BitVec.ofNat 64 (0x3FFF * 2 ^ 42), payload := leBytes 8 7 ++ leBytes 8 0, length := 16 }; let s := (atPort f).taken 0 f
     arrivesB (atPort f) 0 4 f job5 = true ∧ okWith (s.places 5 .remote .atomic false f.addr.toNat 8) (fun ps => (s.modifyPlaces (List.zip ps (leBytes 8 7))).1.isNone &&
      atomicOp (fld f.variant.toNat 0 4) (leNat (ps.map s.byteAt)) 7 0 == some 7) = true) ∧
    (let f := { fr 5 with payload := leBytes 8 7, length := 8 }; let s := { atPort f with xfers := [xf 4] }
     arrivesB s 0 5 f job5 = true ∧ (s.heeded 0 f).xfers.find? (replyKey f) = some (xf 4)) := by
  decide +kernel

/-- The group record of devices 0 and 1331, one arrival each. -/
def group3 : List Byte := wordBytes [3 + 2 ^ 11 + 2 ^ 22 + 2 ^ 33, 1]

/-- SignalBarrierNoticeFrames: a SIGNAL, an arrival of phase 0 and a tree's release for slot 9, and the three notices. -/
theorem witness_signal_frames :
    arrivesB (atPort (fr 6)) 0 6 (fr 6) job5 = true ∧
    (let f := { fr 7 with variant := 9, vesper := true, channel := 15, payload := group3, length := 16 }; let s := (atPort f).taken 0 f
     arrivesB (atPort f) 0 7 f job5 = true ∧ (match s.job? 5 with | some j1 => (s.barrierFault j1 (j1.barrier 9) f).isNone | none => false) = true) ∧
    (let f := { fr 8 with variant := 9, vesper := true, channel := 15, aux := BitVec.ofNat 32 (2 ^ 18), payload := group3, length := 16 }
     let j := { job5 with remap := [(1331, 1331)] }; let s := (atPort f j).taken 0 f
     arrivesB (atPort f j) 0 8 f j = true ∧ (match s.job? 5 with | some j1 => (s.barrierFault j1 (j1.barrier 9) f).isNone | none => false) = true) ∧
    (∀ k : Fin 3, let f := { fr 0xA with variant := BitVec.ofNat 9 (k.val + 1) }; arrivesB (atPort f) 0 0xA f job5 = true ∧ fld f.variant.toNat 0 4 = k.val + 1) := by
  decide +kernel

/-- RepliesEndTransfers: an ACK and an ERROR of a transfer, replies of the four kinds to none, a timeout, and a transfer whose last
frame still waits to leave. -/
theorem witness_replies :
    (let s := { atPort (fr 0xB) with xfers := [xf 0] }; arrivesB s 0 0xB (fr 0xB) job5 = true ∧ s.xfers.find? (replyKey (fr 0xB)) = some (xf 0)) ∧
    (let s := { atPort (fr 0xC) with xfers := [xf 0] }; arrivesB s 0 0xC (fr 0xC) job5 = true ∧ s.xfers.find? (replyKey (fr 0xC)) = some (xf 0)) ∧
    (∀ op ∈ [0xB, 0xC, 2, 5], arrivesB (atPort (fr op)) 0 op (fr op) job5 = true ∧ (atPort (fr op)).xfers.find? (replyKey (fr op)) = none) ∧
    (let s := later { lab [] with xfers := [xf 0] }
     s.xfers.find? (fun y : Xfer => y.id == 1) = some (xf 0) ∧ s.passed (xf 0).sentAt (s.cfg.e2eTimeout * 1000000) = true ∧ s.waitsToLeave (xf 0) = false ∧
      s.xferTask (xf 0) = none ∧ s.engineOwns (xf 0) = false ∧ (s.xfers.map (·.id)).Nodup) ∧
    (let f := Frame.plain 0 false 0 1331 0 5 1; let s := (placed { lab [] with xfers := [xf 0] }).setPort 0 { up with txqN := [f] }
     s.waitsToLeave (xf 0) = true) := by
  decide +kernel

/-! ### Links -/

/-- A LINK_CTRL frame of a kind. -/
def lc (kind : Nat) : Frame := { Frame.plain 0xE false 0 0 0 0 0 with variant := BitVec.ofNat 9 kind }

/-- The identity that the module at hall 1331 sends on its port P09, and that of another port's module. -/
def ident (h : Nat) : Frame := { lc 1 with payload := [BitVec.ofNat 8 (coordOf h 0), BitVec.ofNat 8 (coordOf h 1), 0, 0, 9, 0] ++ List.replicate 58 0 }

/-- LinkControlAndIdentity: credit, echo, a first NAK, port states, what a port owes, a frame that leaves and one that waits, and both
outcomes of an identity. -/
theorem witness_link_control :
    (∀ k : Fin 6, control (atPort (lc k.val)) 0 k.val (lc k.val)) ∧ (lc 0).ackValid = false ∧ (lc 2).aux.toNat % 2 = 0 ∧
    (((atPort (lc 3)).drained 0 (lc 3)).port 0).retries.any (fun t => decide ((atPort (lc 3)).now < t + 10000)) = false ∧
    up.linked = true ∧ up.spent = false ∧ { up with ackOwed := true }.ackOwed = true ∧ secured.sec.hallCak.isSome = true ∧ (lab []).sec.hallCak = none ∧
    up.ctrlReady (lc 0) = true ∧ { up with ctrlq := [lc 0] }.ctrlReady (lc 0) = false ∧
    (let x := { Port.start with phy := true }; x.phy = true ∧ x.identified = false) ∧
    (let s := (placed (lab [])).setPort 0 { Port.start with phy := true, inbox := [ident 1331] }; let peer := (s.drained 0 (ident 1331)).peerOf 0
     control s 0 1 (ident 1331) ∧ (identityOf (ident 1331)).2.2.2.2 = true ∧ (s.port 0).phy = true ∧ (s.port 0).identified = false ∧
      (identityOf (ident 1331)).1 = (List.range 4).map (coordOf peer) ∧ (identityOf (ident 1331)).2.1 = peerPortOf 0 ∧
      (identityOf (ident 2662)).1 ≠ (List.range 4).map (coordOf peer)) := by
  unfold Sys2Proof.Machine.control
  decide +kernel

/-- LinksComeAndGo: a dark port in service before and after its eighth down event. -/
theorem witness_links :
    (let s := later (placed { lab [] with start := { StartState.start with phase := .ready } })
     s.passed (s.port 0).downAt 1000000000 = true ∧ s.passed { up with replay := [lc 0] }.ackAt 20000 = true ∧
      s.passed { Port.start with st := 3 }.downAt 60000000000 = true ∧ s.alive = true ∧ (s.port 0).phy = false ∧ s.unusedPort 0 = false ∧ (s.port 0).st = 0 ∧ (s.port 0).attempting = false ∧ (s.port 0).downs < 8) ∧
    (up.linked = true ∧ { up with replay := [lc 0] }.replay ≠ []) ∧ up.carried = true ∧ (let x := { Port.start with phy := true }; x.phy = true ∧ x.carried = false) ∧ { Port.start with downs := 8 }.downs = 8 ∧
    (let x := { Port.start with st := 1, attempting := true }; x.st = 1 ∧ x.attempting = true) ∧ { Port.start with st := 3 }.st = 3 := by
  decide +kernel

/-- LinkRestoreAndRekey: a restored link with and without a detour by P01, a FENCE, its answer, and a rekey. -/
theorem witness_link_restore :
    let x : Port := { Port.start with st := 1, phy := true, identified := true, restoreAt := some 0 }
    (let s := later ((placed (lab [])).setPort 0 x)
     (s.port 0).restoreAt = some 0 ∧ s.passed 0 10000000000 = true ∧ (s.port 0).fencing = false ∧ (s.port 0).linked = true ∧ s.linkTo 0 (coordOf (s.peerOf 0) 0) = none) ∧
    (let s := ((placed (lab [])).setPort 0 x).setPort 1 { up with advert := [(portTo 0 2 1, true)] }
     s.linkTo 0 (coordOf (s.peerOf 0) 0) = some (1, true)) ∧
    (let f := { Frame.plain 0xD false 0 0 1331 0 0 with variant := 1 }; let s := atPort f
     f.op = 0xD ∧ (s.port 0).inbox.contains f = true ∧ (s.drained 0 f).portOf f.src.toNat = some 0 ∧ ((s.drained 0 f).port 0).fences = [] ∧
      (f.vesper, fld f.variant.toNat 0 3) ∈ bufClasses) ∧
    { x with fencing := true }.fencing = true ∧ (up.st = 2 ∧ up.rekeyAt = none ∧ (later (lab [])).rekeyDue up = true ∧
      { up with rekeyAt := some 3 }.rekeyAt = some 3 ∧ (later (lab [])).passed 3 10000000 = true ∧ 5 + 1 ≤ (later (lab [])).now ∧
      { up with oldUntil := some 6 }.oldUntil = some (5 + 1)) := by
  decide +kernel

/-! ### Gradients and Chrysalis -/

/-- A bucket of one block on tile 0, its sets in these states for steps 2 and 3, with a deadline of 7 us. -/
def bk (id : Nat) (check : Option Nat) (st : Nat × Nat) : Bucket :=
  { id := id, elements := 1, tile := 0, checkOf := check, order := id, deadlineUs := 7, sums := (0, 0), granules := (0, 0), st := st, openedAt := (0, 0),
    full := (true, true), f := 0, v := 0, claims := [], begun := [], added := [], steps := (2, 3), closedAt := (0, 0), checked := (false, false), mismatch := 0 }

/-- A gradient block with counts from 16 and no LOSS_KERNEL in the package. -/
def grad1 : GradBlock :=
  { backup := false, expected := 1, verdictDevice := 0, verdictCount := 16, lossKernel := 9, layers := 0, normAddr := 0, pairs := [] }

/-- A Chrysalis block with counts from 32 and one parity tensor. -/
def chr1 : Chrys :=
  { ceiling := 1, secureCount := 32, evalEvery := 1, recordAddr := 0, recordPartner := 0, cursors := 0, recordCopy := 0, cursorAddr := 0, stateKeys := 0,
    tensors := [⟨1, false, 0, [0, 1, 2, 3, 4, 5, 6, 7], 0, 0, 4096, 0, 0, 4096⟩], committed := 0, gen := 0, preparing := none, folded := false,
    prepared := false, missed := false, changed := [], due := false, level := 0, pendingStep := none, toSend := [], toRead := [], waits := [], folds := [],
    evalStep := 0, shape := (0, 0) }

/-- Job 5 in step 2 with a main bucket 1 and its check bucket 2. -/
def job6 (a b : Nat × Nat) (g : GradBlock) : JobCtx := { job5 with grad := some g, buckets := [bk 1 none a, bk 2 (some 1) b], step := 2, stepping := true }

/-- The module with that context, late on its duration timer. -/
def withJob (j : JobCtx) : State := { lab [] with jobs := [j], start := { StartState.start with phase := .ready, timer := BitVec.ofNat 64 (10 ^ 11) } }

/-- BucketsCloseAndClear: a set past its deadline, a step past its limit, a check bucket past its grace in either set, two closed
sets to compare, and both sets to clear. -/
theorem witness_buckets_close :
    (let j := job6 (1, 0) (0, 0) grad1; let s := withJob j; let b := bk 1 none (1, 0)
     s.job? 5 = some j ∧ j.bucket? 1 = some b ∧ b.checkOf = none ∧ s.pastDeadline b false = true ∧ j.stepping = true ∧
      j.stepAt + s.cfg.stepCloseLimit * 1000000 ≤ s.now) ∧
    (let b := bk 1 none (0, 1); (withJob job5).pastDeadline b false = false ∧ (withJob job5).pastDeadline b true = true) ∧
    (let b := bk 1 none (0, 0); (withJob job5).pastDeadline b false = false ∧ (withJob job5).pastDeadline b true = false) ∧
    (let j := job6 (2, 0) (1, 0) grad1; j.mainOf (bk 2 (some 1) (1, 0)) = some (bk 1 none (2, 0)) ∧
      (withJob j).pastGrace (bk 1 none (2, 0)) (bk 2 (some 1) (1, 0)) false = true) ∧
    (let j := job6 (0, 2) (0, 1) grad1; j.mainOf (bk 2 (some 1) (0, 1)) = some (bk 1 none (0, 2)) ∧
      (withJob j).pastGrace (bk 1 none (0, 2)) (bk 2 (some 1) (0, 1)) true = true ∧
      (withJob j).pastGrace (bk 1 none (0, 2)) (bk 2 (some 1) (0, 1)) false = false) ∧
    (let j := job6 (2, 0) (2, 0) grad1; j.grad = some grad1 ∧ j.checkFor (bk 1 none (2, 0)) = some (bk 2 (some 1) (2, 0)) ∧
      pget (bk 1 none (2, 0)).st (setOf j.step) = 2 ∧ pget (bk 2 (some 1) (2, 0)).st (setOf j.step) = 2 ∧
      pget (bk 1 none (2, 0)).checked (setOf j.step) = false ∧ checkRuns grad1 (bk 1 none (2, 0)) (bk 2 (some 1) (2, 0)) (setOf j.step) = true) ∧
    (let j := { job6 (2, 0) (2, 0) grad1 with verdict := some 1 }; j.clearable (bk 1 none (2, 0)) false = true ∧ j.clearable (bk 1 none (2, 0)) true = false ∧
      { j with step := 3 }.clearable (bk 1 none (2, 2)) true = true ∧ { j with step := 3 }.clearable (bk 1 none (2, 2)) false = true) := by
  decide +kernel

/-- VerdictRound: a round, a verdict to form, the verdict 1 that has come, and one with a third skip. -/
theorem witness_verdict_round :
    (let b := { bk 1 none (2, 0) with checked := (true, true) }
     let j := { job6 (2, 0) (2, 0) grad1 with buckets := [b] }; let s := { withJob j with pkgs := [{ pkg0 with kind := 1 }] }
     s.job? 5 = some j ∧ j.grad = some grad1 ∧ j.stepping = true ∧ j.rounded = false ∧ s.lossEnded 5 grad1 = true ∧ j.buckets.all j.bucketReady = true ∧
      j.chrys = none ∧ { j with chrys := some chr1 }.chrys = some chr1) ∧
    (let j := { job6 (2, 0) (2, 0) grad1 with devices := 1, counts := [(19, 1)] }; let s := placed (withJob j)
     s.deviceOf j = grad1.verdictDevice ∧ j.rise (grad1.verdictCount + 3) = j.devices) ∧
    (let j := { job6 (2, 0) (2, 0) grad1 with rounded := true, counts := [(20, 1)] }
     j.verdict = none ∧ j.rise (grad1.verdictCount + 4) = 1 ∧ j.chrys = none ∧ (1 - 1) / 2 % 8 = 0 ∧ 0 < (withJob j).cfg.skipLimit) ∧
    (let j := { job6 (2, 0) (2, 0) grad1 with rounded := true, counts := [(20, 3)], skips := 1000 }
     j.rise (grad1.verdictCount + 4) = 3 ∧ (3 - 1) / 2 % 8 = 1 ∧ (withJob j).cfg.skipLimit ≤ j.skips + 1) ∧
    (let s := placed (withJob job5); s.job? 5 = some job5 ∧ job5.hallOf 0 = s.hall ∧ job5.hallOf 1 ≠ s.hall ∧ job5.pairFault 16 1 = none) := by
  decide +kernel

/-- Job 5 with a Chrysalis block, after step 3 by verdict 1, with these counts. -/
def job7 (c : Chrys) (counts : Sp (BitVec 32)) : JobCtx :=
  { job5 with grad := some grad1, chrys := some c, step := 3, verdict := some 1, counts := counts, devices := 1 }

/-- Generations: the step due is prepared, goes on, folds, is committed and promoted. -/
theorem witness_generations :
    (let c := { chr1 with pendingStep := some 2 }; let j := job7 c []; let s0 := (withJob j).settleNorms 5
     s0.job? 5 = some j ∧ j.chrys = some c ∧ c.preparing = none ∧ c.pendingStep = some 2 ∧ c.quiet = true ∧ s0.updatesEnded j 2 = true ∧ j.normsDue ≠ some 2) ∧
    (let c := { chr1 with preparing := some 2 }; let j := job7 c [(37, 7)]; (withJob j).job? 5 = some j ∧ ((withJob j).settleNorms 5).job? 5 = some j ∧
      c.preparing.isSome = true ∧ c.folded = false ∧
      c.tensors.filter (fun t => !t.mirror) ≠ [] ∧ 7 * (c.tensors.filter fun t => !t.mirror).length ≤ j.rise (c.secureCount + 5)) ∧
    (let j := job7 chr1 [(35, 1)]; j.grad = some grad1 ∧ (placed (withJob j)).deviceOf j = grad1.verdictDevice ∧ j.rise (chr1.secureCount + 3) = j.devices) ∧
    (let c := { chr1 with preparing := some 2 }; let j := job7 c [(36, 1)]; c.preparing = some 2 ∧ j.rise (c.secureCount + 4) ≠ 0) := by
  decide +kernel

/-- A restore package at a stage, with these lost devices. -/
def rst (stage : Nat) (lost : List (Nat × Nat × Bool)) : Restore := ⟨0, 0, lost, stage⟩

/-- The module in which job 5 restores. -/
def restoring (r : Restore) (counts : Sp (BitVec 32)) : State :=
  placed { withJob (job7 chr1 counts) with pkgs := [{ pkg0 with kind := 3, restore := some r }] }

/-- RestoreCommands: each command at its stage, at a survivor and at a spare, without and with a double loss. -/
theorem witness_restore :
    (∀ k : Fin 7, (restoring (rst k.val []) []).restoreOf 5 =
      some ({ pkg0 with kind := 3, restore := some (rst k.val []) }, rst k.val [], job7 chr1 [], chr1)) ∧
    (let s := restoring (rst 0 []) [(32, 1)]; let j := job7 chr1 [(32, 1)]
     s.deviceOf j = (rst 0 []).coordinator ∧ j.devices - (rst 0 []).lost.length ≤ j.rise chr1.secureCount) ∧
    (let s := restoring (rst 1 []) [(33, 1)]; let j := job7 chr1 [(33, 1)]
     (rst 1 []).isLost (s.deviceOf j) = false ∧ (rst 1 []).stage < 2 ∧ j.rise (chr1.secureCount + 1) ≠ 0) ∧
    (let s := restoring (rst 1 [(0, 5, false)]) [(33, 1)]; let j := job7 chr1 [(33, 1)]
     (rst 1 [(0, 5, false)]).isLost (s.deviceOf j) = true ∧ (decide ((rst 1 [(0, 5, false)]).stage ≤ 1) && j.rise (chr1.secureCount + 1) != 0) = true) ∧
    (let s := restoring (rst 2 []) []; (rst 2 []).isLost (s.deviceOf (job7 chr1 [])) = false ∧ ((rst 2 []).stage == 2) = true) ∧
    (rst 3 []).stage = 3 ∧ chr1.quiet = true ∧ (rst 4 []).stage = 4 ∧ lostTensors (rst 4 []) chr1 0 = [] ∧
    lostTensors (rst 4 [(1, 20, false), (2, 21, false)]) chr1 0 ≠ [] ∧ (rst 5 []).stage = 5 ∧ (rst 6 []).stage = 6 ∧
    (let p := { pkg0 with kind := 3, restore := some (rst 6 []), kernels := [], tasks := [] }; { withJob job5 with pkgs := [p] }.tasksDone p = true) := by
  decide +kernel

/-- HealthAndWindows: a module that runs and one that does not; a window that is open and none; an evaluation package at the head,
a scheduled window after step 3, a step in progress, and a window with its packages and without, of an export and past its limit. -/
theorem witness_windows :
    (lab []).alive = true ∧ State.reset.alive = false ∧
    (let e : EvalWin := ⟨5, [], 0, false⟩; let p := { pkg0 with kind := 2 }; let s := later { withJob job5 with pkgs := [], eval := [e] }
     s.windowOpen 5 = true ∧ s.window? 5 = some e ∧ s.holdsEval 5 = false ∧ { s with pkgs := [p] }.holdsEval 5 = true ∧ e.imago = false ∧
      s.passed e.openedAt (s.cfg.evalLimit * 1000000000) = true ∧ (lab []).passed e.openedAt ((lab []).cfg.evalLimit * 1000000000) = false) ∧
    (let s := { withJob job5 with pkgs := [{ pkg0 with kind := 2, running := false }] }
     s.job? 5 = some job5 ∧ s.windowOpen 5 = false ∧ job5.chrys = none ∧ s.evalHead 5 = true) ∧
    (let j := job7 chr1 []; let s := { withJob j with pkgs := [] }
     s.job? 5 = some j ∧ s.windowOpen 5 = false ∧ j.chrys = some chr1 ∧ s.betweenSteps j chr1 = true ∧ chr1.evalEvery ≠ 0 ∧
      j.step % chr1.evalEvery = 0 ∧ chr1.evalStep ≠ j.step + 1) ∧
    (let j := { job7 chr1 [] with stepping := true }; let s := { withJob j with pkgs := [] }
     s.windowOpen 5 = false ∧ s.betweenSteps j chr1 = false ∧ s.evalHead 5 = false) := by
  decide +kernel

/-! ### Power and arbitration -/

/-- Monarch: a module that runs and one that does not, a running Noon task, a Vesper task, a cool die, readings below and at the limit, and a hot die at the floor. -/
theorem witness_monarch :
    (lab []).alive = true ∧ State.reset.alive = false ∧ (lab []).workOnDie 3 = [] ∧
    (let s := atWord 0 ctx0; (s.tile 0).noon.isSome = true ∧ (s.tile 0).suspended = false ∧ (s.tile 0).vesper = none ∧ (s.tile 0).stopped = false ∧
      s.dieHot 0 = false) ∧ { TileState.start with vesper := some ctx0 }.vesper.isSome = true ∧ (105 : Celsius) < 106 ∧ (106 : Celsius) ≤ 106 ∧
    (let s := { lab [] with power := { PowerState.start with temp := [(0, 101)], supply := [(0, 540)] } }; s.alive = true ∧ s.dieHot 0 = true ∧ s.supply 0 = 540) := by
  decide +kernel

/-- BladesAndLateTimer: a voltage in range and one out of it, a pair below its share, the same pair at 40 %, and a Vesper package
before and after its notice. -/
theorem witness_blades :
    voltsOk 480 = true ∧ voltsOk 100 = false ∧
    State.reset.start.phase = .off ∧ (lab []).start.phase ≠ .off ∧ State.reset.pkgs = [] ∧
    (let p := { PowerState.start with blade := (1, 60) }
     p.pair 0 * 20 < p.blade.1 + p.blade.2 ∧ 50 < p.blade.1 + p.blade.2 ∧ p.isLost 0 = false ∧ (p.setLost 1 true).isLost 0 = false) ∧
    (let p := { PowerState.start with blade := (40, 60), lost := (true, true) }; p.isLost 0 = true ∧ (p.blade.1 + p.blade.2) * 40 ≤ p.pair 0 * 100) ∧
    (let p := { pkg0 with vesper := true }; { lab [] with pkgs := [p] }.pkg? 0 = some p ∧ p.late = false ∧ p.vesper = true ∧ (later (lab [])).lateDue p = true ∧ { p with late := true }.late = true) := by
  decide +kernel

/-- ArbiterServes: an idle arbiter, a request that does not revoke the holder and one that does, and a parked request. -/
theorem witness_arbiter :
    let q : ArbReq := ⟨2, 3, 0, 0⟩
    arbiterHas 0 7 = true ∧ arbiterHas 13 3 = true ∧ arbiterHas 9 1 = true ∧ (lab []).start.phase ≠ .off ∧ (lab []).arb 0 = Arbiter.start ∧
    Arbiter.start.holder = none ∧ Arbiter.start.queue = [] ∧ Arbiter.start.wins q = true ∧
    (let a := { Arbiter.start with holder := some ⟨1, 2, 0, 0⟩ }
     a.first (a.queue ++ [q]) = some q ∧ a.wins q = false ∧ a.revokes q ⟨1, 2, 0, 0⟩ = false ∧ a.queue.length < 16 ∧ a.queue.length ≤ 16) ∧
    (let h : ArbReq := ⟨3, 7, 0, 0⟩; let w : ArbReq := ⟨1, 2, 1, 0⟩; let a := { Arbiter.start with holder := some h, queue := [w] }; let z := (lab []).setArb 0 a
     a.first (a.queue ++ [q]) = some w ∧ a.wins w = true ∧ (z.arb 0).holder = some h ∧ (z.arb 0).first (z.arb 0).queue = some w ∧ (z.arb 0).revokes w h = true) ∧
    (let a := { Arbiter.start with queue := [q] }; a.first a.queue = some q ∧ a.outside = []) := by
  decide +kernel

/-! ### Hosts, keys, flash and start -/

/-- The READY module with port P40 up, its address 77, and connection 1 of a role. -/
def hosted (role : Nat) : State :=
  { lab [] with start := { StartState.start with phase := .ready }, conns := [{ conn1 with role := role }],
                cfg := { Cfg.start with addr40 := some 77 } }.setPort 40 { Port.start with st := 2, phy := true }

theorem sum16_append : ∀ a b : List Byte, a.length % 2 = 0 → sum16 (a ++ b) = sum16 a + sum16 b
  | [], b, _ => by simp [sum16]
  | [x], b, h => by simp at h
  | x :: y :: a, b, h => by
    have := sum16_append a b (by simp at h; omega)
    simp only [List.cons_append, sum16, this]; omega

theorem be2_sum (n : Nat) (h : n < 2 ^ 16) : sum16 (beBytes 2 n) = n := by
  simp [beBytes, leBytes, sum16, BitVec.toNat_ofNat]; omega

theorem check_sum (P B : Nat) : ∃ c, 65535 - (P + B) % 65535 = c ∧ c < 2 ^ 16 ∧ c ≠ 0 ∧ (P + c + B) % 65535 = 0 := ⟨_, rfl, by omega, by omega, by omega⟩

/-- What the checksum of a UDP datagram covers before it (RFC 768, RFC 8200). -/
def sumHead (h : KHdr) : List Byte :=
  let n := 8 + (khtBytes h).length
  beBytes 16 h.source.toNat ++ beBytes 16 h.dest.toNat ++ beBytes 4 n ++ beBytes 4 h.next.toNat ++
    (beBytes 2 h.sourcePort.toNat ++ beBytes 2 h.destPort.toNat ++ beBytes 2 n)

/-- A header with the right checksum. -/
def summed (h : KHdr) : KHdr := { h with checksum := BitVec.ofNat 16 (65535 - (sum16 (sumHead h) + sum16 (khtBytes h)) % 65535) }

theorem bytes_of_checksum (h : KHdr) (k : BitVec 16) : khtBytes { h with checksum := k } = khtBytes h := rfl

theorem sumHead_even (h : KHdr) : (sumHead h).length % 2 = 0 := by simp [sumHead, beBytes, leBytes_length]

theorem sumOk_of_checksum (h : KHdr) (k : BitVec 16) :
    khtSumOk { h with checksum := k } = (k != 0 && sum16 (sumHead h ++ beBytes 2 k.toNat ++ khtBytes h) % 65535 == 0) := by
  simp only [khtSumOk, bytes_of_checksum, sumHead, List.append_assoc]

theorem summed_ok (h : KHdr) : khtSumOk (summed h) = true := by
  have e := sumHead_even h
  rw [summed, sumOk_of_checksum]
  generalize sumHead h = p at e ⊢
  generalize khtBytes h = b
  obtain ⟨c, ec, lt, ne, z⟩ := check_sum (sum16 p) (sum16 b)
  have nz : BitVec.ofNat 16 c ≠ 0#16 := fun q => ne (by rw [← Nat.mod_eq_of_lt lt, ← BitVec.toNat_ofNat, q]; rfl)
  rw [ec, BitVec.toNat_ofNat, Nat.mod_eq_of_lt lt, sum16_append _ b (by simp [e, beBytes, leBytes_length]), sum16_append p _ e, be2_sum _ lt, z]
  simpa using nz

/-- The header of the next datagram of connection 1 to port P40, for a payload of `n` bytes. -/
def head1 (t : Byte) (n : Nat) : KHdr :=
  { port := 0, source := 1, sourcePort := 1, dest := 77, destPort := 45541, next := 17, checksum := 0, corrected := 0, overrun := false, version := 1,
    type := t, res0 := 0, conn := 1, seq := 1, ack := 1, length := BitVec.ofNat 16 n, window := 64, res3 := 0, pktNum := 1, body := [] }

/-- A datagram with that header and this payload, sealed under the connection's key. -/
def sealedAs (h : KHdr) (payload : List Byte) : KHdr :=
  summed { h with body := gcmSeal conn1.keys.1 (khtNonce h.pktNum.toNat) (headerBytes h) payload }

/-- The next datagram of that connection with a message. -/
def hd (t : Byte) (m : HMsg) : KHdr := sealedAs (head1 t m.payload.length) m.payload

/-- `taken`, `sound` and `due` as tests. -/
def takenB (s : State) (h : KHdr) : Bool :=
  s.portRuns h.port && s.khtPort h.port && !h.overrun && decide (khtFrameBytes h ≤ 9042) && s.portAddr h.port == some h.dest &&
    h.destPort.toNat == s.cfg.udpPort && khtIpOk h && !s.isQuarantined h.source

theorem takenOf {s : State} {h : KHdr} (e : takenB s h = true) : taken s h := by
  simp only [takenB, Bool.and_eq_true, beq_iff_eq, Bool.not_eq_true', decide_eq_true_eq] at e
  exact ⟨e.1.1.1.1.1.1.1, e.1.1.1.1.1.1.2, e.1.1.1.1.1.2, e.1.1.1.1.2, e.1.1.1.2, e.1.1.2, e.1.2, e.2⟩

@[inherit_doc takenB] def soundB (s : State) (h : KHdr) (t : Nat) (payload : List Byte) (c : Conn) : Bool :=
  h.type.toNat == t && takenB s h && decide (s.conn? h.conn = some c) && decide (c.unseal h = some payload) && !c.spent &&
    !c.seenPkts.contains h.pktNum && (s.headCode c h true).isNone

theorem soundOf {s : State} {h : KHdr} {t : Nat} {payload : List Byte} {c : Conn} (e : soundB s h t payload c = true) : sound s h t payload c := by
  simp only [soundB, Bool.and_eq_true, beq_iff_eq, decide_eq_true_eq, Bool.not_eq_true', Option.isNone_iff_eq_none] at e
  exact ⟨e.1.1.1.1.1.1, takenOf e.1.1.1.1.1.2, e.1.1.1.1.2, e.1.1.1.2, e.1.1.2, e.1.2, e.2⟩

/-- Is this message the next in order on connection 1? -/
def dueB (role : Nat) (t : Byte) (m : HMsg) : Bool :=
  let s := hosted role
  let c := { conn1 with role := role }
  let h := hd t m
  soundB s h t.toNat m.payload c && c.place 1 == 0 && !(s.heardAt h c).waitsZeroing 1 m && (match (s.heardAt h c).conn? 1 with
    | some c1 => c1.st == 2 && c1.held.isEmpty && c1.rxNext == 1 && c1.permits m
    | none => false)

theorem dueOf {role : Nat} {t : Byte} {m : HMsg} (e : dueB role t m = true) :
    ∃ c1, due (hosted role) (hd t m) t.toNat { conn1 with role := role } c1 m := by
  simp only [dueB, Bool.and_eq_true, beq_iff_eq, Bool.not_eq_true'] at e
  obtain ⟨⟨⟨h1, h2⟩, h3⟩, h4⟩ := e
  split at h4
  · rename_i c1 hc
    simp only [Bool.and_eq_true, beq_iff_eq, List.isEmpty_iff] at h4
    exact ⟨c1, soundOf h1, h2, hc, h4.1.1.1, h4.1.1.2, h4.1.2, h4.2, h3⟩
  · cases h4

/-- ConnectionsLive: an OPEN on the service link before READY. -/
theorem witness_open_early : taken { hosted 0 with start := { StartState.start with phase := .starting } }
    (summed { head1 1 0 with conn := 0, port := 2, dest := serviceAddr }) :=
  ⟨by decide, by decide, rfl, by decide +kernel, rfl, rfl, by rw [khtIpOk, summed_ok]; rfl, rfl⟩

/-- ConnectionsLive: an OPEN that is taken; an ACK; a message sent and not acknowledged, of a connection
that may send and of one that is spent; an OPEN connection that may send. -/
theorem witness_connections :
    (let h := summed { head1 1 0 with conn := 0 }; h.type = 1 ∧ takenB (hosted 0) h = true ∧ (hosted 0).start.phase ≠ .starting) ∧
    soundB (hosted 0) (sealedAs { head1 4 0 with seq := 0 } []) 0x04 [] conn1 = true ∧
    (let u : Unacked := ⟨1, .close, 0, true, 0⟩; let c := { conn1 with unacked := [u] }
     let s := later { hosted 0 with conns := [c] }
     s.conn? c.id = some c ∧ c.unacked.find? (fun u => u.seq == 1 && u.sent) = some u ∧ s.unheard u = true ∧
      s.passed c.lastAt (s.cfg.idleTimeout * 1000000000) = true ∧ c.spent = false ∧ { c with pkt := 2 ^ 64 }.spent = true) ∧
    (hosted 0).conn? conn1.id = some conn1 ∧ 2 ≤ conn1.st ∧ conn1.sendable.isEmpty = true := by
  decide +kernel

/-- A KEY_RELEASE blob without extents or keys. -/
def blob (kind n : Nat) : List Byte := leBytes 8 (kind + 2 ^ 8) ++ List.replicate (n - 8) 0

/-- HostMessages: every message is due on connection 1 in a role that permits it. -/
theorem witness_messages :
    dueB 0 0x03 .close = true ∧ dueB 0 0x10 (.submit 0 0 64 [0]) = true ∧ dueB 0 0x14 (.abandon 0 5) = true ∧ dueB 0 0x20 (.put 5 0 [0]) = true ∧
    dueB 0 0x21 (.get 5 0 1) = true ∧ dueB 0 0x30 (.signalIn 5 true 0 (BitVec.ofNat 64 (2 ^ 32))) = true ∧ dueB 0 0x40 (.statusRead 0 1) = true ∧
    dueB 0 0x50 (.attest 0 5) = true ∧ dueB 0 0x60 (.imago 5 false 0) = true ∧ dueB 1 0x70 (.unlock1 [0]) = true ∧ dueB 1 0x70 .unlock2 = true ∧
    dueB 1 0x70 (.unlock2Response 0 0) = true ∧ dueB 1 0x72 (.stage 0 1 [0]) = true := by
  decide +kernel

/-- HostMessages: the three kinds of blob. -/
theorem witness_blobs :
    (blobOk (blob 1 120) = true ∧ blobKind (blob 1 120) = 1 ∧ dueB 0 0x52 (.keyRelease 5 0 (blob 1 120)) = true) ∧
    (blobOk (blob 2 120) = true ∧ blobKind (blob 2 120) = 2 ∧ dueB 0 0x52 (.keyRelease 5 0 (blob 2 120)) = true) ∧
    (blobOk (blob 3 24) = true ∧ blobKind (blob 3 24) = 3 ∧ dueB 1 0x52 (.keyRelease 5 0 (blob 3 24)) = true) := by
  decide +kernel

/-- VaultEvents: a release being zeroed, an unseal, an unlock and a lockout past their ends, and a CAK of P40 with its CKN. -/
theorem witness_vault :
    (let z : Zeroing := ⟨1, 1, none, 0, 0⟩; { SecState.start with zeroing := some z }.zeroing = some z) ∧
    (let u : Unseal := ⟨1, 1, 5, 0, []⟩; [u].find? (fun u => u.job == 5) = some u) ∧
    ((hosted 0).start.phase = .starting ∨ (hosted 0).start.phase = .ready) ∧ ((hosted 0).port (40 + 0)).st = 2 ∧ ((hosted 0).port (40 + 0)).phy = true ∧
    (let s := later { hosted 0 with conns := [{ conn1 with unlock := some (1, 9) }], sec := { SecState.start with hostCak := (some (3, 4), none), lockout := some 8 } }
     s.alive = true ∧ s.sec.hostCak.1 = some (3, 4) ∧ s.holdsCkn 0 4 = true ∧ s.holdsCkn 0 5 = false ∧ s.conn? 1 = some { conn1 with unlock := some (1, 9) } ∧
      9 ≤ s.now ∧ s.sec.lockout = some 8 ∧ 8 ≤ s.now) := by
  decide +kernel

/-- FlashLogAndStart: a staging that erases and one that receives, a queued record, a replay, crossings whose islands run and one
whose does not, the phases, and crossings with a full slot and a free one. -/
theorem witness_flash :
    (let x : W64 × Nat × List Byte := (1, 0, [0]); let g : Staging := ⟨1, false, 1, 1, 1, [x]⟩; g.pend = x :: [] ∧ g.st = 1 ∧ { g with st := 2 }.st = 2) ∧
    (let r : LogRec := ⟨0, 0, 0, none, 0, 0, (0, 0), 0⟩; let l := { LogState.start with queue := [r], scanned := true, replay := some 0 }
     l.queue = r :: [] ∧ l.scanned = true ∧ (l.taken.filter fun t => decide (0 < t + 1000000000)).length < 32 ∧ l.replay = some 0) ∧
    (let s := { hosted 0 with start := { StartState.start with phase := .ready, runs := true } }
     s.start.phase ≠ .off ∧ s.start.runs = true ∧ s.clockRuns (.phy (618 - 43)) = true ∧ (s.setPort 0 up).clockRuns (.port 0) = true ∧
      (let x : W64 × Nat × List Byte := (1, 0, [0]); let g : Staging := ⟨1, false, 1, 1, 1, [x]⟩
       { s with img := { ImgState.start with staging := some g } }.clockRuns .flash = true)) ∧
    State.reset.clockRuns (stalledIsland 619) = false ∧
    State.reset.start.phase = .off ∧ (hosted 0).start.phase ≠ .off ∧ { StartState.start with phase := .starting }.phase = .starting ∧
    (let x : Crossing := { Crossing.start with req := [(0, true)] }
     x.full x.put = true ∧ x.full x.take = true ∧ Crossing.start.full 0 = false) := by
  decide +kernel

end Sys2Proof.Tests
end

section
/-!
The step sequencers and the end of a package (R20 to R29, R65, R79, R302, R343, R358, R390): what the commands KERNEL_READY,
SEQUENCER_WRITE, SEQUENCER_CONTROL_MESSAGE, PACKAGE_START, STEP_START, LAYER_FLIP and PACKAGE_COMPLETE do, and the numbering of
the tiles (R12).
-/
namespace Sys2Proof.Machine

/-! ### Operations that leave the held packages alone -/

section
variable (s : State)

/-- The packages that are held decide which one a tag names. -/
theorem State.pkg?_congr {s s' : State} (h : s'.pkgs = s.pkgs) (g : Nat) : s'.pkg? g = s.pkg? g := by
  rw [State.pkg?, h, State.pkg?]

/-- A tag names the updated package after an update that keeps the tag. -/
theorem State.pkg?_updPkg_some {s : State} {g : Nat} {p : Pkg} (hp : s.pkg? g = some p) (f : Pkg → Pkg) (hf : ∀ x, (f x).tag = x.tag) :
    (s.updPkg g f).pkg? g = some (f p) := by
  rw [State.pkg?_updPkg s g hf, hp, Option.map_some]

@[simp] theorem State.wake_pkgs (t : Nat) : (s.wake t).pkgs = s.pkgs := rfl

@[simp] theorem State.wakeAll_pkgs (ts : List Nat) : (s.wakeAll ts).pkgs = s.pkgs := by
  induction ts generalizing s with
  | nil => rfl
  | cons t ts ih => exact (ih (s.wake t)).trans (State.wake_pkgs s t)

@[simp] theorem State.logAs_pkgs (kind code : Nat) (job : Option (BitVec 16)) (w : W64 × W64) :
    (s.logAs kind code job w).pkgs = s.pkgs := by
  unfold State.logAs
  dsimp only
  split <;> split
  · rfl
  · split <;> rfl
  · rfl
  · split <;> rfl

@[simp] theorem State.logEvent_pkgs (code : Nat) (job : Option (BitVec 16)) (w : W64 × W64) :
    (s.logEvent code job w).pkgs = s.pkgs := State.logAs_pkgs s _ code job w

@[simp] theorem State.record_pkgs (base m : Nat) (w : W64 × W64) : (s.record base m w).pkgs = s.pkgs := rfl

@[simp] theorem State.syncFault_pkgs (code idx src : Nat) (job : BitVec 16) (before inc : Nat) :
    (s.syncFault code idx src job before inc).pkgs = s.pkgs := by
  rw [State.syncFault, State.logEvent_pkgs, State.record_pkgs]

@[simp] theorem State.raiseCount_pkgs (job : BitVec 16) (i inc src : Nat) : (s.raiseCount job i inc src).2.pkgs = s.pkgs := by
  unfold State.raiseCount
  split
  · rfl
  · dsimp only
    split <;> simp

@[simp] theorem State.number_pkgs (f : Frame) : (s.number f).2.pkgs = s.pkgs := by
  simp only [State.number, State.takeSeq]
  split
  · rfl
  · split <;> rfl

@[simp] theorem State.deliver_pkgs (p : Nat) (f : Frame) : (s.deliver p f).pkgs = s.pkgs := rfl

@[simp] theorem State.queueAt_pkgs (e : Nat × Bool × Bool) (f : Frame) : (s.queueAt e f).pkgs = s.pkgs := by
  unfold State.queueAt
  dsimp only
  split <;> rfl

@[simp] theorem State.ownError_pkgs (f : Frame) : (s.ownError f).pkgs = s.pkgs := by
  unfold State.ownError
  split <;> simp

@[simp] theorem State.inject_pkgs (f : Frame) : (s.inject f).pkgs = s.pkgs := by
  unfold State.inject
  split
  · rfl
  · split <;> simp

@[simp] theorem State.sendAll_pkgs (fs : List Frame) : (s.sendAll fs).pkgs = s.pkgs := by
  induction fs generalizing s with
  | nil => rfl
  | cons f fs ih => simp [State.sendAll, ih]

@[simp] theorem State.sendControl_pkgs (op : BitVec 4) (channel : Nat) (job : BitVec 16) (dst variant aux : Nat)
    (payload : List Byte) (sig : Option SigExt) : (s.sendControl op channel job dst variant aux payload sig).pkgs = s.pkgs :=
  State.sendAll_pkgs _ _

@[simp] theorem State.signalTo_pkgs (job : BitVec 16) (device count inc : Nat) :
    (s.signalTo job device count inc).pkgs = s.pkgs := by
  unfold State.signalTo
  split
  · rfl
  · split <;> simp

@[simp] theorem State.signalAll_pkgs (job : BitVec 16) (count inc : Nat) (ds : List Nat) :
    (s.signalAll job count inc ds).pkgs = s.pkgs := by
  induction ds generalizing s with
  | nil => rfl
  | cons d ds ih => simp [State.signalAll, ih]

@[simp] theorem State.freeSlot_pkgs (job : BitVec 16) (l : Layer) : (s.freeSlot job l).pkgs = s.pkgs := by
  unfold State.freeSlot
  split <;> simp

@[simp] theorem State.passSlot_pkgs (job : BitVec 16) (x : Landing) (l : Nat) (y : Layer) :
    (s.passSlot job x l y).pkgs = s.pkgs := by
  unfold State.passSlot
  dsimp only
  split <;> simp

/-! ### Queues of tiles -/

/-- A wake wire leaves a tile's queue as it is. -/
theorem State.queue_wake (t : Nat) : ((s.wake t).tile t).queue = (s.tile t).queue := by
  simp [State.wake]

/-- A descriptor that enters a queue stands at its end (R64). -/
theorem State.queue_enterQueue (t : Nat) (d : Desc) : ((s.enterQueue t d).tile t).queue = (s.tile t).queue ++ [d] := by
  simp [State.enterQueue, State.queue_wake]

@[simp] theorem State.enterQueue_pkgs (t : Nat) (d : Desc) : (s.enterQueue t d).pkgs = s.pkgs := rfl

/-! ### The end of a package -/

/-- A package that is removed is no longer held. -/
theorem State.pkg?_removePkg (g : Nat) : (s.removePkg g).pkg? g = none := by
  have gone : (s.pkgs.filter (·.tag != g)).find? (·.tag == g) = none := by simp
  unfold State.removePkg
  split
  · assumption
  · dsimp only
    split
    · exact gone
    · exact gone

/-- A package that is abandoned is no longer held. -/
theorem State.pkg?_abandon (g code tile kernel index : Nat) (hw : Bool) : (s.abandon g code tile kernel index hw).pkg? g = none := by
  unfold State.abandon
  split
  · assumption
  · exact State.pkg?_removePkg _ g

end

/-! ### Numbering of tiles (R12) -/

/-- The index of a place names its die, row and column. -/
theorem place_of_index {k r c : Nat} (hr : r < 12) (hc : c < 12) :
    dieOf (k * 144 + r * 12 + c) = k ∧ rowOfTile (k * 144 + r * 12 + c) = r ∧ colOfTile (k * 144 + r * 12 + c) = c := by
  unfold dieOf rowOfTile colOfTile
  omega

/-- The die, row and column of a tile give its index. -/
theorem index_of_place (t : Nat) : t = dieOf t * 144 + rowOfTile t * 12 + colOfTile t := by
  unfold dieOf rowOfTile colOfTile
  omega

/-- A tile's die, row and column are in range. -/
theorem place_bounds (t : TileId) : dieOf t.val < 4 ∧ rowOfTile t.val < 12 ∧ colOfTile t.val < 12 := by
  have ht := t.isLt
  unfold dieOf rowOfTile colOfTile
  omega

/-! ### KERNEL_READY, SEQUENCER_WRITE and SEQUENCER_CONTROL_MESSAGE -/

section
variable {s : State} {d : DieId} {tag : Nat} {kernel : BitVec 16} {p : Pkg} {k : Kernel}

/-- KERNEL_READY of a kernel of a held package: it becomes ready if it may start (R21). -/
theorem exec_kernelReady (hp : s.pkg? tag = some p) (hk : p.kernel? kernel.toNat = some k) :
    exec (.kernelReady d tag kernel) s =
      if s.kernelMayStart d.val p k then .next (s.updPkg tag fun p => { p with ready := p.ready ++ [k.id] }) else .next s := by
  change execKernelReady d tag kernel s = _
  simp only [execKernelReady, hp, hk]

/-- A kernel that may start is held for no layer that it reads, and its die has had the message of the step (R22, R29). -/
theorem kernelMayStart_told {die : Nat} {j : JobCtx} (hj : s.job? p.job = some j) (h : s.kernelMayStart die p k = true) :
    p.layerHeld j k = false ∧ (die, none) ∉ p.untold := by
  simp only [State.kernelMayStart, hj, Bool.and_eq_true, Bool.not_eq_true', List.contains_eq_mem, decide_eq_false_iff_not] at h
  obtain ⟨⟨⟨-, hmsg⟩, -⟩, ⟨⟨-, hlayer⟩, -⟩, -⟩ := h
  exact ⟨hlayer, hmsg⟩

/-- The task `index` of a kernel of the die is `x`, and it is its turn: the package runs, the kernel is ready, and of the tasks with
its home every earlier one is written and it is not (R65). -/
structure TaskDue (d : DieId) (p : Pkg) (k : Kernel) (index : Nat) (x : Desc) : Prop where
  task : p.task k index = some x
  running : p.running = true
  die : k.die = d.val
  ready : p.ready.contains k.id = true
  unwritten : p.written.contains (k.id, index) = false
  inOrder : p.inOrder k index x.home = true

/-- A task whose turn it is is not passed over by SEQUENCER_WRITE. -/
theorem TaskDue.not_skipped {index : Nat} {x : Desc} (due : TaskDue d p k index x) :
    (!p.running || k.die != d.val || !p.ready.contains k.id || p.written.contains (k.id, index) || !p.inOrder k index x.home) =
      false := by
  simp only [due.running, due.die, due.ready, due.unwritten, due.inOrder, bne_self_eq_false, Bool.not_true, Bool.or_self]

/-- The detail of the record of a descriptor that its sequencer refuses (R82, log 117). -/
def refusedDetail (tag : Nat) (k : Kernel) (index : Nat) (x : Desc) (f : Nat) : W64 × W64 :=
  (BitVec.ofNat 64 (f + x.home % 1024 * 2 ^ 16 + k.id * 2 ^ 26 + index * 2 ^ 42 + tag * 2 ^ 58), 0)

variable {index : Nat} {x : Desc}

/-- SEQUENCER_WRITE of a task that is sound and has a tile and room there: its descriptor enters that tile's queue (R65). -/
theorem exec_sequencerWrite_room (hp : s.pkg? tag = some p) (hk : p.kernel? kernel.toNat = some k) (due : TaskDue d p k index x)
    (hb : p.descBad k x = none) {h : Nat} (hh : s.homeFor x = some h) (hr : (s.tile h).room x.vesper = true)
    (hv : p.vesper = true ∨ s.vesperFirst d.val = false) :
    exec (.sequencerWrite d tag kernel index) s =
      .next ((s.enterQueue h (x.withTag tag)).updPkg tag fun p => { p with written := p.written ++ [(k.id, index)] }) := by
  have hvesper : (!p.vesper && s.vesperFirst d.val) = false := by rcases hv with hv | hv <;> simp [hv]
  change execSequencerWrite d tag kernel index s = _
  simp only [execSequencerWrite, hp, hk, due.task, due.not_skipped, Bool.false_eq_true, if_false, hb, hh, hr, hvesper, Bool.not_true, Bool.or_self]

/-- SEQUENCER_WRITE of a sound task that is pinned to an isolated tile ends its package (R79, log 79). -/
theorem exec_sequencerWrite_pinned (hp : s.pkg? tag = some p) (hk : p.kernel? kernel.toNat = some k) (due : TaskDue d p k index x)
    (hb : p.descBad k x = none) (hh : s.homeFor x = none) :
    exec (.sequencerWrite d tag kernel index) s = .next (s.losePinned tag x) := by
  change execSequencerWrite d tag kernel index s = _
  simp only [execSequencerWrite, hp, hk, due.task, due.not_skipped, Bool.false_eq_true, if_false, hb, hh]

/-- SEQUENCER_WRITE of a descriptor that is refused: it is recorded and logged, and its package is abandoned (R61, R82). -/
theorem exec_sequencerWrite_refused (hp : s.pkg? tag = some p) (hk : p.kernel? kernel.toNat = some k) (due : TaskDue d p k index x)
    {f : Nat} (hb : p.descBad k x = some f) :
    exec (.sequencerWrite d tag kernel index) s =
      .next (((s.record 0x3800 16 (refusedDetail tag k index x f)).logAs 1 f (some p.job) (refusedDetail tag k index x f)).abandon
        tag f (x.home % 1024) k.id index false) := by
  change execSequencerWrite d tag kernel index s = _
  simp only [execSequencerWrite, hp, hk, due.task, due.not_skipped, Bool.false_eq_true, if_false, hb, refusedDetail]

end

/-! ### PACKAGE_START, STEP_START, LAYER_FLIP and PACKAGE_COMPLETE -/

section
variable {s : State} {tag : Nat} {p : Pkg}

/-- No ACCUMULATE of two steps before is unanswered (R302). -/
theorem unpaced_eq_false
    (h : p.kind = 1 → ∀ j, s.job? p.job = some j → 1 ≤ j.step → ∀ x ∈ s.xfers, x.job = p.job → x.step ≠ some (j.step - 1)) :
    s.unpaced p = false := by
  unfold State.unpaced
  cases hj : s.job? p.job with
  | none => simp
  | some j =>
    simp only [Bool.and_eq_false_imp, beq_iff_eq, List.any_eq_false, Bool.and_eq_true, decide_eq_true_eq, not_and]
    rintro hkind x hx ⟨hjob, hstep⟩ hone
    exact h hkind j hj hone x hx hjob hstep

/-- A package after its next step has begun: the sequencers start over, and dies 1 to 3 are to be told (R20, R22). -/
def Pkg.begun (p : Pkg) : Pkg := { p.tell none with running := true, step := p.step + 1, ready := [], written := [], ended := [] }

/-- The package whose step begins. -/
theorem State.pkg?_beginStep (hp : s.pkg? tag = some p) : (s.beginStep tag).pkg? tag = some p.begun := by
  have begun : (s.updPkg tag Pkg.begun).pkg? tag = some p.begun := State.pkg?_updPkg_some hp _ fun _ => rfl
  simp only [State.beginStep, hp]
  split
  · exact begun
  · exact begun

/-- An event that the lead sequencer tells is on its way to each of dies 1 to 3 (R22). -/
theorem mem_untold_tell (e : Option Nat) {d : Nat} (hd : d ∈ [1, 2, 3]) : (d, e) ∈ (p.tell e).untold := by
  simp only [List.mem_cons, List.not_mem_nil, or_false] at hd
  rcases hd with rfl | rfl | rfl <;> simp [Pkg.tell]

/-- The state after PACKAGE_START of a package that may start (R23, R27, R339, R343, log 43). -/
def State.started (s : State) (tag : Nat) (p : Pkg) : State :=
  let installed := match p.blocks with | some b => s.installBlocks p.job p.vesper b | none => s
  let streams := if p.kind = 2 then installed.evalStreams p.seed 576 else installed
  let begun := (streams.firstGrants p).beginStep tag
  if p.kind = 3 then begun.report p else begun

/-- PACKAGE_START of a package that may start and that no step of its job holds back (R23, R302). -/
theorem exec_packageStart (hp : s.pkg? tag = some p) (hm : s.mayStart p = true) (hu : s.unpaced p = false) :
    exec (.packageStart tag) s = .next (s.started tag p) := by
  change execPackageStart tag s = _
  rw [execPackageStart, hp]
  exact if_neg (by simp [hm, hu])

/-- STEP_START of a training package whose step is over and that nothing holds back (R20, R302, R343). -/
theorem exec_stepStart (hp : s.pkg? tag = some p) (hrun : p.running = true) (hkind : p.kind = 1) (hstep : p.step < p.stepCount)
    (hover : s.stepOver p = true) (hopen : s.windowOpen p.job = false) (hdue : s.windowDue p.job = false)
    (hu : s.unpaced p = false) :
    exec (.stepStart tag) s = .next ((s.settleNorms p.job).beginStep tag) := by
  change execStepStart tag s = _
  simp [execStepStart, hp, hrun, hkind, hstep, hover, hopen, hdue, hu]

/-- Layer `layer`, which is `y` of landing `x`, may flip in package `p` of job `j`: its turn in its slot has come and is not one to
leave it unchanged, its readers have ended, and its slot has landed (R28, R29). -/
structure FlipDue (p : Pkg) (x : Landing) (j : JobCtx) (layer : Nat) (y : Layer) : Prop where
  running : p.running = true
  kept : j.skipped.contains (Sp.get 0 j.flips layer + 1) = false
  turn : j.slotTurn x layer y.slot = true
  readers : p.readersEnded j layer = true
  landed : y.total ≤ ((Sp.get 0#32 j.counts y.landed) - (Sp.get 0#32 j.landedAt y.landed)).toNat

/-- The state once a layer's frames are exchanged, its slot is passed on and its flip is on its way to dies 1 to 3 (R22, R28). -/
def State.flipped (s : State) (tag : Nat) (p : Pkg) (x : Landing) (layer : Nat) (y : Layer) : State :=
  let b := match x.slots[y.slot]? with | some q => q.1 | none => y.vpage
  ((s.updJob p.job fun j => { j with pages := swapPages y.vpage b y.pages j.pages }).passSlot p.job x layer y).updPkg tag
    (·.tell (some layer))

variable {x : Landing} {j : JobCtx} {layer : Nat} {y : Layer}

/-- LAYER_FLIP of a layer that may flip (R28, R29, log 78). -/
theorem exec_layerFlip (hp : s.pkg? tag = some p) (hx : p.landing = some x) (hj : s.job? p.job = some j)
    (hy : x.layers[layer]? = some y) (due : FlipDue p x j layer y) :
    exec (.layerFlip tag layer) s = .next (((s.flipped tag p x layer y).settleSkips p.job x).settleNorms p.job) := by
  change execLayerFlip tag layer s = _
  simp only [execLayerFlip, hp, hx, hj, hy]
  exact if_pos (by simp only [due.running, due.kept, due.turn, due.readers, decide_eq_true due.landed, Bool.not_false, Bool.and_self])

/-- The package after a flip: the flip is to be told (R22). -/
theorem State.pkg?_flipped (hp : s.pkg? tag = some p) : (s.flipped tag p x layer y).pkg? tag = some (p.tell (some layer)) := by
  have kept (f : JobCtx → JobCtx) : ((s.updJob p.job f).passSlot p.job x layer y).pkg? tag = some p :=
    (State.pkg?_congr (State.passSlot_pkgs _ _ _ _ _) tag).trans hp
  exact State.pkg?_updPkg_some (kept _) _ fun _ => rfl

/-- The state in which a package's step record is judged at its end: the norm entries of a training step are settled (log 78). -/
def State.normsSettled (s : State) (p : Pkg) : State := if p.kind = 1 then s.settleNorms p.job else s

/-- Package `p` has ended but for its COMPLETE: its last step is over and its record is complete (R390). -/
structure EndDue (s : State) (p : Pkg) : Prop where
  running : p.running = true
  last : p.step = p.stepCount
  kind : p.kind ≠ 3
  stepOver : s.stepOver p = true
  recorded : (s.normsSettled p).recordDone p = true

/-- PACKAGE_COMPLETE waits while the COMPLETE cannot be handed over (R358). -/
theorem exec_packageComplete_waits (hp : s.pkg? tag = some p) (hh : (s.normsSettled p).handsOver p.conn = false) :
    exec (.packageComplete tag) s = .next s := by
  change execPackageComplete tag s = _
  unfold State.normsSettled at hh
  simp only [execPackageComplete, hp, hh, Bool.and_false, Bool.false_eq_true, if_false]

/-- PACKAGE_COMPLETE of a package that has ended: its COMPLETE goes out and it is no longer held (R358, R390). -/
theorem exec_packageComplete_ends (hp : s.pkg? tag = some p) (due : EndDue s p) (hh : (s.normsSettled p).handsOver p.conn = true) :
    exec (.packageComplete tag) s =
      let sent := (s.normsSettled p).originate p.conn p.hostKey (.complete p.pid p.job p.step (s.elapsed p) (s.onTime p))
      .next (((if p.vesper && s.onTime p then sent.bump 0xA120 1 else sent).bump 0x7058 1).removePkg tag) := by
  obtain ⟨hrun, hlast, hkind, hover, hrec⟩ := due
  have hlast' : (p.step == p.stepCount) = true := beq_iff_eq.mpr hlast
  have hkind' : (p.kind != 3) = true := bne_iff_ne.mpr hkind
  change execPackageComplete tag s = _
  unfold State.normsSettled at *
  simp only [execPackageComplete, hp, hrun, hlast', hkind', hover, hrec, hh, Bool.and_self, if_true]

end

end Sys2Proof.Machine

/-! ### The obligations -/

section
open Sys2Proof Sys2Proof.Machine

/-- Settles O9: the index reads k, r and c as digits of place values 144, 12 and 1. -/
theorem tileNumbering : Obligations.TileNumbering := by
  unfold Obligations.TileNumbering
  exact ⟨fun k r c hk hr hc => ⟨by omega, place_of_index hr hc⟩, fun t => ⟨index_of_place t.val, place_bounds t⟩⟩

/-- Settles O34: each command's effect is its lemma's, and the update of the package is what the tag then names. -/
theorem sequencersWriteTasks : Obligations.SequencersWriteTasks := by
  unfold Obligations.SequencersWriteTasks
  intro s d tag kernel p k hp hk
  refine ⟨fun hm => ?starts, fun hm => ?held, fun j hj hm => kernelMayStart_told hj hm,
    fun index x ht hrun hd hready hw ho => ?written, ?message⟩
  case starts =>
    exact ⟨_, (exec_kernelReady hp hk).trans (if_pos hm), ⟨_, State.pkg?_updPkg_some hp _ fun _ => rfl, rfl, rfl⟩, rfl, rfl⟩
  case held =>
    rw [exec_kernelReady hp hk, hm, if_neg Bool.false_ne_true]
  case written =>
    have due : TaskDue d p k index x := ⟨ht, hrun, hd, hready, hw, ho⟩
    refine ⟨fun h hb hh hr hv => ?_, fun hb hh => exec_sequencerWrite_pinned hp hk due hb hh, fun f hb => ?_⟩
    · have held : (s.enterQueue h (x.withTag tag)).pkg? tag = some p := (State.pkg?_congr (State.enterQueue_pkgs s h _) tag).trans hp
      exact ⟨_, exec_sequencerWrite_room hp hk due hb hh hr hv, State.queue_enterQueue s h _,
        ⟨_, State.pkg?_updPkg_some held _ fun _ => rfl, rfl⟩, rfl⟩
    · exact ⟨_, exec_sequencerWrite_refused hp hk due hb, State.pkg?_abandon _ _ _ _ _ _ _, rfl⟩
  case message =>
    exact ⟨_, rfl, ⟨_, State.pkg?_updPkg_some hp _ fun _ => rfl, rfl, rfl⟩, rfl, rfl⟩

/-- Settles O35: each command's effect is its lemma's; passing a slot on leaves the held packages alone, so the flip is told. -/
theorem packagesAndSteps : Obligations.PackagesAndSteps := by
  unfold Obligations.PackagesAndSteps
  refine ⟨fun s tag p hp => ⟨fun hm paced => ?starts, fun hrun hkind hstep hover hopen hdue paced => ?steps, ?begun⟩,
    fun s tag layer p x j y hp hx hj hy hrun hkept hturn hreaders hlanded => ⟨?flips, fun d hd => ?told⟩,
    fun s tag p hp hrun hlast hkind hover hrec => ⟨fun hh => ?waits, fun hh => ?ends⟩⟩
  case starts => exact exec_packageStart hp hm (unpaced_eq_false paced)
  case steps => exact exec_stepStart hp hrun hkind hstep hover hopen hdue (unpaced_eq_false paced)
  case begun => exact ⟨p.begun, State.pkg?_beginStep hp, rfl, rfl, rfl, rfl, rfl, rfl⟩
  case flips => exact exec_layerFlip hp hx hj hy ⟨hrun, hkept, hturn, hreaders, hlanded⟩
  case told => exact ⟨_, State.pkg?_flipped hp, mem_untold_tell (some layer) hd⟩
  case waits => exact exec_packageComplete_waits hp hh
  case ends => exact exec_packageComplete_ends hp ⟨hrun, hlast, hkind, hover, hrec⟩ hh

end
end

section
/-!
Tiles and work stealing (R62 to R82, R162, R169, R183, R390, R414): what END, ENQUEUE, QUEUE_STATE, TASK_TAKE, STEAL_PROBE,
PROBE_SERVE, VESPER_SUSPEND, NOON_RESUME, RETENTION_ENTRY, WAKE_WIRE, isolation and STATUS_REFRESH do to a tile and leave alone.
-/
namespace Sys2Proof.Machine

/-! ### What a tile keeps -/

section
variable (x : TileState) (v : Bool) (c : Option Ctx)

@[simp] theorem TileState.setCtx_queue : (x.setCtx v c).queue = x.queue := by cases v <;> rfl

@[simp] theorem TileState.setCtx_scratch : (x.setCtx v c).scratch = x.scratch := by cases v <;> rfl

@[simp] theorem TileState.setCtx_mat : (x.setCtx v c).mat = x.mat := by cases v <;> rfl

@[simp] theorem TileState.setCtx_isolated : (x.setCtx v c).isolated = x.isolated := by cases v <;> rfl

/-- The other context of a tile. -/
theorem TileState.ctx_not_setCtx : (x.setCtx v c).ctx (!v) = x.ctx (!v) := by cases v <;> rfl

end

section
variable (s : State)

/-- The tiles of a state decide what each of them is. -/
theorem State.tile_congr {s s' : State} (h : s'.tiles = s.tiles) (t : Nat) : s'.tile t = s.tile t := by
  rw [State.tile, h, State.tile]

/-- A state whose tiles are another's with one of them replaced. -/
theorem State.tile_of_setTile {s s' : State} {t : Nat} {x : TileState} (h : s'.tiles = (s.setTile t x).tiles) :
    s'.tile t = x ∧ ∀ u, u ≠ t → s'.tile u = s.tile u :=
  ⟨(State.tile_congr h t).trans (State.tile_setTile_self s t x), fun u hu => (State.tile_congr h u).trans (State.tile_setTile_ne s x hu)⟩

/-- A tile replaced is the only one that changes. -/
theorem sameBut_setTile (t : Nat) (x : TileState) : sameBut s (s.setTile t x) t := ⟨rfl, fun _ hu => State.tile_setTile_ne s x hu⟩

theorem sameBut.trans {s s' s'' : State} {t : Nat} (h : sameBut s s' t) (h' : sameBut s' s'' t) : sameBut s s'' t := by
  obtain ⟨rest, tiles⟩ := h
  obtain ⟨rest', tiles'⟩ := h'
  refine ⟨?_, fun u hu => (tiles' u hu).trans (tiles u hu)⟩
  rw [← rest, ← rest']

/-- A status word that rises changes no tile. -/
theorem sameBut_bump (t k n : Nat) : sameBut s (s.bump k n) t := ⟨rfl, fun _ _ => rfl⟩

/-- A wake wire reaches its own tile only. -/
theorem State.tile_wake_ne {t u : Nat} (h : u ≠ t) : (s.wake t).tile u = s.tile u := State.tile_setTile_ne s _ h

theorem sameBut_wake (t : Nat) : sameBut s (s.wake t) t := sameBut_setTile s t _

/-- A tile that a wake wire reaches is not in retention and owes a word if it was (R74, R77). -/
theorem State.tile_wake (t : Nat) : (s.wake t).tile t =
    { s.tile t with noon := (s.tile t).noon.map fun c => { c with waiting := false },
                    vesper := (s.tile t).vesper.map fun c => { c with waiting := false },
                    retained := false, probed := false, woken := (s.tile t).woken || (s.tile t).retained } :=
  State.tile_setTile_self s t _

/-- A descriptor that enters a tile's queue reaches that tile only. -/
theorem State.tile_enterQueue_ne {t u : Nat} (d : Desc) (h : u ≠ t) : (s.enterQueue t d).tile u = s.tile u := by
  rw [State.enterQueue, State.tile_wake_ne _ h, State.tile_setTile_ne _ _ h]

theorem State.tile_unwoken (t : Nat) : (s.unwoken t).tile t = { s.tile t with woken := false } := State.tile_setTile_self s t _

theorem State.tile_unwoken_ne {t u : Nat} (h : u ≠ t) : (s.unwoken t).tile u = s.tile u := State.tile_setTile_ne s _ h

/-- Issuing a word leaves every queue as it is. -/
theorem State.queue_issued (t u : Nat) (v : Bool) (f : Ctx → Ctx) : ((s.issued t v f).tile u).queue = (s.tile u).queue := by
  by_cases h : u = t
  · subst h
    simp [State.issued, State.updCtx]
  · rw [State.tile_issued_ne v f h]

end

/-! ### END (R62, R169, R359) -/

section
variable (s : State) (c : Ctx) (waves : Nat)

@[simp] theorem State.costEnd_tiles : (s.costEnd c waves).tiles = s.tiles := by
  unfold State.costEnd
  dsimp only
  split <;> rfl

@[simp] theorem State.costEnd_mem : (s.costEnd c waves).mem = s.mem := by
  unfold State.costEnd
  dsimp only
  split <;> rfl

@[simp] theorem State.costEnd_jobs : (s.costEnd c waves).jobs = s.jobs := by
  unfold State.costEnd
  dsimp only
  split <;> rfl

/-- The package of a Vesper task is still held after the task's accounting. -/
theorem State.pkg?_costEnd {p : Pkg} (hp : s.pkg? c.desc.tag = some p) : ∃ q, (s.costEnd c waves).pkg? c.desc.tag = some q := by
  unfold State.costEnd
  refine ⟨_, State.pkg?_updPkg_some (p := p) ?_ _ fun _ => rfl⟩
  refine (State.pkg?_congr ?_ _).trans hp
  dsimp only
  split <;> rfl

variable (t : Nat) (v : Bool)

/-- Of the tiles, the end of a task changes one, and of that one the context that ends. -/
theorem State.endOf_tiles : (s.endOf t v c waves).tiles = (s.setTile t ((s.tile t).setCtx v none)).tiles := by
  cases v
  · rfl
  · exact State.costEnd_tiles _ c waves

@[simp] theorem State.endOf_mem : (s.endOf t v c waves).mem = s.mem := by
  cases v
  · rfl
  · exact State.costEnd_mem _ c waves

@[simp] theorem State.endOf_jobs : (s.endOf t v c waves).jobs = s.jobs := by
  cases v
  · rfl
  · exact State.costEnd_jobs _ c waves

/-- The package of a task that ends counts it. -/
theorem State.pkg?_endOf {p : Pkg} (hp : s.pkg? c.desc.tag = some p) :
    ∃ q, (s.endOf t v c waves).pkg? c.desc.tag = some q ∧ (c.desc.kernel, c.desc.index) ∈ q.ended := by
  have counted {z : State} {q : Pkg} (hq : z.pkg? c.desc.tag = some q) :
      ∃ q', (z.updPkg c.desc.tag fun p => { p with ended := p.ended ++ [(c.desc.kernel, c.desc.index)] }).pkg? c.desc.tag = some q' ∧
        (c.desc.kernel, c.desc.index) ∈ q'.ended :=
    ⟨_, State.pkg?_updPkg_some hq _ fun _ => rfl, List.mem_append_right _ (List.mem_singleton_self _)⟩
  cases v with
  | false => exact counted (q := p) hp
  | true =>
    obtain ⟨q, hq⟩ := State.pkg?_costEnd (((s.setTile t ((s.tile t).setCtx true none)).bump (0x3120 + 0x40 * (t / 144)) 1)) c waves (p := p) hp
    exact counted hq

end

section
variable {s : State} {t : TileId} {v : Bool} {w : BitVec 128} {c : Ctx} {waves : BitVec 64}

/-- END that stands at its task's position issues. -/
theorem exec_endTask (h : stands s t v w c) (op : opcodeOf w.toNat = 0x01) :
    exec (.endTask t v w waves) s = .next (settle t.val v c.off (endWord t.val v w.toNat waves.toNat c (c.reg (xregOf w.toNat)) s)) :=
  issue_stands h (by rw [op]; decide) (by rw [ofOpcode, op]; decide)

/-- END is held back while a word before it is incomplete (R169). -/
theorem endWord_held {n x : Nat} (hs : stray w.toNat [] = false) (hw : c.words ≠ []) : endWord t.val v w.toNat n c x s = .hold s := by
  have more : c.words.isEmpty = false := List.isEmpty_eq_false_iff.mpr hw
  simp [endWord, hs, more]

/-- END of a task whose words are complete and that has no DONE_COUNT ends it (R169). -/
theorem endWord_ended {n x : Nat} (hs : stray w.toNat [] = false) (hw : c.words = []) (hd : c.desc.done = none) :
    endWord t.val v w.toNat n c x s = .ended (s.endOf t.val v c n) := by
  simp [endWord, hs, hw, hd]

/-- END of a task whose words are complete raises its DONE_COUNT and ends it (R62, R169). -/
theorem endWord_done {n x i : Nat} (hs : stray w.toNat [] = false) (hw : c.words = []) (hd : c.desc.done = some i)
    (hr : (s.raiseCount c.job i 1 0x3FFF).1 = none) :
    endWord t.val v w.toNat n c x s = .ended ((s.raiseCount c.job i 1 0x3FFF).2.endOf t.val v c n) := by
  have raised : s.raiseCount c.job i 1 0x3FFF = (none, (s.raiseCount c.job i 1 0x3FFF).2) := Prod.ext hr rfl
  simp only [endWord, hs, hw, hd, List.isEmpty_nil, Bool.not_true, Bool.false_eq_true, if_false]
  rw [raised]

end

/-! ### ENQUEUE and QUEUE_STATE (R66, R79, R183) -/

/-- The descriptor at an offset of a tile's scratchpad (Table 03-3). -/
def State.descAt (s : State) (t a : Nat) : Desc :=
  let ws := memWords (s.tile t).scratch a 4
  ⟨BitVec.ofNat 64 (nth 0 ws 0), BitVec.ofNat 64 (nth 0 ws 1), BitVec.ofNat 64 (nth 0 ws 2), BitVec.ofNat 64 (nth 0 ws 3)⟩

/-- The CLASS of a task's package: the one that its descriptors have (R24). -/
def State.classOf (s : State) (d : Desc) : Bool := match s.pkg? d.tag with | some p => p.vesper | none => d.vesper

section
variable {s : State} {t : TileId} {v : Bool} {w : BitVec 128} {c : Ctx}

theorem exec_enqueue (h : stands s t v w c) (op : opcodeOf w.toNat = 0x70) :
    exec (.enqueue t v w) s = .next (settle t.val v c.off (enqueueWord t.val v w.toNat c (c.reg (xregOf w.toNat)) s)) :=
  issue_stands h (by rw [op]; decide) (by rw [ofOpcode, op]; decide)

theorem exec_queueState (h : stands s t v w c) (op : opcodeOf w.toNat = 0x71) :
    exec (.queueState t v w) s = .next (settle t.val v c.off (queueStateWord t.val v w.toNat c (c.reg (xregOf w.toNat)) s)) :=
  issue_stands h (by rw [op]; decide) (by rw [ofOpcode, op]; decide)

end

section
variable {s : State} {t w x a : Nat} {v : Bool} {c : Ctx} (hs : stray w [(0, 24)] = false) (ha : paramAt v w x 32 = .ok a)
include hs ha

/-- ENQUEUE checks the descriptor that its parameter block names, finds its queue, and writes it there where there is room. -/
theorem enqueueWord_eq : enqueueWord t v w c x s =
    let d := s.descAt t a
    match (d.bad none).orElse fun _ => if d.vesper = s.classOf c.desc then none else some 0x3201 with
    | some f => .fault f s
    | none =>
      match s.homeFor d with
      | none => .ended (s.losePinned c.desc.tag d)
      | some h =>
        if (s.tile h).room d.vesper then .ok (s.enterQueue h (d.withTag c.desc.tag)) else if h = t then .fault 0x3203 s else .hold s := by
  rw [enqueueWord, hs, ha]
  rfl

/-- A bad descriptor raises its fault (R61). -/
theorem enqueueWord_bad {f : Nat} (hb : (s.descAt t a).bad none = some f) : enqueueWord t v w c x s = .fault f s := by
  simp only [enqueueWord_eq hs ha, hb, Option.orElse_some]

/-- A descriptor of the other CLASS raises F-3201 (R24). -/
theorem enqueueWord_class (hb : (s.descAt t a).bad none = none) (hv : (s.descAt t a).vesper ≠ s.classOf c.desc) :
    enqueueWord t v w c x s = .fault 0x3201 s := by
  simp only [enqueueWord_eq hs ha, hb, Option.orElse_none, if_neg hv]

variable (hb : (s.descAt t a).bad none = none) (hv : (s.descAt t a).vesper = s.classOf c.desc)
include hb hv

/-- A descriptor pinned to an isolated tile ends its package (log 79). -/
theorem enqueueWord_pinned (hh : s.homeFor (s.descAt t a) = none) :
    enqueueWord t v w c x s = .ended (s.losePinned c.desc.tag (s.descAt t a)) := by
  simp only [enqueueWord_eq hs ha, hb, Option.orElse_none, if_pos hv, hh]

variable {h : Nat} (hh : s.homeFor (s.descAt t a) = some h)
include hh

/-- A descriptor enters a queue that has room (R66). -/
theorem enqueueWord_room (hr : (s.tile h).room (s.descAt t a).vesper = true) :
    enqueueWord t v w c x s = .ok (s.enterQueue h ((s.descAt t a).withTag c.desc.tag)) := by
  simp only [enqueueWord_eq hs ha, hb, Option.orElse_none, if_pos hv, hh, if_pos hr]

/-- A full queue of another tile holds the word back, the tile's own raises F-3203 (R66). -/
theorem enqueueWord_full (hr : (s.tile h).room (s.descAt t a).vesper = false) :
    enqueueWord t v w c x s = if h = t then .fault 0x3203 s else .hold s := by
  simp only [enqueueWord_eq hs ha, hb, Option.orElse_none, if_pos hv, hh, hr, Bool.false_eq_true, if_false]

end

/-! ### TASK_TAKE (R64, R165) -/

section
variable {s : State} {t : TileId} {d : Desc} {p : Pkg}

/-- Saving the banks leaves the tile's queue and contexts as they are. -/
theorem TileState.saveBanks_queue (x : TileState) : x.saveBanks.queue = x.queue := rfl

theorem TileState.saveBanks_ctx (x : TileState) (v : Bool) : x.saveBanks.ctx v = x.ctx v := by cases v <;> rfl

/-- The tile as a task finds it: its banks saved where the task uses them and a suspended Noon task has not given them up (R72). -/
def TileState.readied (x : TileState) (d : Desc) (v : Bool) : TileState :=
  if v && d.usesMatrix && x.suspended && x.save.isNone then x.saveBanks else x

theorem TileState.readied_queue (x : TileState) (d : Desc) (v : Bool) : (x.readied d v).queue = x.queue := by
  unfold TileState.readied
  split
  · exact x.saveBanks_queue
  · rfl

theorem TileState.readied_ctx (x : TileState) (d : Desc) (v v' : Bool) : (x.readied d v).ctx v' = x.ctx v' := by
  unfold TileState.readied
  split
  · exact x.saveBanks_ctx v'
  · rfl

theorem TileState.readied_of_not_suspended {x : TileState} (d : Desc) (v : Bool) (h : x.suspended = false) : x.readied d v = x := by
  rw [TileState.readied, h, Bool.and_false, Bool.false_and, if_neg Bool.false_ne_true]

/-- The tile once it has taken a descriptor of a package of a job (R64, R165). -/
def TileState.take (x : TileState) (d : Desc) (job : BitVec 16) (t : Nat) (v : Bool) : TileState :=
  { x.readied d v with queue := eraseFirst (· == d) (x.readied d v).queue, probed := false }.setCtx v (some (Ctx.start d job t))

/-- A descriptor of a held package starts on its tile. -/
theorem State.startTask_eq (hp : s.pkg? d.tag = some p) (t : Nat) (v : Bool) :
    s.startTask t d v = s.setTile t ((s.tile t).take d p.job t v) := by
  rw [State.startTask, hp]
  rfl

theorem TileState.take_ctx (x : TileState) (job : BitVec 16) (t : Nat) (v : Bool) : (x.take d job t v).ctx v = some (Ctx.start d job t) := by
  rw [TileState.take, TileState.ctx_setCtx]

theorem TileState.take_ctx_not (x : TileState) (job : BitVec 16) (t : Nat) (v : Bool) : (x.take d job t v).ctx (!v) = x.ctx (!v) := by
  rw [TileState.take, TileState.ctx_not_setCtx]
  exact x.readied_ctx d v (!v)

theorem TileState.take_queue (x : TileState) (job : BitVec 16) (t : Nat) (v : Bool) :
    (x.take d job t v).queue = eraseFirst (· == d) x.queue := by
  rw [TileState.take, TileState.setCtx_queue]
  exact congrArg _ (x.readied_queue d v)

/-- With no suspended task the banks stay where they are. -/
theorem TileState.take_banks {x : TileState} (job : BitVec 16) (t : Nat) (v : Bool) (h : x.suspended = false) :
    (x.take d job t v).scratch = x.scratch ∧ (x.take d job t v).mat = x.mat := by
  rw [TileState.take, TileState.setCtx_scratch, TileState.setCtx_mat, x.readied_of_not_suspended d v h]
  exact ⟨rfl, rfl⟩

/-- TASK_TAKE takes the oldest Vesper descriptor, over a Noon task where that is suspended (R64, R72). -/
theorem exec_taskTake_vesper (hi : (s.tile t.val).isolated = false) (hr : (s.tile t.val).retained = false)
    (hv : (s.tile t.val).vesper = none) (hn : (s.tile t.val).noon = none ∨ (s.tile t.val).suspended = true)
    (hd : (s.tile t.val).queue.find? (·.vesper) = some d) : exec (.taskTake t) s = .next (s.startTask t.val d true) := by
  have free : ((s.tile t.val).noon.isSome && !(s.tile t.val).suspended) = false := by rcases hn with hn | hn <;> simp [hn]
  change execTaskTake t s = _
  simp [execTaskTake, hi, hr, hv, hd, free]

/-- TASK_TAKE of a queue without Vesper descriptors takes its oldest, once no task runs (R64). -/
theorem exec_taskTake_noon (hi : (s.tile t.val).isolated = false) (hr : (s.tile t.val).retained = false)
    (hv : (s.tile t.val).vesper = none) (hn : (s.tile t.val).noon = none) (hq : (s.tile t.val).queue.find? (·.vesper) = none)
    (hd : (s.tile t.val).queue.head? = some d) : exec (.taskTake t) s = .next (s.startTask t.val d false) := by
  obtain ⟨ds, hds⟩ := List.head?_eq_some_iff.mp hd
  change execTaskTake t s = _
  rw [hds] at hq
  simp [execTaskTake, hi, hr, hv, hn, hds, hq]

/-- TASK_TAKE takes the descriptor that R64 names into the context of its CLASS. -/
theorem exec_taskTake (hi : (s.tile t.val).isolated = false) (hr : (s.tile t.val).retained = false) (hv : (s.tile t.val).vesper = none)
    (hn : (s.tile t.val).noon = none ∨ (d.vesper = true ∧ (s.tile t.val).suspended = true))
    (hd : (s.tile t.val).queue.find? (·.vesper) = some d ∨
      ((s.tile t.val).queue.find? (·.vesper) = none ∧ (s.tile t.val).queue.head? = some d ∧ d.vesper = false)) :
    exec (.taskTake t) s = .next (s.startTask t.val d d.vesper) := by
  rcases hd with hd | ⟨hq, hd, hc⟩
  · have hc : d.vesper = true := List.find?_some hd
    rw [hc]
    exact exec_taskTake_vesper hi hr hv (hn.imp_right And.right) hd
  · have idle : (s.tile t.val).noon = none := hn.resolve_right fun ⟨hc', _⟩ => by simp [hc] at hc'
    rw [hc]
    exact exec_taskTake_noon hi hr hv idle hq hd

end

/-! ### Handing over (R67 to R70, R73) -/

section
variable (s : State)

/-- A status word that rises changes no tile. -/
theorem State.tile_bump (k n u : Nat) : (s.bump k n).tile u = s.tile u := State.tile_congr (State.bump_tiles s k n) u

/-- The thief's queue after a theft: what it held, and behind it what it stole, marked STOLEN; its wire has fired (R69). -/
theorem State.steal_thief {victim thief : Nat} (h : victim ≠ thief) (ds : List Desc) :
    ((s.steal victim thief ds).tile thief).queue = (s.tile thief).queue ++ ds.map Desc.steal ∧
      ((s.steal victim thief ds).tile thief).retained = false := by
  rw [State.steal, State.tile_bump, State.tile_bump, State.tile_wake, State.tile_setTile_self, State.tile_setTile_ne _ _ h.symm]
  exact ⟨rfl, rfl⟩

/-- The victim's queue after a theft. -/
theorem State.steal_victim {victim thief : Nat} (h : victim ≠ thief) (ds : List Desc) :
    ((s.steal victim thief ds).tile victim).queue = withoutYoungest ds (s.tile victim).queue := by
  rw [State.steal, State.tile_bump, State.tile_bump, State.tile_wake_ne _ h, State.tile_setTile_ne _ _ h, State.tile_setTile_self]

end

/-! ### Which descriptors a victim hands over (R67, R69, R70, R73) -/

/-- Descriptors leave a queue as the difference of lists takes them. -/
theorem eraseFirst_eq_erase (d : Desc) (q : List Desc) : eraseFirst (· == d) q = q.erase d := by
  induction q with
  | nil => rfl
  | cons x xs ih => rw [eraseFirst, List.erase_cons, ih]

/-- A queue holds what is handed over beside what stays. -/
theorem count_withoutYoungest {ds q : List Desc} (h : ds.Sublist q) (d : Desc) : (withoutYoungest ds q).count d + ds.count d = q.count d := by
  have left : withoutYoungest ds q = (q.reverse.diff ds).reverse := by
    simp only [withoutYoungest, eraseFirst_eq_erase, List.diff_eq_foldl]
  rw [left, List.count_reverse, List.count_diff, List.count_reverse]
  exact Nat.sub_add_cancel (h.count_le d)

section
variable (s : State) (victim thief : Nat)

/-- The conditions of R67, R70 and R73 one by one. -/
theorem State.eligible_iff (older : Nat) (d : Desc) : s.eligible victim thief older d = true ↔
    d.portable = true ∧ d.stolen = false ∧ inScope d thief = true ∧
    (d.vesper = false → dieOf victim = dieOf thief ∨ d.scope = 3) ∧
    (d.vesper = true → dieOf victim = dieOf thief ∧ (s.tile thief).queue.any (·.vesper) = false ∧ d.cost ≤ s.cfg.vesperStealLimit ∧
      1024 ≤ older) := by
  unfold State.eligible
  cases d.vesper <;> simp [and_assoc]

/-- The waves that a descriptor adds to those that stand before the next one (R73). -/
def Desc.waves (d : Desc) : Nat := if d.vesper then d.cost else 0

theorem State.eligiblesFrom_cons (older : Nat) (d : Desc) (ds : List Desc) : s.eligiblesFrom victim thief older (d :: ds) =
    if s.eligible victim thief older d then d :: s.eligiblesFrom victim thief (older + d.waves) ds
    else s.eligiblesFrom victim thief (older + d.waves) ds := rfl

theorem State.eligiblesFrom_sublist (older : Nat) (q : List Desc) : (s.eligiblesFrom victim thief older q).Sublist q := by
  induction q generalizing older with
  | nil => exact List.Sublist.refl []
  | cons d ds ih =>
    rw [State.eligiblesFrom_cons]
    split
    · exact (ih _).cons_cons d
    · exact (ih _).cons d

/-- What is eligible stands in the victim's queue, in order of age. -/
theorem State.eligibles_sublist : (s.eligibles victim thief).Sublist (s.tile victim).queue := by
  rw [State.eligibles]
  split
  · exact List.nil_sublist _
  · exact s.eligiblesFrom_sublist victim thief 0 _

/-- A tile in isolation or retention has nothing to hand over (R67). -/
theorem State.eligibles_out (h : (s.tile victim).isolated = true ∨ (s.tile victim).retained = true) : s.eligibles victim thief = [] := by
  have out : ((s.tile victim).isolated || (s.tile victim).retained) = true := by rcases h with h | h <;> simp [h]
  rw [State.eligibles]
  exact if_pos out

theorem State.eligibles_in (hi : (s.tile victim).isolated = false) (hr : (s.tile victim).retained = false) :
    s.eligibles victim thief = s.eligiblesFrom victim thief 0 (s.tile victim).queue := by
  simp [State.eligibles, hi, hr]

/-- The Vesper waves of a list of descriptors, its first one apart. -/
theorem vesperWaves_cons (x : Desc) (xs : List Desc) : sumNat (((x :: xs).filter (·.vesper)).map Desc.cost) =
    x.waves + sumNat ((xs.filter (·.vesper)).map Desc.cost) := by
  cases h : x.vesper <;> simp [Desc.waves, h, sumNat]

/-- A descriptor that is eligible behind the Vesper waves before it is among the eligible ones. -/
theorem State.mem_eligiblesFrom {d : Desc} {post : List Desc} (pre : List Desc) (older : Nat)
    (h : s.eligible victim thief (older + sumNat ((pre.filter (·.vesper)).map Desc.cost)) d = true) :
    d ∈ s.eligiblesFrom victim thief older (pre ++ d :: post) := by
  induction pre generalizing older with
  | nil =>
    rw [List.nil_append, State.eligiblesFrom_cons, if_pos (c := s.eligible victim thief older d = true) h]
    exact List.mem_cons_self
  | cons x xs ih =>
    rw [vesperWaves_cons, ← Nat.add_assoc] at h
    rw [List.cons_append, State.eligiblesFrom_cons]
    split
    · exact List.mem_cons_of_mem x (ih _ h)
    · exact ih _ h

/-- What is handed over comes from the eligible descriptors, in their order. -/
theorem State.handed_sublist_eligibles : (s.handed victim thief).Sublist (s.eligibles victim thief) := by
  rw [State.handed]
  split
  · next d hd => exact List.singleton_sublist.mpr (List.mem_of_mem_filter (List.mem_of_getLast? hd))
  · dsimp only
    split
    · exact List.nil_sublist _
    · exact List.drop_sublist _ _

theorem State.handed_sublist : (s.handed victim thief).Sublist (s.tile victim).queue :=
  (s.handed_sublist_eligibles victim thief).trans (s.eligibles_sublist victim thief)

/-- With nothing eligible nothing is handed over. -/
theorem State.handed_of_eligibles_nil (h : s.eligibles victim thief = []) : s.handed victim thief = [] :=
  List.sublist_nil.mp (h ▸ s.handed_sublist_eligibles victim thief)

/-- The youngest eligible Vesper descriptor goes alone (R73). -/
theorem State.handed_vesper {d : Desc} (h : ((s.eligibles victim thief).filter (·.vesper)).getLast? = some d) :
    s.handed victim thief = [d] := by
  rw [State.handed, h]

theorem filter_vesper_eq_nil {es : List Desc} (h : es.any (·.vesper) = false) : es.filter (·.vesper) = [] :=
  List.filter_eq_nil_iff.mpr fun d hd => by simpa using List.any_eq_false.mp h d hd

/-- Of Noon descriptors alone the youngest half go, but across dies none where too few are eligible (R69, R70). -/
theorem State.handed_noon (h : (s.eligibles victim thief).any (·.vesper) = false) : s.handed victim thief =
    let es := s.eligibles victim thief
    if es.length = 0 ∨ (dieOf victim ≠ dieOf thief ∧ es.length < s.cfg.crossDieMin) then []
    else es.drop (es.length - max 1 (es.length / 2)) := by
  rw [State.handed, filter_vesper_eq_nil h]
  rfl

/-- The youngest half of the eligible Noon descriptors are handed over within the die, and across dies where enough are eligible
(R69, R70). -/
theorem State.handed_half (hne : s.eligibles victim thief ≠ []) (hv : (s.eligibles victim thief).any (·.vesper) = false)
    (hmin : dieOf victim = dieOf thief ∨ s.cfg.crossDieMin ≤ (s.eligibles victim thief).length) :
    ∃ older, s.eligibles victim thief = older ++ s.handed victim thief ∧
      (s.handed victim thief).length = max 1 ((s.eligibles victim thief).length / 2) := by
  have nonzero : (s.eligibles victim thief).length ≠ 0 := by simpa using hne
  have go : ¬((s.eligibles victim thief).length = 0 ∨
      (dieOf victim ≠ dieOf thief ∧ (s.eligibles victim thief).length < s.cfg.crossDieMin)) := by omega
  rw [State.handed_noon s victim thief hv]
  dsimp only
  rw [if_neg go]
  refine ⟨_, (List.take_append_drop _ _).symm, ?_⟩
  rw [List.length_drop]
  omega

/-- Across dies nothing is handed over where too few are eligible (R70). -/
theorem State.handed_across (hv : (s.eligibles victim thief).any (·.vesper) = false) (hd : dieOf victim ≠ dieOf thief)
    (hmin : (s.eligibles victim thief).length < s.cfg.crossDieMin) : s.handed victim thief = [] := by
  rw [State.handed_noon s victim thief hv]
  exact if_pos (Or.inr ⟨hd, hmin⟩)

end

/-! ### A stolen descriptor (R69) -/

section
variable (d : Desc)

/-- Marking a descriptor STOLEN sets bit 37 of its first word alone. -/
theorem Desc.testBit_steal (i : Nat) : d.steal.w0.toNat.testBit i = (d.w0.toNat.testBit i || decide (i = 37)) := by
  have mark : (BitVec.ofNat 64 (2 ^ 37)).toNat = 2 ^ 37 := by decide
  rw [Desc.steal, BitVec.toNat_or, Nat.testBit_or, mark, Nat.testBit_two_pow]
  simp [eq_comm]

/-- A field that does not hold bit 37 is the same after STOLEN is set. -/
theorem Desc.fld_steal {lo len : Nat} (h : 37 < lo ∨ lo + len ≤ 37) : fld d.steal.w0.toNat lo len = fld d.w0.toNat lo len := by
  apply Nat.eq_of_testBit_eq
  intro i
  simp only [fld, Nat.testBit_mod_two_pow, Nat.testBit_shiftRight, Desc.testBit_steal]
  by_cases hi : i < len
  · have : lo + i ≠ 37 := by omega
    simp [this]
  · simp [hi]

theorem Desc.steal_stolen : d.steal.stolen = true := by
  rw [Desc.stolen, flag, Desc.testBit_steal]
  simp

theorem Desc.steal_portable : d.steal.portable = d.portable := by
  rw [Desc.portable, flag, Desc.testBit_steal]
  simp [Desc.portable, flag]

theorem Desc.steal_vesper : d.steal.vesper = d.vesper := by
  rw [Desc.vesper, flag, Desc.testBit_steal]
  simp [Desc.vesper, flag]

theorem Desc.steal_home : d.steal.home = d.home := d.fld_steal (.inl (by decide))

theorem Desc.steal_tag : d.steal.tag = d.tag := d.fld_steal (.inl (by decide))

end

/-! ### STEAL_PROBE and PROBE_SERVE (R67, R68, R80) -/

section
variable {s : State} {t : TileId}

/-- A tile in isolation or retention does not probe (R67). -/
theorem TileState.mayProbe_out {x : TileState} (h : x.isolated = true ∨ x.retained = true) : x.mayProbe = false := by
  rcases h with h | h <;> simp [TileState.mayProbe, h]

/-- A tile that may not probe steals nothing and is served nothing. -/
theorem exec_stealProbe_idle (h : (s.tile t.val).mayProbe = false) : exec (.stealProbe t) s = .next s := by
  change execStealProbe t s = _
  simp [execStealProbe, h]

theorem exec_probeServe_idle {victim : TileId} (h : (s.tile t.val).mayProbe = false) : exec (.probeServe victim t) s = .next s := by
  change execProbeServe victim t s = _
  simp [execProbeServe, h]

variable (hm : (s.tile t.val).mayProbe = true)
include hm

/-- The first victim of the probe order that hands something over is stolen from (R68). -/
theorem exec_stealProbe_some {u : Nat} {ds : List Desc} (h : s.probeOrder t.val = some (u, ds)) :
    exec (.stealProbe t) s = .next (s.steal u t.val ds) := by
  change execStealProbe t s = _
  simp [execStealProbe, hm, h]

/-- An order that finds nothing is counted, and the tile waits for a wake wire (R68, R80). -/
theorem exec_stealProbe_none (h : s.probeOrder t.val = none) : exec (.stealProbe t) s =
    .next ((s.setTile t.val { s.tile t.val with probed := true }).bump (0x3130 + 0x40 * dieOf t.val) 1) := by
  change execStealProbe t s = _
  simp [execStealProbe, hm, h]

/-- A victim serves the probe only if the order comes to it (R69). -/
theorem exec_probeServe_some {victim : TileId} {u : Nat} {ds : List Desc} (h : s.probeOrder t.val = some (u, ds)) :
    exec (.probeServe victim t) s = .next (if u = victim.val then s.steal u t.val ds else s) := by
  change execProbeServe victim t s = _
  simp only [execProbeServe, hm, h, Bool.not_true, Bool.false_eq_true, if_false]
  split <;> rfl

end

/-- What the probe order names is another tile, with what it hands over, which is not nothing (R68). -/
theorem State.probeOrder_some {s : State} {thief u : Nat} {ds : List Desc} (h : s.probeOrder thief = some (u, ds)) :
    u ≠ thief ∧ ds = s.handed u thief ∧ ds ≠ [] := by
  obtain ⟨v, -, hv⟩ := List.exists_of_findSome?_eq_some h
  split at hv
  · cases hv
  · next hne =>
    split at hv
    · cases hv
    · next hds =>
      cases hv
      exact ⟨hne, rfl, hds⟩

/-! ### STATUS_REFRESH (R80, R81, R354, R414) -/

/-- Two states that agree but for status words from 0x3200 on, where those of TILE_BUSY lie. -/
def Busied (s z : State) : Prop := ∃ w, z = { s with stat := w } ∧ ∀ k, k < 0x3200 → Sp.get 0#64 w k = s.word k

section
variable {s z y : State}

theorem Busied.refl (s : State) : Busied s s := ⟨s.stat, rfl, fun _ _ => rfl⟩

theorem Busied.trans (h : Busied s z) (h' : Busied z y) : Busied s y := by
  obtain ⟨_, rfl, kept⟩ := h
  obtain ⟨w, rfl, kept'⟩ := h'
  exact ⟨w, rfl, fun k hk => (kept' k hk).trans (kept k hk)⟩

theorem Busied.setWord (s : State) {k : Nat} (x : W64) (h : 0x3200 ≤ k) : Busied s (s.setWord k x) :=
  ⟨_, rfl, fun _ hk => State.word_setWord_ne s x (by omega)⟩

theorem State.clearBusy_busied (s : State) (n : Nat) : Busied s (s.clearBusy n) := by
  induction n generalizing s with
  | zero => exact Busied.refl s
  | succ n ih => exact (Busied.setWord s 0 (by omega)).trans (ih _)

theorem State.setBusy_busied (s : State) (busy : List (Nat × Nat)) : Busied s (s.setBusy busy) := by
  induction busy generalizing s with
  | nil => exact Busied.refl s
  | cons b bs ih =>
    rw [State.setBusy]
    refine Busied.trans ?_ (ih _)
    split
    · exact Busied.setWord s _ (by omega)
    · exact Busied.refl s

end

/-- The state with the SNAPSHOT_SEQ of a block raised (R81). -/
def State.sequenced (s : State) (block : Nat) : State := match seqWord block with | some k => s.bump k 1 | none => s

/-- The state with TILE_BUSY anew where a block holds it (R80). -/
def State.busyAnew (s : State) (block : Fin 12) (busy : List (Nat × Nat)) : State :=
  if block = 3 then (s.clearBusy 72).setBusy busy else s

/-! Publishing writes the two published copies and leaves the rest as it is. -/

section
variable (s : State) (b : Nat)

theorem State.publishBoth_pub : (s.publishBoth b).pub = s.publish false b s.pub := by rw [State.publishBoth]

theorem State.publishBoth_pubExact : (s.publishBoth b).pubExact = s.publish true b s.pubExact := by rw [State.publishBoth]

theorem State.publishBoth_stat : (s.publishBoth b).stat = s.stat := by rw [State.publishBoth]

theorem State.publishBoth_mem : (s.publishBoth b).mem = s.mem := by rw [State.publishBoth]

theorem State.publishBoth_tiles : (s.publishBoth b).tiles = s.tiles := by rw [State.publishBoth]

theorem State.publishBoth_jobs : (s.publishBoth b).jobs = s.jobs := by rw [State.publishBoth]

end

section
variable (s : State) (block : Fin 12) (busy : List (Nat × Nat))

theorem State.sequenced_eq (b : Nat) : ∃ w, s.sequenced b = { s with stat := w } := by
  unfold State.sequenced
  split
  · exact s.bump_eq _ 1
  · exact ⟨s.stat, rfl⟩

theorem State.busyAnew_busied : Busied s (s.busyAnew block busy) := by
  unfold State.busyAnew
  split
  · exact (s.clearBusy_busied 72).trans (State.setBusy_busied _ busy)
  · exact Busied.refl s

/-- SNAPSHOT_SEQ is no word of TILE_BUSY. -/
theorem State.word_busyAnew {k : Nat} (hk : seqWord block.val = some k) : (s.busyAnew block busy).word k = s.word k := by
  by_cases h : block = 3
  · subst h
    obtain ⟨w, hw, kept⟩ := s.busyAnew_busied 3 busy
    have low : k = 0x3008 := Option.some.inj (hk.symm.trans rfl)
    rw [hw]
    exact kept k (by omega)
  · rw [State.busyAnew, if_neg h]

/-- SNAPSHOT_SEQ rises by one (R81). -/
theorem State.word_sequenced {k b : Nat} (hk : seqWord b = some k) : (s.sequenced b).word k = s.word k + 1 := by
  rw [State.sequenced, hk]
  exact s.word_bump_self k 1

variable (ms : Bool)

/-- A module held in reset refreshes nothing (R459). -/
theorem exec_statusRefresh_off (h : s.start.phase = .off) : exec (.statusRefresh block ms busy) s = .next s := by
  change execStatusRefresh block ms busy s = _
  simp [execStatusRefresh, h]

/-- A 1 ms refresh needs an unlock and a block of the rules that R414 lists. -/
theorem exec_statusRefresh_locked (h : s.unlockLevel = 0 ∨ msBlock block.val = false) :
    exec (.statusRefresh block true busy) s = .next s := by
  change execStatusRefresh block true busy s = _
  rcases h with h | h <;> simp [execStatusRefresh, h]

/-- A 1 ms refresh under an unlock (R414, log 118). -/
theorem exec_statusRefresh_ms (hp : s.start.phase ≠ .off) (hu : s.unlockLevel ≠ 0) (hb : msBlock block.val = true) :
    exec (.statusRefresh block true busy) s = .next ((s.sequenced block.val).publishMs block.val) := by
  have on : (s.start.phase == .off) = false := beq_eq_false_iff_ne.mpr hp
  have unlocked : (s.unlockLevel == 0) = false := beq_eq_false_iff_ne.mpr hu
  change execStatusRefresh block true busy s = _
  simp only [execStatusRefresh, on, unlocked, hb, Bool.not_true, Bool.or_self, Bool.and_false, Bool.false_eq_true, if_false, if_true]
  rfl

/-- A refresh at a 1-second boundary publishes both copies (R80, R414, log 131). -/
theorem exec_statusRefresh_second (hp : s.start.phase ≠ .off) : exec (.statusRefresh block false busy) s =
    .next (((s.sequenced block.val).busyAnew block busy).publishBoth block.val) := by
  have on : (s.start.phase == .off) = false := beq_eq_false_iff_ne.mpr hp
  change execStatusRefresh block false busy s = _
  simp only [execStatusRefresh, on, Bool.false_and, Bool.or_self, Bool.false_eq_true, if_false]
  rfl

end

/-! ### What abandoning a package leaves of other work (R78, R79)

While packages are abandoned, words in progress stop and notices go out; in all of that no descriptor enters a queue, no tile leaves
isolation, and no package is held that was not held before. -/

/-- From `s` to `z` no descriptor has entered a queue, no tile has changed its isolation, and no package has come. -/
structure Recedes (s z : State) : Prop where
  isolated : ∀ t, (z.tile t).isolated = (s.tile t).isolated
  queue : ∀ t, (z.tile t).queue.Sublist (s.tile t).queue
  held : ∀ g ∈ z.pkgs.map (·.tag), g ∈ s.pkgs.map (·.tag)

theorem Recedes.refl (s : State) : Recedes s s := ⟨fun _ => rfl, fun _ => List.Sublist.refl _, fun _ hg => hg⟩

section
variable {s0 s : State} (h : Recedes s0 s)
include h

/-- A package that is not held does not come back. -/
theorem Recedes.gone {g : Nat} (hg : s0.pkg? g = none) : s.pkg? g = none := by
  simp only [State.pkg?, List.find?_eq_none, beq_iff_eq] at hg ⊢
  intro p hp hpg
  obtain ⟨q, hq, hqp⟩ := List.mem_map.mp (h.held _ (List.mem_map_of_mem hp))
  exact hg q hq (hqp.trans hpg)

/-- An update that leaves tiles and packages as they are. -/
theorem Recedes.upd {z : State} (ht : z.tiles = s.tiles) (hp : z.pkgs = s.pkgs) : Recedes s0 z := by
  refine ⟨fun t => ?_, fun t => ?_, ?_⟩
  · rw [State.tile_congr ht, h.isolated]
  · rw [State.tile_congr ht]
    exact h.queue t
  · rw [hp]
    exact h.held

/-- An update of the packages that brings none. -/
theorem Recedes.updPkgs {z : State} (ht : z.tiles = s.tiles) (hp : ∀ g ∈ z.pkgs.map (·.tag), g ∈ s.pkgs.map (·.tag)) : Recedes s0 z := by
  refine ⟨fun t => ?_, fun t => ?_, fun g hg => h.held g (hp g hg)⟩
  · rw [State.tile_congr ht, h.isolated]
  · rw [State.tile_congr ht]
    exact h.queue t

/-- What a record in the log writes is neither a tile nor a package. -/
theorem Recedes.logged {z : State} (hl : Logged s z) : Recedes s0 z := by
  obtain ⟨_, _, _, rfl⟩ := hl
  exact h.upd rfl rfl

/-- A tile replaced by one of the same isolation whose queue has taken nothing. -/
theorem Recedes.setTile {t : Nat} {x : TileState} (hi : x.isolated = (s.tile t).isolated) (hq : x.queue.Sublist (s.tile t).queue) :
    Recedes s0 (s.setTile t x) := by
  refine ⟨fun u => ?_, fun u => ?_, h.held⟩
  · by_cases e : u = t
    · subst e
      rw [State.tile_setTile_self, hi, h.isolated]
    · rw [State.tile_setTile_ne _ _ e, h.isolated]
  · by_cases e : u = t
    · subst e
      rw [State.tile_setTile_self]
      exact hq.trans (h.queue u)
    · rw [State.tile_setTile_ne _ _ e]
      exact h.queue u

end

theorem Recedes.foldl {α : Type} {s0 : State} {f : State → α → State} (step : ∀ s, Recedes s0 s → ∀ a, Recedes s0 (f s a))
    {l : List α} {s : State} (h : Recedes s0 s) : Recedes s0 (l.foldl f s) := by
  induction l generalizing s with
  | nil => exact h
  | cons a as ih => exact ih (step s h a)

section
variable {s0 s : State} (h : Recedes s0 s)
include h

/-! #### Status words, the log and counters -/

theorem State.bump_recedes {k n : Nat} : Recedes s0 (s.bump k n) := h.logged (s.bump_logged k n)

theorem State.record_recedes {base m : Nat} {w : W64 × W64} : Recedes s0 (s.record base m w) := h.logged (s.record_logged base m w)

theorem State.logAs_recedes {kind code : Nat} {job : Option (BitVec 16)} {w : W64 × W64} : Recedes s0 (s.logAs kind code job w) :=
  h.logged (s.logAs_logged kind code job w)

theorem State.logEvent_recedes {code : Nat} {job : Option (BitVec 16)} {w : W64 × W64} : Recedes s0 (s.logEvent code job w) :=
  h.logged (s.logEvent_logged code job w)

theorem State.syncFault_recedes {code idx src before inc : Nat} {job : BitVec 16} : Recedes s0 (s.syncFault code idx src job before inc) :=
  State.logEvent_recedes (State.record_recedes h)

theorem State.countFormats_recedes {old new : Tally} : Recedes s0 (s.countFormats old new) := by
  unfold State.countFormats
  dsimp only
  exact State.bump_recedes (State.bump_recedes (State.bump_recedes (State.bump_recedes (State.bump_recedes h))))

theorem State.points_recedes {n : Nat} : Recedes s0 (s.points n) := h.upd rfl rfl

theorem State.ueFound_recedes {beat finder : Nat} : Recedes s0 (s.ueFound beat finder) := by
  unfold State.ueFound
  exact State.points_recedes (State.record_recedes (State.bump_recedes h))

theorem State.ueEach_recedes {finder : Nat} {bs : List Nat} : Recedes s0 (s.ueEach finder bs) := by
  induction bs generalizing s with
  | nil => exact h
  | cons b bs ih =>
    unfold State.ueEach
    exact ih (State.ueFound_recedes h)

theorem State.ueAll_recedes {finder : Nat} {bs : List Nat} : Recedes s0 (s.ueAll finder bs) := by
  unfold State.ueAll
  split
  · exact h
  · exact (State.ueEach_recedes h).upd rfl rfl

theorem State.countXlate_recedes {c : Nat} : Recedes s0 (s.countXlate c) := by
  unfold State.countXlate
  split
  · exact State.bump_recedes h
  · exact h

theorem State.noteFault_recedes {t : Nat} {c : Ctx} {code off : Nat} : Recedes s0 (s.noteFault t c code off) :=
  State.logAs_recedes (State.record_recedes h)

theorem State.noteFaults_recedes {t : Nat} {c : Ctx} {fs : List (Nat × BitVec 32)} : Recedes s0 (s.noteFaults t c fs) := by
  induction fs generalizing s with
  | nil => exact h
  | cons f fs ih => exact ih (State.noteFault_recedes h)

/-! #### Job contexts, ports and connections -/

theorem State.updJob_recedes {j : BitVec 16} {f : JobCtx → JobCtx} : Recedes s0 (s.updJob j f) := h.upd rfl rfl

theorem State.setPort_recedes {p : Nat} {x : Port} : Recedes s0 (s.setPort p x) := h.upd rfl rfl

theorem State.updConn_recedes {c : BitVec 32} {f : Conn → Conn} : Recedes s0 (s.updConn c f) := h.upd rfl rfl

/-! #### Wake wires, counts and contexts -/

theorem State.wake_recedes {t : Nat} : Recedes s0 (s.wake t) := h.setTile rfl (List.Sublist.refl _)

theorem State.wakeAll_recedes {ts : List Nat} : Recedes s0 (s.wakeAll ts) := by
  induction ts generalizing s with
  | nil => exact h
  | cons t ts ih => exact ih (State.wake_recedes h)

theorem State.raiseCount_recedes {job : BitVec 16} {i inc src : Nat} : Recedes s0 (s.raiseCount job i inc src).2 := by
  unfold State.raiseCount
  split
  · exact h
  · dsimp only
    split
    · exact State.bump_recedes (State.syncFault_recedes h)
    · dsimp only
      exact State.wakeAll_recedes (State.updJob_recedes h)

theorem State.setEng_recedes {t k : Nat} {v : Bool} {w : EngWord} : Recedes s0 (s.setEng t v k w) :=
  h.setTile (TileState.setCtx_isolated _ _ _) (by rw [TileState.setCtx_queue])

/-! #### Memory -/

theorem State.putByte_recedes {p : Place} {b : Byte} : Recedes s0 (s.putByte p b) := by
  cases p with
  | dram k => exact h.upd rfl rfl
  | scratch t off => exact h.setTile rfl (List.Sublist.refl _)

theorem State.writePlaces_recedes {ws : List (Place × Byte)} {finder : Nat} : Recedes s0 (s.writePlaces ws finder).2 := by
  unfold State.writePlaces
  dsimp only
  generalize hz : List.foldl _ (List.foldl _ s _) _ = z
  have cleared : Recedes s0 z := by
    subst hz
    refine Recedes.foldl (fun s h w => ?_) (Recedes.foldl (fun s h w => State.putByte_recedes h) h)
    split
    · exact h.upd rfl rfl
    · exact h
  split
  · exact cleared
  · exact State.ueAll_recedes cleared

theorem State.writeMem_recedes {job : BitVec 16} {o : Origin} {v : Bool} {a : Nat} {bs : List Byte} :
    Recedes s0 (s.writeMem job o v a bs).2 := by
  unfold State.writeMem
  split
  · exact State.countXlate_recedes h
  · exact State.writePlaces_recedes h

/-! #### Frames -/

theorem State.takeSeq_recedes {job : BitVec 16} {dst ch : Nat} {v : Bool} : Recedes s0 (s.takeSeq job dst v ch).2.2 := by
  unfold State.takeSeq
  split
  · exact h
  · dsimp only
    split
    · exact h.upd rfl rfl
    · exact h.upd rfl rfl

theorem State.number_recedes {f : Frame} : Recedes s0 (s.number f).2 := State.takeSeq_recedes h

theorem State.deliver_recedes {p : Nat} {f : Frame} : Recedes s0 (s.deliver p f) := h.upd rfl rfl

theorem State.queueAt_recedes {e : Nat × Bool × Bool} {f : Frame} : Recedes s0 (s.queueAt e f) := by
  unfold State.queueAt
  refine State.setPort_recedes ?_
  split
  · exact State.bump_recedes h
  · exact h

theorem State.ownError_recedes {f : Frame} : Recedes s0 (s.ownError f) := by
  unfold State.ownError
  split
  · exact h
  · exact State.deliver_recedes (State.number_recedes (State.bump_recedes (State.logEvent_recedes h)))

theorem State.inject_recedes {f : Frame} : Recedes s0 (s.inject f) := by
  unfold State.inject
  split
  · exact State.deliver_recedes h
  · split
    · exact State.queueAt_recedes h
    · exact State.ownError_recedes h

theorem State.sendAll_recedes {fs : List Frame} : Recedes s0 (s.sendAll fs) := by
  induction fs generalizing s with
  | nil => exact h
  | cons f fs ih => exact ih (State.inject_recedes (State.number_recedes h))

theorem State.fabricNotice_recedes {job : BitVec 16} {dst kind code : Nat} {rec : List W64} :
    Recedes s0 (s.fabricNotice job dst kind code rec) := by
  unfold State.fabricNotice State.sendControl
  refine State.sendAll_recedes ?_
  exact h.upd rfl rfl

theorem State.takeBack_recedes {gs : List Frame} : Recedes s0 (s.takeBack gs) := by
  unfold State.takeBack
  dsimp only
  generalize hz : List.foldl _ s _ = z
  have taken : Recedes s0 z := by
    subst hz
    exact Recedes.foldl (fun s h p => State.setPort_recedes h) h
  exact taken.upd rfl rfl

/-! #### Messages to hosts -/

theorem State.across_recedes {k : Nat} {bs : List Byte} : Recedes s0 (s.across k bs) := by
  obtain ⟨x, hx⟩ := s.across_eq k bs
  exact h.upd (by rw [hx]) (by rw [hx])

theorem State.khtSent_recedes {bs : List Byte} {o : Out} {p : Fin 3} : Recedes s0 (s.khtSent bs o p) := by
  unfold State.khtSent State.hostTx
  refine (State.across_recedes ?_).upd rfl rfl
  split
  · exact State.bump_recedes h
  · exact State.bump_recedes (State.bump_recedes (State.bump_recedes h))

theorem State.datagram_recedes {id : BitVec 32} {u : Unacked} : Recedes s0 (s.datagram id u) := by
  unfold State.datagram
  split
  · exact h
  · split
    · exact h
    · exact State.khtSent_recedes (State.updConn_recedes h)

theorem State.flush_recedes {id : BitVec 32} : Recedes s0 (s.flush id) := by
  unfold State.flush
  split
  · exact h
  · exact Recedes.foldl (fun s h u => State.datagram_recedes h) h

theorem State.enq_recedes {key : BitVec 256} {m : OMsg} : Recedes s0 (s.enq key m) := by
  unfold State.enq
  split
  · exact h.upd rfl rfl
  · dsimp only
    split
    · refine State.bump_recedes ?_
      split
      · exact h.upd rfl rfl
      · exact h.upd rfl rfl
    · exact h.upd rfl rfl

theorem State.noticeHost_recedes {p : Pkg} {kind code device : Nat} {rec : List W64} :
    Recedes s0 (s.noticeHost p kind code device rec) := by
  unfold State.noticeHost State.originate
  split
  · split
    · exact State.flush_recedes (State.updConn_recedes h)
    · exact State.enq_recedes h
  · exact State.enq_recedes h

/-! #### Words in progress -/

theorem State.passLeft_recedes {t draws batch : Nat} {w : EngWord} {r : VRun} {chain : List ChainBatch} :
    Recedes s0 (s.passLeft t w r draws batch chain).s := by
  unfold State.passLeft
  dsimp only
  refine State.countFormats_recedes (h.setTile ?_ ?_)
  · rfl
  · exact List.Sublist.refl _

theorem State.moveWrite_recedes {t : Nat} {v dram : Bool} {job : BitVec 16} {w : MWrite} : Recedes s0 (s.moveWrite t v job dram w) := by
  unfold State.moveWrite
  dsimp only
  split
  · exact h
  · exact Recedes.foldl (fun s h x => State.putByte_recedes h) h

theorem State.clearBeats_recedes {t : Nat} {v dram : Bool} {job : BitVec 16} {cov : List Int} :
    Recedes s0 (s.clearBeats t v job dram cov) := by
  unfold State.clearBeats
  split
  · exact h
  · refine Recedes.foldl (fun s h a => ?_) h
    split
    · split
      · exact h.upd rfl rfl
      · exact h
    · exact h

theorem State.moveLeft_recedes {t pos : Nat} {v : Bool} {job : BitVec 16} {w : EngWord} {o : MoveOp} {r : MDone} {held : MHeld} :
    Recedes s0 (s.moveLeft t v job w o r pos held).s := by
  unfold State.moveLeft
  dsimp only
  generalize hz : List.foldl _ s _ = z
  have written : Recedes s0 z := by
    subst hz
    exact Recedes.foldl (fun s h x => State.moveWrite_recedes h) h
  generalize hy : (if o.kind = 3 then z else _) = y
  have cleared : Recedes s0 y := by
    subst hy
    split
    · exact written
    · exact Recedes.foldl (fun s h x => State.clearBeats_recedes h) written
  have counted : Recedes s0 (((y.setTile t { y.tile t with streamC := BitVec.ofNat 128 r.ctr }).countFormats w.met
      (w.met.plus r.tally)).countMove r.range r.narrow) := by
    unfold State.countMove
    apply State.bump_recedes
    apply State.bump_recedes
    refine State.countFormats_recedes (cleared.setTile ?_ ?_)
    · rfl
    · exact List.Sublist.refl _
  split
  · exact State.ueAll_recedes (State.countXlate_recedes counted)
  · exact counted

theorem State.writeRecord_recedes {t off dest raise : Nat} {v : Bool} {c : Ctx} {bs : List Byte} :
    Recedes s0 (s.writeRecord t v c off dest raise bs).s := by
  have written {f : Option Nat} {z : State} (e : s.writeMem c.job .tile v dest bs = (f, z)) : Recedes s0 z := by
    have : Recedes s0 (s.writeMem c.job .tile v dest bs).2 := State.writeMem_recedes h
    rwa [e] at this
  unfold State.writeRecord
  dsimp only
  generalize (_ || _) = here
  split
  · split
    · next e => exact written e
    · next e =>
      split
      · exact State.raiseCount_recedes (written e)
      · exact written e
  · refine State.sendAll_recedes ?_
    exact h.upd rfl rfl

theorem State.runMatmul_recedes {t n : Nat} {w : EngWord} {o : MatOp} : Recedes s0 (s.runMatmul t w o n).s := by
  unfold State.runMatmul
  refine State.countFormats_recedes (h.setTile ?_ ?_)
  · rfl
  · exact List.Sublist.refl _

theorem State.runAccMove_recedes {t n : Nat} {w : EngWord} {o : AccMove} : Recedes s0 (s.runAccMove t w o n).s := by
  unfold State.runAccMove
  refine State.countFormats_recedes (h.setTile ?_ ?_)
  · rfl
  · exact List.Sublist.refl _

theorem State.runRecs_recedes {t n : Nat} {v : Bool} {c : Ctx} {w : EngWord} : Recedes s0 (s.runRecs t v c w n).s := by
  unfold State.runRecs
  split
  · exact h
  · exact h
  · dsimp only
    split
    · exact h
    · exact State.writeRecord_recedes h

theorem State.runWord_recedes {t n : Nat} {v : Bool} {c : Ctx} {w : EngWord} : Recedes s0 (s.runWord t v c w n).s := by
  unfold State.runWord
  split
  · exact State.runMatmul_recedes h
  · exact State.runAccMove_recedes h
  · exact State.passLeft_recedes h
  · exact State.moveLeft_recedes h
  · exact State.runRecs_recedes h
  · exact State.runRecs_recedes h
  · exact h

theorem State.drawn_recedes : Recedes s0 s.drawn := h.upd rfl rfl

theorem State.stopWord_recedes {t : Nat} {v : Bool} {c : Ctx} {w : EngWord} : Recedes s0 (s.stopWord t v c w).s := by
  unfold State.stopWord
  dsimp only
  split
  · exact State.passLeft_recedes (State.drawn_recedes h)
  · exact State.moveLeft_recedes (State.drawn_recedes h)
  · exact State.runWord_recedes (State.drawn_recedes h)

theorem State.stopFrom_recedes {t k : Nat} {v : Bool} {c : Ctx} {ws : List EngWord} : Recedes s0 (State.stopFrom t v c k ws s).1 := by
  induction ws generalizing s k with
  | nil => exact h
  | cons w ws ih =>
    unfold State.stopFrom
    split
    · dsimp only
      split
      · exact ih (State.setEng_recedes (State.stopWord_recedes h))
      · exact ih (State.setEng_recedes (State.stopWord_recedes h))
    · exact ih h

theorem State.recall_recedes {t : Nat} {v : Bool} : Recedes s0 (s.recall t v) := by
  unfold State.recall
  split
  · exact h
  · dsimp only
    split
    · exact h
    · exact State.takeBack_recedes (State.drawn_recedes h)

theorem State.haltCtx_recedes {tag t : Nat} {v : Bool} : Recedes s0 (s.haltCtx tag t v) := by
  unfold State.haltCtx
  split
  · exact h
  · split
    · dsimp only
      split
      · exact State.noteFaults_recedes (State.stopFrom_recedes (State.recall_recedes h))
      · exact State.recall_recedes h
    · exact h

theorem State.haltTag_recedes {tag : Nat} {ts : List Nat} : Recedes s0 (s.haltTag tag ts) := by
  induction ts generalizing s with
  | nil => exact h
  | cons t ts ih => exact ih (State.haltCtx_recedes (State.haltCtx_recedes h))

/-! #### The end of a package -/

theorem State.dropTag_recedes {tag : Nat} {ts : List Nat} : Recedes s0 (s.dropTag tag ts) := by
  induction ts generalizing s with
  | nil => exact h
  | cons t ts ih => exact ih (h.setTile rfl List.filter_sublist)

/-- An update of one package that keeps its tag brings no package. -/
theorem State.updPkg_recedes {g : Nat} {f : Pkg → Pkg} (hf : ∀ p, (f p).tag = p.tag) : Recedes s0 (s.updPkg g f) := by
  refine h.updPkgs rfl fun a ha => ?_
  have tags (ps : List Pkg) : (updFirst (·.tag == g) f ps).map (·.tag) = ps.map (·.tag) := by
    induction ps with
    | nil => rfl
    | cons p ps ih =>
      unfold updFirst
      split
      · rw [List.map_cons, hf, List.map_cons]
      · rw [List.map_cons, ih, List.map_cons]
  rwa [State.updPkg, tags] at ha

theorem State.sendLate_recedes {tag cause fault : Nat} : Recedes s0 (s.sendLate tag cause fault) := by
  unfold State.sendLate
  split
  · exact h
  · split
    · exact h
    · dsimp only
      generalize hz : State.noticeHost _ _ _ _ _ _ = z
      have told : Recedes s0 z := by
        subst hz
        refine State.noticeHost_recedes (State.bump_recedes (State.updPkg_recedes h ?_))
        exact fun _ => rfl
      split
      · split
        · exact told
        · exact State.fabricNotice_recedes told
      · exact told

theorem State.removePkg_recedes {g : Nat} : Recedes s0 (s.removePkg g) := by
  have fewer : ∀ a ∈ (s.pkgs.filter (·.tag != g)).map (·.tag), a ∈ s.pkgs.map (·.tag) :=
    fun a ha => (List.filter_sublist.map _).subset ha
  unfold State.removePkg
  split
  · exact h
  · dsimp only
    split
    · exact h.updPkgs rfl fewer
    · exact h.updPkgs rfl fewer

theorem State.abandon_recedes {g code tile kernel index : Nat} {hw : Bool} : Recedes s0 (s.abandon g code tile kernel index hw) := by
  unfold State.abandon
  split
  · exact h
  · dsimp only
    refine State.removePkg_recedes ?_
    generalize hz : State.noticeHost _ _ _ _ _ _ = z
    have told : Recedes s0 z := by
      subst hz
      refine State.noticeHost_recedes (State.bump_recedes (State.bump_recedes ?_))
      exact (State.wakeAll_recedes (State.dropTag_recedes (State.haltTag_recedes h))).upd rfl rfl
    generalize hy : (if hw then _ else z) = y
    have late : Recedes s0 y := by
      subst hy
      split
      · exact State.sendLate_recedes told
      · exact told
    split
    · split
      · exact late
      · exact State.fabricNotice_recedes late
    · exact late

theorem State.abandonOn_recedes {code t : Nat} {ran : List Desc} {gs : List Nat} : Recedes s0 (s.abandonOn code t ran gs) := by
  induction gs generalizing s with
  | nil => exact h
  | cons g gs ih =>
    unfold State.abandonOn
    split
    · exact ih (State.abandon_recedes h)
    · exact ih (State.abandon_recedes h)

end

/-! ### Isolation (R77, R79) -/

theorem leastBy_mem {α : Type} {m : α → Nat} {l : List α} {x : α} (h : leastBy m l = some x) : x ∈ l := by
  induction l generalizing x with
  | nil => cases h
  | cons y ys ih =>
    rw [leastBy] at h
    cases hm : leastBy m ys with
    | none =>
      rw [hm] at h
      cases h
      exact List.mem_cons_self
    | some z =>
      rw [hm] at h
      dsimp only at h
      split at h
      · cases h
        exact List.mem_cons_self
      · cases h
        exact List.mem_cons_of_mem y (ih hm)

/-- The nearest tile that a condition allows is another one. -/
theorem nearestThat_ne {t u : Nat} {f : Nat → Bool} (h : nearestThat t f = some u) : u ≠ t := by
  have hu := List.of_mem_filter (leastBy_mem h)
  rw [Bool.and_eq_true] at hu
  exact bne_iff_ne.mp hu.1

section
variable (s : State) (t : Nat)

/-- Where a descriptor of an isolated tile may go: a tile in service with room for it (R79, log 116). -/
def State.takes (d : Desc) (u : Nat) : Bool := !(s.tile u).isolated && (s.tile u).room d.vesper

/-- One descriptor goes to the nearest tile that takes it. -/
theorem State.moveDescs_some {d : Desc} {u : Nat} (h : nearestThat t (s.takes d) = some u) (ds : List Desc) :
    s.moveDescs t (d :: ds) = (s.enterQueue u d).moveDescs t ds := by
  unfold State.takes at h
  simp only [State.moveDescs, h]

/-- One that no tile takes is lost to its package (log 116). -/
theorem State.moveDescs_none {d : Desc} (h : nearestThat t (s.takes d) = none) (ds : List Desc) :
    s.moveDescs t (d :: ds) = ((s.moveDescs t ds).1, d.tag :: (s.moveDescs t ds).2) := by
  unfold State.takes at h
  simp only [State.moveDescs, h]

/-- Descriptors that leave a tile go to other tiles. -/
theorem State.tile_moveDescs (ds : List Desc) : (s.moveDescs t ds).1.tile t = s.tile t := by
  induction ds generalizing s with
  | nil => rfl
  | cons d ds ih =>
    cases h : nearestThat t (s.takes d) with
    | none => rw [s.moveDescs_none t h, ih]
    | some u => rw [s.moveDescs_some t h, ih, State.tile_enterQueue_ne s d (nearestThat_ne h).symm]

/-- Packages that are abandoned are no longer held. -/
theorem State.pkg?_abandonOn {code : Nat} {ran : List Desc} {gs : List Nat} {g : Nat} (h : g ∈ gs) :
    (s.abandonOn code t ran gs).pkg? g = none := by
  induction gs generalizing s with
  | nil => cases h
  | cons a gs ih =>
    unfold State.abandonOn
    rcases List.mem_cons.mp h with rfl | h
    · refine (State.abandonOn_recedes (Recedes.refl _)).gone ?_
      split <;> exact State.pkg?_abandon _ _ _ _ _ _ _
    · exact ih _ h

/-- The task that the record of a tile's fault names: the Vesper one where the tile held both (log 117). -/
def TileState.ran (x : TileState) : List Desc := (x.vesper.map (·.desc)).toList ++ (x.noon.map (·.desc)).toList

/-- The record of a fault that isolates a tile (R82, log 117). -/
def TileState.isoRecord (x : TileState) (t code : Nat) : W64 × W64 :=
  let d := x.ran.headD ⟨0, 0, 0, 0⟩
  (BitVec.ofNat 64 (code + t * 2 ^ 16 + d.kernel * 2 ^ 26 + d.index * 2 ^ 42 + d.tag * 2 ^ 58), 0)

/-- The fault of a tile is recorded and logged (R79, R82, R480). -/
def State.isoLogged (s : State) (t code : Nat) : State :=
  let x := s.tile t
  (s.record 0x3800 16 (x.isoRecord t code)).logEvent code ((x.vesper.orElse fun _ => x.noon).map (·.job)) (x.isoRecord t code)

/-- The tile is isolated, with an empty queue, and its fault scored (R79, Table 13-5). -/
def State.isoShut (s : State) (t code : Nat) : State :=
  ((s.isoLogged t code).points 150).setTile t { s.tile t with isolated := true, isoCode := code, queue := [], retained := false, woken := false }

/-- Isolation: the fault is noted, the tile shut, its PORTABLE descriptors moved, the packages that lost a task abandoned, and every
tile woken. -/
theorem State.isolate_eq (h : (s.tile t).isolated = false) (code : Nat) : s.isolate t code =
    let r := (s.isoShut t code).moveDescs t ((s.tile t).queue.filter (·.portable))
    (r.1.abandonOn code t (s.tile t).ran (s.lostWith t ++ r.2).eraseDups).wakeAll (s.tiles.map (·.1)) := by
  rw [State.isolate]
  dsimp only
  rw [h]
  rfl

/-- An isolated tile stays isolated, and its queue empty, while its packages are abandoned. -/
theorem State.tile_isolate (h : (s.tile t).isolated = false) (code : Nat) :
    ((s.isolate t code).tile t).isolated = true ∧ ((s.isolate t code).tile t).queue = [] := by
  rw [s.isolate_eq t h]
  dsimp only
  have shut : ((s.isoShut t code).moveDescs t ((s.tile t).queue.filter (·.portable))).1.tile t = _ :=
    (State.tile_moveDescs _ t _).trans (State.tile_setTile_self _ t _)
  generalize (s.isoShut t code).moveDescs t ((s.tile t).queue.filter (·.portable)) = r at shut ⊢
  have later : Recedes r.1 ((r.1.abandonOn code t (s.tile t).ran (s.lostWith t ++ r.2).eraseDups).wakeAll (s.tiles.map (·.1))) :=
    State.wakeAll_recedes (State.abandonOn_recedes (Recedes.refl _))
  constructor
  · rw [later.isolated, shut]
  · have := later.queue t
    rw [shut] at this
    exact List.sublist_nil.mp this

/-- The packages that lose a task with a tile are no longer held (R79). -/
theorem State.pkg?_isolate (h : (s.tile t).isolated = false) (code : Nat) {g : Nat} (hg : g ∈ s.lostWith t) :
    (s.isolate t code).pkg? g = none := by
  rw [s.isolate_eq t h]
  exact (State.wakeAll_recedes (Recedes.refl _)).gone
    (State.pkg?_abandonOn _ t (List.mem_eraseDups.mpr (List.mem_append_left _ hg)))

/-- A tile whose queue is empty and with which no package loses a task: its isolation is what is noted, the tile shut, and the
wake wire of every tile. -/
theorem State.isolate_alone (h : (s.tile t).isolated = false) (code : Nat) (hl : s.lostWith t = []) (hq : (s.tile t).queue = []) :
    s.isolate t code = (s.isoShut t code).wakeAll (s.tiles.map (·.1)) := by
  rw [s.isolate_eq t h, hl, hq]
  rfl

/-- Wake wires change tiles only. -/
theorem State.wakeAll_eq (ts : List Nat) : ∃ x, s.wakeAll ts = { s with tiles := x } := by
  induction ts generalizing s with
  | nil => exact ⟨s.tiles, rfl⟩
  | cons t ts ih =>
    obtain ⟨x, hx⟩ := ih (s.wake t)
    exact ⟨x, hx⟩

theorem State.word_wakeAll (ts : List Nat) (k : Nat) : (s.wakeAll ts).word k = s.word k := by
  obtain ⟨_, h⟩ := s.wakeAll_eq ts
  rw [State.word, h, State.word]

theorem State.wakeAll_health (ts : List Nat) : (s.wakeAll ts).health = s.health := by
  obtain ⟨_, h⟩ := s.wakeAll_eq ts
  rw [h]

theorem State.wakeAll_log (ts : List Nat) : (s.wakeAll ts).log = s.log := by
  obtain ⟨_, h⟩ := s.wakeAll_eq ts
  rw [h]

/-- A log record raises no status word but that of the records dropped. -/
theorem State.word_logAs {kind code k : Nat} {job : Option (BitVec 16)} {w : W64 × W64} (h : k ≠ 0x0718) :
    (s.logAs kind code job w).word k = s.word k := by
  unfold State.logAs
  dsimp only
  generalize hz : (if isFailure kind code then _ else s) = z
  have noted : z.word k = s.word k := by
    subst hz
    split <;> rfl
  split
  · exact noted
  · split
    · exact (State.word_bump_ne _ h).trans noted
    · exact noted

/-- A record raises its count (R82). -/
theorem State.word_record_self (base m : Nat) (w : W64 × W64) : (s.record base m w).word base = s.word base + 1 := by
  rw [State.record, State.word_bump_self, State.word_setWord_ne _ _ (by omega), State.word_setWord_ne _ _ (by omega)]
  rfl

theorem State.isoLogged_logged (code : Nat) : Logged s (s.isoLogged t code) :=
  (s.record_logged _ _ _).trans (State.logEvent_logged _ _ _ _)

/-- Shutting a tile leaves the packages as they are. -/
theorem State.isoShut_pkgs (code : Nat) : (s.isoShut t code).pkgs = s.pkgs := by
  obtain ⟨_, _, _, h⟩ := s.isoLogged_logged t code
  rw [State.isoShut, State.setTile_pkgs, State.points, h]

/-- A tile's fault scores 150 points (Table 13-5). -/
theorem State.isoShut_points (code : Nat) : (s.isoShut t code).health.points = s.health.points + 150 := by
  obtain ⟨_, _, _, h⟩ := s.isoLogged_logged t code
  rw [State.isoShut, State.setTile_health, State.points, h]

/-- A tile's fault is counted once (R82). -/
theorem State.isoShut_word (code : Nat) : (s.isoShut t code).word 0x3800 = s.word 0x3800 + 1 := by
  have counted : (s.isoLogged t code).word 0x3800 = s.word 0x3800 + 1 := by
    rw [State.isoLogged, State.logEvent, State.word_logAs _ (by decide), State.word_record_self]
  rw [State.isoShut, State.word, State.setTile_stat, State.points]
  exact counted

/-- A tile's fault is logged once (R480). -/
theorem State.isoShut_log (code : Nat) : (s.isoShut t code).log = (s.isoLogged t code).log := by
  rw [State.isoShut, State.setTile_log, State.points]

end

/-! ### VESPER_SUSPEND and NOON_RESUME (R72) -/

section
variable {s : State} {t : TileId} {c : Ctx}

/-- With no word in progress nothing has to stop. -/
theorem State.stopFrom_idle {v : Bool} {ws : List EngWord} (h : ws.any EngWord.midst = false) (t k : Nat) :
    State.stopFrom t v c k ws s = (s, []) := by
  induction ws generalizing k with
  | nil => rfl
  | cons w ws ih =>
    rw [List.any_cons, Bool.or_eq_false_iff] at h
    obtain ⟨hw, hws⟩ := h
    rw [State.stopFrom, hw]
    exact ih hws (k + 1)

/-- With no word in progress suspension marks the tile alone. -/
theorem State.suspendNoon_idle (hc : (s.tile t.val).noon = some c) (hw : c.words.any EngWord.midst = false) :
    s.suspendNoon t.val = s.setTile t.val { s.tile t.val with suspended := true } := by
  rw [State.suspendNoon, hc]
  dsimp only
  rw [State.stopFrom_idle hw]

/-- VESPER_SUSPEND of a running Noon task for a queued Vesper descriptor. -/
theorem exec_vesperSuspend (hc : (s.tile t.val).noon = some c) (hi : (s.tile t.val).isolated = false)
    (hs : (s.tile t.val).suspended = false) (hq : (s.tile t.val).queue.any (·.vesper) = true) :
    exec (.vesperSuspend t) s = .next (s.suspendNoon t.val) := by
  change execVesperSuspend t s = _
  simp only [execVesperSuspend, hc, hi, hs, hq, Option.isSome_some, Bool.not_false, Bool.and_self, if_true]

/-- The tile as a Noon task resumes: its banks restored, and every waiting word to recheck (R72, R74). -/
def State.resumed (s : State) (t : Nat) : State := (s.setTile t { (s.tile t).restoreBanks with suspended := false }).wake t

/-- NOON_RESUME of a suspended task once no Vesper task runs or is queued. -/
theorem exec_noonResume (hi : (s.tile t.val).isolated = false) (hs : (s.tile t.val).suspended = true)
    (hv : (s.tile t.val).vesper = none) (hq : (s.tile t.val).queue.any (·.vesper) = false) :
    exec (.noonResume t) s = .next ((s.resumed t.val).beginWords t.val false) := by
  change execNoonResume t s = _
  simp only [execNoonResume, hi, hs, hv, hq, Option.isNone_none, Bool.not_false, Bool.and_self, if_true]
  rfl

/-- Restoring the banks empties the save area and leaves the Noon task and the scratchpad as they are. -/
theorem TileState.restoreBanks_keeps (x : TileState) :
    x.restoreBanks.noon = x.noon ∧ x.restoreBanks.scratch = x.scratch ∧ x.restoreBanks.save = none := by
  rw [TileState.restoreBanks]
  split
  · next h => exact ⟨rfl, rfl, h⟩
  · exact ⟨rfl, rfl, rfl⟩

theorem State.tile_resumed (hc : (s.tile t.val).noon = some c) :
    ((s.resumed t.val).tile t.val).suspended = false ∧ ((s.resumed t.val).tile t.val).noon = some { c with waiting := false } ∧
      ((s.resumed t.val).tile t.val).scratch = (s.tile t.val).scratch ∧ ((s.resumed t.val).tile t.val).save = none := by
  obtain ⟨hn, hscr, hsave⟩ := (s.tile t.val).restoreBanks_keeps
  rw [State.resumed, State.tile_wake, State.tile_setTile_self]
  exact ⟨rfl, by rw [hn, hc]; rfl, hscr, hsave⟩

/-! ### SUSPEND_OVERRUN and RETENTION_WAKE_FAILURE (R77, R79) -/

theorem exec_suspendOverrun (hn : (s.tile t.val).noon.isSome = true) (hs : (s.tile t.val).suspended = false)
    (hq : (s.tile t.val).queue.any (·.vesper) = true) : exec (.suspendOverrun t) s = .next (s.isolate t.val 0x3205) := by
  change execSuspendOverrun t s = _
  simp only [execSuspendOverrun, hn, hs, hq, Bool.not_false, Bool.and_self, if_true]

theorem exec_retentionWakeFailure (hw : (s.tile t.val).woken = true) :
    exec (.retentionWakeFailure t) s = .next (s.isolate t.val 0x3206) := by
  change execRetentionWakeFailure t s = _
  rw [execRetentionWakeFailure, if_pos hw]

/-! ### RETENTION_ENTRY and WAKE_WIRE (R74, R76, R442) -/

theorem exec_retentionEntry (hi : (s.tile t.val).isolated = false) (hw : (s.tile t.val).allWait = true)
    (hq : (s.tile t.val).queue = []) (hr : (s.tile t.val).retained = false) : exec (.retentionEntry t) s =
    .next ((s.setTile t.val { s.tile t.val with retained := true, woken := false }).bump (0x3138 + 0x40 * dieOf t.val) 1) := by
  change execRetentionEntry t s = _
  simp only [execRetentionEntry, hi, hw, hq, hr, List.isEmpty_nil, Bool.not_false, Bool.and_self, if_true]

/-- In safe mode no wire wakes a tile (R442). -/
theorem exec_wakeWire_safe {wire : Fin 6} (h : s.start.phase = .safe) : exec (.wakeWire t wire) s = .next s := by
  change execWakeWire t wire s = _
  simp [execWakeWire, h]

/-- A wire wakes its tile, SURPLUS where its condition holds (R74). -/
theorem exec_wakeWire {wire : Fin 6} (hi : (s.tile t.val).isolated = false) (hp : s.start.phase ≠ .safe)
    (hw : wire ≠ 1 ∨ s.surplusFor t.val = true) : exec (.wakeWire t wire) s = .next (s.wake t.val) := by
  have fires : (wire == 1 && !s.surplusFor t.val) = false := by
    rcases hw with hw | hw
    · rw [beq_eq_false_iff_ne.mpr hw, Bool.false_and]
    · rw [hw, Bool.not_true, Bool.and_false]
  have awake : (s.start.phase == .safe) = false := beq_eq_false_iff_ne.mpr hp
  change execWakeWire t wire s = _
  simp only [execWakeWire, awake, hi, fires, Bool.or_self, Bool.false_eq_true, if_false]

/-- After a wake wire no word of the tile waits (R74). -/
theorem State.waiting_wake (s : State) (t : Nat) {v : Bool} {c : Ctx} (h : ((s.wake t).tile t).ctx v = some c) : c.waiting = false := by
  rw [State.tile_wake] at h
  cases v with
  | false =>
    obtain ⟨c', -, rfl⟩ := Option.map_eq_some_iff.mp h
    rfl
  | true =>
    obtain ⟨c', -, rfl⟩ := Option.map_eq_some_iff.mp h
    rfl

end

end Sys2Proof.Machine

/-! ### The obligations on tiles -/

section
open Sys2Proof Sys2Proof.Machine

/-- Settles O14: what END comes to is `endWord`'s three cases; the end of a task changes one context of one tile and its package. -/
theorem endWord : Obligations.EndWord := by
  unfold Obligations.EndWord
  intro s t v w c waves h op hs
  refine ⟨fun hw => ?held, fun hw hd => ?ended, fun i hw hd hr => ?done⟩
  case held => rw [exec_endTask h op, endWord_held hs hw]; rfl
  case done => rw [exec_endTask h op, endWord_done hs hw hd hr]; rfl
  case ended =>
    obtain ⟨self, others⟩ := State.tile_of_setTile (State.endOf_tiles s c waves.toNat t.val v)
    refine ⟨_, by rw [exec_endTask h op, endWord_ended hs hw hd]; rfl, rfl, ?_, fun u hu => ?_, State.endOf_mem .., State.endOf_jobs ..,
      fun p hp => ?_⟩
    · rw [State.tile_unwoken, self]
    · rw [State.tile_unwoken_ne _ hu, others u hu]
    · exact State.pkg?_endOf s c waves.toNat t.val v hp

/-- Settles O27: the cases of `enqueueWord` exclude one another; the descriptor that enters stands at its queue's end, and issuing
the word leaves every queue as it is. -/
theorem queueWords : Obligations.QueueWords := by
  unfold Obligations.QueueWords
  intro s t v w c st
  refine ⟨fun a op hs ha => ⟨fun f hb => ?bad, fun hb hv => ?otherClass, fun hb hv hh => ?pinned,
    fun h hb hv hh => ⟨fun hr => ?room, fun hr => ?full⟩⟩, fun op hs => ?lengths⟩
  case bad => rw [exec_enqueue st op, enqueueWord_bad hs ha hb]; rfl
  case otherClass => rw [exec_enqueue st op, enqueueWord_class hs ha hb hv]; rfl
  case pinned => rw [exec_enqueue st op, enqueueWord_pinned hs ha hb hv hh]; rfl
  case room =>
    refine ⟨_, by rw [exec_enqueue st op, enqueueWord_room hs ha hb hv hh hr, settle_ok]; rfl, rfl, ?_, fun u huh hut => ?_, rfl⟩
    · rw [State.advance, State.queue_issued, State.queue_enterQueue]
    · rw [State.advance, State.tile_issued_ne _ _ hut, State.tile_enterQueue_ne _ _ huh]
  case full =>
    rw [exec_enqueue st op, enqueueWord_full hs ha hb hv hh hr]
    split <;> rfl
  case lengths =>
    have ⟨hc, _⟩ := st
    exact ⟨_, by rw [exec_queueState st op, queueStateWord, hs], onlyCtx_issued₂ hc _ _⟩

/-- Settles O29: the descriptor that R64 names starts on the tile, and what enters a queue, stolen or not, stands at its end. -/
theorem taskTakeStartsTask : Obligations.TaskTakeStartsTask := by
  unfold Obligations.TaskTakeStartsTask
  refine ⟨fun s t d p hi hr hv hn hp hd => ?takes, fun s u d => ?enters, fun s victim thief ds h => ?stolen⟩
  case enters => exact State.queue_enterQueue s u d
  case stolen =>
    obtain ⟨queue, -⟩ := State.steal_thief s h ds
    exact queue
  case takes =>
    have started : exec (.taskTake t) s = .next (s.setTile t.val ((s.tile t.val).take d p.job t.val d.vesper)) := by
      rw [exec_taskTake hi hr hv hn hd, State.startTask_eq hp]
    refine ⟨_, started, ?_, ?_, ?_, fun hsus => ?_, ?_⟩
    · rw [State.ctx?, State.tile_setTile_self, TileState.take_ctx]
    · rw [State.ctx?, State.tile_setTile_self, TileState.take_ctx_not]
      rfl
    · rw [State.tile_setTile_self, TileState.take_queue]
    · rw [State.tile_setTile_self]
      exact TileState.take_banks p.job t.val d.vesper hsus
    · exact sameBut_setTile s t.val _

/-- Settles O30: what is handed over is a sublist of the victim's queue, so that taking it from there loses and doubles nothing. -/
theorem stealingMovesDescriptors : Obligations.StealingMovesDescriptors := by
  unfold Obligations.StealingMovesDescriptors
  intro s t victim ds hm
  refine ⟨fun u ho => ⟨exec_stealProbe_some hm ho, fun hu => ?other⟩, fun ho => ?failed, fun ho => ?served⟩
  case other => rw [exec_probeServe_some hm ho, if_neg hu]
  case failed =>
    refine ⟨_, exec_stealProbe_none hm ho, ?_, ?_, rfl, State.word_bump_self _ _ _, exec_stealProbe_idle ?_, ?_⟩
    · rw [State.tile_bump, State.tile_setTile_self]
    · rw [State.tile_bump, State.tile_setTile_self]
    · rw [State.tile_bump, State.tile_setTile_self]
      simp [TileState.mayProbe]
    · rw [State.tile_wake]
  case served =>
    obtain ⟨hne, hds, hsome⟩ := State.probeOrder_some ho
    obtain ⟨queue, retained⟩ := State.steal_thief s hne ds
    have taken : ds.Sublist (s.tile victim.val).queue := hds ▸ s.handed_sublist victim.val t.val
    refine ⟨_, by rw [exec_probeServe_some hm ho, if_pos rfl], rfl, hsome, fun h => hne (congrArg Fin.val h), fun d => ?_, queue, retained⟩
    rw [State.steal_victim s hne]
    exact count_withoutYoungest taken d

/-- Settles O31: each clause is a lemma on `eligible`, `eligibles` or `handed`; STOLEN is one bit, outside every field named. -/
theorem stealingEligibility : Obligations.StealingEligibility := by
  unfold Obligations.StealingEligibility
  refine ⟨State.eligible_iff, fun s victim thief pre d post hi hr hq he => ?member, fun s victim thief => ⟨s.eligibles_sublist victim thief,
    fun h => s.handed_of_eligibles_nil victim thief (s.eligibles_out victim thief h), s.handed_of_eligibles_nil victim thief,
    fun d => s.handed_vesper victim thief, s.handed_half victim thief, s.handed_across victim thief⟩,
    fun d => ⟨d.steal_stolen, d.steal_portable, d.steal_vesper, d.steal_home, d.steal_tag⟩, ⟨rfl, rfl⟩, fun s u t h => ?out⟩
  case member =>
    rw [s.eligibles_in victim thief hi hr, hq]
    exact s.mem_eligiblesFrom victim thief pre 0 (by rwa [Nat.zero_add])
  case out =>
    have idle := TileState.mayProbe_out h
    exact ⟨exec_stealProbe_idle idle, exec_probeServe_idle idle⟩

/-- Settles O33: a refresh raises SNAPSHOT_SEQ, renews TILE_BUSY in block 3, and publishes; only status words change before that. -/
theorem statusRefreshPublishes : Obligations.StatusRefreshPublishes := by
  unfold Obligations.StatusRefreshPublishes
  intro s block busy hp s1
  have raised : s1 = s.sequenced block.val := rfl
  clear_value s1
  subst raised
  refine ⟨fun hu hb => ?ms, exec_statusRefresh_locked s block busy, ?second, fun ms => ?held⟩
  case ms => exact ⟨_, exec_statusRefresh_ms s block busy hp hu hb, rfl⟩
  case held => exact exec_statusRefresh_off _ block busy ms rfl
  intro s2
  have renewed : s2 = (s.sequenced block.val).busyAnew block busy := rfl
  clear_value s2
  subst renewed
  obtain ⟨w1, raised⟩ := s.sequenced_eq block.val
  obtain ⟨w2, renewed, -⟩ := (s.sequenced block.val).busyAnew_busied block busy
  refine ⟨_, exec_statusRefresh_second s block busy hp, ?pub, ?pubExact, State.publishBoth_stat _ _, ?mem, ?tiles, ?jobs, fun k hk => ?seq⟩
  case pub =>
    have kept : ((s.sequenced block.val).busyAnew block busy).pub = (s.sequenced block.val).pub := by rw [renewed]
    rw [State.publishBoth_pub, kept]
  case pubExact =>
    have kept : ((s.sequenced block.val).busyAnew block busy).pubExact = (s.sequenced block.val).pubExact := by rw [renewed]
    rw [State.publishBoth_pubExact, kept]
  case seq =>
    rw [State.word, State.publishBoth_stat]
    exact (State.word_busyAnew _ block busy hk).trans (s.word_sequenced hk)
  case mem => rw [State.publishBoth_mem, renewed, raised]
  case tiles => rw [State.publishBoth_tiles, renewed, raised]
  case jobs => rw [State.publishBoth_jobs, renewed, raised]

/-- Settles O32: of an isolation, no descriptor returns to the tile's queue and no lost package comes back while the packages that lose
a task are abandoned (`Recedes`). -/
theorem tileConditions : Obligations.TileConditions := by
  unfold Obligations.TileConditions
  refine ⟨fun s t c hc hi => ⟨fun hs hq => ?suspends, fun hs hv hq => ?resumes⟩,
    fun s t => ⟨exec_suspendOverrun, exec_retentionWakeFailure, fun hi code => ?isolates, fun d u => ⟨fun hu => ?moved, fun hu => ?lost⟩⟩,
    fun s t wire hi => ⟨fun hw hq hr => ?retained, exec_wakeWire_safe, fun hp hw => ?woken⟩⟩
  case suspends =>
    refine ⟨exec_vesperSuspend hc hi hs hq, fun hw => ?_⟩
    rw [State.suspendNoon_idle hc hw]
    exact ⟨State.tile_setTile_self _ _ _, sameBut_setTile s t.val _⟩
  case resumes =>
    obtain ⟨suspended, noon, scratch, save⟩ := State.tile_resumed hc
    exact ⟨exec_noonResume hi hs hv hq, suspended, noon, scratch, save, (sameBut_setTile s t.val _).trans (sameBut_wake _ t.val)⟩
  case isolates =>
    intro x z d r
    have named : r = (s.tile t.val).isoRecord t.val code := rfl
    clear_value r
    subst named
    obtain ⟨isolated, queue⟩ := s.tile_isolate t.val hi code
    refine ⟨isolated, queue, fun g hg => s.pkg?_isolate t.val hi code hg, fun hl hq => ?_⟩
    have alone : z = (s.isoShut t.val code).wakeAll (s.tiles.map (·.1)) := s.isolate_alone t.val hi code hl hq
    refine ⟨?_, ?_, ?_, ?_⟩
    · rw [alone, State.word_wakeAll, State.isoShut_word]
    · rw [alone, State.wakeAll_pkgs, State.isoShut_pkgs]
    · rw [alone, State.wakeAll_health, State.isoShut_points]
    · rw [alone, State.wakeAll_log, State.isoShut_log]
      rfl
  case moved => exact s.moveDescs_some t.val hu []
  case lost => exact s.moveDescs_none t.val hu []
  case retained =>
    refine ⟨_, exec_retentionEntry hi hw hq hr, ?_, (sameBut_setTile s t.val _).trans (sameBut_bump _ t.val _ _)⟩
    rw [State.tile_bump, State.tile_setTile_self]
  case woken =>
    refine ⟨_, exec_wakeWire hi hp hw, ?_, State.queue_wake s t.val, fun hr => ?_, fun v c => State.waiting_wake s t.val, sameBut_wake s t.val⟩
    · rw [State.tile_wake]
    · rw [State.tile_wake, hr, Bool.or_true]

end
end

section
/-!
Matrix words (R96 to R102, R174 to R176): MATMUL, ACC_MOVE and ACC_STATUS are accepted, and where the task has no other incomplete
word the word begins at once and its completion leaves its whole effect. What one engine word alone does to a tile is said once, for
every engine, by what beginning and finishing it leave.
-/
namespace Sys2Proof.Machine

/-! ### A tile with one running context that has issued -/

/-- The tile `y` with the control state `c` of its task of class `v`, which has met the bound of R77. -/
def TileState.running (y : TileState) (v : Bool) (c : Ctx) : TileState := { y.setCtx v (some c) with woken := false }

section
variable (y : TileState) (v : Bool) (c : Ctx)

@[simp] theorem TileState.running_ctx : (y.running v c).ctx v = some c := TileState.ctx_setCtx y v (some c)

@[simp] theorem TileState.running_scratch : (y.running v c).scratch = y.scratch := TileState.setCtx_scratch y v (some c)

@[simp] theorem TileState.running_mat : (y.running v c).mat = y.mat := TileState.setCtx_mat y v (some c)

@[simp] theorem TileState.running_streamK : (y.running v c).streamK = y.streamK := by cases v <;> rfl

@[simp] theorem TileState.running_streamC : (y.running v c).streamC = y.streamC := by cases v <;> rfl

/-- A running context of one class does not stop the engines from working for that class. -/
@[simp] theorem TileState.running_engines : (y.running v c).engines v = y.engines v := by cases v <;> rfl

@[simp] theorem TileState.running_setCtx (c' : Ctx) : (y.running v c).setCtx v (some c') = y.running v c' := by cases v <;> rfl

/-- The banks are no part of a control state. -/
theorem TileState.running_setMat (m : MatState) : { y.running v c with mat := m } = { y with mat := m }.running v c := by
  cases v <;> rfl

/-- Neither are scratchpad and random stream. -/
theorem TileState.running_setMoved (sp : Mem) (m : MatState) (k : BitVec 128) :
    { y.running v c with scratch := sp, mat := m, streamC := k } = { y with scratch := sp, mat := m, streamC := k }.running v c := by
  cases v <;> rfl

variable {y v}

/-- Engines that work stand on a tile that is not isolated. -/
theorem TileState.isolated_of_engines (h : y.engines v = true) : y.isolated = false := by
  simp only [TileState.engines, Bool.and_eq_true, Bool.not_eq_true'] at h
  obtain ⟨⟨isolated, -⟩, -⟩ := h
  exact isolated

end

/-- `s'` is `s` but for status words and tile `t`, which is `y` with the running control state `c`. -/
structure Runs (s s' : State) (t : Nat) (v : Bool) (y : TileState) (c : Ctx) : Prop where
  others : sameBut s s' t
  tile : s'.tile t = y.running v c

section
variable {s s' : State} {t : Nat} {v : Bool} {y : TileState} {c : Ctx}

theorem Runs.ctx? (h : Runs s s' t v y c) : s'.ctx? t v = some c := by
  rw [State.ctx?, h.tile, TileState.running_ctx]

theorem Runs.engines (h : Runs s s' t v y c) : (s'.tile t).engines v = y.engines v := by
  rw [h.tile, TileState.running_engines]

theorem Runs.scratch (h : Runs s s' t v y c) : (s'.tile t).scratch = y.scratch := by rw [h.tile, TileState.running_scratch]

theorem Runs.mat (h : Runs s s' t v y c) : (s'.tile t).mat = y.mat := by rw [h.tile, TileState.running_mat]

theorem Runs.streamK (h : Runs s s' t v y c) : (s'.tile t).streamK = y.streamK := by rw [h.tile, TileState.running_streamK]

theorem Runs.streamC (h : Runs s s' t v y c) : (s'.tile t).streamC = y.streamC := by rw [h.tile, TileState.running_streamC]

theorem Runs.setTile (h : Runs s s' t v y c) (y' : TileState) (c' : Ctx) : Runs s (s'.setTile t (y'.running v c')) t v y' c' :=
  ⟨h.others.trans (sameBut_setTile s' t _), State.tile_setTile_self s' t _⟩

theorem Runs.setMat (h : Runs s s' t v y c) (m : MatState) :
    Runs s (s'.setTile t { s'.tile t with mat := m }) t v { y with mat := m } c := by
  rw [h.tile, TileState.running_setMat]
  exact h.setTile _ c

theorem Runs.setMoved (h : Runs s s' t v y c) (sp : Mem) (m : MatState) (k : BitVec 128) :
    Runs s (s'.setTile t { s'.tile t with scratch := sp, mat := m, streamC := k }) t v { y with scratch := sp, mat := m, streamC := k } c := by
  rw [h.tile, TileState.running_setMoved]
  exact h.setTile _ c

theorem Runs.updCtx (h : Runs s s' t v y c) (f : Ctx → Ctx) : Runs s (s'.updCtx t v f) t v y (f c) := by
  have updated : s'.updCtx t v f = s'.setTile t (y.running v (f c)) := by
    rw [State.updCtx, h.tile, TileState.running_ctx, Option.map_some, TileState.running_setCtx]
  rw [updated]
  exact h.setTile y (f c)

theorem Runs.setEng (h : Runs s s' t v y c) {z : EngWord} (hw : c.words = [z]) (z' : EngWord) :
    Runs s (s'.setEng t v 0 z') t v y { c with words := [z'] } := by
  have set := h.updCtx fun c => { c with words := c.words.set 0 z' }
  rwa [hw] at set

theorem Runs.bump (h : Runs s s' t v y c) (k n : Nat) : Runs s (s'.bump k n) t v y c :=
  ⟨h.others.trans (sameBut_bump s' t k n), (State.tile_bump s' k n t).trans h.tile⟩

theorem Runs.countFormats (h : Runs s s' t v y c) (old new : Tally) : Runs s (s'.countFormats old new) t v y c :=
  ((((h.bump _ _).bump _ _).bump _ _).bump _ _).bump _ _

end

/-! ### One engine word alone: acceptance, beginning, completion (R161, R162) -/

section
variable {s s' s1 : State} {t : TileId} {v : Bool} {w : BitVec 128} {y : TileState} {c : Ctx} {z z1 : EngWord}

/-- An accepted word is the task's only incomplete one where it had none. -/
theorem Runs.placed (st : stands s t v w c) (hw : c.words = []) (z : EngWord) :
    Runs s (s.placed t.val v z) t.val v (s.tile t.val) (c.only z) := by
  obtain ⟨hc, -⟩ := st
  have only : { { c with pos := c.pos + 16, words := c.words ++ [z] } with waiting := false, onSlot := none } = c.only z := by
    rw [hw, List.nil_append]
    rfl
  obtain ⟨others, -, -⟩ := onlyCtx_issued hc fun c => { c with pos := c.pos + 16, words := c.words ++ [z] }
  refine ⟨others, ?_⟩
  rw [State.placed, State.tile_issued hc, only]
  rfl

/-- Behind no word every word may begin. -/
theorem Ctx.mayBegin_zero (c : Ctx) (z : EngWord) : c.mayBegin 0 z = true := by
  unfold Ctx.mayBegin
  split <;> rfl

/-- With no incomplete word nothing begins. -/
theorem State.beginWords_none (hc : s.ctx? t.val v = some c) (hw : c.words = []) : s.beginWords t.val v = s := by
  simp [State.beginWords, hc, hw]

/-- A word alone is the only one that may begin. -/
theorem State.beginWords_one (hc : s.ctx? t.val v = some c) (hw : c.words = [z]) :
    s.beginWords t.val v = State.beginOne t.val v s 0 := by
  simp [State.beginWords, hc, hw]

/-- A word alone that has begun does not begin again. -/
theorem State.beginWords_begun (hc : s.ctx? t.val v = some c) (hw : c.words = [z]) (hb : z.begun = true) :
    s.beginWords t.val v = s := by
  rw [State.beginWords_one hc hw, State.beginOne]
  simp [hc, hw, hb]

/-- A word alone begins as its engine has it. -/
theorem Runs.beginWords (h : Runs s s' t.val v y c) (hw : c.words = [z]) (hb : z.begun = false) (he : y.engines v = true)
    (hg : s'.beginWord t.val v c z = .go z1 s1) : s'.beginWords t.val v = s1.setEng t.val v 0 z1 := by
  rw [State.beginWords_one h.ctx? hw, State.beginOne]
  simp [h.ctx?, hw, hb, h.engines, he, Ctx.mayBegin_zero, hg]

/-- A word alone that is in progress is the next of its engine to complete. -/
theorem Ctx.nextDone_one (hw : c.words = [z]) (hb : z.begun = true) (hr : z.ran = false) : c.nextDone z.engine = some (0, z) := by
  simp [Ctx.nextDone, hw, hb, hr]

/-- ENGINE_WORD_COMPLETE of a word alone in progress: what finishing it leaves, without the word. -/
theorem Runs.exec_engineWordComplete (h : Runs s s' t.val v y c) (hw : c.words = [z]) (he : y.engines v = true)
    (hb : z.begun = true) (hr : z.ran = false) (hf : s'.finishWord t.val v c z = .go z1 s1) (hr1 : z1.ran = true)
    (hq : z1.waits = []) (waves : Nat) :
    exec (.engineWordComplete t v z.engine waves) s' =
      .next (((s1.updCtx t.val v fun c => { c with words := c.words.eraseIdx 0 }).wordWaves t.val z1 waves).beginWords t.val v) := by
  have working : (s'.tile t.val).engines v = true := h.engines.trans he
  have completed : s'.completeWord t.val v c 0 z waves =
      (s1.updCtx t.val v fun c => { c with words := c.words.eraseIdx 0 }).wordWaves t.val z1 waves := by
    simp [State.completeWord, hr, hf, State.leaveWord, hr1, hq]
  change execEngineWordComplete t v z.engine waves s' = _
  rw [execEngineWordComplete, State.beginWords_begun h.ctx? hw hb]
  simp only [h.ctx?, Ctx.nextDone_one hw hb hr, working, TileState.isolated_of_engines working, completed]
  simp

end

/-! ### Words of the matrix engine -/

/-- Beginning word `z`, alone behind the task's next position, makes the tile `y`. -/
def beginsAs (s : State) (t : Nat) (v : Bool) (c : Ctx) (z : EngWord) (y : TileState) : Prop :=
  ∀ s', Runs s s' t v (s.tile t) (c.only z) → ∃ s1, s'.beginWord t v (c.only z) z = .go { z with begun := true } s1 ∧ Runs s s1 t v y (c.only z)

/-- Finishing the matrix word `z`, alone on tile `y`, makes the tile `y'` and the control state `c'`, with the word still in it. -/
def finishesAs (s : State) (t : Nat) (v : Bool) (c : Ctx) (z : EngWord) (y y' : TileState) (c' : Ctx) : Prop :=
  ∀ s', Runs s s' t v y (c.only z) → ∃ z1 s1, s'.finishWord t v (c.only z) z = .go z1 s1 ∧
    z1.engine = 0 ∧ z1.ran = true ∧ z1.waits = [] ∧ Runs s s1 t v y' c'

/-- The waves of a matrix word are counted in one status word. -/
theorem State.wordWaves_matrix {z : EngWord} (h : z.engine = 0) (s : State) (t n : Nat) : ∃ k, s.wordWaves t z n = s.bump k n := by
  unfold EngWord.engine at h
  unfold State.wordWaves
  cases hop : z.op with
  | matmul o => exact ⟨_, rfl⟩
  | accMove o => exact ⟨_, rfl⟩
  | accStatus d => exact ⟨_, rfl⟩
  | _ => simp [hop, EngOp.engine] at h

section
variable {s : State} {t : TileId} {v : Bool} {w : BitVec 128} {c : Ctx} {op : EngOp} {off : Nat} {halves : Bool × Bool}

/-- A matrix word that is accepted alone begins at once, and its completion leaves what finishing it makes, without the word. -/
theorem matrixWord_ends {i : Instr} {y y' : TileState} {c' : Ctx} {x : EngWord} (st : stands s t v w c) (hw : c.words = [])
    (matrix : op.engine = 0)
    (issues : exec i s = .next (s.took t.val v (EngWord.fresh op off halves)))
    (begins : beginsAs s t.val v c (EngWord.fresh op off halves) y) (works : y.engines v = (s.tile t.val).engines v)
    (finishes : finishesAs s t.val v c { EngWord.fresh op off halves with begun := true } y y' c') (hx : c'.words = [x]) (waves : Nat) :
    leads (exec i s) fun s1 => leads (exec (.engineWordComplete t v 0 waves) s1) fun s' =>
      sameBut s s' t.val ∧ s'.tile t.val = y'.running v { c' with words := [] } := by
  have working : (s.tile t.val).engines v = true := by
    obtain ⟨-, -, issuing, -⟩ := st
    exact issuing
  have placed := Runs.placed st hw (EngWord.fresh op off halves)
  obtain ⟨s1, begun, r1⟩ := begins _ placed
  have r2 := r1.setEng rfl { EngWord.fresh op off halves with begun := true }
  obtain ⟨z3, s3, finished, engine, ran, waits, r3⟩ := finishes _ r2
  have left := r3.updCtx fun c => { c with words := c.words.eraseIdx 0 }
  rw [hx] at left
  obtain ⟨k, waved⟩ := State.wordWaves_matrix engine (s3.updCtx t.val v fun c => { c with words := c.words.eraseIdx 0 }) t.val waves
  have r4 := left.bump k waves
  have completes := r2.exec_engineWordComplete rfl (works.trans working) rfl rfl finished ran waits waves
  rw [waved, State.beginWords_none r4.ctx? rfl] at completes
  refine ⟨_, issues, _, ?_, r4.others, r4.tile⟩
  rw [State.took, placed.beginWords rfl rfl working begun]
  exact (congrArg (fun e => exec (.engineWordComplete t v e waves) _) matrix.symm).trans completes

/-- The control state that is left when the only word is complete. -/
theorem Ctx.only_emptied (hw : c.words = []) (z : EngWord) : { c.only z with words := [] } = c.next := by
  rw [← hw]
  rfl

/-- The same for a word that writes a register. -/
theorem Ctx.only_setReg_emptied (hw : c.words = []) (z : EngWord) (d x : Nat) :
    { (c.only z).setReg d x with words := [] } = (c.setReg d x).next := by
  unfold Ctx.setReg
  split
  · exact Ctx.only_emptied hw z
  · rw [← hw]
    rfl

theorem Ctx.setReg_words (c : Ctx) (d x : Nat) : (c.setReg d x).words = c.words := by
  unfold Ctx.setReg
  split <;> rfl

/-- The half-bank rule of R96: a word that uses the banks begins only when no earlier word shares a half with it. -/
theorem Ctx.mayBegin_halves {k : Nat} {z : EngWord}
    (banks : match z.op with | .matmul _ | .accMove _ | .accStatus _ | .pass _ => True | _ => False) (h : c.mayBegin k z = true) :
    ∀ e ∈ c.words.take k, sharesHalf e z = false := by
  have free : ((c.words.take k).any fun e => sharesHalf e z) = false := by
    unfold Ctx.mayBegin at h
    cases hop : z.op with
    | matmul o | accMove o | accStatus d | pass p =>
      simp only [hop, Bool.and_eq_true, Bool.not_eq_true'] at h
      obtain ⟨-, free⟩ := h
      exact free
    | _ => rw [hop] at banks; exact banks.elim
  simpa using free

/-! #### MATMUL (R95, R102, R174) -/

/-- The banks as a matrix operation finds them: with ACC_INIT its rows are zero and its tags set (R95). -/
def MatOp.prepared (o : MatOp) (m : MatState) : MatState := if o.init then matInit o m else m

theorem exec_matmul (st : stands s t v w c) (op : opcodeOf w.toNat = 0x20) :
    exec (.matmul t v w) s = .next (settle t.val v c.off (matmulWord t.val v w.toNat c (c.reg (xregOf w.toNat)) s)) :=
  issue_stands st (by rw [op]; decide) (by rw [ofOpcode, op]; decide)

/-- MATMUL whose checks pass is accepted. -/
theorem exec_matmul_accepted (st : stands s t v w c) (hu : s.undeclared t.val v c = false) {a : Nat} {o : MatOp}
    (op : opcodeOf w.toNat = 0x20) (hs : stray w.toNat [(0, 24), (106, 4), (102, 4)] = false)
    (ha : paramAt v w.toNat (c.reg (xregOf w.toNat)) 48 = .ok a)
    (ho : matPrepare v (memWords (s.tile t.val).scratch a 6) (c.reg (fld w.toNat 106 4)) (c.reg (fld w.toNat 102 4)) = .ok o) :
    exec (.matmul t v w) s = .next (s.took t.val v (EngWord.fresh (.matmul o) c.off (o.lo, o.hi))) := by
  rw [exec_matmul st op]
  simp only [matmulWord, hs, ha, ho, hu, Bool.false_eq_true, if_false, settle_accepted]

/-- A matrix operation whose tags stand prepares its banks as it begins. -/
theorem matmul_begins {o : MatOp} (tags : matTagFault o (s.tile t.val).mat = false) :
    beginsAs s t.val v c (EngWord.fresh (.matmul o) off halves) { s.tile t.val with mat := o.prepared (s.tile t.val).mat } := by
  intro s' r
  refine ⟨_, ?_, r.setMat (o.prepared (s.tile t.val).mat)⟩
  simp only [State.beginWord, EngWord.fresh, r.mat, tags, Bool.false_eq_true, if_false, MatOp.prepared]

/-- A run of a matrix operation changes banks, by its streamed rows under the scratchpad as it stands (R92). -/
theorem Runs.runMatmul {s' : State} {y : TileState} (r : Runs s s' t.val v y c) (o : MatOp) (z : EngWord) (n : Nat) :
    Runs s (s'.runMatmul t.val z o n).s t.val v { y with mat := (matRows o y.scratch z.pos n (y.mat, z.sat)).1 } c := by
  have rows : matRows o (s'.tile t.val).scratch z.pos n ((s'.tile t.val).mat, z.sat) = matRows o y.scratch z.pos n (y.mat, z.sat) := by
    rw [r.scratch, r.mat]
  simp only [State.runMatmul, rows]
  exact (r.setMat _).countFormats _ _

/-- It finishes with all of its streamed rows. -/
theorem matmul_finishes {o : MatOp} {y : TileState} :
    finishesAs s t.val v c { EngWord.fresh (.matmul o) off halves with begun := true } y
      { y with mat := (matRows o y.scratch 0 o.rows (y.mat, [])).1 }
      (c.only { EngWord.fresh (.matmul o) off halves with begun := true }) :=
  fun _ r => ⟨_, _, rfl, rfl, rfl, rfl, r.runMatmul o _ o.rows⟩

/-! #### ACC_MOVE (R97, R175) -/

theorem exec_accMove (st : stands s t v w c) (op : opcodeOf w.toNat = 0x21) :
    exec (.accMove t v w) s = .next (settle t.val v c.off (accMoveWord t.val v w.toNat c (c.reg (xregOf w.toNat)) s)) :=
  issue_stands st (by rw [op]; decide) (by rw [ofOpcode, op]; decide)

/-- ACC_MOVE whose checks pass under the tags that will stand is accepted. -/
theorem exec_accMove_accepted (st : stands s t v w c) (hu : s.undeclared t.val v c = false) {o : AccMove}
    (op : opcodeOf w.toNat = 0x21)
    (ho : accMovePrepare v w.toNat (c.reg (xregOf w.toNat)) (c.projected (s.tile t.val).mat) = .ok o) :
    exec (.accMove t v w) s = .next (s.took t.val v
      (EngWord.fresh (.accMove o) c.off (readHalves (c.projected (s.tile t.val).mat) o.row (o.row + o.rows)))) := by
  rw [exec_accMove st op]
  simp only [accMoveWord, ho, hu, Bool.false_eq_true, if_false, settle_accepted]

theorem accMove_begins {o : AccMove} : beginsAs s t.val v c (EngWord.fresh (.accMove o) off halves) (s.tile t.val) :=
  fun s' r => ⟨s', rfl, r⟩

/-- What `n` rows of an accumulator move, from row `i` on, make of a tile. -/
def TileState.accMoved (y : TileState) (o : AccMove) (i n : Nat) : TileState :=
  let r := accMoveRows o y.streamK.toNat y.streamC.toNat y.scratch y.mat i n
  { y with scratch := r.1, mat := r.2.1, streamC := BitVec.ofNat 128 r.2.2.1 }

/-- A run of an accumulator move changes scratchpad, banks and random stream, by its rows. -/
theorem Runs.runAccMove {s' : State} {y : TileState} (r : Runs s s' t.val v y c) (o : AccMove) (z : EngWord) (n : Nat) :
    Runs s (s'.runAccMove t.val z o n).s t.val v (y.accMoved o z.pos n) c := by
  have rows : accMoveRows o (s'.tile t.val).streamK.toNat (s'.tile t.val).streamC.toNat (s'.tile t.val).scratch (s'.tile t.val).mat z.pos n =
      accMoveRows o y.streamK.toNat y.streamC.toNat y.scratch y.mat z.pos n := by
    rw [r.streamK, r.streamC, r.scratch, r.mat]
  simp only [State.runAccMove, TileState.accMoved, rows]
  exact (r.setMoved _ _ _).countFormats _ _

/-- It moves its rows, all of them. -/
theorem accMove_finishes {o : AccMove} {y : TileState} :
    finishesAs s t.val v c { EngWord.fresh (.accMove o) off halves with begun := true } y (y.accMoved o 0 o.rows)
      (c.only { EngWord.fresh (.accMove o) off halves with begun := true }) :=
  fun _ r => ⟨_, _, rfl, rfl, rfl, rfl, r.runAccMove o _ o.rows⟩

/-! #### ACC_STATUS (R98, R176) -/

theorem exec_accStatus (st : stands s t v w c) (op : opcodeOf w.toNat = 0x22) :
    exec (.accStatus t v w) s = .next (settle t.val v c.off (accStatusWord' t.val v w.toNat c (c.reg (xregOf w.toNat)) s)) :=
  issue_stands st (by rw [op]; decide) (by rw [ofOpcode, op]; decide)

/-- ACC_STATUS without a stray bit is accepted. -/
theorem exec_accStatus_accepted (st : stands s t v w c) (hu : s.undeclared t.val v c = false) (op : opcodeOf w.toNat = 0x22)
    (hs : stray w.toNat [(106, 4)] = false) :
    exec (.accStatus t v w) s = .next (s.took t.val v (EngWord.fresh (.accStatus (fld w.toNat 106 4)) c.off (true, true))) := by
  rw [exec_accStatus st op]
  simp only [accStatusWord', hs, hu, Bool.false_eq_true, if_false, settle_accepted]

theorem accStatus_begins {d : Nat} : beginsAs s t.val v c (EngWord.fresh (.accStatus d) off halves) (s.tile t.val) :=
  fun s' r => ⟨s', rfl, r⟩

/-- It clears the flags and returns them with the tags in its register. -/
theorem accStatus_finishes {d : Nat} {y : TileState} {z : EngWord} (op : z.op = .accStatus d) (waits : z.waits = []) :
    finishesAs s t.val v c z y { y with mat := { y.mat with intSat := 0 } } ((c.only z).setReg d (accStatusWord y.mat)) := by
  intro s' r
  have finished : s'.finishWord t.val v (c.only z) z = .go { z with ran := true }
      ((s'.setTile t.val { s'.tile t.val with mat := { y.mat with intSat := 0 } }).updCtx t.val v fun c => c.setReg d (accStatusWord y.mat)) := by
    simp only [State.finishWord, op, State.setReg, r.mat]
  refine ⟨_, _, finished, ?_, rfl, waits, (r.setMat _).updCtx _⟩
  rw [EngWord.engine, op, EngOp.engine]

end

end Sys2Proof.Machine

/-! ### The obligation on matrix words -/

section
open Sys2Proof Sys2Proof.Machine

/-- Settles O15: each word is accepted by its checks' lemma, and alone it begins at once and ends as `matrixWord_ends` says. -/
theorem matrixWords : Obligations.MatrixWords := by
  unfold Obligations.MatrixWords
  intro s t v w c st hu
  refine ⟨fun a o op hs ha ho => ⟨exec_matmul_accepted st hu op hs ha ho, fun tags hw waves => ?matmul⟩,
    fun o op ho => ⟨exec_accMove_accepted st hu op ho, fun hw waves => ?accMove⟩, fun k z => Ctx.mayBegin_halves,
    fun op hs => ⟨exec_accStatus_accepted st hu op hs, fun hw waves => ?accStatus⟩⟩
  case matmul =>
    rw [← Ctx.only_emptied hw]
    exact matrixWord_ends st hw rfl (exec_matmul_accepted st hu op hs ha ho) (matmul_begins tags) rfl
      matmul_finishes rfl waves
  case accMove =>
    rw [← Ctx.only_emptied hw]
    exact matrixWord_ends st hw rfl (exec_accMove_accepted st hu op ho) accMove_begins rfl accMove_finishes rfl waves
  case accStatus =>
    rw [← Ctx.only_setReg_emptied hw]
    exact matrixWord_ends st hw rfl (exec_accStatus_accepted st hu op hs) accStatus_begins rfl (accStatus_finishes rfl rfl)
      (Ctx.setReg_words _ _ _) waves

end
end

section
/-!
Record words (R130, R132, R149, R150, R160, R162, R180): CARRY_COMPOSE, ROWSTAT_COMBINE and ROWSTAT_FINALISE are accepted or raise their
fault, and where the task has no other incomplete word and nothing is to be fetched the word begins on its scratchpad and its
completion writes its result. Before that stands what every word of the vector engine needs: one that begins without changing more
than itself leaves a state that runs the begun word alone (`Runs`), and what a word waits for and fetches.
-/
namespace Sys2Proof.Machine

/-! ### What a running word leaves as it was -/

section
variable {s s' : State} {t : Nat} {v : Bool} {y : TileState} {c : Ctx}

/-- What depends on neither tiles nor status words is as it was. -/
theorem sameBut.read {α : Type} (h : sameBut s s' t) (f : State → α)
    (hf : ∀ (x : State) ts st, f { x with tiles := ts, stat := st } = f x) : f s' = f s := by
  obtain ⟨rest, -⟩ := h
  rw [← hf s' s.tiles s.stat, rest]

theorem Runs.mem (h : Runs s s' t v y c) : s'.mem = s.mem := h.others.read State.mem fun _ _ _ => rfl

theorem Runs.job? (h : Runs s s' t v y c) (job : BitVec 16) : s'.job? job = s.job? job :=
  h.others.read (·.job? job) fun _ _ _ => rfl

theorem Runs.plays (h : Runs s s' t v y c) (j : JobCtx) (d : Nat) : s'.plays j d = s.plays j d :=
  h.others.read (·.plays j d) fun _ _ _ => rfl

theorem Runs.countReached (h : Runs s s' t v y c) (job : BitVec 16) (ref target : Nat) :
    s'.countReached job ref target = s.countReached job ref target :=
  h.others.read (·.countReached job ref target) fun _ _ _ => rfl

/-- The images that a word has latched are no part of a control state. -/
theorem Runs.image (h : Runs s s' t v y c) (z : EngWord) : z.image (s'.tile t) = z.image y := by
  rw [h.tile]
  cases v <;> rfl

theorem Runs.latchedOf (h : Runs s s' t v y c) (p : VPass) : Machine.latchedOf (s'.tile t) p = Machine.latchedOf y p := by
  rw [h.tile]
  cases v <;> rfl

/-- The counter of free values may move beside the tile. -/
theorem Runs.setFreeCtr (h : Runs s s' t v y c) (k : Nat) : Runs { s with freeCtr := k } { s' with freeCtr := k } t v y c := by
  obtain ⟨⟨rest, others⟩, tile⟩ := h
  exact ⟨⟨congrArg (fun x => { x with freeCtr := k }) rest, others⟩, tile⟩

end

/-! ### A vector word alone: beginning and completion (R161, R162) -/

section
variable {s s' s1 : State} {t : TileId} {v : Bool} {w : BitVec 128} {y : TileState} {c : Ctx} {z z1 : EngWord}

/-- The engines of a tile on which a word stands work for its class. -/
theorem engines_of_stands (st : stands s t v w c) : (s.tile t.val).engines v = true := by
  obtain ⟨-, -, issuing, -⟩ := st
  exact issuing

/-- A word that is accepted alone and begins at once without changing anything else. -/
theorem Runs.took (st : stands s t v w c) (hw : c.words = []) (hb : z.begun = false)
    (begins : (s.placed t.val v z).beginWord t.val v (c.only z) z = .go z1 (s.placed t.val v z)) :
    Runs s (s.took t.val v z) t.val v (s.tile t.val) (c.only z1) := by
  have placed := Runs.placed st hw z
  rw [State.took, placed.beginWords rfl hb (engines_of_stands st) begins]
  exact placed.setEng rfl z1

/-- ENGINE_WORD_COMPLETE of a word alone in progress runs it to its end. -/
theorem Runs.exec_completes (h : Runs s s' t.val v y c) (hw : c.words = [z]) (he : y.engines v = true) (hb : z.begun = true)
    (hr : z.ran = false) (waves : Nat) :
    exec (.engineWordComplete t v z.engine waves) s' = .next ((s'.completeWord t.val v c 0 z waves).beginWords t.val v) := by
  have working : (s'.tile t.val).engines v = true := h.engines.trans he
  change execEngineWordComplete t v z.engine waves s' = _
  rw [execEngineWordComplete, State.beginWords_begun h.ctx? hw hb]
  simp [h.ctx?, Ctx.nextDone_one hw hb hr, working, TileState.isolated_of_engines working]

theorem State.completeWord_go {t k : Nat} (hr : z.ran = false) (hf : s.finishWord t v c z = .go z1 s1) (waves : Nat) :
    s.completeWord t v c k z waves = s1.leaveWord t v k z1 waves := by
  simp [State.completeWord, hr, hf]

theorem State.completeWord_fault {t k code : Nat} (hr : z.ran = false) (hf : s.finishWord t v c z = .fault code s1) (waves : Nat) :
    s.completeWord t v c k z waves = (s1.setEng t v k { z with ran := true }).faultTask t v code z.off.toNat := by
  simp [State.completeWord, hr, hf]

/-- A record that is written without a fault leaves its word run, awaiting the replies of the write. -/
theorem State.leaveRecord_go {t dest raise : Nat} {bs : List Byte}
    (h : (s.writeRecord t v c z.off.toNat dest raise bs).fault = none) :
    s.leaveRecord t v c z dest raise bs =
      .go { z with ran := true, waits := (s.writeRecord t v c z.off.toNat dest raise bs).waits }
        (s.writeRecord t v c z.off.toNat dest raise bs).s := by
  simp only [State.leaveRecord, h]

/-- The offset of a fresh word is that of its task's position (R82). -/
theorem EngWord.off_fresh (op : EngOp) (c : Ctx) (halves : Bool × Bool) : (EngWord.fresh op c.off halves).off.toNat = c.off := by
  simp [EngWord.fresh, Ctx.off]

end

/-! ### Counts and records that a word waits for (R130, R132, R149) -/

section
variable {s : State} {t n : Nat} {v : Bool} {job : BitVec 16} {c : Ctx} {z z1 : EngWord}

/-- Where every count that is waited for is reached, nothing is watched. -/
theorem State.awaits_none : ∀ {l : List (Nat × Nat × Nat)}, (∀ q ∈ l, q.1 = 2 → s.countReached job q.2.1 q.2.2 = true) →
    s.awaits t job l = none
  | [], _ => rfl
  | (mode, ref, target) :: r, h => by
    have reached : ¬(mode = 2 && !s.countReached job ref target) = true := by
      simpa using fun hm => h _ List.mem_cons_self hm
    rw [State.awaits, if_neg reached]
    exact State.awaits_none fun q hq => h q (List.mem_cons_of_mem _ hq)

/-- Nothing is fetched of a record of another mode than 2. -/
theorem missing_of_ne {mode : Nat} (h : mode ≠ 2) (n : Nat) (buf : List Byte) : missing mode n buf = none := by
  simp [missing, h]

/-- Nothing more is fetched of a record that is at hand. -/
theorem missing_of_length (mode : Nat) {buf : List Byte} (h : n ≤ buf.length) : missing mode n buf = none := by
  simp [missing, h]

/-- A word that needs no record has gathered them. -/
theorem State.gather_of_need_none (h : z.need = none) : State.gather t v c (n + 1) z s = .go z s := by
  rw [State.gather, h]

/-- A word that needs one record has it after one read. -/
theorem State.gather_of_need_one {q : Nat × Nat × Nat × Nat} (h : z.need = some q) (hw : z.waits = [])
    (hf : s.fetchRecord t v c z q.1 q.2.1 q.2.2.1 q.2.2.2 = .go z1 s) (h1 : z1.need = none) :
    State.gather t v c (n + 2) z s = .go z1 s := by
  rw [State.gather, h]
  simp only [hw, List.isEmpty_nil, Bool.not_true, Bool.false_eq_true, if_false, hf]
  exact State.gather_of_need_none h1

/-- A record of this module's memory comes through translation (R130). -/
theorem State.fetchRecord_here {a : Nat} {bs : List Byte} (here : ∀ j, s.job? c.job = some j → s.plays j (fld a 42 14) = true)
    (read : s.readMem c.job .tile v a n = (.ok bs, s)) :
    s.fetchRecord t v c z a 0 n 1 = .go { z with bufs := (z.bufs.1 ++ bs, z.bufs.2) } s := by
  cases hj : s.job? c.job with
  | none => simp [State.fetchRecord, hj, read]
  | some j => simp [State.fetchRecord, hj, here j hj, read]

end

/-! ### Record operations (R132, R149, R150, R180) -/

/-- A record word as it stands once it has begun on scratchpad `sp` (R149). -/
def EngOp.begunRecord (op : EngOp) (off : Nat) (sp : Mem) : EngWord :=
  { (EngWord.fresh op off (false, false)).latchRecords sp with begun := true }

/-- Record operation `op` of a task runs on scratchpad `sp`: alone it begins at once and changes nothing else, and it finishes by
writing `bs` as its block `b` says. -/
structure RecordRuns (t : Nat) (v : Bool) (c : Ctx) (op : EngOp) (sp : Mem) (b : RecBlock) (bs : List Byte) : Prop where
  vector : op.engine = 1
  begins : ∀ s : State, (s.tile t).scratch = sp →
    s.beginWord t v (c.only (EngWord.fresh op c.off (false, false))) (EngWord.fresh op c.off (false, false)) =
      .go (op.begunRecord c.off sp) s
  finishes : ∀ s : State, (s.tile t).scratch = sp →
    let z := op.begunRecord c.off sp
    ∀ o, o = s.writeRecord t v (c.only z) z.off.toNat b.dest b.raise bs → o.fault = none →
      s.finishWord t v (c.only z) z = .go { z with pos := op.units, ran := true, waits := o.waits } o.s

/-- A begun record word is its operation, which has not run. -/
theorem EngOp.begunRecord_fields (op : EngOp) (off : Nat) (sp : Mem) :
    let z := op.begunRecord off sp
    z.op = op ∧ z.begun = true ∧ z.ran = false ∧ z.off = (EngWord.fresh op off (false, false)).off := by
  cases op <;> exact ⟨rfl, rfl, rfl, rfl⟩

section
variable {s : State} {t : TileId} {v : Bool} {w : BitVec 128} {c : Ctx} {op : EngOp} {b : RecBlock} {sp : Mem} {bs : List Byte}

/-- A record operation that is accepted alone begins at once, and its completion leaves what its write leaves. -/
theorem recordWord_ends {i : Instr} (st : stands s t v w c) (hw : c.words = [])
    (runs : RecordRuns t.val v c op (s.tile t.val).scratch b bs)
    (issues : exec i s = .next (s.took t.val v (EngWord.fresh op c.off (false, false)))) (waves : Nat) :
    let z := op.begunRecord c.off (s.tile t.val).scratch
    leads (exec i s) fun s1 =>
      let o := s1.writeRecord t.val v (c.only z) c.off b.dest b.raise bs
      s1.ctx? t.val v = some (c.only z) ∧ s1.mem = s.mem ∧ (o.fault = none → exec (.engineWordComplete t v 1 waves) s1 =
        .next ((o.s.leaveWord t.val v 0 { z with pos := op.units, ran := true, waits := o.waits } waves).beginWords t.val v)) := by
  intro z
  obtain ⟨hop, begun, ran, hoff⟩ := op.begunRecord_fields c.off (s.tile t.val).scratch
  have off : z.off.toNat = c.off := (congrArg BitVec.toNat hoff).trans (EngWord.off_fresh op c _)
  have vector : z.engine = 1 := (congrArg EngOp.engine hop).trans runs.vector
  have r := Runs.took st hw rfl (runs.begins _ (Runs.placed st hw _).scratch)
  refine ⟨_, issues, r.ctx?, r.mem, fun written => ?_⟩
  have finished := runs.finishes _ r.scratch _ (by rw [off]) written
  rw [← vector, r.exec_completes rfl (engines_of_stands st) begun ran waves, State.completeWord_go ran finished]

/-- A record operation that need not fetch and whose records fit begins at once with them latched. -/
theorem State.beginRec_local {t : Nat} {c : Ctx} {z : EngWord} {b' : RecBlock} (hx : b.xMode ≠ 2) (hy : b.yMode ≠ 2)
    (need : z.need = none) (out : (z.latchRecords (s.tile t).scratch).recordOut v (s.tile t).scratch = some (b', .ok bs)) :
    s.beginRec t v c z b = .go { z.latchRecords (s.tile t).scratch with begun := true } s := by
  have reached : s.awaits t c.job [(b.xMode, b.xWait, b.xTarget), (b.yMode, b.yWait, b.yTarget)] = none :=
    State.awaits_none fun q hq hm => by
      rcases List.mem_pair.mp hq with rfl | rfl
      · exact absurd hm hx
      · exact absurd hm hy
  simp only [State.beginRec, reached, State.gather_of_need_none need, out]
  cases z.op <;> rfl

/-- All groups of a ROWSTAT operation, written at once where they cover its result. -/
theorem State.runRecs_whole {t : Nat} {c : Ctx} {z : EngWord} (out : z.recordOut v (s.tile t).scratch = some (b, .ok bs))
    (pos : z.pos = 0) (waits : z.waits = []) (grouped : z.op.units ≠ 0) (covers : bs.length ≤ z.op.units * (64 * z.op.recordBytes)) :
    s.runRecs t v c z z.op.units =
      let o := s.writeRecord t v c z.off.toNat b.dest b.raise bs
      ⟨o.s, { z with pos := z.op.units, waits := o.waits }, o.fault⟩ := by
  simp only [State.runRecs, out, if_neg grouped, pos, waits, Nat.zero_mul, Nat.add_zero, Nat.zero_add, Nat.le_refl, if_true,
    List.drop_zero, List.take_of_length_le covers, List.nil_append]

/-- A record operation of a task that finds a fault raises it, and one whose checks pass is accepted. -/
theorem acceptRec_settles {i : Instr} {rec : RecBlock → EngOp} {y : Bool} {r : Except Nat RecBlock}
    (issues : exec i s = .next (settle t.val v c.off (acceptRec rec y c r s))) :
    (∀ f, r = .error f → exec i s = .next (s.faultTask t.val v f c.off)) ∧
    ∀ b, r = .ok b → s.waitFault c.job b.xMode b.xWait = none → (y = true → s.waitFault c.job b.yMode b.yWait = none) →
      exec i s = .next (s.took t.val v (EngWord.fresh (rec b) c.off (false, false))) := by
  refine ⟨fun f hr => ?_, fun b hr hx hy => ?_⟩
  · rw [issues, hr]
    rfl
  · have second : (if y then s.waitFault c.job b.yMode b.yWait else none) = none := by
      cases y with
      | false => rfl
      | true => exact hy rfl
    rw [issues, hr]
    simp only [acceptRec, hx, second, Option.orElse_none, settle_accepted]

/-- A block that passes its checks names records. -/
theorem recPrepare_n_ne_zero {t n x : Nat} {bad : RecBlock → Bool} {own : RecBlock → List Nat}
    (h : recPrepare t v n x s bad own = .ok b) : b.n ≠ 0 := by
  cases hs : stray n [(0, 24)] with
  | true => simp [recPrepare, hs] at h
  | false =>
    cases ha : paramAt v n x 64 with
    | error f => simp [recPrepare, hs, ha] at h
    | ok a =>
      simp only [recPrepare, hs, ha, Bool.false_eq_true, if_false] at h
      generalize parseRec (memWords (s.tile t).scratch a 8) = r at h
      split at h
      · cases h
      · rename_i sound
        split at h
        · cases h
        · cases h
          simp only [Bool.or_eq_true, not_or, beq_iff_eq] at sound
          obtain ⟨⟨⟨-, records⟩, -⟩, -⟩ := sound
          exact records

/-! #### CARRY_COMPOSE (R132) -/

theorem exec_carryCompose (st : stands s t v w c) (op : opcodeOf w.toNat = 0x32) :
    exec (.carryCompose t v w) s = .next (settle t.val v c.off (composeWord t.val v w.toNat c (c.reg (xregOf w.toNat)) s)) :=
  issue_stands st (by rw [op]; decide) (by rw [ofOpcode, op]; decide)

theorem State.finishWord_compose {t : Nat} {c : Ctx} {z : EngWord} (hop : z.op = .compose b)
    (out : composeBytes v (s.tile t).scratch b z.bufs.1 = .ok bs) :
    s.finishWord t v c z = s.leaveRecord t v c z b.dest b.raise bs := by
  simp only [State.finishWord, hop, out]

/-- CARRY_COMPOSE whose X is not fetched composes what its scratchpad holds. -/
theorem compose_runs {t : Nat} (hx : b.xMode ≠ 2) (out : composeBytes v sp b [] = .ok bs) : RecordRuns t v c (.compose b) sp b bs where
  vector := rfl
  begins := fun s hsp => by
    subst hsp
    exact State.beginRec_local (b := { b with yMode := 1 }) hx (show (1 : Nat) ≠ 2 by decide)
      (by simp only [EngWord.need, EngWord.fresh, missing_of_ne hx, Option.map_none]) (congrArg (fun r => some (b, r)) out)
  finishes := fun s hsp o ho written => by
    subst hsp ho
    exact (State.finishWord_compose rfl out).trans (State.leaveRecord_go written)

/-! #### ROWSTAT_COMBINE and ROWSTAT_FINALISE (R149, R150) -/

theorem exec_rowstatCombine (st : stands s t v w c) (op : opcodeOf w.toNat = 0x33) :
    exec (.rowstatCombine t v w) s = .next (settle t.val v c.off (combineWord t.val v w.toNat c (c.reg (xregOf w.toNat)) s)) :=
  issue_stands st (by rw [op]; decide) (by rw [ofOpcode, op]; decide)

theorem exec_rowstatFinalise (st : stands s t v w c) (op : opcodeOf w.toNat = 0x34) :
    exec (.rowstatFinalise t v w) s = .next (settle t.val v c.off (finaliseWord t.val v w.toNat c (c.reg (xregOf w.toNat)) s)) :=
  issue_stands st (by rw [op]; decide) (by rw [ofOpcode, op]; decide)

/-- A ROWSTAT operation whose groups cover its result finishes by writing it, whole. -/
theorem State.finishWord_rows {t : Nat} {c : Ctx} {z : EngWord} (hop : z.op = .combine b ∨ z.op = .finalise b)
    (out : z.recordOut v (s.tile t).scratch = some (b, .ok bs)) (pos : z.pos = 0) (waits : z.waits = []) (records : b.n ≠ 0)
    (covers : bs.length ≤ b.n * z.op.recordBytes) (written : (s.writeRecord t v c z.off.toNat b.dest b.raise bs).fault = none) :
    s.finishWord t v c z =
      .go { z with pos := z.op.units, ran := true, waits := (s.writeRecord t v c z.off.toNat b.dest b.raise bs).waits }
        (s.writeRecord t v c z.off.toNat b.dest b.raise bs).s := by
  have units : z.op.units = cdiv b.n 64 := by rcases hop with hop | hop <;> rw [hop, EngOp.units]
  have left : z.left = z.op.units := by
    have at0 : z.at' = 0 := by rcases hop with hop | hop <;> simp only [EngWord.at', hop, pos]
    rw [EngWord.left, at0, Nat.sub_zero]
  have grouped : b.n ≤ cdiv b.n 64 * 64 := by unfold cdiv; omega
  have whole := State.runRecs_whole (s := s) (t := t) (c := c) out pos waits (by rw [units]; omega)
    (by rw [units, ← Nat.mul_assoc]; exact covers.trans (Nat.mul_le_mul_right _ grouped))
  have ran : s.runWord t v c z z.left = s.runRecs t v c z z.op.units := by
    rcases hop with hop | hop <;> simp only [State.runWord, hop, left]
  rw [whole] at ran
  rcases hop with hop | hop <;> simp only [State.finishWord, hop, ran, written]

theorem length_chunks_le (k : Nat) : ∀ (n : Nat) (xs : List Byte), (chunks k n xs).length ≤ n
  | 0, _ => Nat.le_refl 0
  | _ + 1, [] => Nat.zero_le _
  | n + 1, _ :: _ => Nat.succ_le_succ (length_chunks_le k n _)

theorem length_rowsOf_le (sp : Mem) (mode a n : Nat) (buf : List Byte) : (rowsOf sp mode a n buf).length ≤ n := by
  unfold rowsOf rowRecords
  split
  · exact Nat.zero_le n
  · rw [List.length_map]
    exact length_chunks_le 32 n _

/-- No more records come of a combination than its sources hold. -/
theorem length_combineRows_le {tag n : Nat} {xs ys zs : List RowStat} (h : combineRows tag xs ys = some zs) (hx : xs.length ≤ n)
    (hy : ys.length ≤ n) : zs.length ≤ n := by
  unfold combineRows at h
  split at h
  · cases h
  · split at h
    · cases h; exact hy
    · split at h
      · cases h; exact hx
      · split at h
        · cases h
          rw [List.length_zipWith]
          exact (Nat.min_le_left _ _).trans hx
        · cases h

theorem RowStat.toBytes_length (r : RowStat) : r.toBytes.length = 32 := by
  simp only [RowStat.toBytes, List.length_append, leBytes_length]

theorem Coef.toBytes_length (r : Coef) : r.toBytes.length = 16 := by
  simp only [Coef.toBytes, List.length_append, leBytes_length]

/-- Records of one length each, in a row. -/
theorem length_flatMap_le {α : Type} {f : α → List Byte} {k n : Nat} (hf : ∀ a, (f a).length = k) {xs : List α} (h : xs.length ≤ n) :
    (xs.flatMap f).length ≤ n * k := by
  simp only [List.length_flatMap, hf, List.map_const', List.sum_replicate, smul_eq_mul]
  exact Nat.mul_le_mul_right k h

/-- What a ROWSTAT operation has latched is what its source holds. -/
theorem rowsIn_heldBytes (sp : Mem) (mode a n : Nat) (buf : List Byte) :
    rowsIn mode n (heldBytes sp mode a (32 * n) buf) = rowsOf sp mode a n buf := rfl

/-- ROWSTAT_COMBINE whose sources are not fetched writes the records that pair by pair come of them. -/
theorem combine_runs {t : Nat} {zs : List RowStat} (hx : b.xMode ≠ 2) (hy : b.yMode ≠ 2) (records : b.n ≠ 0)
    (hz : combineRows b.tag (rowsOf sp b.xMode b.x b.n []) (rowsOf sp b.yMode b.y b.n []) = some zs) :
    RecordRuns t v c (.combine b) sp b (zs.flatMap RowStat.toBytes) := by
  have out : ((EngOp.combine b).begunRecord c.off sp).recordOut v sp = some (b, .ok (zs.flatMap RowStat.toBytes)) := by
    simp only [EngOp.begunRecord, EngWord.fresh, EngWord.latchRecords, EngWord.recordOut, rowsIn_heldBytes, hz]
  refine ⟨rfl, fun s hsp => ?_, fun s hsp o ho => ?_⟩
  · subst hsp
    exact State.beginRec_local hx hy
      (by simp only [EngWord.need, EngWord.fresh, missing_of_ne hx, missing_of_ne hy, Option.map_none, Option.orElse_none]) out
  · subst hsp ho
    exact State.finishWord_rows (.inl rfl) out rfl rfl records
      (length_flatMap_le RowStat.toBytes_length (length_combineRows_le hz (length_rowsOf_le ..) (length_rowsOf_le ..)))

/-- ROWSTAT_FINALISE whose source is not fetched writes the coefficients of its records. -/
theorem finalise_runs {t : Nat} (hx : b.xMode ≠ 2) (records : b.n ≠ 0)
    (sound : (rowsOf sp b.xMode b.x b.n []).all (rowOk b.tag) = true) :
    RecordRuns t v c (.finalise b) sp b ((rowsOf sp b.xMode b.x b.n []).flatMap fun r => (rowFinalise r b.rms b.eps).toBytes) := by
  have out : ((EngOp.finalise b).begunRecord c.off sp).recordOut v sp =
      some (b, .ok ((rowsOf sp b.xMode b.x b.n []).flatMap fun r => (rowFinalise r b.rms b.eps).toBytes)) :=
    congrArg some (congrArg (Prod.mk b) (if_pos sound))
  refine ⟨rfl, fun s hsp => ?_, fun s hsp o ho => ?_⟩
  · subst hsp
    exact State.beginRec_local (b := { b with yMode := 0 }) hx (show (0 : Nat) ≠ 2 by decide)
      (by simp only [EngWord.need, EngWord.fresh, missing_of_ne hx, Option.map_none]) out
  · subst hsp ho
    exact State.finishWord_rows (.inr rfl) out rfl rfl records
      (length_flatMap_le (fun r => Coef.toBytes_length _) (length_rowsOf_le ..))

end

end Sys2Proof.Machine

/-! ### The obligation on record words -/

section
open Sys2Proof Sys2Proof.Machine

/-- Settles O17: each operation is accepted by its checks' lemma, and what it writes is its `RecordRuns`. -/
theorem recordWords : Obligations.RecordWords := by
  unfold Obligations.RecordWords
  intro s t v w c st n x sp fresh ends raises
  refine ⟨fun op => ?compose, fun op => ?combine, fun op => ?finalise⟩
  case compose =>
    obtain ⟨faults, accepts⟩ := acceptRec_settles (exec_carryCompose st op)
    refine ⟨faults, fun b hb wait => ⟨accepts b hb wait nofun, fun bs hx out hw => ?_⟩⟩
    exact recordWord_ends st hw (compose_runs hx out) (accepts b hb wait nofun)
  case combine =>
    obtain ⟨faults, accepts⟩ := acceptRec_settles (exec_rowstatCombine st op)
    refine ⟨faults, fun b hb waitX waitY => ⟨accepts b hb waitX fun _ => waitY, fun zs hx hy hz hw => ?_⟩⟩
    exact recordWord_ends st hw (combine_runs hx hy (recPrepare_n_ne_zero hb) hz) (accepts b hb waitX fun _ => waitY)
  case finalise =>
    obtain ⟨faults, accepts⟩ := acceptRec_settles (exec_rowstatFinalise st op)
    refine ⟨faults, fun b hb wait => ⟨accepts b hb wait nofun, fun hx sound hw => ?_⟩⟩
    exact recordWord_ends st hw (finalise_runs hx (recPrepare_n_ne_zero hb) sound) (accepts b hb wait nofun)

end
end

section
/-!
Passes (R103 to R131, R146, R160, R177, R179): PASS and SFN_BATCH are accepted, and where the task has no other incomplete word the pass
begins on its carry record, and its completion leaves the whole run of the pass, its record or its fault.
-/
namespace Sys2Proof.Machine

/-! ### Beginning a pass (R110, R129, R130, R159) -/

/-- The word of a checked pass as the vector engine of tile `y` accepts it. -/
def VPass.word (p : VPass) (c : Ctx) (y : TileState) : EngWord := EngWord.fresh (.pass p) c.off (p.halves (c.projected y.mat))

/-- That word once the pass has begun on carry `k`, whose record came as `bs` from elsewhere. -/
def VPass.begunWord (p : VPass) (c : Ctx) (y : TileState) (k : Option Carry) (bs : List Byte) : EngWord :=
  let q := p.readConsts y.scratch
  { p.word c y with op := .pass q, begun := true, latched := latchedOf y p, pass := q.enter k, bufs := (bs, []) }

/-- A pass fetches the record of its scan alone. -/
theorem EngWord.need_pass {z : EngWord} {p : VPass} {sc : VScan} (hop : z.op = .pass p) (hs : p.scan = some sc) :
    z.need = (missing sc.carryIn (carryLen sc.lanes) z.bufs.1).map fun q => (sc.inAddr, q.1, q.2, 1) := by
  simp only [EngWord.need, hop, hs, Option.bind_some]

section
variable {s s' : State} {t : Nat} {v : Bool} {y : TileState} {c c' : Ctx} {p : VPass} {sc : VScan} {bs : List Byte}

/-- A pass without a scan begins at once. -/
theorem Runs.beginPass_plain (r : Runs s s' t v y c') (c : Ctx) (hs : p.scan = none) :
    s'.beginPass t v c' (p.word c y) p = .go (p.begunWord c y none []) s' := by
  simp only [State.beginPass, hs, r.scratch, r.latchedOf]
  rfl

/-- So does a scan that starts on no carry. -/
theorem Runs.beginPass_identity (r : Runs s s' t v y c') (c : Ctx) (hs : p.scan = some sc) (h0 : sc.carryIn = 0) :
    s'.beginPass t v c' (p.word c y) p = .go (p.begunWord c y none []) s' := by
  have reached : s'.awaits t c'.job [(sc.carryIn, sc.waitCount, sc.waitTarget)] = none :=
    State.awaits_none fun q hq hm => by
      rw [List.mem_singleton.mp hq, h0] at hm
      cases hm
  have need : (p.word c y).need = none := by
    rw [EngWord.need_pass rfl hs, missing_of_ne (by rw [h0]; decide), Option.map_none]
  simp only [State.beginPass, hs, reached, State.gather_of_need_none need, if_pos h0, r.scratch, r.latchedOf]
  rfl

/-- A scan whose count is reached, if it waits for one, begins on the record that it has gathered, if that fits. -/
theorem Runs.beginPass_record (r : Runs s s' t v y c') (c : Ctx) (hs : p.scan = some sc) (h0 : sc.carryIn ≠ 0)
    (reached : sc.carryIn = 2 → s'.countReached c'.job sc.waitCount sc.waitTarget = true)
    (gathered : State.gather t v c' 2 (p.word c y) s' = .go { p.word c y with bufs := (bs, []) } s') {k : Carry}
    (hk : k = Carry.ofBytes (heldBytes y.scratch sc.carryIn sc.inAddr (carryLen sc.lanes) bs))
    (fits : k.fits sc.op sc.fmt sc.lanes sc.tag = true) :
    s'.beginPass t v c' (p.word c y) p = .go (p.begunWord c y (some k) bs) s' := by
  have arrived : s'.awaits t c'.job [(sc.carryIn, sc.waitCount, sc.waitTarget)] = none :=
    State.awaits_none fun q hq hm => by
      rw [List.mem_singleton.mp hq] at hm ⊢
      exact reached hm
  subst hk
  simp only [State.beginPass, hs, arrived, gathered, if_neg h0, r.scratch, r.latchedOf, fits, if_true]
  rfl

/-- A record of the scratchpad needs no fetch. -/
theorem State.gather_scratch (c' c : Ctx) (hs : p.scan = some sc) (h1 : sc.carryIn = 1) :
    State.gather t v c' 2 (p.word c y) s' = .go { p.word c y with bufs := ([], []) } s' :=
  State.gather_of_need_none (by rw [EngWord.need_pass rfl hs, missing_of_ne (by rw [h1]; decide), Option.map_none])

/-- A record of this module's memory is fetched by one read. -/
theorem State.gather_here (c : Ctx) (hs : p.scan = some sc) (h2 : sc.carryIn = 2)
    (here : ∀ j, s'.job? c'.job = some j → s'.plays j (fld sc.inAddr 42 14) = true) (length : bs.length = carryLen sc.lanes)
    (read : s'.readMem c'.job .tile v sc.inAddr (carryLen sc.lanes) = (.ok bs, s')) :
    State.gather t v c' 2 (p.word c y) s' = .go { p.word c y with bufs := (bs, []) } s' := by
  have nonempty : 0 < carryLen sc.lanes := by unfold carryLen; split <;> decide
  have need : (p.word c y).need = some (sc.inAddr, 0, carryLen sc.lanes, 1) := by
    rw [EngWord.need_pass rfl hs]
    simp [missing, h2, VPass.word, EngWord.fresh, nonempty]
  refine State.gather_of_need_one need rfl (State.fetchRecord_here here read) ?_
  rw [EngWord.need_pass rfl hs, missing_of_length _ length.ge, Option.map_none]

end

/-! ### Running a pass to its end (R103, R131, R160) -/

/-- The whole run of pass `p` of word `z` on tile `y`. -/
def TileState.passRun (y : TileState) (z : EngWord) (p : VPass) : VRun :=
  Machine.passRun p (z.image y) y.streamK.toNat y.streamC.toNat y.scratch y.mat z.pass z.left

/-- The tile that a run of a pass leaves. -/
def TileState.passed (y : TileState) (r : VRun) : TileState :=
  { y with scratch := r.sp, mat := r.ms, streamC := BitVec.ofNat 128 r.acc.1 }

section
variable {s s' : State} {t : Nat} {v : Bool} {y : TileState} {c : Ctx} {z : EngWord} {p : VPass} {sc : VScan}

/-- A running pass runs on its tile as it stood before its context was set. -/
theorem Runs.runPass_eq (r : Runs s s' t v y c) (z : EngWord) (p : VPass) : s'.runPass t z p z.left =
    s'.passLeft t z (y.passRun z p) z.pass.draws (z.pass.batch + z.left) (z.pass.chain.drop z.left) := by
  simp only [State.runPass, TileState.passRun, r.image, r.streamK, r.streamC, r.scratch, r.mat]

theorem Runs.runPass_fault (r : Runs s s' t v y c) (z : EngWord) (p : VPass) :
    (s'.runPass t z p z.left).fault = if (y.passRun z p).bad then some 0x3503 else none := by
  rw [r.runPass_eq]
  rfl

/-- A run without F-3503 changes scratchpad, banks and random stream of its tile, and counts. -/
theorem Runs.runPass (r : Runs s s' t v y c) (good : (y.passRun z p).bad = false) :
    Runs s (s'.runPass t z p z.left).s t v (y.passed (y.passRun z p)) c := by
  rw [r.runPass_eq]
  simp only [State.passLeft, good, Bool.false_eq_true, if_false]
  exact (r.setMoved _ _ _).countFormats _ _

theorem Runs.countUnchanged (r : Runs s s' t v y c) (c' : Ctx) (z : EngWord) (p : VPass) :
    Runs s (s'.countUnchanged c' z p) t v y c :=
  iteInduction (motive := fun x => Runs s x t v y c) (fun _ => r) fun _ => r.bump _ _

/-- The waves of a pass are counted, and those of its evaluators take a free value. -/
theorem Runs.wordWaves_pass (r : Runs s s' t v y c) (hop : z.op = .pass p) (n : Nat) :
    Runs { s with freeCtr := (s'.wordWaves t z n).freeCtr } (s'.wordWaves t z n) t v y c := by
  simp only [State.wordWaves, hop]
  split
  · exact ((r.bump _ _).bump _ _).setFreeCtr _
  · exact (r.bump _ _).setFreeCtr _

theorem State.finishWord_pass_fault {f : Nat} (hop : z.op = .pass p) (hf : (s.runPass t z p z.left).fault = some f) :
    s.finishWord t v c z = .fault f (s.runPass t z p z.left).s := by
  simp only [State.finishWord, hop, hf]

/-- A pass that leaves no record has run when its batches have. -/
theorem State.finishWord_pass_silent (hop : z.op = .pass p) (hf : (s.runPass t z p z.left).fault = none)
    (silent : ∀ sc, p.scan = some sc → sc.carryOut = false) :
    s.finishWord t v c z = .go { (s.runPass t z p z.left).w with ran := true }
      ((s.runPass t z p z.left).s.countUnchanged c (s.runPass t z p z.left).w p) := by
  cases hs : p.scan with
  | none => simp only [State.finishWord, hop, hf, hs]
  | some sc => simp only [State.finishWord, hop, hf, hs, silent sc hs, Bool.false_eq_true, if_false]

theorem State.finishWord_pass_record (hop : z.op = .pass p) (hf : (s.runPass t z p z.left).fault = none) (hs : p.scan = some sc)
    (out : sc.carryOut = true) :
    s.finishWord t v c z = ((s.runPass t z p z.left).s.countUnchanged c (s.runPass t z p z.left).w p).leaveRecord t v c
      (s.runPass t z p z.left).w sc.outDest sc.raise (Machine.carryOut sc (s.runPass t z p z.left).w.pass.scan) := by
  simp only [State.finishWord, hop, hf, hs, out, if_true]

end

/-! ### Completion of a pass (R162) -/

section
variable {s s' : State} {t : TileId} {v : Bool} {w : BitVec 128} {y : TileState} {c : Ctx} {z : EngWord} {p : VPass} {sc : VScan}

/-- Pass `p`, alone and begun as word `z` of tile `y`, is in progress in `s'`. -/
structure PassAlone (s s' : State) (t : TileId) (v : Bool) (y : TileState) (c : Ctx) (z : EngWord) (p : VPass) : Prop where
  runs : Runs s s' t.val v y (c.only z)
  works : y.engines v = true
  op : z.op = .pass p
  begun : z.begun = true
  ran : z.ran = false
  waits : z.waits = []

theorem PassAlone.completes (h : PassAlone s s' t v y c z p) (waves : Nat) :
    exec (.engineWordComplete t v 1 waves) s' =
      .next ((s'.completeWord t.val v (c.only z) 0 z waves).beginWords t.val v) := by
  have vector : z.engine = 1 := congrArg EngOp.engine h.op
  rw [← vector]
  exact h.runs.exec_completes rfl h.works h.begun h.ran waves

/-- A pass that meets F-3503 ends its task (R160). -/
theorem PassAlone.faults (h : PassAlone s s' t v y c z p) (bad : (y.passRun z p).bad = true) (waves : Nat) :
    exec (.engineWordComplete t v 1 waves) s' = .next ((((s'.runPass t.val z p z.left).s.setEng t.val v 0
      { z with ran := true }).faultTask t.val v 0x3503 z.off.toNat).beginWords t.val v) := by
  have fault := h.runs.runPass_fault z p
  rw [bad, if_pos rfl] at fault
  rw [h.completes, State.completeWord_fault h.ran (State.finishWord_pass_fault h.op fault)]

/-- A pass without F-3503 does not fault. -/
theorem PassAlone.sound (h : PassAlone s s' t v y c z p) (good : (y.passRun z p).bad = false) :
    (s'.runPass t.val z p z.left).fault = none := by
  rw [h.runs.runPass_fault z p, good]
  rfl

/-- A pass that leaves no record leaves its whole run, without its word. -/
theorem PassAlone.ends (h : PassAlone s s' t v y c z p) (good : (y.passRun z p).bad = false)
    (silent : ∀ sc, p.scan = some sc → sc.carryOut = false) (waves : Nat) :
    leads (exec (.engineWordComplete t v 1 waves) s') fun s'' =>
      Runs { s with freeCtr := s''.freeCtr } s'' t.val v (y.passed (y.passRun z p)) { c.only z with words := [] } := by
  have finished := State.finishWord_pass_silent (v := v) (c := c.only z) h.op (h.sound good) silent
  have ran := ((h.runs.runPass good).countUnchanged (c.only z) (s'.runPass t.val z p z.left).w p).updCtx
    fun c => { c with words := c.words.eraseIdx 0 }
  have counted := ran.wordWaves_pass (z := { (s'.runPass t.val z p z.left).w with ran := true }) h.op waves
  refine ⟨_, (h.completes waves).trans ?_, counted⟩
  have waits : (s'.runPass t.val z p z.left).w.waits = [] := h.waits
  rw [State.completeWord_go h.ran finished, State.leaveWord, waits]
  exact congrArg _ (State.beginWords_none counted.ctx? rfl)

/-- A pass that leaves its carry record leaves it as the write does, and its word behind it (R131). -/
theorem PassAlone.writes (h : PassAlone s s' t v y c z p) (good : (y.passRun z p).bad = false) (hs : p.scan = some sc)
    (out : sc.carryOut = true) (waves : Nat) :
    let u := s'.runPass t.val z p z.left
    let o := (u.s.countUnchanged (c.only z) u.w p).writeRecord t.val v (c.only z) z.off.toNat sc.outDest sc.raise
      (carryOut sc (y.passRun z p).scan)
    o.fault = none → exec (.engineWordComplete t v 1 waves) s' =
      .next ((o.s.leaveWord t.val v 0 { u.w with ran := true, waits := o.waits } waves).beginWords t.val v) := by
  intro u o written
  have scanned : u.w.pass.scan = (y.passRun z p).scan := congrArg (fun u => u.w.pass.scan) (h.runs.runPass_eq z p)
  have finished := State.finishWord_pass_record (v := v) (c := c.only z) h.op (h.sound good) hs out
  rw [scanned] at finished
  rw [h.completes, State.completeWord_go h.ran (finished.trans (State.leaveRecord_go written))]
  rfl

/-- A pass that is accepted alone and begins at once is in progress after its word has issued. -/
theorem PassAlone.took (st : stands s t v w c) (hw : c.words = []) {p : VPass} {k : Option Carry} {bs : List Byte}
    (begins : (s.placed t.val v (p.word c (s.tile t.val))).beginPass t.val v (c.only (p.word c (s.tile t.val))) (p.word c (s.tile t.val)) p =
      .go (p.begunWord c (s.tile t.val) k bs) (s.placed t.val v (p.word c (s.tile t.val)))) :
    PassAlone s (s.took t.val v (p.word c (s.tile t.val))) t v (s.tile t.val) c (p.begunWord c (s.tile t.val) k bs)
      (p.readConsts (s.tile t.val).scratch) :=
  ⟨Runs.took st hw rfl begins, engines_of_stands st, rfl, rfl, rfl, rfl⟩

/-! ### Acceptance (R177, R179) -/

theorem exec_pass (st : stands s t v w c) (op : opcodeOf w.toNat = 0x30) :
    exec (.pass t v w) s = .next (settle t.val v c.off (passWord t.val v w.toNat c (c.reg (xregOf w.toNat)) s)) :=
  issue_stands st (by rw [op]; decide) (by rw [ofOpcode, op]; decide)

/-- PASS whose checks pass is accepted. -/
theorem exec_pass_accepted (st : stands s t v w c) (op : opcodeOf w.toNat = 0x30) {a : Nat}
    (hs : stray w.toNat [(0, 24), (106, 4), (102, 4)] = false) (ha : paramAt v w.toNat (c.reg (xregOf w.toNat)) 320 = .ok a)
    (hp : passPrepare v (memWords (s.tile t.val).scratch a 40) (c.reg (fld w.toNat 106 4)) (c.reg (fld w.toNat 102 4))
      (c.projected (s.tile t.val).mat) (s.tile t.val).slotImage = .ok p)
    (hu : (s.undeclared t.val v c && p.usesAcc) = false)
    (hf : (p.scan.bind fun sc => s.waitFault c.job sc.carryIn sc.waitCount) = none) :
    exec (.pass t v w) s = .next (s.took t.val v (p.word c (s.tile t.val))) := by
  rw [exec_pass st op]
  simp only [passWord, hs, ha, hp, hu, hf, Bool.false_eq_true, if_false, acceptPass, settle_accepted, VPass.word]

theorem exec_sfnBatch (st : stands s t v w c) (op : opcodeOf w.toNat = 0x31) :
    exec (.sfnBatch t v w) s = .next (settle t.val v c.off (sfnBatchWord t.val v w.toNat c (c.reg (xregOf w.toNat)) s)) :=
  issue_stands st (by rw [op]; decide) (by rw [ofOpcode, op]; decide)

/-- SFN_BATCH whose checks pass is accepted. -/
theorem exec_sfnBatch_accepted (st : stands s t v w c) (op : opcodeOf w.toNat = 0x31)
    (hp : sfnBatchPrepare v w.toNat (c.reg (xregOf w.toNat)) (c.projected (s.tile t.val).mat) (s.tile t.val).slotImage = .ok p) :
    exec (.sfnBatch t v w) s = .next (s.took t.val v (p.word c (s.tile t.val))) := by
  rw [exec_sfnBatch st op]
  simp only [sfnBatchWord, hp, acceptPass, settle_accepted, VPass.word]

end

end Sys2Proof.Machine

/-! ### The obligation on passes -/

section
open Sys2Proof Sys2Proof.Machine

/-- Settles O16: each form of carry-in has its lemma on how the pass begins; what the begun pass then comes to is `PassAlone`'s. -/
theorem passWords : Obligations.PassWords := by
  unfold Obligations.PassWords
  intro s t v w c st n y fresh begun ends
  have ends_of (i : Instr) (p : VPass) (k : Option Carry) (bs : List Byte) (issues : exec i s = .next (s.took t.val v (fresh p)))
      (begins : ∀ r : Runs s (s.placed t.val v (fresh p)) t.val v y (c.only (fresh p)),
        (s.placed t.val v (fresh p)).beginPass t.val v (c.only (fresh p)) (fresh p) p = .go (begun p k bs) (s.placed t.val v (fresh p))) :
      ends i p k bs := by
    intro hw waves
    have h := PassAlone.took st hw (begins (Runs.placed st hw _))
    refine ⟨_, issues, h.runs.ctx?, h.runs.mem, fun bad => h.faults bad waves, fun good silent => ?_,
      fun sc good hs out => h.writes good hs out waves⟩
    obtain ⟨s', completes, r⟩ := h.ends good silent waves
    rw [Ctx.only_emptied hw] at r
    exact ⟨s', completes, r.others, r.tile⟩
  refine ⟨fun a p op hs ha hp hu hf => ?pass, fun p op hp => ?sfnBatch⟩
  case pass =>
    have issues := exec_pass_accepted st op hs ha hp hu hf
    refine ⟨issues, fun hs => ends_of _ p _ _ issues fun r => r.beginPass_plain c hs,
      fun sc hs h0 => ends_of _ p _ _ issues fun r => r.beginPass_identity c hs h0,
      fun sc k hs h1 hk fits => ends_of _ p _ _ issues fun r => ?scratch,
      fun sc k bs hs h2 reached here length read hk fits => ends_of _ p _ _ issues fun r => ?here⟩
    case scratch =>
      exact r.beginPass_record c hs (by rw [h1]; decide) (by rw [h1]; nofun) (State.gather_scratch _ c hs h1)
        (by rw [h1]; exact hk) fits
    case here =>
      refine r.beginPass_record c hs (by rw [h2]; decide) (fun _ => (r.countReached ..).trans reached)
        (State.gather_here c hs h2 (fun j hj => (r.plays ..).trans (here j ((r.job? _).symm.trans hj))) length read)
        (by rw [h2]; exact hk) fits
  case sfnBatch =>
    have issues := exec_sfnBatch_accepted st op hp
    exact ⟨issues, fun hs => ends_of _ p _ _ issues fun r => r.beginPass_plain c hs⟩

end
end

section
/-!
Instar loads (R158, R159, R181): INSTAR_LOAD of a legal address is accepted, and where the task has no other incomplete word and no pass
holds the slot's other generation, a correct image is read as the word begins and made current. Before that stand the rules of a slot and
its generations, and that reading memory does not depend on control states.
-/
namespace Sys2Proof.Machine

/-! ### Slots and generations (R158) -/

/-- The slot that a load of a correct image leaves. -/
def InstarSlot.load (x : InstarSlot) (bs : List Byte) : InstarSlot := { x.write bs with cur := !x.cur }

section
variable (x : InstarSlot) (bs : List Byte)

@[simp] theorem InstarSlot.load_cur : (x.load bs).cur = !x.cur := rfl

/-- A load writes the generation that was not current. -/
@[simp] theorem InstarSlot.load_gen_not_cur : (x.load bs).gen (!x.cur) = bs := by
  obtain ⟨gen0, gen1, cur⟩ := x
  cases cur <;> rfl

/-- It keeps the one that was. -/
@[simp] theorem InstarSlot.load_gen_cur : (x.load bs).gen x.cur = x.gen x.cur := by
  obtain ⟨gen0, gen1, cur⟩ := x
  cases cur <;> rfl

end

section
variable {y : TileState} {v : Bool} {c : Ctx} {i : Nat} {g : Bool}

@[simp] theorem TileState.setSlot_slot (y : TileState) (i : Nat) (x : InstarSlot) : (y.setSlot i x).slot i = x :=
  Sp.get_put_self y.slots i x

@[simp] theorem TileState.running_slot (y : TileState) (v : Bool) (c : Ctx) (i : Nat) : (y.running v c).slot i = y.slot i := by
  cases v <;> rfl

/-- The slots are no part of a control state. -/
theorem TileState.running_setSlot (y : TileState) (v : Bool) (c : Ctx) (i : Nat) (x : InstarSlot) :
    (y.running v c).setSlot i x = (y.setSlot i x).running v c := by
  cases v <;> rfl

/-- A generation that no pass of a tile holds is not held once a task of the tile has only words that latch nothing. -/
theorem TileState.running_not_holdsGen (noon : holdsGen y.noon i g = false) (vesper : holdsGen y.vesper i g = false)
    (none_latched : ∀ z ∈ c.words, z.latched = []) :
    holdsGen (y.running v c).noon i g = false ∧ holdsGen (y.running v c).vesper i g = false := by
  have own : holdsGen (some c) i g = false :=
    List.any_eq_false.mpr fun z hz => by simp [none_latched z hz]
  cases v
  · exact ⟨own, vesper⟩
  · exact ⟨noon, own⟩

end

/-! ### Memory beside a running task (R194, R203) -/

section
variable {s s' : State} {t : Nat} {v : Bool} {y : TileState} {c : Ctx}

theorem Runs.translate (h : Runs s s' t v y c) (job : BitVec 16) (o : Origin) (k : Access) (v' : Bool) (a : Nat) :
    s'.translate job o k v' a = s.translate job o k v' a :=
  h.others.read (·.translate job o k v' a) fun _ _ _ => rfl

theorem Runs.places (h : Runs s s' t v y c) (job : BitVec 16) (o : Origin) (k : Access) (v' : Bool) (a n : Nat) :
    s'.places job o k v' a n = s.places job o k v' a n := by
  induction n generalizing a with
  | zero => rfl
  | succ n ih => rw [State.places, State.places, h.translate, ih]

theorem Runs.poisonAt (h : Runs s s' t v y c) : s'.poisonAt = s.poisonAt := by
  funext p
  cases p with
  | dram k => simp only [State.poisonAt, h.mem]
  | scratch u off => rfl

/-- A task that runs on a tile with its scratchpad as it was leaves every byte of the machine as it was. -/
theorem Runs.byteAt (h : Runs s s' t v y c) (hy : y.scratch = (s.tile t).scratch) : s'.byteAt = s.byteAt := by
  funext p
  cases p with
  | dram k => simp only [State.byteAt, h.mem]
  | scratch u off =>
    obtain ⟨-, others⟩ := h.others
    by_cases hu : u = t
    · simp only [State.byteAt, hu, h.scratch, hy]
    · simp only [State.byteAt, others u hu]

/-- What can be read beside it reads the same, and reading it changes nothing. -/
theorem Runs.readMem_ok (h : Runs s s' t v y c) (hy : y.scratch = (s.tile t).scratch) {job : BitVec 16} {o : Origin} {v' : Bool}
    {a n : Nat} {bs : List Byte} (read : (s.readMem job o v' a n).1 = .ok bs) : s'.readMem job o v' a n = (.ok bs, s') := by
  apply State.readMem_ok
  rw [← read, State.readMem, State.readMem, h.places]
  cases s.places job o .read v' a n with
  | error f => rfl
  | ok ps =>
    have bad : s'.badOf ps = s.badOf ps := by rw [State.badOf, State.badOf, h.poisonAt]
    simp only [State.readPlaces, bad, h.byteAt hy]
    cases s.badOf ps <;> rfl

end

/-! ### INSTAR_LOAD (R158, R159, R181) -/

section
variable {s s' : State} {t : TileId} {v : Bool} {w : BitVec 128} {y : TileState} {c : Ctx} {z : EngWord} {i a : Nat} {h bs : List Byte}

theorem exec_instarLoad (st : stands s t v w c) (op : opcodeOf w.toNat = 0x35) :
    exec (.instarLoad t v w) s = .next (settle t.val v c.off (instarLoadWord w.toNat c (c.reg (xregOf w.toNat)) s)) :=
  issue_stands st (by rw [op]; decide) (by rw [ofOpcode, op]; decide)

/-- INSTAR_LOAD of a legal address is accepted. -/
theorem exec_instarLoad_accepted (st : stands s t v w c) (op : opcodeOf w.toNat = 0x35) (zeros : fld w.toNat 67 43 = 0)
    (ha : a = (fld w.toNat 0 64 + c.reg (xregOf w.toNat)) % 2 ^ 64) (aligned : a % 16 = 0) (space : a / 2 ^ 56 ≤ 1) :
    exec (.instarLoad t v w) s =
      .next (s.took t.val v (EngWord.fresh (.instar (fld w.toNat 64 3) a) c.off (false, false))) := by
  have legal : ¬(a % 16 ≠ 0 ∨ a / 2 ^ 56 > 1) := by omega
  subst ha
  rw [exec_instarLoad st op]
  simp only [instarLoadWord, zeros, ne_eq, not_true_eq_false, if_false, if_neg legal, settle_accepted]

/-- A load beside which no pass holds the generation reads a correct image and makes it current at once. -/
theorem Runs.beginLoad (r : Runs s s' t.val v y c) (noon : holdsGen y.noon i (!(y.slot i).cur) = false)
    (vesper : holdsGen y.vesper i (!(y.slot i).cur) = false) (none_latched : ∀ e ∈ c.words, e.latched = [])
    (head : s'.readMem c.job .tile v a 32 = (.ok h, s')) (fits : instarLen (leNat (h.take 8)) ≤ 12288)
    (body : s'.readMem c.job .tile v a (instarLen (leNat (h.take 8))) = (.ok bs, s')) (ok : instarOk bs = true) :
    s'.beginLoad t.val v c z i a = .go { z with begun := true, ran := true }
      (s'.setTile t.val ((y.setSlot i ((y.slot i).load bs)).running v c)) := by
  obtain ⟨freeNoon, freeVesper⟩ := TileState.running_not_holdsGen (v := v) noon vesper none_latched
  simp only [State.beginLoad, r.tile, TileState.running_slot, freeNoon, freeVesper, head, body, ok, if_neg (Nat.not_lt.mpr fits),
    Bool.and_false, Bool.or_false, Bool.false_eq_true, if_false, if_true, InstarSlot.load,
    ← TileState.running_setSlot]

end

end Sys2Proof.Machine

/-! ### The obligation on Instar loads -/

section
open Sys2Proof Sys2Proof.Machine

/-- Settles O18: the load is accepted by its checks' lemma, and alone it begins on the image as it stood before the word was accepted. -/
theorem instarLoad : Obligations.InstarLoad := by
  unfold Obligations.InstarLoad
  intro s t v w c st n a i y sl z op zeros aligned space
  have issues : exec (.instarLoad t v w) s = .next (s.took t.val v z) := exec_instarLoad_accepted st op zeros rfl aligned space
  refine ⟨issues, fun bs hw noon vesper ⟨h, head, fits, body⟩ ok => ?_⟩
  have placed := Runs.placed st hw z
  have begins : (s.placed t.val v z).beginWord t.val v (c.only z) z = .go { z with begun := true, ran := true }
      ((s.placed t.val v z).setTile t.val ((y.setSlot i (sl.load bs)).running v (c.only z))) :=
    placed.beginLoad noon vesper (fun e he => by rw [List.mem_singleton.mp he]; rfl)
      (placed.readMem_ok rfl head) fits (placed.readMem_ok rfl body) ok
  have took : s.took t.val v z = _ := placed.beginWords rfl rfl (engines_of_stands st) begins
  have loaded := (placed.setTile (y.setSlot i (sl.load bs)) (c.only z)).setEng rfl { z with begun := true, ran := true }
  rw [← took] at loaded
  refine ⟨_, issues, loaded.others, (congrArg State.stat took).trans rfl, loaded.ctx?, ?_⟩
  intro q
  have slot : q = sl.load bs := by
    simp only [q, loaded.tile, TileState.running_slot, TileState.setSlot_slot]
  simp [slot]

end
end

section
/-!
Scalar registers and control words (R161, R163, R165, R168, R173, R186): what a scalar register reads after a write, what a task starts
with, and what NOP, SET, ALU, BRANCH and LOOP write; every fault of a control word has its code.
-/
namespace Sys2Proof.Machine

/-! ### Scalar registers (R165) -/

section
variable (c : Ctx)

@[simp] theorem Ctx.reg_zero : c.reg 0 = 0 := rfl

@[simp] theorem Ctx.setReg_zero (x : Nat) : c.setReg 0 x = c := rfl

theorem Ctx.reg_lt (i : Nat) : c.reg i < 2 ^ 64 := by
  unfold Ctx.reg
  split
  · decide
  · exact BitVec.isLt _

/-- A register other than S0 reads what was written, modulo its width. -/
theorem Ctx.reg_setReg_self {i : Nat} (hi : i ≠ 0) (x : Nat) : (c.setReg i x).reg i = x % 2 ^ 64 := by
  simp only [Ctx.setReg, Ctx.reg, if_neg hi, Sp.get_put_self, BitVec.toNat_ofNat]

theorem Ctx.reg_setReg_ne {i k : Nat} (h : k ≠ i) (x : Nat) : (c.setReg i x).reg k = c.reg k := by
  unfold Ctx.setReg
  split
  · rfl
  · simp only [Ctx.reg, Sp.get_put_ne _ _ h]

/-- The two classes have control states of their own. -/
theorem State.ctx?_updCtx_not (s : State) (t : Nat) (v : Bool) (f : Ctx → Ctx) : (s.updCtx t v f).ctx? t (!v) = s.ctx? t (!v) := by
  rw [State.ctx?, State.updCtx, State.tile_setTile_self, TileState.ctx_not_setCtx, State.ctx?]

end

/-- A field reads below the power of two of its width. -/
theorem fld_lt (w lo len : Nat) : fld w lo len < 2 ^ len := Nat.mod_lt _ (Nat.two_pow_pos len)

/-- A task starts at its PROGRAM with ARGS, TASK_INDEX, HOME_TILE and its tile in S1 to S4, and the other registers zero. -/
theorem Ctx.start_regs (d : Desc) (job : BitVec 16) {t : Nat} (ht : t < 2 ^ 64) :
    let c := Ctx.start d job t
    c.pos = d.w1 ∧ c.reg 1 = d.w2.toNat ∧ c.reg 2 = d.index ∧ c.reg 3 = d.home ∧ c.reg 4 = t ∧ ∀ i, 5 ≤ i → i ≤ 15 → c.reg i = 0 := by
  have index : d.index < 2 ^ 64 := (fld_lt _ _ _).trans (by decide)
  have home : d.home < 2 ^ 64 := (fld_lt _ _ _).trans (by decide)
  refine ⟨rfl, ?_, ?_, ?_, ?_, fun i low _ => ?_⟩
  · simp [Ctx.start, Ctx.reg, Sp.get_put_ne]
  · simpa [Ctx.start, Ctx.reg, Sp.get_put_ne] using index
  · simpa [Ctx.start, Ctx.reg, Sp.get_put_ne] using home
  · simpa [Ctx.start, Ctx.reg] using ht
  · have nonzero : i ≠ 0 := by omega
    simp only [Ctx.start, Ctx.reg, if_neg nonzero]
    rw [Sp.get_put_ne _ _ (by omega), Sp.get_put_ne _ _ (by omega), Sp.get_put_ne _ _ (by omega), Sp.get_put_ne _ _ (by omega)]
    rfl

/-! ### Control words (R173) -/

section
variable {s : State} {t : TileId} {v : Bool} {w : BitVec 128} {c : Ctx}

/-! A control word that stands at its task's position issues: its result settles. -/

theorem exec_nop (st : stands s t v w c) (op : opcodeOf w.toNat = 0x00) :
    exec (.nop t v w) s = .next (settle t.val v c.off (nopWord w.toNat c (c.reg (xregOf w.toNat)) s)) :=
  issue_stands st (by rw [op]; decide) (by rw [ofOpcode, op]; decide)

theorem exec_set (st : stands s t v w c) (op : opcodeOf w.toNat = 0x02) :
    exec (.set t v w) s = .next (settle t.val v c.off (setWord t.val v w.toNat c (c.reg (xregOf w.toNat)) s)) :=
  issue_stands st (by rw [op]; decide) (by rw [ofOpcode, op]; decide)

theorem exec_alu (st : stands s t v w c) (op : opcodeOf w.toNat = 0x03) :
    exec (.alu t v w) s = .next (settle t.val v c.off (aluWord t.val v w.toNat c (c.reg (xregOf w.toNat)) s)) :=
  issue_stands st (by rw [op]; decide) (by rw [ofOpcode, op]; decide)

theorem exec_branch (st : stands s t v w c) (op : opcodeOf w.toNat = 0x04) :
    exec (.branch t v w) s = .next (settle t.val v c.off (branchWord w.toNat c (c.reg (xregOf w.toNat)) s)) :=
  issue_stands st (by rw [op]; decide) (by rw [ofOpcode, op]; decide)

theorem exec_loop (st : stands s t v w c) (op : opcodeOf w.toNat = 0x05) :
    exec (.loop t v w) s = .next (settle t.val v c.off (loopWord t.val v w.toNat c (c.reg (xregOf w.toNat)) s)) :=
  issue_stands st (by rw [op]; decide) (by rw [ofOpcode, op]; decide)

theorem exec_loadS (st : stands s t v w c) (op : opcodeOf w.toNat = 0x06) :
    exec (.loadS t v w) s = .next (settle t.val v c.off (loadWord t.val v w.toNat c (c.reg (xregOf w.toNat)) s)) :=
  issue_stands st (by rw [op]; decide) (by rw [ofOpcode, op]; decide)

theorem exec_storeS (st : stands s t v w c) (op : opcodeOf w.toNat = 0x07) :
    exec (.storeS t v w) s = .next (settle t.val v c.off (storeWord t.val v w.toNat c (c.reg (xregOf w.toNat)) s)) :=
  issue_stands st (by rw [op]; decide) (by rw [ofOpcode, op]; decide)

/-! #### How a word leaves its context -/

/-- The task of a word that stands has a control state. -/
theorem ctx?_of_stands (st : stands s t v w c) : s.ctx? t.val v = some c := by
  obtain ⟨running, -⟩ := st
  exact running

/-- A word that is done leaves its context at the next word. -/
theorem onlyCtx_ok (st : stands s t v w c) (off : Nat) : onlyCtx s (settle t.val v off (.ok s)) t.val v c.next :=
  onlyCtx_issued (ctx?_of_stands st) fun c => { c with pos := c.pos + 16 }

/-- A word that writes a register leaves its context at the next word, with the register written. -/
theorem onlyCtx_setReg (st : stands s t v w c) (off i x : Nat) :
    onlyCtx s (settle t.val v off (.ok (s.setReg t.val v i x))) t.val v (c.setReg i x).next :=
  onlyCtx_issued₂ (ctx?_of_stands st) (fun c => c.setReg i x) fun c => { c with pos := c.pos + 16 }

/-- A word that moves the position leaves its context there. -/
theorem onlyCtx_goto (st : stands s t v w c) (off : Nat) (p : W64) : onlyCtx s (settle t.val v off (.goto p s)) t.val v (c.goto p) :=
  onlyCtx_issued (ctx?_of_stands st) fun c => { c with pos := p }

/-- A word that writes a register and moves the position leaves its context there, with the register written. -/
theorem onlyCtx_setReg_goto (st : stands s t v w c) (off i x : Nat) (p : W64) :
    onlyCtx s (settle t.val v off (.goto p (s.setReg t.val v i x))) t.val v ((c.setReg i x).goto p) :=
  onlyCtx_issued₂ (ctx?_of_stands st) (fun c => c.setReg i x) fun c => { c with pos := p }

/-! #### What each word does and raises (Table 07-5, R186) -/

variable {x n : Nat}

theorem aluWord_of_some {r : Nat} (hs : stray n [(106, 4), (102, 4), (98, 4), (94, 4), (93, 1), (0, 48)] = false)
    (hr : aluOp (fld n 94 4) (c.reg (fld n 102 4)) (second c n) = some r) :
    aluWord t.val v n c x s = .ok (s.setReg t.val v (fld n 106 4) r) := by
  simp only [aluWord, hs, hr, Bool.false_eq_true, if_false]

/-- ALU raises F-3602 for a stray bit and for a reserved operation. -/
theorem aluWord_fault (h : stray n [(106, 4), (102, 4), (98, 4), (94, 4), (93, 1), (0, 48)] = true ∨
    aluOp (fld n 94 4) (c.reg (fld n 102 4)) (second c n) = none) : aluWord t.val v n c x s = .fault 0x3602 s := by
  unfold aluWord
  split
  · rfl
  · next clean => rw [h.resolve_left clean]

theorem branchWord_of_some {b : Bool} (hs : stray n [(102, 4), (98, 4), (94, 4), (93, 1), (64, 24), (0, 48)] = false)
    (hb : branchCond (fld n 94 4) (c.reg (fld n 102 4)) (second c n) = some b) :
    branchWord n c x s = if b then .goto (dispTo c n) s else .ok s := by
  simp only [branchWord, hs, hb, Bool.false_eq_true, if_false]
  cases b <;> rfl

/-- BRANCH raises F-3602 for a stray bit and for a reserved condition. -/
theorem branchWord_fault (h : stray n [(102, 4), (98, 4), (94, 4), (93, 1), (64, 24), (0, 48)] = true ∨
    branchCond (fld n 94 4) (c.reg (fld n 102 4)) (second c n) = none) : branchWord n c x s = .fault 0x3602 s := by
  unfold branchWord
  split
  · rfl
  · next clean => rw [h.resolve_left clean]

/-- LOOP's register falls by one before it is tested. -/
theorem loopWord_of_reg (hs : stray n [(102, 4), (64, 24)] = false) (ha : fld n 102 4 ≠ 0) :
    loopWord t.val v n c x s =
      let r := (c.reg (fld n 102 4) + 2 ^ 64 - 1) % 2 ^ 64
      if r = 0 then .ok (s.setReg t.val v (fld n 102 4) r) else .goto (dispTo c n) (s.setReg t.val v (fld n 102 4) r) := by
  simp only [loopWord, hs, beq_eq_false_iff_ne.mpr ha, Bool.or_self, Bool.false_eq_true, if_false]

/-- LOOP raises F-3602 for a stray bit and where it names S0. -/
theorem loopWord_fault (h : stray n [(102, 4), (64, 24)] = true ∨ fld n 102 4 = 0) : loopWord t.val v n c x s = .fault 0x3602 s := by
  have bad : (stray n [(102, 4), (64, 24)] || fld n 102 4 == 0) = true := by rcases h with h | h <;> simp [h]
  simp only [loopWord, bad, if_true]

/-- END raises F-3602 for a stray bit. -/
theorem endWord_stray {waves : Nat} (hs : stray n [] = true) : endWord t.val v n waves c x s = .fault 0x3602 s := by
  rw [endWord, hs, if_pos rfl]

end

end Sys2Proof.Machine

/-! ### The obligations on scalar registers and control words -/

section
open Sys2Proof Sys2Proof.Machine

/-- Settles O10: registers are a sparse map beside S0, contexts of the two classes are two fields of a tile, and a started task's control
state is `Ctx.start`. -/
theorem scalarRegisters : Obligations.ScalarRegisters := by
  unfold Obligations.ScalarRegisters
  refine ⟨fun c => ⟨c.reg_zero, c.setReg_zero, fun i x hi hx => ?_, fun i k x h => c.reg_setReg_ne h x, fun i => c.reg_lt i.val⟩,
    fun s t v f => s.ctx?_updCtx_not t v f, fun s t v d p hp => ?_⟩
  · rw [c.reg_setReg_self hi, Nat.mod_eq_of_lt hx]
  · obtain ⟨pos, s1, s2, s3, s4, rest⟩ := Ctx.start_regs d p.job (t := t.val) (t.isLt.trans (by decide))
    rw [State.startTask_eq hp t.val v]
    simp only [State.ctx?, State.tile_setTile_self]
    exact ⟨_, TileState.take_ctx _ _ _ _, pos, s1, s2, s3, s4, rest, TileState.take_ctx_not _ _ _ _⟩

/-- Settles O11: each word's meaning has its lemma, and how it settles leaves its context alone changed; an unknown opcode is refused
before any meaning. -/
theorem controlWords : Obligations.ControlWords := by
  unfold Obligations.ControlWords
  refine ⟨fun s t v w c st => ⟨fun op hs => ?nop, fun op hs => ?set, fun r op hs hr => ?alu, fun b op hs hb => ?branch,
    fun op hs ha => ?loop⟩, fun s t v w c waves st => ⟨fun op hs => ?nopBad, fun op hs => ?endBad, fun op hs => ?setBad,
    fun op h => ?aluBad, fun op h => ?branchBad, fun op h => ?loopBad, fun op hs => ?loadBad, fun op hs => ?storeBad,
    fun op => ?unknown⟩⟩
  case nop =>
    refine ⟨_, exec_nop st op, ?_⟩
    rw [nopWord, hs]
    exact onlyCtx_ok st _
  case set =>
    refine ⟨_, exec_set st op, ?_⟩
    rw [setWord, hs]
    exact onlyCtx_setReg st _ _ _
  case alu =>
    refine ⟨_, exec_alu st op, ?_⟩
    rw [aluWord_of_some hs hr]
    exact onlyCtx_setReg st _ _ _
  case branch =>
    refine ⟨_, exec_branch st op, ?_⟩
    rw [branchWord_of_some hs hb]
    cases b
    · exact onlyCtx_ok st _
    · exact onlyCtx_goto st _ _
  case loop =>
    refine ⟨_, exec_loop st op, ?_⟩
    rw [loopWord_of_reg hs ha]
    dsimp only
    split
    · exact onlyCtx_setReg st _ _ _
    · exact onlyCtx_setReg_goto st _ _ _ _
  case nopBad => exact (exec_nop st op).trans (by rw [nopWord, hs]; rfl)
  case endBad => exact (exec_endTask st op).trans (by rw [endWord_stray hs]; rfl)
  case setBad => exact (exec_set st op).trans (by rw [setWord, hs]; rfl)
  case aluBad => exact (exec_alu st op).trans (by rw [aluWord_fault h]; rfl)
  case branchBad => exact (exec_branch st op).trans (by rw [branchWord_fault h]; rfl)
  case loopBad => exact (exec_loop st op).trans (by rw [loopWord_fault h]; rfl)
  case loadBad => exact (exec_loadS st op).trans (by rw [loadWord, hs]; rfl)
  case storeBad => exact (exec_storeS st op).trans (by rw [storeWord, hs]; rfl)
  case unknown =>
    intro i hi
    simp only [List.mem_cons, List.not_mem_nil, or_false] at hi
    rcases hi with rfl | rfl | rfl | rfl | rfl | rfl | rfl | rfl <;> exact issue_unknown st op

end
end

section
/-!
Accesses of scalar words (R7, R166, R173, R187, R202, R203, R207, R208): what LOAD_S and STORE_S read, write and leave alone. Before
that stands what a write to places, and what control states do to the bytes of the machine.
-/
namespace Sys2Proof.Machine

/-! ### Memories that hold the same bytes -/

/-- Stacked memory and every scratchpad hold the same. -/
structure SameStore (s s' : State) : Prop where
  dram : s'.mem.dram = s.mem.dram
  scratch : ∀ u, (s'.tile u).scratch = (s.tile u).scratch

section
variable {s s' s'' : State} {t : Nat}

theorem SameStore.refl (s : State) : SameStore s s := ⟨rfl, fun _ => rfl⟩

theorem SameStore.trans (h : SameStore s s') (h' : SameStore s' s'') : SameStore s s'' :=
  ⟨h'.dram.trans h.dram, fun u => (h'.scratch u).trans (h.scratch u)⟩

theorem SameStore.byteAt (h : SameStore s s') (q : Place) : s'.byteAt q = s.byteAt q := by
  cases q with
  | dram k => exact congrArg (Mem.get · k) h.dram
  | scratch u off => exact congrArg (Mem.get · off) (h.scratch u)

/-- A tile replaced by one of the same scratchpad. -/
theorem SameStore.setTile (s : State) {x : TileState} (h : x.scratch = (s.tile t).scratch) : SameStore s (s.setTile t x) := by
  refine ⟨rfl, fun u => ?_⟩
  by_cases hu : u = t
  · subst hu
    rw [State.tile_setTile_self, h]
  · rw [State.tile_setTile_ne s x hu]

/-- A control state holds no byte. -/
theorem SameStore.updCtx (s : State) (t : Nat) (v : Bool) (f : Ctx → Ctx) : SameStore s (s.updCtx t v f) :=
  SameStore.setTile s (TileState.setCtx_scratch _ _ _)

theorem SameStore.advance (s : State) (t : Nat) (v : Bool) : SameStore s (s.advance t v) :=
  (SameStore.updCtx s t v _).trans (SameStore.setTile _ rfl)

end

/-! ### Bytes at places (R194, R195, R203) -/

section
variable (s : State)

/-- A byte written at one place is no byte of another. -/
theorem State.byteAt_putByte_ne {p q : Place} (b : Byte) (h : q ≠ p) : (s.putByte p b).byteAt q = s.byteAt q := by
  cases p with
  | dram k =>
    cases q with
    | dram k' => exact Mem.get_set_ne _ _ fun e => h (e ▸ rfl)
    | scratch u off => rfl
  | scratch t a =>
    cases q with
    | dram k => rfl
    | scratch u off =>
      by_cases hu : u = t
      · subst hu
        simp only [State.byteAt, State.putByte, State.tile_setTile_self]
        exact Mem.get_set_ne _ _ fun e => h (e ▸ rfl)
      · simp only [State.byteAt, State.putByte, State.tile_setTile_ne _ _ hu]

/-- Steps none of which changes a byte leave it as it was. -/
theorem State.byteAt_foldl {α : Type} {f : State → α → State} {xs : List α} {q : Place}
    (h : ∀ z, ∀ x ∈ xs, (f z x).byteAt q = z.byteAt q) : (xs.foldl f s).byteAt q = s.byteAt q :=
  List.foldlRecOn (motive := fun z => z.byteAt q = s.byteAt q) xs f rfl fun z kept x hx => (h z x hx).trans kept

/-- Bytes written one after the other leave every place but theirs as it was. -/
theorem State.byteAt_putBytes_ne {q : Place} {ws : List (Place × Byte)} (h : ∀ x ∈ ws, q ≠ x.1) :
    (ws.foldl (fun (s : State) x => s.putByte x.1 x.2) s).byteAt q = s.byteAt q :=
  s.byteAt_foldl fun z x hx => z.byteAt_putByte_ne x.2 (h x hx)

/-- A request that meets no fault has written at its places only. -/
theorem State.byteAt_writePlaces {q : Place} {ws : List (Place × Byte)} {finder : Nat} (ok : (s.writePlaces ws finder).1 = none)
    (h : ∀ x ∈ ws, q ≠ x.1) : (s.writePlaces ws finder).2.byteAt q = s.byteAt q := by
  unfold State.writePlaces at *
  dsimp only at *
  split at ok
  · refine (State.byteAt_foldl _ fun z x _ => ?_).trans (s.byteAt_putBytes_ne fun x hx => h x (List.mem_of_mem_filter hx))
    split
    · cases q <;> rfl
    · rfl
  · cases ok

/-- A write at a global address that meets no fault has written at the places that the address translates to, only. -/
theorem State.byteAt_writeMem {job : BitVec 16} {o : Origin} {v : Bool} {a : Nat} {bs : List Byte} {ps : List Place} {q : Place}
    (hp : s.places job o .write v a bs.length = .ok ps) (ok : (s.writeMem job o v a bs).1 = none) (h : q ∉ ps) :
    (s.writeMem job o v a bs).2.byteAt q = s.byteAt q := by
  simp only [State.writeMem, hp] at *
  exact s.byteAt_writePlaces ok fun x hx e => h (e ▸ (List.of_mem_zip hx).1)

end

/-! ### LOAD_S (R173, R187, R9) -/

section
variable {s : State} {t n x a : Nat} {v : Bool} {c : Ctx} (hs : stray n [(106, 4), (93, 1), (0, 64)] = false)
include hs

/-- LOAD_S of the scratchpad reads 8 bytes at its offset. -/
theorem loadWord_scratch (ha : scalarAddr v false n x = .ok (true, a)) :
    loadWord t v n c x s = .ok (s.setReg t v (fld n 106 4) (leNat (Mem.bytes (s.tile t).scratch a 8))) := by
  simp only [loadWord, hs, ha, Bool.false_eq_true, if_false]

variable (ha : scalarAddr v false n x = .ok (false, a))
include ha

/-- LOAD_S of a memory space reads through translation. -/
theorem loadWord_memory {bs : List Byte} (space : fld a 56 8 ≠ 2) (read : (s.readMem c.job .tile v a 8).1 = .ok bs) :
    loadWord t v n c x s = .ok (s.setReg t v (fld n 106 4) (leNat bs)) := by
  simp only [loadWord, hs, ha, if_neg space, State.readMem_ok read, Bool.false_eq_true, if_false]

/-- LOAD_S of the status space reads this module's word. -/
theorem loadWord_status (space : fld a 56 8 = 2) (device : fld a 42 14 < 14641 ∨ fld a 42 14 = 0x3FFF)
    (own : s.refLocal c.job (fld a 42 14 * 2 ^ 12) = true) :
    loadWord t v n c x s = .ok (s.setReg t v (fld n 106 4) (s.readStatus false (fld a 0 42)).toNat) := by
  have exists' : ¬(14641 ≤ fld a 42 14 ∧ fld a 42 14 ≠ 0x3FFF) := by omega
  simp only [loadWord, hs, ha, if_pos space, if_neg exists', own, Bool.not_true, Bool.false_eq_true, if_false]

end

/-! ### STORE_S (R173, R208) -/

section
variable {s : State} {t n x a : Nat} {v : Bool} {c : Ctx} (hs : stray n [(102, 4), (93, 1), (0, 64)] = false)
include hs

/-- STORE_S of the scratchpad writes 8 bytes at its offset. -/
theorem storeWord_scratch (ha : scalarAddr v true n x = .ok (true, a)) : storeWord t v n c x s =
    .ok (s.setTile t { s.tile t with scratch := Mem.setBytes (s.tile t).scratch a (leBytes 8 (c.reg (fld n 102 4))) }) := by
  simp only [storeWord, hs, ha, Bool.false_eq_true, if_false]

/-- STORE_S of a memory space writes through translation. -/
theorem storeWord_memory (ha : scalarAddr v true n x = .ok (false, a))
    (ok : (s.writeMem c.job .tile v a (leBytes 8 (c.reg (fld n 102 4)))).1 = none) :
    storeWord t v n c x s = .ok (s.writeMem c.job .tile v a (leBytes 8 (c.reg (fld n 102 4)))).2 := by
  have written : s.writeMem c.job .tile v a (leBytes 8 (c.reg (fld n 102 4))) = (none, _) := Prod.ext ok rfl
  simp only [storeWord, hs, ha, Bool.false_eq_true, if_false]
  rw [written]

end

/-- A word that has replaced what of its tile is no control state leaves its task at the next word. -/
theorem Runs.advance {s : State} {t : Nat} {v : Bool} {c : Ctx} {y : TileState} (hc : y.ctx v = some c) :
    Runs s ((s.setTile t y).advance t v) t v y c.next := by
  have held : (s.setTile t y).ctx? t v = some c := by rw [State.ctx?, State.tile_setTile_self, hc]
  refine ⟨?_, ?_⟩
  · obtain ⟨issued, -, -⟩ := onlyCtx_issued held fun c => { c with pos := c.pos + 16 }
    exact (sameBut_setTile s t y).trans issued
  · rw [State.advance, State.tile_issued held, State.tile_setTile_self]
    rfl

end Sys2Proof.Machine

/-! ### The obligation on scalar accesses -/

section
open Sys2Proof Sys2Proof.Machine

/-- Settles O12: a load writes a register alone, a store of the scratchpad one tile's bytes, and a store of memory what its write leaves. -/
theorem scalarAccess : Obligations.ScalarAccess := by
  unfold Obligations.ScalarAccess
  refine ⟨fun s t v w c st => ⟨fun a op hs ha => ?load, fun a op hs ha => ?store⟩,
    fun s t v w c st => ⟨fun a bs op hs ha space read => ?loadMemory, fun a op hs ha space device own => ?loadStatus,
      fun a ps op hs ha hp => ?storeMemory⟩⟩
  case load =>
    refine ⟨_, exec_loadS st op, ?_⟩
    rw [loadWord_scratch hs ha]
    exact onlyCtx_setReg st _ _ _
  case loadMemory =>
    refine ⟨_, exec_loadS st op, ?_⟩
    rw [loadWord_memory hs ha space read]
    exact onlyCtx_setReg st _ _ _
  case loadStatus =>
    refine ⟨_, exec_loadS st op, ?_⟩
    rw [loadWord_status hs ha space device own]
    exact onlyCtx_setReg st _ _ _
  case store =>
    refine ⟨_, exec_storeS st op, ?_⟩
    rw [storeWord_scratch hs ha, settle_ok]
    have length : (leBytes 8 (c.reg (fld w.toNat 102 4))).length = 8 := leBytes_length 8 _
    have stored := Runs.advance (s := s) (t := t.val) (c := c)
      (y := { s.tile t.val with scratch := Mem.setBytes (s.tile t.val).scratch a (leBytes 8 (c.reg (fld w.toNat 102 4))) })
      (v := v) (ctx?_of_stands st)
    refine ⟨stored.others, rfl, stored.ctx?, ?_, fun k outside => ?_, fun k => rfl⟩
    · rw [stored.scratch]
      exact (congrArg (Mem.bytes _ a) length.symm).trans (Mem.bytes_setBytes _ a _)
    · rw [State.byteAt, stored.scratch]
      exact Mem.get_setBytes_outside _ a _ (by rwa [length])
  case storeMemory =>
    intro r ok
    refine ⟨?_, fun p hp' => ?_⟩
    · rw [exec_storeS st op, storeWord_memory hs ha ok, settle_ok]
    · rw [(SameStore.advance r.2 t.val v).byteAt]
      exact s.byteAt_writeMem (by rwa [leBytes_length]) ok hp'

end
end

section
/-!
COUNT_WAIT and ENGINE_WORD_COMPLETE (R162, R164, R184, R275, R276): a wait whose target is reached goes on, another watches its count; an
engine's next word runs to its end, and one that awaits nothing goes out of the incomplete words.
-/
namespace Sys2Proof.Machine

/-! ### COUNT_WAIT (R275, R276) -/

section
variable {s : State} {t : TileId} {v : Bool} {w : BitVec 128} {c : Ctx}

theorem exec_countWait (st : stands s t v w c) (op : opcodeOf w.toNat = 0x60) :
    exec (.countWait t v w) s = .next (settle t.val v c.off (countWaitWord t.val w.toNat c (c.reg (xregOf w.toNat)) s)) :=
  issue_stands st (by rw [op]; decide) (by rw [ofOpcode, op]; decide)

/-- COUNT_WAIT on a count of this module goes on where its target is reached, and else watches the count. -/
theorem countWaitWord_own {t n x : Nat} (zeros : fld n 68 42 = 0) (own : s.waitRefFault c.job (fld n 0 32) = none) :
    countWaitWord t n c x s =
      if s.countReached c.job (fld n 0 32) ((fld n 32 32 + c.reg (fld n 64 4)) % 2 ^ 32) then .ok s
      else .wait (s.watch c.job (fld n 0 32) t) := by
  simp only [countWaitWord, zeros, own, ne_eq, not_true_eq_false, if_false]

/-- A job context with a tile among those that watch a count. -/
def JobCtx.watched (j : JobCtx) (i t : Nat) : JobCtx :=
  if j.watch.contains (i, t) then j else { j with watch := j.watch ++ [(i, t)] }

theorem JobCtx.watched_id (j : JobCtx) (i t : Nat) : (j.watched i t).id = j.id := by
  unfold JobCtx.watched
  split <;> rfl

theorem JobCtx.watched_counts (j : JobCtx) (i t : Nat) : (j.watched i t).counts = j.counts := by
  unfold JobCtx.watched
  split <;> rfl

theorem JobCtx.mem_watched (j : JobCtx) (i t : Nat) : (i, t) ∈ (j.watched i t).watch := by
  unfold JobCtx.watched
  split
  · next watching => exact List.contains_iff_mem.mp watching
  · exact List.mem_append_right _ (List.mem_singleton_self _)

/-- A tile that watches a count of a job stands in its watch bits (R276). -/
theorem State.job?_watch {job : BitVec 16} {j : JobCtx} (hj : s.job? job = some j) (ref t : Nat) :
    (s.watch job ref t).job? job = some (j.watched (refIndex ref) t) := by
  have watched : s.watch job ref t = s.updJob job (·.watched (refIndex ref) t) := rfl
  rw [watched, State.job?_updJob s job fun j => j.watched_id _ _, hj, Option.map_some]

end

/-! ### ENGINE_WORD_COMPLETE (R162, R164) -/

section
variable {s : State} {t : TileId} {v : Bool} {e : Fin 4} {waves : Nat} {c : Ctx}

/-- The remote engine works wherever the tile is in service, another where the tile's engines do. -/
theorem engine_not_stopped (works : e = 3 ∨ (s.tile t.val).engines v = true) : (e != 3 && !(s.tile t.val).engines v) = false := by
  rcases works with h | h <;> simp [h]

/-! Where the engine works and every word that may begin has begun, the engine's next word runs to its end, if there is one. -/

section
variable (service : (s.tile t.val).isolated = false) (works : e = 3 ∨ (s.tile t.val).engines v = true)
  (settled : s.beginWords t.val v = s) (hc : s.ctx? t.val v = some c)
include service works settled hc

theorem exec_engineWordComplete_none (next : c.nextDone e = none) : exec (.engineWordComplete t v e waves) s = .next s := by
  change execEngineWordComplete t v e waves s = _
  simp only [execEngineWordComplete, service, engine_not_stopped works, settled, hc, next, Bool.or_self, Bool.false_eq_true, if_false]

theorem exec_engineWordComplete_some {k : Nat} {x : EngWord} (next : c.nextDone e = some (k, x)) :
    exec (.engineWordComplete t v e waves) s = .next ((s.completeWord t.val v c k x waves).beginWords t.val v) := by
  change execEngineWordComplete t v e waves s = _
  simp only [execEngineWordComplete, service, engine_not_stopped works, settled, hc, next, Bool.or_self, Bool.false_eq_true, if_false]

end

/-- Waves are counted in status words, beside a free value. -/
theorem State.wordWaves_eq (s : State) (t : Nat) (x : EngWord) (n : Nat) :
    ∃ w k, s.wordWaves t x n = { s with stat := w, freeCtr := k } := by
  unfold State.wordWaves
  cases x.op with
  | pass p =>
    dsimp only
    split
    · exact ⟨_, _, rfl⟩
    · exact ⟨_, s.freeCtr, rfl⟩
  | put r | get r | accumulate r | atomic r | multicast r | signal r => exact ⟨s.stat, s.freeCtr, rfl⟩
  | _ => exact ⟨_, s.freeCtr, rfl⟩

/-- A word that has run and awaits nothing goes, and its waves are counted. -/
theorem State.leaveWord_gone {t k : Nat} {x : EngWord} (ran : x.ran = true) (waits : x.waits = []) :
    s.leaveWord t v k x waves = (s.updCtx t v fun c => { c with words := c.words.eraseIdx k }).wordWaves t x waves := by
  simp only [State.leaveWord, ran, waits, List.isEmpty_nil, Bool.and_self, if_true]

theorem State.completeWord_ran {t k : Nat} {x : EngWord} (ran : x.ran = true) :
    s.completeWord t v c k x waves = s.leaveWord t v k x waves := by
  rw [State.completeWord, if_pos ran]

end

end Sys2Proof.Machine

/-! ### The obligations on COUNT_WAIT and on ENGINE_WORD_COMPLETE -/

section
open Sys2Proof Sys2Proof.Machine

/-- Settles O23: the two branches of the word's meaning, and what watching a count leaves of its job context. -/
theorem countWait : Obligations.CountWait := by
  unfold Obligations.CountWait
  intro s t v w c st n ref target op zeros own
  have issues := exec_countWait st op
  rw [countWaitWord_own zeros own] at issues
  refine ⟨fun reached => ?goes, fun missed => ?waits⟩
  case goes =>
    rw [if_pos reached] at issues
    exact ⟨_, issues, onlyCtx_ok st _⟩
  case waits =>
    rw [if_neg (by rw [missed]; decide)] at issues
    have held : (s.watch c.job ref t.val).ctx? t.val v = some c := (ctx?_of_stands st : s.ctx? t.val v = some c)
    refine ⟨_, issues, State.ctx?_updCtx _ held _, fun u hu => State.tile_updCtx_ne _ v _ hu, rfl, fun j hj => ?_⟩
    exact ⟨_, State.job?_watch hj ref t.val, j.mem_watched _ _, j.watched_counts _ _⟩

/-- Settles O28: the command runs the engine's next word to its end, and a word that has run is taken out of its context alone. -/
theorem engineWordCompletes : Obligations.EngineWordCompletes := by
  unfold Obligations.EngineWordCompletes
  intro s t v e waves c service works settled hc
  refine ⟨fun next => exec_engineWordComplete_none service works settled hc next,
    fun k x next => ⟨exec_engineWordComplete_some service works settled hc next, fun ran waits => ?_⟩⟩
  intro z
  obtain ⟨words, free, waved⟩ := (s.updCtx t.val v fun c => { c with words := c.words.eraseIdx k }).wordWaves_eq t.val x waves
  have hz : z = _ := ((State.completeWord_ran ran).trans (State.leaveWord_gone ran waits)).trans waved
  have own : z.tile t.val = (s.tile t.val).setCtx v (some { c with words := c.words.eraseIdx k }) := by
    rw [hz]
    exact State.tile_updCtx s hc _
  refine ⟨?_, fun u hu => ?_, ?_, ?_, by rw [hz]; rfl, by rw [hz]; rfl⟩
  · rw [State.ctx?, own, TileState.ctx_setCtx]
  · rw [hz]
    exact State.tile_updCtx_ne s v _ hu
  · rw [own, TileState.setCtx_scratch]
  · rw [own, TileState.setCtx_mat]

end
end

section
/-!
Remote words (R185, R246 to R248, R256, R274, R302): each is accepted where its checks pass, and where the task has no other incomplete
word and R256 holds nothing back it begins at once, opens its transfers and sends their frames.
-/
namespace Sys2Proof.Machine

/-! ### What the remote engine reads beside a running task -/

section
variable {s s' : State} {t : Nat} {v : Bool} {y : TileState} {c : Ctx}

theorem Runs.hallFor (h : Runs s s' t v y c) (job : BitVec 16) (d : Nat) : s'.hallFor job d = s.hallFor job d :=
  h.others.read (·.hallFor job d) fun _ _ _ => rfl

theorem Runs.holdsBack (h : Runs s s' t v y c) (dst ch n : Nat) : s'.holdsBack dst ch n = s.holdsBack dst ch n :=
  h.others.read (·.holdsBack dst ch n) fun _ _ _ => rfl

theorem Runs.hall (h : Runs s s' t v y c) : s'.hall = s.hall := h.others.read (·.hall) fun _ _ _ => rfl

theorem Runs.stepTag (h : Runs s s' t v y c) (c' : Ctx) : s'.stepTag c' = s.stepTag c' :=
  h.others.read (·.stepTag c') fun _ _ _ => rfl

theorem Runs.members (h : Runs s s' t v y c) (job : BitVec 16) (g : Nat) : s'.members job g = s.members job g :=
  h.others.read (·.members job g) fun _ _ _ => rfl

/-- What an ACCUMULATE sends depends on scratchpad and random stream alone (R50). -/
theorem Runs.accumulateData (h : Runs s s' t v y c) (xf : Nat) (rnd ovf : Bool) (loc n : Nat) :
    accumulateData (s'.tile t) xf rnd ovf loc n = Machine.accumulateData y xf rnd ovf loc n := by
  simp only [Machine.accumulateData, h.scratch, h.streamK, h.streamC]

end

/-! ### Acceptance and beginning of a remote word alone (R161, R162, R185) -/

section
variable {s : State} {t : TileId} {v : Bool} {w : BitVec 128} {c : Ctx} {i : Instr}

/-- A remote word whose checks pass is accepted. -/
theorem acceptRemote_settles {op : Remote → EngOp} {faults : Remote → List Nat} {n x : Nat}
    (issues : exec i s = .next (settle t.val v c.off (acceptRemote op faults n c x s)))
    (sound : remoteFirst (faults (remoteOf n c x)) = none) :
    exec i s = .next (s.took t.val v (EngWord.fresh (op (remoteOf n c x)) c.off (false, false))) := by
  rw [issues]
  simp only [acceptRemote, sound, settle_accepted]

/-- A word that is accepted alone begins at once, as its engine has it. -/
theorem exec_begins {z z1 : EngWord} {s1 : State} (st : stands s t v w c) (hw : c.words = []) (hb : z.begun = false)
    (issues : exec i s = .next (s.took t.val v z)) (begins : (s.placed t.val v z).beginWord t.val v (c.only z) z = .go z1 s1) :
    exec i s = .next (s1.setEng t.val v 0 z1) := by
  rw [issues, State.took, (Runs.placed st hw z).beginWords rfl hb (engines_of_stands st) begins]

/-- A transfer with data that R256 does not hold back is sent at once. -/
theorem sendData_go {s : State} {t : Nat} {z : EngWord} {r : Remote} {data : List Byte}
    (free : s.holdsBack (s.hallFor c.job r.device) r.ch (frameCount v data.length) = false) (op : BitVec 4) (variant aux half : Nat)
    (step : Option Nat) : ∃ k s1, sendData t v c z r op variant aux half step data s = .go (z.sent [k]) s1 := by
  rw [sendData]
  simp only [free, Bool.false_eq_true, if_false]
  exact ⟨_, _, rfl⟩

/-- The transfer of a remote word alone that R256 does not hold back is sent behind the word's own acceptance. -/
theorem sendData_placed (st : stands s t v w c) (hw : c.words = []) (z : EngWord) {r : Remote} {data : List Byte}
    (free : s.holdsBack (s.hallFor c.job r.device) r.ch (frameCount v data.length) = false) (op : BitVec 4) (variant aux half : Nat)
    (step : Option Nat) :
    ∃ k s1, sendData t.val v (c.only z) z r op variant aux half step data (s.placed t.val v z) = .go (z.sent [k]) s1 := by
  have placed := Runs.placed st hw z
  refine sendData_go ?_ op variant aux half step
  rw [placed.hallFor, placed.holdsBack]
  exact free

/-! A remote word that stands at its task's position issues: it is checked and accepted. -/

theorem exec_putWord (st : stands s t v w c) (op : opcodeOf w.toNat = 0x50) : exec (.putWord t v w) s =
    .next (settle t.val v c.off (acceptRemote .put (putFaults v) w.toNat c (c.reg (xregOf w.toNat)) s)) :=
  issue_stands st (by rw [op]; decide) (by rw [ofOpcode, op]; decide)

theorem exec_getWord (st : stands s t v w c) (op : opcodeOf w.toNat = 0x51) : exec (.getWord t v w) s =
    .next (settle t.val v c.off (acceptRemote .get (getFaults v) w.toNat c (c.reg (xregOf w.toNat)) s)) :=
  issue_stands st (by rw [op]; decide) (by rw [ofOpcode, op]; decide)

theorem exec_accumulateWord (st : stands s t v w c) (op : opcodeOf w.toNat = 0x52) : exec (.accumulateWord t v w) s =
    .next (settle t.val v c.off (acceptRemote .accumulate (accumulateFaults v) w.toNat c (c.reg (xregOf w.toNat)) s)) :=
  issue_stands st (by rw [op]; decide) (by rw [ofOpcode, op]; decide)

theorem exec_atomicWord (st : stands s t v w c) (op : opcodeOf w.toNat = 0x53) : exec (.atomicWord t v w) s =
    .next (settle t.val v c.off (acceptRemote .atomic (atomicFaults v) w.toNat c (c.reg (xregOf w.toNat)) s)) :=
  issue_stands st (by rw [op]; decide) (by rw [ofOpcode, op]; decide)

theorem exec_multicastWord (st : stands s t v w c) (op : opcodeOf w.toNat = 0x54) : exec (.multicastWord t v w) s =
    .next (settle t.val v c.off (acceptRemote .multicast (multicastFaults v s c.job) w.toNat c (c.reg (xregOf w.toNat)) s)) :=
  issue_stands st (by rw [op]; decide) (by rw [ofOpcode, op]; decide)

theorem exec_signalWord (st : stands s t v w c) (op : opcodeOf w.toNat = 0x55) : exec (.signalWord t v w) s =
    .next (settle t.val v c.off (acceptRemote .signal (signalFaults v) w.toNat c (c.reg (xregOf w.toNat)) s)) :=
  issue_stands st (by rw [op]; decide) (by rw [ofOpcode, op]; decide)

end

/-! ### How each begins (R248, R256) -/

section
variable {s s' : State} {t : Nat} {v : Bool} {y : TileState} {c : Ctx} {z : EngWord} {r : Remote}

/-- A PUT sends the bytes of its local end. -/
theorem Runs.beginPut (h : Runs s s' t v y c) (z : EngWord) (r : Remote) :
    beginPut t v c z r s' = sendData t v c z r 0 0 0 2 none (Mem.bytes y.scratch r.loc r.bytes) s' := by
  rw [Machine.beginPut, h.scratch]

/-- An ACCUMULATE whose transfer is sent has drawn from the random stream and counted what its conversion met. -/
theorem Runs.beginAccumulate {k : Nat} {s1 : State} (h : Runs s s' t v y c) :
    let xf := fld r.var 0 2
    let d := Machine.accumulateData y xf (modeOf false (fld r.var 2 2) == some true) (modeOf true (fld r.var 4 2) == some true) r.loc r.bytes
    sendData t v c z r 3 (if xf = 0 then 0 else 1) (fld r.len 32 32) (if xf = 0 then 2 else 4) (s.stepTag c) d.1 s' = .go (z.sent [k]) s1 →
      Machine.beginAccumulate t v c z r s' =
        .go (z.sent [k]) ((s1.setTile t { s1.tile t with streamC := BitVec.ofNat 128 d.2.1 }).countFormats {} d.2.2) := by
  intro xf d sent
  simp only [Machine.beginAccumulate, h.accumulateData, h.stepTag]
  rw [sent]

/-- A GET that R256 does not hold back opens one transfer and sends one READ. -/
theorem Runs.beginGet (h : Runs s s' t v y c) (free : s.holdsBack (s.hallFor c.job r.device) r.ch 1 = false) :
    let dst := s.hallFor c.job r.device
    let o := s'.openXfer (wordXfer t v c z dst r.ch 1 r.loc r.bytes (r.sig.map fun q => (BitVec.ofNat 32 q.1, BitVec.ofNat 32 q.2)) none 1 0)
    let f := { Frame.plain 1 v r.ch dst s.hall c.job o.1 with addr := BitVec.ofNat 64 r.addr, aux := BitVec.ofNat 32 r.bytes }
    Machine.beginGet t v c z r s' = .go (z.sent [o.1]) (o.2.sendAll [f]) := by
  simp only [Machine.beginGet, h.hallFor, h.holdsBack, free, h.hall, Bool.false_eq_true, if_false]

/-- A SIGNAL that R256 does not hold back opens one transfer and sends one frame, Vesper but on channel 16 (R24, log 112). -/
theorem Runs.beginSignal (h : Runs s s' t v y c)
    (free : s.holdsBack (s.hallFor c.job (refDevice (fld r.cnt 0 32))) r.ch 1 = false) :
    let ref := fld r.cnt 0 32
    let dst := s.hallFor c.job (refDevice ref)
    let class' := r.ch != 16
    let o := s'.openXfer { wordXfer t v c z dst r.ch 6 0 0 none none 1 0 with vesper := class' }
    let f := { Frame.plain 6 class' r.ch dst s.hall c.job o.1 with sig := some ⟨BitVec.ofNat 32 ref, BitVec.ofNat 32 r.bytes, 0⟩ }
    Machine.beginSignal t v c z r s' = .go (z.sent [o.1]) (o.2.sendAll [f]) := by
  simp only [Machine.beginSignal, h.hallFor, h.holdsBack, free, h.hall, Bool.false_eq_true, if_false]

/-- The own copy of a multicaster among the members of its group: written, and counted where a signal rides with it (log 71). -/
def State.ownCopy (s : State) (v : Bool) (job : BitVec 16) (r : Remote) (data : List Byte) : Option Nat → Option Nat × State
  | none => (none, s)
  | some d =>
    match s.writeMem job .tile v (withDevice r.addr d) data with
    | (some f, q) => (some f, q)
    | (none, q) => (match r.sig with | some g => q.raiseCount job (refIndex g.1) g.2 0x3FFF | none => (none, q))

/-- A MULTICAST that R256 does not hold back makes its own copy, then opens a transfer for every other member (R248). -/
theorem beginMulticast_unheld {j : JobCtx} {ds : List Nat} (members : s.members c.job r.var = some (j, ds))
    (free : ((ds.filter fun d => !s.plays j d).any fun d => s.holdsBack (j.hallOf d) r.ch (frameCount v r.bytes)) = false) :
    beginMulticast t v c z r s =
      let data := Mem.bytes (s.tile t).scratch r.loc r.bytes
      match s.ownCopy v c.job r data (ds.find? (s.plays j)) with
      | (some f, s1) => .fault f s1
      | (none, s1) =>
        let o := openMembers t v c z r j data s1 (ds.filter fun d => !s.plays j d)
        .go (z.sent o.2.1) (o.2.2.sendAll (interleave (frameCount v data.length) o.1)) := by
  simp only [beginMulticast, members, free, Bool.false_eq_true, if_false]
  cases ds.find? (s.plays j) <;> rfl

/-- A MULTICAST that R256 does not hold back and whose own copy meets no fault opens a transfer for every other member (R248). -/
theorem Runs.beginMulticast {j : JobCtx} {ds : List Nat} (h : Runs s s' t v y c) (members : s.members c.job r.var = some (j, ds))
    (free : ((ds.filter fun d => !s.plays j d).any fun d => s.holdsBack (j.hallOf d) r.ch (frameCount v r.bytes)) = false) :
    let data := Mem.bytes y.scratch r.loc r.bytes
    let own := s'.ownCopy v c.job r data (ds.find? (s.plays j))
    own.1 = none →
      let o := openMembers t v c z r j data own.2 (ds.filter fun d => !s.plays j d)
      Machine.beginMulticast t v c z r s' = .go (z.sent o.2.1) (o.2.2.sendAll (interleave (frameCount v data.length) o.1)) := by
  intro data own copied
  have plays : s'.plays j = s.plays j := funext fun d => h.plays j d
  have held : (fun d => s'.holdsBack (j.hallOf d) r.ch (frameCount v r.bytes)) =
      fun d => s.holdsBack (j.hallOf d) r.ch (frameCount v r.bytes) := funext fun d => h.holdsBack _ _ _
  have begins := beginMulticast_unheld (t := t) (z := z) ((h.members _ _).trans members) (by rw [plays, held]; exact free)
  have written : s'.ownCopy v c.job r data (ds.find? (s.plays j)) = (none, own.2) := Prod.ext copied rfl
  rw [plays, h.scratch] at begins
  dsimp only at begins
  rw [written] at begins
  exact begins

end

end Sys2Proof.Machine

/-! ### The obligations on remote words -/

section
open Sys2Proof Sys2Proof.Machine

/-- Settles O20: each word is accepted by its checks' lemma, and alone it begins at once on the transfer that it sends. -/
theorem remoteDataWords : Obligations.RemoteDataWords := by
  unfold Obligations.RemoteDataWords
  intro s t v w c st n r y fresh free
  refine ⟨fun op sound => ?put, fun op sound => ?accumulate, fun op sound => ?atomic⟩
  case put =>
    intro z data
    have issues : exec (.putWord t v w) s = .next (s.took t.val v z) := acceptRemote_settles (exec_putWord st op) sound
    refine ⟨issues, fun hw unheld => ?_⟩
    obtain ⟨k, s1, sent⟩ := sendData_placed st hw z unheld 0 0 0 2 none
    exact ⟨k, s1, sent, exec_begins st hw rfl issues (((Runs.placed st hw z).beginPut z r).trans sent)⟩
  case accumulate =>
    intro z xf d
    have issues : exec (.accumulateWord t v w) s = .next (s.took t.val v z) := acceptRemote_settles (exec_accumulateWord st op) sound
    refine ⟨issues, fun hw unheld => ?_⟩
    obtain ⟨k, s1, sent⟩ := sendData_placed st hw z unheld 3 (if xf = 0 then 0 else 1) (fld r.len 32 32) (if xf = 0 then 2 else 4) (s.stepTag c)
    exact ⟨k, s1, sent, exec_begins st hw rfl issues ((Runs.placed st hw z).beginAccumulate sent)⟩
  case atomic =>
    intro z aop data
    have issues : exec (.atomicWord t v w) s = .next (s.took t.val v z) := acceptRemote_settles (exec_atomicWord st op) sound
    refine ⟨issues, fun hw unheld => ?_⟩
    obtain ⟨k, s1, sent⟩ := sendData_placed st hw z unheld 4 aop 0 2 none
    exact ⟨k, s1, sent, exec_begins st hw rfl issues sent⟩

/-- Settles O21: each word is accepted by its checks' lemma, and alone it begins at once as its lemma says. -/
theorem remoteRequestWords : Obligations.RemoteRequestWords := by
  unfold Obligations.RemoteRequestWords
  intro s t v w c st n r fresh
  refine ⟨fun op sound => ?get, fun op sound => ?signal, fun op sound => ?multicast⟩
  case get =>
    intro z dst
    have issues : exec (.getWord t v w) s = .next (s.took t.val v z) := acceptRemote_settles (exec_getWord st op) sound
    exact ⟨issues, fun hw free => exec_begins st hw rfl issues ((Runs.placed st hw z).beginGet free)⟩
  case signal =>
    intro z ref dst class'
    have issues : exec (.signalWord t v w) s = .next (s.took t.val v z) := acceptRemote_settles (exec_signalWord st op) sound
    exact ⟨issues, fun hw free => exec_begins st hw rfl issues ((Runs.placed st hw z).beginSignal free)⟩
  case multicast =>
    intro z
    have issues : exec (.multicastWord t v w) s = .next (s.took t.val v z) := acceptRemote_settles (exec_multicastWord st op) sound
    refine ⟨issues, fun j ds hw members => ?_⟩
    intro others data p free own copied
    exact exec_begins st hw rfl issues ((Runs.placed st hw z).beginMulticast members free copied)

end
end

section
/-!
Move words (R182, R194, R195, R207, R224 to R237): MOVE of each KIND is accepted where its checks pass, and where the task has no other
incomplete word its completion runs the whole checked move. Before that stands what a run of a move leaves alone: it writes scratchpads,
stacked memory, correct beats, its tile's random stream and status words (`Moved`), and of the bytes those that its writes touch.
-/
namespace Sys2Proof.Machine

/-! ### What a run of a move changes -/

/-- `s'` is `s` but for scratchpads, bytes and correct beats of the stacked memory, status words, and the random stream of tile `t`. -/
structure Moved (s s' : State) (t : Nat) : Prop where
  rest : { s' with tiles := s.tiles, stat := s.stat, mem := { s'.mem with dram := s.mem.dram, poison := s.mem.poison } } = s
  tiles : ∀ u, s'.tile u = { s.tile u with scratch := (s'.tile u).scratch, streamC := (s'.tile u).streamC }
  streams : ∀ u, u ≠ t → (s'.tile u).streamC = (s.tile u).streamC

section
variable {s s' s'' : State} {t : Nat}

theorem Moved.refl (s : State) (t : Nat) : Moved s s t := ⟨rfl, fun _ => rfl, fun _ _ => rfl⟩

theorem Moved.trans (h : Moved s s' t) (h' : Moved s' s'' t) : Moved s s'' t := by
  refine ⟨?_, fun u => (h'.tiles u).trans ?_, fun u hu => (h'.streams u hu).trans (h.streams u hu)⟩
  · rw [← h.rest, ← h'.rest]
  · rw [h.tiles u]

/-- Of another tile only the scratchpad has changed. -/
theorem Moved.others (h : Moved s s' t) {u : Nat} (hu : u ≠ t) : s'.tile u = { s.tile u with scratch := (s'.tile u).scratch } := by
  have tile := h.tiles u
  rwa [h.streams u hu] at tile

/-- What depends on none of that is as it was. -/
theorem Moved.read {α : Type} (h : Moved s s' t) (f : State → α)
    (hf : ∀ (x : State) ts st d p, f { x with tiles := ts, stat := st, mem := { x.mem with dram := d, poison := p } } = f x) : f s' = f s := by
  rw [← hf s' s.tiles s.stat s.mem.dram s.mem.poison, h.rest]

theorem Moved.jobs (h : Moved s s' t) : s'.jobs = s.jobs := h.read State.jobs fun _ _ _ _ _ => rfl

theorem Moved.movePlace (h : Moved s s' t) (u : Nat) (v : Bool) (job : BitVec 16) (dram : Bool) (a : Nat) :
    s'.movePlace u v job dram a = s.movePlace u v job dram a :=
  h.read (·.movePlace u v job dram a) fun _ _ _ _ _ => rfl

/-- The contexts of its tile are as they were. -/
theorem Moved.ctx? (h : Moved s s' t) (v : Bool) : s'.ctx? t v = s.ctx? t v := by
  rw [State.ctx?, h.tiles t]
  cases v <;> rfl

theorem Moved.stat (s : State) (t : Nat) (w : Sp W64) : Moved s { s with stat := w } t := ⟨rfl, fun _ => rfl, fun _ _ => rfl⟩

theorem Moved.poison (s : State) (t : Nat) (p : Sp Bool) : Moved s { s with mem := { s.mem with poison := p } } t :=
  ⟨rfl, fun _ => rfl, fun _ _ => rfl⟩

theorem Moved.streamC (s : State) (t : Nat) (k : BitVec 128) : Moved s (s.setTile t { s.tile t with streamC := k }) t := by
  refine ⟨rfl, fun u => ?_, fun u hu => by rw [State.tile_setTile_ne s _ hu]⟩
  by_cases hu : u = t
  · subst hu
    rw [State.tile_setTile_self]
  · rw [State.tile_setTile_ne s _ hu]

theorem Moved.putByte (s : State) (t : Nat) (p : Place) (b : Byte) : Moved s (s.putByte p b) t := by
  cases p with
  | dram k => exact ⟨rfl, fun _ => rfl, fun _ _ => rfl⟩
  | scratch u off =>
    have tiles (x : Nat) : (s.putByte (.scratch u off) b).tile x = { s.tile x with scratch := ((s.putByte (.scratch u off) b).tile x).scratch } := by
      by_cases hx : x = u
      · subst hx
        simp only [State.putByte, State.tile_setTile_self]
      · simp only [State.putByte, State.tile_setTile_ne _ _ hx]
    have streams (x : Nat) : ((s.putByte (.scratch u off) b).tile x).streamC = (s.tile x).streamC := by rw [tiles x]
    exact ⟨rfl, fun x => by rw [streams x]; exact tiles x, fun x _ => streams x⟩

/-- Steps each of which changes no more than that change no more than that. -/
theorem Moved.foldl {α : Type} {f : State → α → State} (hf : ∀ z x, Moved z (f z x) t) (xs : List α) (s : State) :
    Moved s (xs.foldl f s) t :=
  List.foldlRecOn (motive := fun z => Moved s z t) xs f (Moved.refl s t) fun z moved x _ => moved.trans (hf z x)

end

/-! ### A run that writes nothing -/

section
variable {s s' : State} {t : Nat} {v : Bool} {y : TileState} {c : Ctx}

/-- A task that runs on a tile with its scratchpad as it was has written nothing. -/
theorem Runs.sameStore (h : Runs s s' t v y c) (hy : y.scratch = (s.tile t).scratch) : SameStore s s' := by
  obtain ⟨-, others⟩ := h.others
  refine ⟨congrArg MemState.dram h.mem, fun u => ?_⟩
  by_cases hu : u = t
  · subst hu
    rw [h.scratch, hy]
  · rw [others u hu]

end

/-- `s'` is `s` but for correct beats, status words, and the random stream of tile `t`. -/
structure Unwritten (s s' : State) (t : Nat) : Prop where
  moved : Moved s s' t
  store : SameStore s s'

section
variable {s s' s'' : State} {t : Nat}

theorem Unwritten.refl (s : State) (t : Nat) : Unwritten s s t := ⟨Moved.refl s t, SameStore.refl s⟩

theorem Unwritten.trans (h : Unwritten s s' t) (h' : Unwritten s' s'' t) : Unwritten s s'' t :=
  ⟨h.moved.trans h'.moved, h.store.trans h'.store⟩

theorem Unwritten.foldl {α : Type} {f : State → α → State} (hf : ∀ z x, Unwritten z (f z x) t) (xs : List α) (s : State) :
    Unwritten s (xs.foldl f s) t :=
  List.foldlRecOn (motive := fun z => Unwritten s z t) xs f (Unwritten.refl s t) fun z kept x _ => kept.trans (hf z x)

theorem Unwritten.bump (s : State) (t k n : Nat) : Unwritten s (s.bump k n) t := ⟨Moved.stat s t _, ⟨rfl, fun _ => rfl⟩⟩

theorem Unwritten.countFormats (s : State) (t : Nat) (old new : Tally) : Unwritten s (s.countFormats old new) t :=
  ((((Unwritten.bump _ _ _ _).trans (Unwritten.bump _ _ _ _)).trans (Unwritten.bump _ _ _ _)).trans
    (Unwritten.bump _ _ _ _)).trans (Unwritten.bump _ _ _ _)

theorem Unwritten.countMove (s : State) (t range narrow : Nat) : Unwritten s (s.countMove range narrow) t :=
  (Unwritten.bump _ _ _ _).trans (Unwritten.bump _ _ _ _)

theorem Unwritten.streamC (s : State) (t : Nat) (k : BitVec 128) : Unwritten s (s.setTile t { s.tile t with streamC := k }) t :=
  ⟨Moved.streamC s t k, SameStore.setTile s rfl⟩

/-- Beats that become correct keep their bytes (R195). -/
theorem Unwritten.clearBeats (s : State) (t u : Nat) (v : Bool) (job : BitVec 16) (dram : Bool) (cov : List Int) :
    Unwritten s (s.clearBeats u v job dram cov) t := by
  unfold State.clearBeats
  split
  · exact Unwritten.refl s t
  · refine Unwritten.foldl (fun z a => ?_) cov s
    split
    · split
      · exact ⟨Moved.poison z t _, ⟨rfl, fun _ => rfl⟩⟩
      · exact Unwritten.refl z t
    · exact Unwritten.refl z t

end

/-! ### The writes of a move (R194, R207) -/

/-- What a list maps to, where every element maps to something, comes of its elements. -/
theorem mem_of_mapM_eq_some {α β : Type} {f : α → Option β} {xs : List α} {ys : List β} (h : xs.mapM f = some ys) :
    ∀ y ∈ ys, ∃ x ∈ xs, f x = some y := by
  induction xs generalizing ys with
  | nil =>
    rw [List.mapM_nil] at h
    cases h
    nofun
  | cons x xs ih =>
    rw [List.mapM_cons] at h
    obtain ⟨z, hz, zs, hzs, h⟩ : ∃ z, f x = some z ∧ ∃ zs, xs.mapM f = some zs ∧ z :: zs = ys := by
      simpa [Option.bind_eq_some_iff] using h
    subst h
    intro y hy
    rcases List.mem_cons.mp hy with rfl | hy
    · exact ⟨x, List.mem_cons_self, hz⟩
    · obtain ⟨a, ha, found⟩ := ih hzs y hy
      exact ⟨a, List.mem_cons_of_mem x ha, found⟩

section
variable {s : State} {t : Nat} {v : Bool} {job : BitVec 16} {dram : Bool} {w : MWrite} {q : Place}

/-- What a write of a move does: nothing where a byte of it has no place, else it puts its bytes at their places. -/
theorem State.moveWrite_eq (s : State) (t : Nat) (v : Bool) (job : BitVec 16) (dram : Bool) (w : MWrite) :
    s.moveWrite t v job dram w = s ∨ ∃ ps bs, (∀ p ∈ ps, ∃ a ∈ w.bytes, s.movePlace t v job dram a = .ok p) ∧
      s.moveWrite t v job dram w = (List.zip ps bs).foldl (fun (s : State) x => s.putByte x.1 x.2) s := by
  unfold State.moveWrite
  dsimp only
  split
  · exact .inl rfl
  · next ps placed =>
    refine .inr ⟨ps, _, fun p hp => ?_, rfl⟩
    obtain ⟨a, ha, found⟩ := mem_of_mapM_eq_some placed p hp
    refine ⟨a, ha, ?_⟩
    split at found
    · next place => cases found; exact place
    · cases found

theorem Moved.moveWrite (s : State) (t u : Nat) (v : Bool) (job : BitVec 16) (dram : Bool) (w : MWrite) :
    Moved s (s.moveWrite u v job dram w) t := by
  rcases s.moveWrite_eq u v job dram w with same | ⟨ps, bs, -, writes⟩
  · rw [same]
    exact Moved.refl s t
  · rw [writes]
    exact Moved.foldl (fun z (x : Place × Byte) => Moved.putByte z t x.1 x.2) _ s

/-- A byte that a write of a move does not touch is as it was. -/
theorem State.byteAt_moveWrite (untouched : ∀ a ∈ w.bytes, s.movePlace t v job dram a ≠ .ok q) :
    (s.moveWrite t v job dram w).byteAt q = s.byteAt q := by
  rcases s.moveWrite_eq t v job dram w with same | ⟨ps, bs, places, writes⟩
  · rw [same]
  · rw [writes]
    refine s.byteAt_putBytes_ne fun x hx e => ?_
    obtain ⟨a, ha, place⟩ := places x.1 (List.of_mem_zip hx).1
    exact untouched a ha (e ▸ place)

/-- The state with the writes of a move made. -/
def State.moveWrites (s : State) (t : Nat) (v : Bool) (job : BitVec 16) (dram : Bool) (ws : List MWrite) : State :=
  ws.foldl (fun (s : State) w => s.moveWrite t v job dram w) s

theorem Moved.moveWrites (s : State) (t : Nat) (v : Bool) (job : BitVec 16) (dram : Bool) (ws : List MWrite) :
    Moved s (s.moveWrites t v job dram ws) t :=
  Moved.foldl (fun z w => Moved.moveWrite z t t v job dram w) ws s

/-- A byte that none of the writes of a move touches is as it was. -/
theorem State.byteAt_moveWrites {ws : List MWrite} (untouched : ∀ x ∈ ws, ∀ a ∈ x.bytes, s.movePlace t v job dram a ≠ .ok q) :
    (s.moveWrites t v job dram ws).byteAt q = s.byteAt q := by
  have kept : Moved s (s.moveWrites t v job dram ws) t ∧ (s.moveWrites t v job dram ws).byteAt q = s.byteAt q := by
    refine List.foldlRecOn (motive := fun z => Moved s z t ∧ z.byteAt q = s.byteAt q) ws _ ⟨Moved.refl s t, rfl⟩ ?_
    rintro z ⟨moved, byte⟩ x hx
    refine ⟨moved.trans (Moved.moveWrite z t t v job dram x), (State.byteAt_moveWrite fun a ha => ?_).trans byte⟩
    rw [moved.movePlace]
    exact untouched x hx a ha
  obtain ⟨-, byte⟩ := kept
  exact byte

end

/-! ### A run of a move without a fault (R224 to R237) -/

section
variable {s : State} {t : Nat} {v : Bool} {job : BitVec 16} {o : MoveOp} {z : EngWord} {n : Nat}

/-- A run without a fault makes its writes, and nothing that it does besides writes a byte. -/
theorem State.runMove_unwritten (sound : (s.runMove t v job z o n).fault = none) :
    Unwritten (s.moveWrites t v job o.dst.dram (s.moveDone t v job z o n).writes) (s.runMove t v job z o n).s t := by
  have counted (x : State) (k : BitVec 128) (old new : Tally) (range narrow : Nat) :
      Unwritten x (((x.setTile t { x.tile t with streamC := k }).countFormats old new).countMove range narrow) t :=
    ((Unwritten.streamC x t k).trans (Unwritten.countFormats _ t old new)).trans (Unwritten.countMove _ t range narrow)
  unfold State.runMove State.moveLeft at *
  dsimp only at *
  split at sound
  · cases sound
  · refine Unwritten.trans ?_ (counted _ _ _ _ _ _)
    split
    · exact Unwritten.refl _ t
    · exact Unwritten.foldl (fun z cov => Unwritten.clearBeats z t t v job o.dst.dram cov) _ _

theorem State.runMove_moved (sound : (s.runMove t v job z o n).fault = none) : Moved s (s.runMove t v job z o n).s t :=
  (Moved.moveWrites s t v job _ _).trans (State.runMove_unwritten sound).moved

/-- A run writes to no transfer that its word awaits. -/
theorem State.runMove_waits (s : State) (t : Nat) (v : Bool) (job : BitVec 16) (z : EngWord) (o : MoveOp) (n : Nat) :
    (s.runMove t v job z o n).w.waits = z.waits := by
  unfold State.runMove State.moveLeft
  dsimp only
  split <;> rfl

theorem State.finishWord_move {c : Ctx} (hop : z.op = .move o) (sound : (s.runMove t v c.job z o z.left).fault = none) :
    s.finishWord t v c z = .go { (s.runMove t v c.job z o z.left).w with ran := true } (s.runMove t v c.job z o z.left).s := by
  simp only [State.finishWord, State.runWord, hop, sound]

end

/-! ### Acceptance and completion (R161, R162, R182) -/

/-- The MOVE command of a KIND (R182). -/
def moveInstr (kind : Nat) (t : TileId) (v : Bool) (w : BitVec 128) : Instr :=
  if kind = 0 then .moveCopy t v w else if kind = 1 then .moveGather t v w else if kind = 2 then .moveScatter t v w else .moveScatterAdd t v w

section
variable {s s1 : State} {t : TileId} {v : Bool} {w : BitVec 128} {c : Ctx} {kind : Nat} {y : TileState} {z : EngWord} {o : MoveOp}

/-- MOVE that stands at its task's position issues, by the command of its KIND. -/
theorem exec_move (st : stands s t v w c) (op : opcodeOf w.toNat = 0x40) (hk : fld w.toNat 72 3 = kind) (small : kind < 4) :
    exec (moveInstr kind t v w) s = .next (settle t.val v c.off (moveWord kind t.val v w.toNat c (c.reg (xregOf w.toNat)) s)) := by
  have known : opcodeOk (opcodeOf w.toNat) = true := by rw [op]; decide
  have mine : ofMove kind w.toNat = true := by rw [ofMove, op, hk]; simp
  obtain rfl | rfl | rfl | rfl : kind = 0 ∨ kind = 1 ∨ kind = 2 ∨ kind = 3 := by omega
  · exact issue_stands st known mine
  · exact issue_stands st known mine
  · exact issue_stands st known mine
  · exact issue_stands st known mine

/-- MOVE whose descriptors and checks pass is accepted. -/
theorem moveWord_accepted {n x t a b i : Nat} (hk : fld n 72 3 = kind) (small : kind < 4) (zeros : fld n 87 23 = 0) (rnd : fld n 75 2 ≠ 3)
    (ovf : fld n 77 2 ≠ 3) (plain : kind = 0 → fld n 48 24 = 0) (ha : descAt v ((fld n 0 24 + x) % 2 ^ 64) = .ok a)
    (hb : descAt v ((fld n 24 24 + x) % 2 ^ 64) = .ok b) (hi : kind ≠ 0 → descAt v (fld n 48 24) = .ok i)
    (ho : movePrepare v (s.ownDevice c.job) kind (fld n 75 2) (fld n 77 2) (memWords (s.tile t).scratch a 20)
      (memWords (s.tile t).scratch b 20) (if kind = 0 then [] else memWords (s.tile t).scratch i 20) (c.reg (fld n 79 4))
      (c.reg (fld n 83 4)) = .ok o) :
    moveWord kind t v n c x s = .accepted (EngWord.fresh (.move o) c.off (false, false)) s := by
  have sound : ¬(fld n 87 23 ≠ 0 ∨ 4 ≤ fld n 72 3 ∨ fld n 75 2 = 3 ∨ fld n 77 2 = 3 ∨ (kind = 0 ∧ fld n 48 24 ≠ 0)) := by
    rw [hk]
    omega
  have third : (if kind = 0 then .ok 0 else descAt v (fld n 48 24)) = (.ok (if kind = 0 then 0 else i) : Except Nat Nat) := by
    split
    · rfl
    · next indexed => exact hi indexed
  have index : (if kind = 0 then [] else memWords (s.tile t).scratch (if kind = 0 then 0 else i) 20) =
      if kind = 0 then [] else memWords (s.tile t).scratch i 20 := by
    split <;> rfl
  simp only [moveWord, if_neg sound, ha, hb, third, index, ho]

/-- The completion of a move alone in progress, without a fault, is its whole run. -/
theorem Runs.completes_move (h : Runs s s1 t.val v y c) (hw : c.words = [z]) (he : y.engines v = true) (hop : z.op = .move o)
    (hb : z.begun = true) (hr : z.ran = false) (sound : (s1.runMove t.val v c.job z o z.left).fault = none) (waves : Nat) :
    exec (.engineWordComplete t v 2 waves) s1 = .next (((s1.runMove t.val v c.job z o z.left).s.leaveWord t.val v 0
      { (s1.runMove t.val v c.job z o z.left).w with ran := true } waves).beginWords t.val v) := by
  have mover : z.engine = 2 := congrArg EngOp.engine hop
  rw [← mover, h.exec_completes hw he hb hr, State.completeWord_go hr (State.finishWord_move hop sound)]

/-- The last word of a task that goes leaves its control state without words, beside status words and a free value. -/
theorem State.leaveWord_last (hc : s.ctx? t.val v = some c) (hw : c.words = [z]) {x : EngWord} (ran : x.ran = true) (waits : x.waits = [])
    (waves : Nat) : ∃ st k, (s.leaveWord t.val v 0 x waves).beginWords t.val v =
      { s.updCtx t.val v fun c => { c with words := c.words.eraseIdx 0 } with stat := st, freeCtr := k } := by
  obtain ⟨st, k, waved⟩ := (s.updCtx t.val v fun c => { c with words := c.words.eraseIdx 0 }).wordWaves_eq t.val x waves
  refine ⟨st, k, ?_⟩
  rw [State.leaveWord_gone ran waits, waved]
  exact State.beginWords_none (State.ctx?_updCtx s hc _) (by rw [hw]; rfl)

end

end Sys2Proof.Machine

/-! ### The obligation on moves -/

section
open Sys2Proof Sys2Proof.Machine

/-- Settles O19: a move is accepted by its checks' lemma, and alone it begins at once; its completion is its run, which changes no more than
`Moved` says, and of the bytes those that its writes touch. -/
theorem moveWords : Obligations.MoveWords := by
  unfold Obligations.MoveWords
  intro s t v w c kind st n x y op hk small zeros rnd ovf plain a b i o ha hb hi ho z cmd
  have issues : exec cmd s = .next (s.took t.val v z) := by
    refine (exec_move st op hk small).trans ?_
    rw [moveWord_accepted hk small zeros rnd ovf plain ha hb hi ho, settle_accepted]
  refine ⟨issues, fun hw waves => ⟨_, issues, ?_⟩⟩
  beta_reduce
  intro z1 r did
  have runs : Runs s (s.took t.val v z) t.val v y (c.only z1) := Runs.took st hw rfl rfl
  refine ⟨runs.ctx?, runs.mem, runs.scratch, fun sound => ?_⟩
  obtain ⟨-, others⟩ := runs.others
  have moved : Moved (s.took t.val v z) r.s t.val := State.runMove_moved sound
  have held : r.s.ctx? t.val v = some (c.only z1) := (moved.ctx? v).trans runs.ctx?
  obtain ⟨words, free, left⟩ := State.leaveWord_last held rfl (x := { r.w with ran := true }) rfl
    (State.runMove_waits _ t.val v c.job z1 o z1.left) waves
  have ends : exec (.engineWordComplete t v 2 waves) (s.took t.val v z) =
      .next ((r.s.leaveWord t.val v 0 { r.w with ran := true } waves).beginWords t.val v) :=
    runs.completes_move rfl (engines_of_stands st) rfl rfl rfl sound waves
  generalize (r.s.leaveWord t.val v 0 { r.w with ran := true } waves).beginWords t.val v = s' at left ends
  have kept : SameStore r.s s' := by
    rw [left]
    exact ⟨rfl, (SameStore.updCtx r.s t.val v _).scratch⟩
  have unwritten := State.runMove_unwritten sound
  refine ⟨s', ends, rfl, ?context, fun u hu => ?tiles, fun q untouched => ?bytes, fun silent => ?silent, ?jobs⟩
  case context =>
    rw [left, ← Ctx.only_emptied hw z1]
    exact State.ctx?_updCtx r.s held _
  case tiles =>
    have tile : s'.tile u = r.s.tile u := by
      rw [left]
      exact State.tile_updCtx_ne r.s v _ hu
    rw [tile, ← others u hu]
    exact moved.others hu
  case bytes =>
    exact ((kept.byteAt q).trans (unwritten.store.byteAt q)).trans
      ((State.byteAt_moveWrites untouched).trans ((runs.sameStore rfl).byteAt q))
  case silent =>
    have run : SameStore ((s.took t.val v z).moveWrites t.val v c.job o.dst.dram did.writes) r.s := unwritten.store
    rw [silent] at run
    have whole : SameStore s s' := ((runs.sameStore rfl).trans run).trans kept
    exact ⟨whole.dram, whole.scratch⟩
  case jobs =>
    rw [left]
    exact moved.jobs.trans (runs.others.read State.jobs fun _ _ _ => rfl)

end
end

section
/-!
What work beside the tiles leaves alone: frames, messages to hosts, records, links and tallies touch no memory, no tile and no
package (`State.core`); and what abandoning packages leaves of the stacked memory besides its bytes and its uncorrectable beats
(`State.care`).
-/
namespace Sys2Proof.Machine

/-! ### Memory, tiles and packages -/

/-- The stacked memory, the tiles and the held packages. -/
def State.core (s : State) : MemState × Sp TileState × List Pkg := (s.mem, s.tiles, s.pkgs)

section
variable {s z : State} (h : z.core = s.core)
include h

theorem State.mem_of_core : z.mem = s.mem := congrArg Prod.fst h

theorem State.tiles_of_core : z.tiles = s.tiles := congrArg (fun x => x.2.1) h

theorem State.pkgs_of_core : z.pkgs = s.pkgs := congrArg (fun x => x.2.2) h

end

/-- What a record in the log writes is none of it. -/
theorem Logged.core {s z : State} (h : Logged s z) : z.core = s.core := by
  obtain ⟨_, _, _, rfl⟩ := h
  rfl

/-- Steps none of which touches it leave it as it was. -/
theorem State.core_foldl {α : Type} {f : State → α → State} (hf : ∀ z x, (f z x).core = z.core) (xs : List α) (s : State) :
    (xs.foldl f s).core = s.core :=
  List.foldlRecOn (motive := fun z => z.core = s.core) xs f rfl fun z kept x _ => (hf z x).trans kept

section
variable (s : State)

/-! #### Records, counters, plain updates

These are proved by `(rfl)`, so that `simp` rewrites with them and does not unfold the updates. -/

@[simp] theorem State.core_setWord (k : Nat) (x : W64) : (s.setWord k x).core = s.core := (rfl)

@[simp] theorem State.core_bump (k n : Nat) : (s.bump k n).core = s.core := (rfl)

@[simp] theorem State.core_record (base m : Nat) (w : W64 × W64) : (s.record base m w).core = s.core :=
  (s.record_logged base m w).core

@[simp] theorem State.core_points (n : Nat) : (s.points n).core = s.core := (rfl)

@[simp] theorem State.core_drawn : s.drawn.core = s.core := (rfl)

@[simp] theorem State.core_emit (o : Out) : (s.emit o).core = s.core := (rfl)

@[simp] theorem State.core_setPort (p : Nat) (x : Port) : (s.setPort p x).core = s.core := (rfl)

@[simp] theorem State.core_updConn (c : BitVec 32) (f : Conn → Conn) : (s.updConn c f).core = s.core := (rfl)

@[simp] theorem State.core_logAs (kind code : Nat) (job : Option (BitVec 16)) (w : W64 × W64) : (s.logAs kind code job w).core = s.core :=
  (s.logAs_logged kind code job w).core

@[simp] theorem State.core_logEvent (code : Nat) (job : Option (BitVec 16)) (w : W64 × W64) : (s.logEvent code job w).core = s.core :=
  (s.logEvent_logged code job w).core

@[simp] theorem State.core_ueFound (beat finder : Nat) : (s.ueFound beat finder).core = s.core := by
  rw [State.ueFound, State.core_points, State.core_record, State.core_bump]

@[simp] theorem State.core_syncFault (code idx src : Nat) (job : BitVec 16) (before inc : Nat) :
    (s.syncFault code idx src job before inc).core = s.core := by
  simp [State.syncFault]

@[simp] theorem State.core_chrEvent (code level device tensor : Nat) (job : BitVec 16) (step : Nat) :
    (s.chrEvent code level device tensor job step).core = s.core := by
  simp [State.chrEvent]

/-! #### Frames (R244 to R256) -/

@[simp] theorem State.core_number (f : Frame) : (s.number f).2.core = s.core := by
  simp only [State.number, State.takeSeq]
  split
  · rfl
  · split <;> rfl

@[simp] theorem State.core_deliver (p : Nat) (f : Frame) : (s.deliver p f).core = s.core := (rfl)

@[simp] theorem State.core_queueAt (e : Nat × Bool × Bool) (f : Frame) : (s.queueAt e f).core = s.core := by
  unfold State.queueAt
  dsimp only
  split <;> rfl

@[simp] theorem State.core_resetSeq (job : BitVec 16) (dst : Nat) (v : Bool) (ch : Nat) : (s.resetSeq job dst v ch).core = s.core := (rfl)

@[simp] theorem State.core_sendReply (f : Frame) : (s.sendReply f).core = s.core := by
  unfold State.sendReply
  dsimp only
  split
  · simp
  · split <;> simp

@[simp] theorem State.core_sendError (p : Nat) (f : Frame) (code : Nat) : (s.sendError p f code).core = s.core := by
  unfold State.sendError
  split
  · rfl
  · dsimp only
    split <;> simp

@[simp] theorem State.core_ownError (f : Frame) : (s.ownError f).core = s.core := by
  unfold State.ownError
  split <;> simp

@[simp] theorem State.core_inject (f : Frame) : (s.inject f).core = s.core := by
  unfold State.inject
  split
  · rfl
  · split <;> simp

@[simp] theorem State.core_sendAll (fs : List Frame) : (s.sendAll fs).core = s.core := by
  induction fs generalizing s with
  | nil => rfl
  | cons f fs ih => simp [State.sendAll, ih]

@[simp] theorem State.core_fabricNotice (job : BitVec 16) (dst kind code : Nat) (rec : List W64) :
    (s.fabricNotice job dst kind code rec).core = s.core :=
  State.core_sendAll _ _

@[simp] theorem State.core_takeBack (gs : List Frame) : (s.takeBack gs).core = s.core := by
  have others (z : State) (js : List JobCtx) (xs : List Xfer) : State.core { z with jobs := js, xfers := xs } = z.core := rfl
  unfold State.takeBack
  refine (others _ _ _).trans ?_
  generalize List.range 40 = ps
  exact State.core_foldl (fun z p => z.core_setPort p _) ps s

/-! #### Messages to hosts (R372 to R380) -/

@[simp] theorem State.core_across (k : Nat) (bs : List Byte) : (s.across k bs).core = s.core := by
  obtain ⟨x, hx⟩ := s.across_eq k bs
  rw [hx]
  rfl

@[simp] theorem State.core_khtSent (bs : List Byte) (o : Out) (p : Fin 3) : (s.khtSent bs o p).core = s.core := by
  unfold State.khtSent State.hostTx
  split <;> simp

@[simp] theorem State.core_datagram (id : BitVec 32) (u : Unacked) : (s.datagram id u).core = s.core := by
  unfold State.datagram
  split
  · rfl
  · split <;> simp

@[simp] theorem State.core_flush (id : BitVec 32) : (s.flush id).core = s.core := by
  unfold State.flush
  split
  · rfl
  · exact State.core_foldl (fun z u => z.core_datagram id u) _ s

@[simp] theorem State.core_sendMsg (id : BitVec 32) (m : OMsg) : (s.sendMsg id m).core = s.core := by
  simp [State.sendMsg]

@[simp] theorem State.core_enq (key : BitVec 256) (m : OMsg) : (s.enq key m).core = s.core := by
  unfold State.enq
  split
  · rfl
  · dsimp only
    split
    · split <;> rfl
    · rfl

@[simp] theorem State.core_noticeHost (p : Pkg) (kind code device : Nat) (rec : List W64) :
    (s.noticeHost p kind code device rec).core = s.core := by
  unfold State.noticeHost State.originate
  split
  · split <;> simp
  · simp

/-! #### The health monitor (R334) -/

@[simp] theorem State.core_healthFabric (js : List JobCtx) : (s.healthFabric js).core = s.core := by
  induction js generalizing s with
  | nil => rfl
  | cons j js ih =>
    refine (ih _).trans (State.core_foldl (fun z d => ?_) _ s)
    split <;> simp

@[simp] theorem State.core_healthHosts (cs : List Conn) : (s.healthHosts cs).core = s.core := by
  induction cs generalizing s with
  | nil => rfl
  | cons c cs ih =>
    refine (ih _).trans ?_
    split <;> simp

@[simp] theorem State.core_setLevel (l : Nat) : (s.setLevel l).core = s.core := by
  unfold State.setLevel
  split
  · rfl
  · rw [State.core_healthHosts, State.core_healthFabric, State.core_chrEvent, State.core_bump]
    rfl

@[simp] theorem State.core_immediate (code : Nat) : (s.immediate code).core = s.core := State.core_setLevel _ 2

/-! #### Crossings and links (R257 to R259, R267 to R269, R454) -/

@[simp] theorem State.core_resetCrossings (ks : List Nat) : (s.resetCrossings ks).core = s.core := by
  induction ks generalizing s with
  | nil => rfl
  | cons k ks ih => exact ih _

@[simp] theorem State.core_sent (p : Nat) (ok : Bool) (f : Frame) : (s.sent p ok f).core = s.core := by
  unfold State.sent
  dsimp only
  split <;> simp

@[simp] theorem State.core_ctrl (p : Nat) (f : Frame) : (s.ctrl p f).core = s.core := by
  unfold State.ctrl
  dsimp only
  split
  · rfl
  · split <;> simp

@[simp] theorem State.core_linkCtrl (kind aux : Nat) (payload : List Byte) (ps : List Nat) :
    (s.linkCtrl kind aux payload ps).core = s.core := by
  induction ps generalizing s with
  | nil => rfl
  | cons p ps ih => exact (ih _).trans (s.core_ctrl p _)

@[simp] theorem State.core_setSt (p st : Nat) : (s.setSt p st).core = s.core := by
  unfold State.setSt
  dsimp only
  split <;> simp

@[simp] theorem State.core_answer (p : Nat) (f : Frame) (code : Nat) : (s.answer p f code).core = s.core := by
  unfold State.answer
  dsimp only
  split <;> simp

@[simp] theorem State.core_unreachable (p : Nat) (f : Frame) : (s.unreachable p f).core = s.core := by
  unfold State.unreachable
  split
  · rfl
  · split <;> simp

@[simp] theorem State.core_detourAll (p k t : Nat) (fs : List Frame) : (s.detourAll p k t fs).core = s.core := by
  induction fs generalizing s with
  | nil => rfl
  | cons f fs ih =>
    refine (ih _).trans ?_
    split
    · rfl
    · split <;> simp

@[simp] theorem State.core_attemptFails (p : Nat) : (s.attemptFails p).core = s.core := by
  simp [State.attemptFails]

@[simp] theorem State.core_linkLost (p : Nat) (quarantine : Bool) : (s.linkLost p quarantine).core = s.core := by
  unfold State.linkLost State.downEvent
  dsimp only
  split <;> simp

@[simp] theorem State.core_violation (p code : Nat) (f : Frame) (rec' : Bool) : (s.violation p code f rec').core = s.core := by
  unfold State.violation
  dsimp only
  split <;> simp

@[simp] theorem State.core_police (p : Nat) : (s.police p).core = s.core := by
  unfold State.police
  dsimp only
  split <;> simp

/-! #### Tallies (R279 to R281) -/

@[simp] theorem State.core_enterTally (f : Frame) (bad : Bool) : (s.enterTally f bad).core = s.core := by
  unfold State.enterTally
  split <;> rfl

@[simp] theorem State.core_openTally (f : Frame) : (s.openTally f).core = s.core := by
  unfold State.openTally
  split <;> simp

@[simp] theorem State.core_addTally (f : Frame) (bad : Bool) : (s.addTally f bad).core = s.core := by
  unfold State.addTally
  dsimp only
  split
  · exact s.core_enterTally f true
  · exact s.core_openTally f

@[simp] theorem State.core_forget (f : Frame) : (s.forget f).core = s.core := by
  unfold State.forget
  split
  · split <;> rfl
  · rfl

@[simp] theorem State.core_failFrame (p : Nat) (f : Frame) (code : Nat) : (s.failFrame p f code).core = s.core := by
  unfold State.failFrame
  split
  · simp
  · split <;> simp

@[simp] theorem State.core_drained (p : PortId) (f : Frame) : (s.drained p f).core = s.core := (rfl)

@[simp] theorem State.core_expireTallies : s.expireTallies.core = s.core := (rfl)

end

/-! ### What stopping work leaves of the stacked memory

While words in progress stop and packages are abandoned, of the stacked memory only bytes, uncorrectable beats and the record of the
beat found last may change: channels stay failed, and the hold and the refresh intervals stay as they are. -/

/-- The stacked memory but for its bytes, its uncorrectable beats and the record of the beat found last. -/
def State.care (s : State) : MemState := { s.mem with dram := [], poison := [], found := (0, 0) }

section
variable {s z : State} (h : z.care = s.care)
include h

theorem State.failed_of_care : z.mem.failed = s.mem.failed := (congrArg MemState.failed h :)

theorem State.hold_of_care : z.mem.hold = s.mem.hold := (congrArg MemState.hold h :)

theorem State.slow_of_care : z.mem.slow = s.mem.slow := (congrArg MemState.slow h :)

end

theorem State.care_of_core {s z : State} (h : z.core = s.core) : z.care = s.care := by
  rw [State.care, State.mem_of_core h, State.care]

/-- Scratchpads, bytes and correct beats are none of it. -/
theorem Moved.care {s z : State} {t : Nat} (h : Moved s z t) : z.care = s.care := h.read State.care fun _ _ _ _ _ => rfl

theorem State.care_foldl {α : Type} {f : State → α → State} (hf : ∀ z x, (f z x).care = z.care) (xs : List α) (s : State) :
    (xs.foldl f s).care = s.care :=
  List.foldlRecOn (motive := fun z => z.care = s.care) xs f rfl fun z kept x _ => (hf z x).trans kept

section
variable (s : State)

@[simp] theorem State.care_setTile (t : Nat) (x : TileState) : (s.setTile t x).care = s.care := (rfl)

@[simp] theorem State.care_bump (k n : Nat) : (s.bump k n).care = s.care := (rfl)

@[simp] theorem State.care_updPkg (g : Nat) (f : Pkg → Pkg) : (s.updPkg g f).care = s.care := (rfl)

@[simp] theorem State.care_noticeHost (p : Pkg) (kind code device : Nat) (rec : List W64) :
    (s.noticeHost p kind code device rec).care = s.care :=
  State.care_of_core (s.core_noticeHost p kind code device rec)

@[simp] theorem State.care_fabricNotice (job : BitVec 16) (dst kind code : Nat) (rec : List W64) :
    (s.fabricNotice job dst kind code rec).care = s.care :=
  State.care_of_core (s.core_fabricNotice job dst kind code rec)

@[simp] theorem State.care_sendAll (fs : List Frame) : (s.sendAll fs).care = s.care := State.care_of_core (s.core_sendAll fs)

@[simp] theorem State.care_chrEvent (code level device tensor : Nat) (job : BitVec 16) (step : Nat) :
    (s.chrEvent code level device tensor job step).care = s.care :=
  State.care_of_core (s.core_chrEvent code level device tensor job step)

@[simp] theorem State.care_immediate (code : Nat) : (s.immediate code).care = s.care := State.care_of_core (s.core_immediate code)

@[simp] theorem State.care_countXlate (c : Nat) : (s.countXlate c).care = s.care := by
  unfold State.countXlate
  split <;> rfl

@[simp] theorem State.care_countFormats (old new : Tally) : (s.countFormats old new).care = s.care :=
  (Unwritten.countFormats s 0 old new).moved.care

/-! #### Wake wires and counts -/

@[simp] theorem State.care_wakeAll (ts : List Nat) : (s.wakeAll ts).care = s.care := by
  induction ts generalizing s with
  | nil => rfl
  | cons t ts ih => exact ih (s.wake t)

@[simp] theorem State.care_raiseCount (job : BitVec 16) (i inc src : Nat) : (s.raiseCount job i inc src).2.care = s.care := by
  unfold State.raiseCount
  split
  · rfl
  · dsimp only
    split
    · rw [State.care_bump]
      exact State.care_of_core (s.core_syncFault _ i src job _ inc)
    · exact State.care_wakeAll _ _

/-! #### Memory -/

@[simp] theorem State.care_ueEach (finder : Nat) (bs : List Nat) : (s.ueEach finder bs).care = s.care := by
  induction bs generalizing s with
  | nil => rfl
  | cons b bs ih =>
    unfold State.ueEach
    rw [ih]
    exact State.care_of_core (s.core_ueFound b finder)

@[simp] theorem State.care_ueAll (finder : Nat) (bs : List Nat) : (s.ueAll finder bs).care = s.care := by
  have noted (z : State) (x : W64 × W64) : State.care { z with mem := { z.mem with found := x } } = z.care := rfl
  cases bs with
  | nil => rfl
  | cons b bs => rw [State.ueAll, noted, State.care_ueEach]

@[simp] theorem State.care_writePlaces (ws : List (Place × Byte)) (finder : Nat) : (s.writePlaces ws finder).2.care = s.care := by
  have put (z : State) (w : Place × Byte) : (z.putByte w.1 w.2).care = z.care := (Moved.putByte z 0 w.1 w.2).care
  have cleared (z : State) (w : Place × Byte) : State.care (match w.1 with
      | .dram k => { z with mem := { z.mem with poison := Sp.drop z.mem.poison (k / 32) } }
      | .scratch _ _ => z) = z.care := by split <;> rfl
  unfold State.writePlaces
  dsimp only
  split
  · exact (State.care_foldl cleared _ _).trans (State.care_foldl put _ s)
  · exact (State.care_ueAll _ _ _).trans ((State.care_foldl cleared _ _).trans (State.care_foldl put _ s))

@[simp] theorem State.care_writeMem (job : BitVec 16) (o : Origin) (v : Bool) (a : Nat) (bs : List Byte) :
    (s.writeMem job o v a bs).2.care = s.care := by
  unfold State.writeMem
  split <;> simp

/-! #### Words in progress (R72, R78) -/

@[simp] theorem State.care_passLeft (t : Nat) (w : EngWord) (r : VRun) (draws batch : Nat) (chain : List ChainBatch) :
    (s.passLeft t w r draws batch chain).s.care = s.care := by
  simp [State.passLeft]

@[simp] theorem State.care_moveLeft (t : Nat) (v : Bool) (job : BitVec 16) (w : EngWord) (o : MoveOp) (r : MDone) (pos : Nat)
    (held : MHeld) : (s.moveLeft t v job w o r pos held).s.care = s.care := by
  have cleared (z : State) (cov : List Int) : (z.clearBeats t v job o.dst.dram cov).care = z.care :=
    (Unwritten.clearBeats z t t v job o.dst.dram cov).moved.care
  have written : (r.writes.foldl (fun (s : State) w => s.moveWrite t v job o.dst.dram w) s).care = s.care :=
    (Moved.moveWrites s t v job o.dst.dram r.writes).care
  unfold State.moveLeft State.moveFault
  dsimp only
  generalize hz : (if o.kind = 3 then _ else _) = z
  have kept : z.care = s.care := by
    subst hz
    split
    · exact written
    · exact (State.care_foldl cleared r.covers _).trans written
  have counted (x : State) (range narrow : Nat) : (x.countMove range narrow).care = x.care := (Unwritten.countMove x 0 range narrow).moved.care
  split <;> simp [counted, kept]

@[simp] theorem State.care_writeRecord (t : Nat) (v : Bool) (c : Ctx) (off dest raise : Nat) (bs : List Byte) :
    (s.writeRecord t v c off dest raise bs).s.care = s.care := by
  have written {f : Option Nat} {z : State} (e : s.writeMem c.job .tile v dest bs = (f, z)) : z.care = s.care := by
    rw [← s.care_writeMem c.job .tile v dest bs, e]
  unfold State.writeRecord
  dsimp only
  generalize (_ || _) = here
  split
  · split
    · next e => exact written e
    · next z e =>
      split
      · exact (z.care_raiseCount c.job _ 1 _).trans (written e)
      · exact written e
  · exact State.care_sendAll _ _

@[simp] theorem State.care_runRecs (t : Nat) (v : Bool) (c : Ctx) (w : EngWord) (n : Nat) : (s.runRecs t v c w n).s.care = s.care := by
  unfold State.runRecs
  split
  · rfl
  · rfl
  · dsimp only
    split <;> simp

@[simp] theorem State.care_runWord (t : Nat) (v : Bool) (c : Ctx) (w : EngWord) (n : Nat) : (s.runWord t v c w n).s.care = s.care := by
  unfold State.runWord
  split
  · exact State.care_countFormats _ _ _
  · exact State.care_countFormats _ _ _
  · exact State.care_passLeft _ _ _ _ _ _ _
  · exact State.care_moveLeft _ _ _ _ _ _ _ _ _
  · exact State.care_runRecs _ _ _ _ _ _
  · exact State.care_runRecs _ _ _ _ _ _
  · rfl

@[simp] theorem State.care_stopWord (t : Nat) (v : Bool) (c : Ctx) (w : EngWord) : (s.stopWord t v c w).s.care = s.care := by
  unfold State.stopWord
  dsimp only
  split
  · exact State.care_passLeft _ _ _ _ _ _ _
  · exact State.care_moveLeft _ _ _ _ _ _ _ _ _
  · exact State.care_runWord _ _ _ _ _ _

@[simp] theorem State.care_stopFrom (t : Nat) (v : Bool) (c : Ctx) (k : Nat) (ws : List EngWord) :
    (State.stopFrom t v c k ws s).1.care = s.care := by
  induction ws generalizing s k with
  | nil => rfl
  | cons w ws ih =>
    unfold State.stopFrom
    split
    · dsimp only
      split
      · exact (ih _ _).trans (s.care_stopWord t v c w)
      · exact (ih _ _).trans (s.care_stopWord t v c w)
    · exact ih _ _

@[simp] theorem State.care_noteFaults (t : Nat) (c : Ctx) (fs : List (Nat × BitVec 32)) : (s.noteFaults t c fs).care = s.care := by
  induction fs generalizing s with
  | nil => rfl
  | cons f fs ih =>
    refine (ih _).trans (State.care_of_core ?_)
    simp [State.noteFault]

@[simp] theorem State.care_recall (t : Nat) (v : Bool) : (s.recall t v).care = s.care := by
  unfold State.recall
  split
  · rfl
  · dsimp only
    split
    · rfl
    · exact State.care_of_core (s.drawn.core_takeBack _)

@[simp] theorem State.care_haltCtx (tag t : Nat) (v : Bool) : (s.haltCtx tag t v).care = s.care := by
  unfold State.haltCtx
  split
  · rfl
  · split
    · dsimp only
      split <;> simp
    · rfl

@[simp] theorem State.care_haltTag (tag : Nat) (ts : List Nat) : (s.haltTag tag ts).care = s.care := by
  induction ts generalizing s with
  | nil => rfl
  | cons t ts ih => simp [State.haltTag, ih]

/-! #### The end of packages (R78, R335) -/

@[simp] theorem State.care_dropTag (tag : Nat) (ts : List Nat) : (s.dropTag tag ts).care = s.care := by
  induction ts generalizing s with
  | nil => rfl
  | cons t ts ih => exact ih _

@[simp] theorem State.care_sendLate (tag cause fault : Nat) : (s.sendLate tag cause fault).care = s.care := by
  unfold State.sendLate
  split
  · rfl
  · split
    · rfl
    · dsimp only
      split
      · split <;> simp
      · simp

@[simp] theorem State.care_removePkg (g : Nat) : (s.removePkg g).care = s.care := by
  unfold State.removePkg
  split
  · rfl
  · dsimp only
    split <;> rfl

@[simp] theorem State.care_abandon (g code tile kernel index : Nat) (hw : Bool) : (s.abandon g code tile kernel index hw).care = s.care := by
  unfold State.abandon
  split
  · rfl
  · dsimp only
    rw [State.care_removePkg]
    generalize hz : State.noticeHost _ _ _ _ _ _ = z
    have told : z.care = s.care := by
      subst hz
      rw [State.care_noticeHost, State.care_bump, State.care_bump]
      exact (State.care_wakeAll _ _).trans ((State.care_dropTag _ _ _).trans (s.care_haltTag g _))
    generalize hy : (if hw then _ else z) = y
    have late : y.care = s.care := by
      subst hy
      split
      · exact (z.care_sendLate _ _ _).trans told
      · exact told
    split
    · split
      · exact late
      · exact (y.care_fabricNotice _ _ _ _ _).trans late
    · exact late

@[simp] theorem State.care_abandonAll (code tile : Nat) (hw : Bool) (gs : List Nat) : (s.abandonAll code tile hw gs).care = s.care := by
  induction gs generalizing s with
  | nil => rfl
  | cons g gs ih => simp [State.abandonAll, ih]

@[simp] theorem State.care_withdraw : s.withdraw.care = s.care := by
  unfold State.withdraw
  split
  · rfl
  · dsimp only
    rw [State.care_abandonAll, State.care_chrEvent, State.care_immediate]
    rfl

end

/-! ### Packages that are abandoned (R78, R335) -/

theorem State.abandonAll_recedes {s0 s : State} (h : Recedes s0 s) {code tile : Nat} {hw : Bool} {gs : List Nat} :
    Recedes s0 (s.abandonAll code tile hw gs) := by
  induction gs generalizing s with
  | nil => exact h
  | cons g gs ih => exact ih (State.abandon_recedes h)

theorem State.withdraw_recedes {s0 s : State} (h : Recedes s0 s) : Recedes s0 s.withdraw := by
  unfold State.withdraw
  split
  · exact h
  · dsimp only
    generalize hz : State.chrEvent _ _ _ _ _ _ _ = z
    have told : z.core = s.core := by
      subst hz
      rw [State.core_chrEvent, State.core_immediate]
      rfl
    exact State.abandonAll_recedes (h.upd (State.tiles_of_core told) (State.pkgs_of_core told))

/-- Packages that are abandoned are no longer held. -/
theorem State.pkg?_abandonAll (s : State) {code tile : Nat} {hw : Bool} {gs : List Nat} {g : Nat} (hg : g ∈ gs) :
    (s.abandonAll code tile hw gs).pkg? g = none := by
  induction gs generalizing s with
  | nil => cases hg
  | cons x xs ih =>
    rcases List.mem_cons.mp hg with rfl | hg
    · refine Recedes.gone ?_ (State.pkg?_abandon s g code tile 0 0 hw)
      exact State.abandonAll_recedes (Recedes.refl _)
    · exact ih _ hg

/-- A module without packages that withdraws leaves its memory, its tiles and that. -/
theorem State.core_withdraw {s : State} (h : s.pkgs = []) : s.withdraw.core = s.core := by
  unfold State.withdraw
  split
  · rfl
  · dsimp only
    generalize hz : State.immediate _ _ = z
    have told : z.core = s.core := by
      subst hz
      rw [State.core_immediate]
      rfl
    have none : z.running = [] := by rw [State.running, State.pkgs_of_core told, h]; rfl
    rw [none]
    exact (z.core_chrEvent _ _ _ _ _ _).trans told

end Sys2Proof.Machine
end

section
/-!
Requests to a channel (R187, R189, R193, R195, R200, R212, R449 to R453): what a write of consecutive bytes leaves, which request a
controller takes (`inTurn`), what the check code says, what CHANNEL_REQUEST does in each case, and the values of atomic operations.
-/
namespace Sys2Proof.Machine

/-! ### A write of consecutive bytes of the stacked memory (R187, R195) -/

/-- The request that writes bytes at consecutive places from `k` on. -/
def dramWrites (k : Nat) (bs : List Byte) : List (Place × Byte) :=
  List.zip ((List.range bs.length).map fun i => Place.dram (k + i)) bs

theorem dramWrites_cons (k : Nat) (b : Byte) (bs : List Byte) : dramWrites k (b :: bs) = (Place.dram k, b) :: dramWrites (k + 1) bs := by
  have shift : (fun i => Place.dram (k + i)) ∘ Nat.succ = fun i => Place.dram (k + 1 + i) :=
    funext fun i => congrArg Place.dram (Nat.succ_add_eq_add_succ k i).symm
  rw [dramWrites, List.length_cons, List.range_succ_eq_map, List.map_cons, List.map_map, List.zip_cons_cons, shift]
  rfl

/-- Its places are bytes of the stacked memory from `k` on. -/
theorem exists_of_mem_dramWrites {k : Nat} {bs : List Byte} {w : Place × Byte} (h : w ∈ dramWrites k bs) :
    ∃ i, i < bs.length ∧ w.1 = .dram (k + i) := by
  obtain ⟨i, hi, place⟩ := List.mem_map.mp (List.of_mem_zip h).1
  exact ⟨i, List.mem_range.mp hi, place.symm⟩

/-- The state with other bytes in the stacked memory and other beats uncorrectable. -/
def State.withDram (s : State) (m : Mem) (p : Sp Bool) : State := { s with mem := { s.mem with dram := m, poison := p } }

/-- Steps that change no more than which beats are uncorrectable change no more than that. -/
theorem State.foldl_poison {f : State → Place × Byte → State} (hf : ∀ z w, ∃ p, f z w = z.withDram z.mem.dram p)
    (ws : List (Place × Byte)) (s : State) : ∃ p, ws.foldl f s = s.withDram s.mem.dram p := by
  refine List.foldlRecOn (motive := fun z => ∃ p, z = s.withDram s.mem.dram p) ws f ⟨s.mem.poison, rfl⟩ ?_
  rintro _ ⟨p, rfl⟩ w -
  exact hf _ w

section
variable (s : State) {k : Nat} {bs : List Byte}

/-- Putting bytes at consecutive places writes them in the stacked memory, and does nothing else. -/
theorem State.put_dramWrites (k : Nat) (bs : List Byte) : (dramWrites k bs).foldl (fun (s : State) w => s.putByte w.1 w.2) s =
    s.withDram (Mem.setBytes s.mem.dram k bs) s.mem.poison := by
  induction bs generalizing s k with
  | nil => rfl
  | cons b bs ih =>
    rw [dramWrites_cons, List.foldl_cons, ih]
    rfl

variable (sound : ∀ i, i < bs.length → Sp.get false s.mem.poison ((k + i) / 32) = false)
include sound

theorem State.badBeats_dramWrites : s.badBeats (dramWrites k bs) = [] := by
  have none : ((dramWrites k bs).map (·.1)).filter s.poisonAt = [] := by
    refine List.filter_eq_nil_iff.mpr fun p hp => ?_
    obtain ⟨w, hw, rfl⟩ := List.mem_map.mp hp
    obtain ⟨i, hi, place⟩ := exists_of_mem_dramWrites hw
    rw [place, State.poisonAt, sound i hi]
    exact Bool.false_ne_true
  rw [State.badBeats, State.badOf, none]
  rfl

/-- A request none of whose places lies in an uncorrectable beat writes its bytes, and changes nothing else but which beats are
uncorrectable. -/
theorem State.writePlaces_dramWrites (finder : Nat) :
    ∃ p, s.writePlaces (dramWrites k bs) finder = (none, s.withDram (Mem.setBytes s.mem.dram k bs) p) := by
  unfold State.writePlaces
  dsimp only
  rw [s.badBeats_dramWrites sound]
  generalize hw : List.filter _ (dramWrites k bs) = ws
  have whole : ws = dramWrites k bs := by
    subst hw
    refine List.filter_eq_self.mpr fun w _ => ?_
    split <;> rfl
  rw [whole, State.put_dramWrites]
  generalize hz : List.foldl _ _ _ = z
  have cleared : ∃ p, z = s.withDram (Mem.setBytes s.mem.dram k bs) p := by
    subst hz
    refine State.foldl_poison (fun z w => ?_) _ (s.withDram _ _)
    split
    · exact ⟨_, rfl⟩
    · exact ⟨z.mem.poison, rfl⟩
  obtain ⟨p, rfl⟩ := cleared
  exact ⟨p, rfl⟩

end

/-! ### Which request a controller serves (R189) -/

theorem exists_leastBy {α : Type} (m : α → Nat) {l : List α} (h : l ≠ []) : ∃ x, leastBy m l = some x := by
  cases l with
  | nil => exact absurd rfl h
  | cons y ys =>
    rw [leastBy]
    split
    · exact ⟨_, rfl⟩
    · split <;> exact ⟨_, rfl⟩

theorem leastBy_le {α : Type} {m : α → Nat} {l : List α} {x : α} (h : leastBy m l = some x) : ∀ y ∈ l, m x ≤ m y := by
  induction l generalizing x with
  | nil => nofun
  | cons z zs ih =>
    rw [leastBy] at h
    cases hm : leastBy m zs with
    | none =>
      have empty : zs = [] := by
        by_contra some
        obtain ⟨y, hy⟩ := exists_leastBy m some
        rw [hm] at hy
        cases hy
      rw [hm] at h
      cases h
      simp [empty]
    | some u =>
      rw [hm] at h
      have least := ih hm
      dsimp only at h
      split at h
      · next before =>
        cases h
        exact List.forall_mem_cons.mpr ⟨le_rfl, fun y hy => before.trans (least y hy)⟩
      · next after =>
        cases h
        exact List.forall_mem_cons.mpr ⟨by omega, least⟩

/-- A request is of the class that is served, and its requester's turn is to come, or has come round to all. -/
def inTurn (turn : Bool → Nat) (qs : List ChReq) (q : ChReq) : Bool :=
  let v := qs.any (·.vesper)
  q.vesper == v && (decide (turn v ≤ q.requester) || !(qs.any fun r => r.vesper == v && decide (turn v ≤ r.requester)))

section
variable {turn : Bool → Nat} {qs : List ChReq} {q : ChReq}

theorem nextRequest_eq : nextRequest turn qs = (leastBy (·.requester) (qs.filter (inTurn turn qs))).bind fun q =>
    (qs.filter (inTurn turn qs)).find? fun x => x.requester == q.requester := by
  have candidates : (let v := qs.any (·.vesper)
      let mine := qs.filter fun q => q.vesper == v
      let ahead (q : ChReq) : Bool := decide (turn v ≤ q.requester)
      if mine.any ahead then mine.filter ahead else mine) = qs.filter (inTurn turn qs) := by
    unfold inTurn
    dsimp only
    generalize qs.any (·.vesper) = v
    rw [List.any_filter]
    cases qs.any fun r => r.vesper == v && decide (turn v ≤ r.requester)
    · simp
    · simp [List.filter_filter, Bool.and_comm]
  rw [← candidates]
  unfold nextRequest
  dsimp only
  split
  · next h => rw [h]; rfl
  · next h => rw [h]; rfl

theorem inTurn_iff : inTurn turn qs q = true ↔ q.vesper = qs.any (·.vesper) ∧
    (turn q.vesper ≤ q.requester ∨ ∀ r ∈ qs, r.vesper = q.vesper → r.requester < turn q.vesper) := by
  unfold inTurn
  dsimp only
  generalize qs.any (·.vesper) = v
  simp only [Bool.and_eq_true, beq_iff_eq, Bool.or_eq_true, decide_eq_true_eq, Bool.not_eq_true', List.any_eq_false, not_and, not_le]
  constructor
  · rintro ⟨rfl, h⟩
    exact ⟨rfl, h⟩
  · rintro ⟨rfl, h⟩
    exact ⟨rfl, h⟩

/-- Of a class that has requests some requester's turn is to come, or has come round to all. -/
theorem exists_inTurn (h : qs ≠ []) : ∃ q ∈ qs, inTurn turn qs q = true := by
  have served : ∃ q ∈ qs, q.vesper = qs.any (·.vesper) := by
    cases hv : qs.any (·.vesper) with
    | true => exact List.any_eq_true.mp hv
    | false =>
      obtain ⟨q, hq⟩ := List.exists_mem_of_ne_nil qs h
      exact ⟨q, hq, Bool.eq_false_iff.mpr (List.any_eq_false.mp hv q hq)⟩
  obtain ⟨q, hq, hv⟩ := served
  by_cases ahead : ∃ r ∈ qs, r.vesper = q.vesper ∧ turn q.vesper ≤ r.requester
  · obtain ⟨r, hr, class', le⟩ := ahead
    exact ⟨r, hr, inTurn_iff.mpr ⟨class'.trans hv, .inl (class' ▸ le)⟩⟩
  · refine ⟨q, hq, inTurn_iff.mpr ⟨hv, .inr fun r hr class' => ?_⟩⟩
    by_contra le
    exact ahead ⟨r, hr, class', not_lt.mp le⟩

theorem exists_nextRequest (h : qs ≠ []) : ∃ q, nextRequest turn qs = some q := by
  obtain ⟨q, hq, turn'⟩ := exists_inTurn (turn := turn) h
  obtain ⟨x, least⟩ := exists_leastBy (·.requester) (List.ne_nil_of_mem (List.mem_filter.mpr ⟨hq, turn'⟩))
  rw [nextRequest_eq, least, Option.bind_some]
  refine Option.isSome_iff_exists.mp (List.find?_isSome.mpr ⟨x, leastBy_mem least, ?_⟩)
  simp

/-- What is served is the oldest request of the requester with the lowest number among those in turn. -/
theorem nextRequest_some (h : nextRequest turn qs = some q) : q ∈ qs ∧ inTurn turn qs q = true ∧
    (∀ r ∈ qs, inTurn turn qs r = true → q.requester ≤ r.requester) ∧
    qs.find? (fun x => inTurn turn qs x && x.requester == q.requester) = some q := by
  rw [nextRequest_eq, Option.bind_eq_some_iff] at h
  obtain ⟨x, least, found⟩ := h
  have same := List.find?_some found
  rw [beq_iff_eq] at same
  obtain ⟨mem, turn'⟩ := List.mem_filter.mp (List.mem_of_find?_eq_some found)
  refine ⟨mem, turn', fun r hr hturn => ?_, ?_⟩
  · rw [same]
    exact leastBy_le least r (List.mem_filter.mpr ⟨hr, hturn⟩)
  · rw [List.find?_filter, ← same] at found
    simpa only [Bool.decide_and, Bool.decide_eq_true] using found

variable (h : nextRequest turn qs = some q)
include h

/-- Noon is served only where no Vesper request waits. -/
theorem nextRequest_class : q.vesper = false → ∀ r ∈ qs, r.vesper = false := by
  obtain ⟨-, turn', -⟩ := nextRequest_some h
  obtain ⟨hv, -⟩ := inTurn_iff.mp turn'
  intro noon r hr
  rw [noon] at hv
  exact Bool.eq_false_iff.mpr (List.any_eq_false.mp hv.symm r hr)

/-- A requester whose turn is to come goes before those whose turn has been, and the next in the rotation goes first. -/
theorem nextRequest_ahead : ∀ r ∈ qs, r.vesper = q.vesper → turn q.vesper ≤ r.requester →
    turn q.vesper ≤ q.requester ∧ q.requester ≤ r.requester := by
  obtain ⟨-, turn', least, -⟩ := nextRequest_some h
  obtain ⟨hv, place⟩ := inTurn_iff.mp turn'
  intro r hr class' ahead
  refine ⟨?_, least r hr (inTurn_iff.mpr ⟨class'.trans hv, .inl (class' ▸ ahead)⟩)⟩
  rcases place with ahead' | past
  · exact ahead'
  · exact absurd (past r hr class') (not_lt.mpr ahead)

/-- Where every turn has been, the rotation begins anew. -/
theorem nextRequest_anew (past : ∀ r ∈ qs, r.vesper = q.vesper → r.requester < turn q.vesper) :
    ∀ r ∈ qs, r.vesper = q.vesper → q.requester ≤ r.requester := by
  obtain ⟨-, turn', least, -⟩ := nextRequest_some h
  obtain ⟨hv, -⟩ := inTurn_iff.mp turn'
  intro r hr class'
  refine least r hr (inTurn_iff.mpr ⟨class'.trans hv, .inr fun x hx hc => ?_⟩)
  rw [class'] at hc ⊢
  exact past x hx hc

/-- Of its requester and class the oldest request is served. -/
theorem nextRequest_oldest : qs.find? (fun x => x.vesper == q.vesper && x.requester == q.requester) = some q := by
  obtain ⟨-, turn', -, oldest⟩ := nextRequest_some h
  obtain ⟨hv, place⟩ := inTurn_iff.mp turn'
  refine (List.find?_congr fun x _ => ?_).trans oldest
  rw [Bool.eq_iff_iff]
  simp only [Bool.and_eq_true, beq_iff_eq, inTurn_iff]
  constructor
  · rintro ⟨class', same⟩
    rw [class', same]
    exact ⟨⟨hv, place⟩, rfl⟩
  · rintro ⟨⟨class', -⟩, same⟩
    exact ⟨class'.trans hv.symm, same⟩

end

/-! ### The check code (R193) -/

section
variable {e : BeatErr}

theorem beatCheck_wrong (h : e.wrongAddress = true) : beatCheck e = .uncorrectable := by
  rw [beatCheck, if_pos h]

theorem beatCheck_one {a : Fin 36} (h : e.wrongAddress = false) (ha : e.symbols = [a]) : beatCheck e = .corrected := by
  simp [beatCheck, h, ha, List.eraseDups_cons]

theorem beatCheck_two {a b : Fin 36} (h : e.wrongAddress = false) (hab : a ≠ b) (hs : e.symbols = [a, b]) :
    beatCheck e = .uncorrectable := by
  simp [beatCheck, h, hs, List.eraseDups_cons, hab.symm]

end

/-! ### CHANNEL_REQUEST (R189, R195, R200, R449, R450, R453) -/

/-- The state in which the rotation has moved past a request's requester. -/
def State.turned (s : State) (ch : Nat) (q : ChReq) : State :=
  { s with mem := { s.mem with turn := Sp.put 0 s.mem.turn (ch * 2 + bit q.vesper) (q.requester + 1) } }

/-- What serving a request comes to: the code it meets, if any, and the state. -/
def State.served (s : State) (ch : Nat) (q : ChReq) : Option Nat × State :=
  (((s.turned ch q).dramItems ch q).observeAll ch (chReadBeats q) q.errors).serveOver ch q

section
variable {s : State} {ch : TileId} {qs : List ChReq} (alive : s.alive = true)
include alive

theorem exec_channelRequest_failed (failed : Sp.get false s.mem.failed ch.val = true) :
    exec (.channelRequest ch qs) s = .next (s.refuseAll qs) := by
  change execChannelRequest ch qs s = _
  simp only [execChannelRequest, alive, failed, Bool.not_true, Bool.false_eq_true, if_false, if_true]

variable (service : Sp.get false s.mem.failed ch.val = false)
include service

theorem exec_channelRequest_refresh (refresh : s.refreshDue ch.val = true) : exec (.channelRequest ch qs) s = .next s := by
  change execChannelRequest ch qs s = _
  simp only [execChannelRequest, alive, service, refresh, Bool.not_true, Bool.false_eq_true, if_false, if_true]

theorem exec_channelRequest_served (refresh : s.refreshDue ch.val = false) {q : ChReq}
    (next : nextRequest (fun v => Sp.get 0 s.mem.turn (ch.val * 2 + bit v)) qs = some q) (ok : chOk q = true) :
    exec (.channelRequest ch qs) s =
      .next (match (s.served ch.val q).1 with | none => (s.served ch.val q).2 | some f => (s.served ch.val q).2.faultOf q f) := by
  change execChannelRequest ch qs s = _
  simp only [execChannelRequest, alive, service, refresh, next, ok, Bool.not_true, Bool.false_eq_true, if_false]
  change (match s.served ch.val q with | (none, z) => Host.Outcome.next z | (some f, z) => .next (z.faultOf q f)) = _
  obtain ⟨_ | f, z⟩ := s.served ch.val q
  · rfl
  · rfl

end

/-- What has changed crossings only changes crossings only by what passes through one more. -/
theorem State.across_crossed {s z : State} (h : ∃ x, z = { s with crossings := x }) (k : Nat) (bs : List Byte) :
    ∃ x, z.across k bs = { s with crossings := x } := by
  obtain ⟨x, rfl⟩ := h
  exact State.across_eq { s with crossings := x } k bs

section
variable (s : State) (ch : Nat) (q : ChReq)

/-- What passes the crossings of a channel changes crossings only. -/
theorem State.dramItems_eq : ∃ x, s.dramItems ch q = { s with crossings := x } := by
  unfold State.dramItems
  refine State.across_crossed (State.across_crossed ?_ _ _) _ _
  split
  · exact s.across_eq _ _
  · exact ⟨s.crossings, rfl⟩

/-- Beats that come without errors are read without an effect. -/
theorem State.observeAll_clean (bs : List Nat) : s.observeAll ch bs [] = s := by
  cases bs <;> rfl

/-- A request without an overrun is served once. -/
theorem State.serveOver_once (h : q.overruns = 0) : s.serveOver ch q = s.serve ch q := by
  unfold State.serveOver
  split
  · rfl
  · simp only [h]
    rfl

variable {q} {d : List Byte} (write : q.op = .write d)
include write

theorem State.serve_write : s.serve ch q = s.writePlaces (dramWrites (ch * 2 ^ 32 + q.addr.toNat) d) 3 := by
  simp only [State.serve, write, chPlaces, chLen, dramWrites]

/-- A write that meets no error writes its bytes; it changes crossings, the rotation, and which beats are uncorrectable besides. -/
theorem State.served_write (errors : q.errors = []) (overruns : q.overruns = 0) (sound : s.mem.poison = []) : ∃ x p,
    s.served ch q = (none, State.withDram { s.turned ch q with crossings := x }
      (Mem.setBytes s.mem.dram (ch * 2 ^ 32 + q.addr.toNat) d) p) := by
  obtain ⟨x, items⟩ := (s.turned ch q).dramItems_eq ch q
  rw [State.served, errors, State.observeAll_clean, State.serveOver_once _ _ _ overruns, State.serve_write _ _ write, items]
  have correct : ∀ i, i < d.length →
      Sp.get false ({ s.turned ch q with crossings := x } : State).mem.poison ((ch * 2 ^ 32 + q.addr.toNat + i) / 32) = false := by
    intro i _
    have none : ({ s.turned ch q with crossings := x } : State).mem.poison = [] := sound
    rw [none]
    rfl
  obtain ⟨p, written⟩ := State.writePlaces_dramWrites _ correct 3
  exact ⟨x, p, written⟩

end

/-! ### Atomic operations (R212) -/

theorem sgn_toNat (x : BitVec 64) : sgn 64 x.toNat = x.toInt := by
  have small : x.toNat % 2 ^ 64 = x.toNat := Nat.mod_eq_of_lt x.isLt
  rw [sgn, small, BitVec.toInt_eq_toNat_cond]
  split <;> split <;> omega

end Sys2Proof.Machine

/-! ### The obligations on stacked memory, channel requests and atomic operations -/

section
open Sys2Proof Sys2Proof.Machine

/-- Settles O13: the request writes its bytes, and nothing else but which beats are uncorrectable. -/
theorem writesReadBack : Obligations.WritesReadBack := by
  intro s k bs finder sound ws r
  obtain ⟨p, written⟩ := s.writePlaces_dramWrites sound finder
  have hr : r = (none, s.withDram (Mem.setBytes s.mem.dram k bs) p) := written
  rw [hr]
  exact ⟨rfl, Mem.bytes_setBytes _ _ _, fun a outside => Mem.get_setBytes_outside _ _ _ outside, fun _ _ => rfl⟩

/-- Settles O36: what the controller does in each case, which request it takes (`inTurn`), and what the check code says. -/
theorem channelRequests : Obligations.ChannelRequests := by
  refine ⟨fun s ch qs alive => ⟨exec_channelRequest_failed alive, exec_channelRequest_refresh alive, fun q service refresh next ok => ?_⟩,
    fun e => ⟨beatCheck_wrong, fun a => beatCheck_one, fun a b => beatCheck_two⟩,
    fun turn qs => ⟨exists_nextRequest, fun q next => ?_⟩⟩
  · have served := exec_channelRequest_served alive service refresh next ok
    refine ⟨served, fun d write errors overruns sound => ?_⟩
    obtain ⟨x, p, written⟩ := s.served_write ch.val write errors overruns sound
    rw [written] at served
    exact ⟨_, served, Mem.bytes_setBytes _ _ _, rfl, rfl⟩
  · obtain ⟨mem, -⟩ := nextRequest_some next
    exact ⟨mem, nextRequest_class next, nextRequest_ahead next, nextRequest_anew next, nextRequest_oldest next⟩

/-- Settles O37: each operation on words is the one on their values; the comparisons are those of two's complement. -/
theorem atomicOperations : Obligations.AtomicOperations := by
  intro old x store
  refine ⟨rfl, rfl, rfl, rfl, ?_, ?_, rfl, ?_, rfl, ?_⟩
  · simp only [atomicOp, sgn_toNat]
    split <;> rfl
  · simp only [atomicOp, sgn_toNat]
    split <;> rfl
  · simp only [atomicOp, ← BitVec.toNat_inj]
    split <;> rfl
  · intro k reserved
    rw [atomicOp]
    all_goals omega

end
end

section
/-!
Refresh, scrub, failed channels and heat (R196, R197, R200, R201): what REFRESH, PATROL_SCRUB, CHANNEL_FAIL, STACK_SENSOR_READ and
THERMAL_HOLD_RELEASE do, and what the packages that they abandon leave of the memory.
-/
namespace Sys2Proof.Machine

/-! ### REFRESH (R196) -/

section
variable {s : State} {ch : TileId} {bank : Nat} (alive : s.alive = true) (service : Sp.get false s.mem.failed ch.val = false)
include alive service

theorem exec_refresh_inTime : exec (.refresh ch bank false) s = .next { s with mem := { s.mem with
    refreshedAt := Sp.put 0 s.mem.refreshedAt (ch.val * 2 ^ 16 + bank % 2 ^ 16) (s.now + 1) } } := by
  change execRefresh ch bank false s = _
  simp [execRefresh, alive, service]

theorem exec_refresh_overdue : exec (.refresh ch bank true) s = .next ((s.logEvent 0x1303 none (0, 0)).failChannel ch.val) := by
  change execRefresh ch bank true s = _
  simp [execRefresh, alive, service]

end

/-! ### PATROL_SCRUB (R197) -/

/-- The memory whose scrub of a channel has moved to the next beat, the first of the next pass behind the last one. -/
def MemState.scrubbed (m : MemState) (ch : Nat) : MemState :=
  let b := Sp.get 0 m.scrubPos ch
  let wrap := decide (b + 1 = 2 ^ 27)
  { m with scrubPos := Sp.put 0 m.scrubPos ch (if wrap then 0 else b + 1),
           scrubPass := Sp.put 0 m.scrubPass ch (Sp.get 0 m.scrubPass ch + bit wrap) }

/-- A beat found uncorrectable is so from then on. -/
theorem State.poison_poisonBeat (s : State) (ch b : Nat) : Sp.get false (s.poisonBeat ch b).mem.poison (ch * 2 ^ 27 + b) = true := by
  rw [State.poisonBeat, Sp.get_put_self]

/-- The state in which that scrub has moved; a pass that ends is counted. -/
def State.scrubbed (s : State) (ch : Nat) : State :=
  let s1 := { s with mem := s.mem.scrubbed ch }
  if decide (Sp.get 0 s.mem.scrubPos ch + 1 = 2 ^ 27) then s1.bump 0x1028 1 else s1

theorem MemState.scrubPos_scrubbed (m : MemState) (ch : Nat) :
    Sp.get 0 (m.scrubbed ch).scrubPos ch = if Sp.get 0 m.scrubPos ch + 1 = 2 ^ 27 then 0 else Sp.get 0 m.scrubPos ch + 1 := by
  refine (Sp.get_put_self _ _ _).trans ?_
  simp only [decide_eq_true_eq]

section
variable (s : State) (ch : Nat)

theorem State.scrubbed_mem : (s.scrubbed ch).mem = s.mem.scrubbed ch := by
  unfold State.scrubbed
  dsimp only
  split <;> rfl

theorem State.scrubbed_tiles : (s.scrubbed ch).tiles = s.tiles := by
  unfold State.scrubbed
  dsimp only
  split <;> rfl

theorem State.scrubbed_jobs : (s.scrubbed ch).jobs = s.jobs := by
  unfold State.scrubbed
  dsimp only
  split <;> rfl

theorem State.scrubbed_poison : (s.scrubbed ch).mem.poison = s.mem.poison := by
  rw [State.scrubbed_mem]
  rfl

end

section
variable {s : State} {ch : TileId} {e : BeatErr} (alive : s.alive = true) (service : Sp.get false s.mem.failed ch.val = false)
include alive service

/-- A beat of a channel in service is read, and one that is uncorrectable then is counted and recorded. -/
theorem exec_patrolScrub {b : Nat} (place : Sp.get 0 s.mem.scrubPos ch.val = b) {z : State}
    (read : (s.scrubbed ch.val).observeBeat ch.val (Sp.get 0 s.mem.scrubPass ch.val + 1) b e = z) : exec (.patrolScrub ch e) s =
      .next (if Sp.get false z.mem.poison (ch.val * 2 ^ 27 + b) then z.ueFound (ch.val * 2 ^ 27 + b) 1 else z) := by
  change execPatrolScrub ch e s = _
  subst place read
  unfold execPatrolScrub
  rw [alive, service]
  split
  · next h => cases h
  · exact (apply_ite Host.Outcome.next _ _ _).symm

variable (sound : Sp.get false s.mem.poison (ch.val * 2 ^ 27 + Sp.get 0 s.mem.scrubPos ch.val) = false)
include sound

/-- A correct beat that comes without an error is read without an effect. -/
theorem exec_patrolScrub_clean (clean : beatCheck e = .clean) : exec (.patrolScrub ch e) s = .next (s.scrubbed ch.val) := by
  have read (pass : Nat) : (s.scrubbed ch.val).observeBeat ch.val pass (Sp.get 0 s.mem.scrubPos ch.val) e = s.scrubbed ch.val := by
    simp only [State.observeBeat, State.scrubbed_poison, sound, clean, Bool.false_eq_true, if_false]
  rw [exec_patrolScrub alive service rfl (read _), State.scrubbed_poison, sound]
  rfl

/-- A correct beat that comes with an uncorrectable error is uncorrectable from then on. -/
theorem exec_patrolScrub_uncorrectable (bad : beatCheck e = .uncorrectable) : exec (.patrolScrub ch e) s =
    .next (((s.scrubbed ch.val).poisonBeat ch.val (Sp.get 0 s.mem.scrubPos ch.val)).ueFound
      (ch.val * 2 ^ 27 + Sp.get 0 s.mem.scrubPos ch.val) 1) := by
  have read (pass : Nat) : (s.scrubbed ch.val).observeBeat ch.val pass (Sp.get 0 s.mem.scrubPos ch.val) e =
      (s.scrubbed ch.val).poisonBeat ch.val (Sp.get 0 s.mem.scrubPos ch.val) := by
    simp only [State.observeBeat, State.scrubbed_poison, sound, bad, Bool.false_eq_true, if_false]
  rw [exec_patrolScrub alive service rfl (read _), State.poison_poisonBeat]
  rfl

end

/-! ### A channel fails (R200) -/

/-- The memory with a failed channel, whose data is gone. -/
def MemState.lost (m : MemState) (ch : Nat) : MemState :=
  { m with failed := Sp.put false m.failed ch true
           dram := m.dram.filter fun e => e.1 / 2 ^ 32 != ch
           poison := m.poison.filter fun e => e.1 / 2 ^ 27 != ch }

/-- The state with that memory, and the channel's crossings reset. -/
def State.lost (s : State) (ch : Nat) : State := { s with mem := s.mem.lost ch }.resetCrossings (dramCrossings ch)

/-- The state in which the failure is logged and has reached the health monitor. -/
def State.lostKnown (s : State) (ch : Nat) : State := ((s.lost ch).logEvent 0x1304 none (0, 0)).immediate 0x1304

section
variable (s : State) (ch : Nat)

theorem State.lost_core : (s.lost ch).core = State.core { s with mem := s.mem.lost ch } := State.core_resetCrossings _ _

theorem State.lost_mem : (s.lost ch).mem = s.mem.lost ch := State.mem_of_core (s.lost_core ch)

theorem State.core_lostKnown : (s.lostKnown ch).core = (s.lost ch).core := by
  rw [State.lostKnown, State.core_immediate, State.core_logEvent]

theorem State.lostKnown_pkgs : (s.lostKnown ch).pkgs = s.pkgs := by
  rw [State.pkgs_of_core (s.core_lostKnown ch), State.pkgs_of_core (s.lost_core ch)]

variable {s ch} (service : Sp.get false s.mem.failed ch = false)
include service

theorem State.failChannel_eq : s.failChannel ch =
    let z := (s.lostKnown ch).abandonAll 0x1304 0x3FF true (s.pkgsOn ch)
    if 576 ≤ z.mem.failed.length then z.withdraw else z := by
  unfold State.failChannel
  rw [service]
  rfl

/-- The channel is out of service from then on, whatever its packages leave. -/
theorem State.failChannel_failed : (s.failChannel ch).mem.failed = Sp.put false s.mem.failed ch true := by
  have lost : (s.lostKnown ch).mem.failed = Sp.put false s.mem.failed ch true := by
    rw [State.mem_of_core (s.core_lostKnown ch), State.lost_mem]
    rfl
  rw [State.failChannel_eq service]
  dsimp only
  refine (State.failed_of_care ?_).trans lost
  split
  · exact (State.care_withdraw _).trans (State.care_abandonAll _ _ _ _ _)
  · exact State.care_abandonAll _ _ _ _ _

/-- Its packages are held no longer. -/
theorem State.failChannel_gone {g : Nat} (hg : g ∈ s.pkgsOn ch) : (s.failChannel ch).pkg? g = none := by
  rw [State.failChannel_eq service]
  dsimp only
  generalize hz : State.abandonAll _ _ _ _ _ = z
  have gone : z.pkg? g = none := by
    subst hz
    exact State.pkg?_abandonAll _ hg
  refine Recedes.gone ?_ gone
  split
  · exact State.withdraw_recedes (Recedes.refl _)
  · exact Recedes.refl _

end

/-- A write into a sparse map adds one entry at most. -/
theorem Sp.length_put_le {α : Type} [DecidableEq α] (d : α) (m : Sp α) (k : Nat) (v : α) : (Sp.put d m k v).length ≤ m.length + 1 := by
  have dropped : (Sp.drop m k).length ≤ m.length := by
    induction m with
    | nil => exact le_rfl
    | cons e m ih =>
      simp only [Sp.drop]
      split
      · exact ih.trans (Nat.le_succ _)
      · exact Nat.succ_le_succ ih
  have added : (Sp.ins m k v).length ≤ m.length + 1 := by
    clear dropped
    induction m with
    | nil => exact le_rfl
    | cons e m ih =>
      simp only [Sp.ins]
      split
      · exact Nat.succ_le_succ ih
      · split <;> simp
  unfold Sp.put
  split
  · exact dropped.trans (Nat.le_succ _)
  · exact added

section
variable {s : State} {ch : Nat} (service : Sp.get false s.mem.failed ch = false)
include service

/-- Where no package is held, or none has a page in the channel and other channels stay in service, of the memory its bytes alone are
gone. -/
theorem State.failChannel_mem (alone : s.pkgs = [] ∨ (s.pkgsOn ch = [] ∧ s.mem.failed.length + 1 < 576)) :
    (s.failChannel ch).mem = (s.lost ch).mem := by
  have none : s.pkgsOn ch = [] := by
    rcases alone with empty | ⟨none, -⟩
    · rw [State.pkgsOn, empty]
      rfl
    · exact none
  have known : (s.lostKnown ch).mem = (s.lost ch).mem := State.mem_of_core (s.core_lostKnown ch)
  rw [State.failChannel_eq service, none]
  dsimp only [State.abandonAll]
  split
  · next all =>
    rcases alone with empty | ⟨-, few⟩
    · exact (State.mem_of_core (State.core_withdraw ((s.lostKnown_pkgs ch).trans empty))).trans known
    · rw [known, State.lost_mem] at all
      exact absurd ((Sp.length_put_le false s.mem.failed ch true).trans_lt few) (not_lt.mpr all)
  · exact known

/-- Its bytes read 0 then, and those of the other channels stand. -/
theorem State.failChannel_byteAt (alone : s.pkgs = [] ∨ (s.pkgsOn ch = [] ∧ s.mem.failed.length + 1 < 576)) (k : Nat) :
    (s.failChannel ch).byteAt (.dram k) = if k / 2 ^ 32 = ch then 0 else s.byteAt (.dram k) := by
  have filtered : Mem.get (s.mem.lost ch).dram k = if k / 2 ^ 32 != ch then Mem.get s.mem.dram k else 0#8 :=
    Sp.get_filter s.mem.dram (fun j => j / 2 ^ 32 != ch) k
  rw [State.byteAt, State.failChannel_mem service alone, State.lost_mem, filtered]
  by_cases own : k / 2 ^ 32 = ch
  · rw [if_neg (by simpa using own), if_pos own]
    rfl
  · rw [if_pos (by simpa using own), if_neg own, State.byteAt]

end

/-! ### STACK_SENSOR_READ and THERMAL_HOLD_RELEASE (R196, R201) -/

/-- The memory in which a reading of a stack is noted: the reading and the highest, since when the stack has read 81 degrees or below,
its refresh interval, and since when every sensor has read 90 degrees or below. -/
def MemState.noted (m : MemState) (k now : Nat) (hot : Int) : MemState :=
  let since := if hot ≤ 81 then (if Sp.get 0 m.coolSince k = 0 then now + 1 else Sp.get 0 m.coolSince k) else 0
  let slow := if 84 ≤ hot ∨ m.hold = true then false else if since ≠ 0 ∧ since - 1 + 1000000000 ≤ now then true else Sp.get false m.slow k
  { m with temp := Sp.put 0 m.temp k (shown hot)
           below := if (Sp.put 0 m.temp k (shown hot)).any (fun e => decide (90 < e.2)) then 0 else if m.below = 0 then now + 1 else m.below
           tempMax := Sp.put 0 m.tempMax k (max (Sp.get 0 m.tempMax k) (shown hot))
           coolSince := Sp.put 0 m.coolSince k since
           slow := Sp.put false m.slow k slow }

/-- Under a hold every stack that is read refreshes at 32 ms. -/
theorem MemState.slow_noted {m : MemState} (hold : m.hold = true) (k now : Nat) (hot : Int) : Sp.get false (m.noted k now hot).slow k = false := by
  refine (Sp.get_put_self _ _ _).trans ?_
  rw [if_pos (.inr hold)]

/-- The state under the hold of R201, which is logged and has reached the health monitor. -/
def State.held (s : State) (m : MemState) : State :=
  ({ s with mem := { m with hold := true, slow := [] } }.logEvent 0x1301 none (0, 0)).immediate 0x1301

section
variable (s : State) (m : MemState)

theorem State.core_held : (s.held m).core = State.core { s with mem := { m with hold := true, slow := [] } } := by
  rw [State.held, State.core_immediate, State.core_logEvent]

theorem State.held_mem : (s.held m).mem = { m with hold := true, slow := [] } := State.mem_of_core (s.core_held m)

theorem State.held_running : (s.held m).running = s.running := by
  rw [State.running, State.pkgs_of_core (s.core_held m), State.running]

end

section
variable {s : State} {stack : Fin 24} {a b : Celsius} (on : s.start.phase ≠ .off)
include on

theorem exec_stackSensorRead_cool (cool : max a b < 97) :
    exec (.stackSensorRead stack a b) s = .next { s with mem := s.mem.noted stack.val s.now (max a b) } := by
  change execStackSensorRead stack a b s = _
  unfold execStackSensorRead
  dsimp only
  rw [if_neg on, if_neg (not_le.mpr cool)]
  rfl

theorem exec_stackSensorRead_hot (hot : 97 ≤ max a b) : exec (.stackSensorRead stack a b) s =
    .next ((s.held (s.mem.noted stack.val s.now (max a b))).abandonAll 0x1301 0x3FF true s.running) := by
  change execStackSensorRead stack a b s = _
  rw [← s.held_running (s.mem.noted stack.val s.now (max a b))]
  unfold execStackSensorRead
  dsimp only
  rw [if_neg on, if_pos hot]
  rfl

end

section
variable {s : State}

theorem exec_thermalHoldRelease_hot (hot : s.mem.below = 0) : exec .thermalHoldRelease s = .next s := by
  change execThermalHoldRelease s = _
  simp [execThermalHoldRelease, hot]

variable {t0 : Nat} (cool : s.mem.below = t0 + 1)
include cool

theorem exec_thermalHoldRelease_early (early : s.passed t0 10000000000 = false) : exec .thermalHoldRelease s = .next s := by
  change execThermalHoldRelease s = _
  simp [execThermalHoldRelease, cool, early]

theorem exec_thermalHoldRelease_ends (hold : s.mem.hold = true) (passed : s.passed t0 10000000000 = true) :
    exec .thermalHoldRelease s = .next ({ s with mem := { s.mem with hold := false } }.clearImmediate 0x1301) := by
  change execThermalHoldRelease s = _
  simp [execThermalHoldRelease, hold, cool, passed]

end

/-- An immediate input that is cleared is not one of the health monitor's. -/
theorem State.not_mem_clearImmediate (s : State) (code : Nat) : code ∉ (s.clearImmediate code).health.immediate := by
  simp [State.clearImmediate]

end Sys2Proof.Machine

/-! ### The obligation on the care of channels -/

section
open Sys2Proof Sys2Proof.Machine

/-- Settles O38: what each command of a channel and of the stacks' heat does; what the packages that it abandons leave of the memory is
`State.care`. -/
theorem channelCare : Obligations.ChannelCare := by
  refine ⟨fun s ch bank e alive service => ⟨⟨_, exec_refresh_inTime alive service, ?_, rfl⟩,
      ⟨_, exec_refresh_overdue alive service, ?_⟩, fun sound => ⟨fun clean => ⟨_, exec_patrolScrub_clean alive service sound clean, ?_⟩,
        fun bad => ⟨_, exec_patrolScrub_uncorrectable alive service sound bad, ?_, ?_⟩⟩⟩,
    fun s ch => ⟨rfl, fun service => ⟨fun g hg => State.failChannel_gone service hg,
      fun alone => ⟨State.failChannel_failed service, State.failChannel_byteAt service alone⟩⟩⟩,
    fun s stack a b on => ⟨fun cool => ⟨_, exec_stackSensorRead_cool on cool, ?_, ?_,
        fun hold => MemState.slow_noted hold _ _ _, rfl, rfl, rfl, rfl, rfl⟩,
      fun hot => ⟨_, exec_stackSensorRead_hot on hot, ?_, ?_, fun g hg => State.pkg?_abandonAll _ hg, fun idle => ?_⟩,
      fun t0 hold cool => ⟨fun passed => ⟨_, exec_thermalHoldRelease_ends cool hold passed, rfl, State.not_mem_clearImmediate _ _⟩,
        exec_thermalHoldRelease_early cool⟩,
      fun _ => exec_thermalHoldRelease_hot⟩⟩
  · dsimp only
    rw [Sp.get_put_self]
  · have known : (s.logEvent 0x1303 none (0, 0)).mem = s.mem := State.mem_of_core (s.core_logEvent _ _ _)
    dsimp only
    rw [State.failChannel_failed (by rw [known, service]), Sp.get_put_self]
  · dsimp only
    rw [State.scrubbed_mem]
    exact ⟨MemState.scrubPos_scrubbed _ _, rfl, rfl, State.scrubbed_tiles _ _, State.scrubbed_jobs _ _⟩
  · rw [State.mem_of_core (State.core_ueFound _ _ _), State.poison_poisonBeat]
  · rw [State.mem_of_core (State.core_ueFound _ _ _), State.poisonBeat, State.scrubbed_mem]
    rfl
  · exact Sp.get_put_self s.mem.temp _ _
  · exact Sp.get_put_self s.mem.tempMax _ _
  · rw [State.hold_of_care (State.care_abandonAll _ _ _ _ _), State.held_mem]
  · rw [State.slow_of_care (State.care_abandonAll _ _ _ _ _), State.held_mem]
  · rw [idle, State.abandonAll, State.held_mem]
    rfl

end
end

section
/-!
Frames that reach memory (R208, R211, R212, R247, R248, R256, R279, R281, R295, R303): WRITE, MULTICAST, ACCUMULATE, ATOMIC and
ATOMIC_DATA where they take effect, and requests that are turned away.
-/
namespace Sys2Proof.Machine

/-! ### Requests that are turned away (R208, R256, R281, R295) -/

section
variable {s : State} {p : PortId} {op : BitVec 4} {f : Frame} (ho : f.op = op) (hc : (s.port p.val).inbox.contains f = true)
include ho hc

/-- A request that waits at a port is taken from it and judged. -/
theorem onRequest_taken (act : State → State) : onRequest op p f s act = .next ((s.drained p f).request p.val f act) := by
  rw [onRequest, State.takeFrame_of ho hc]

variable {j : JobCtx} (hj : s.job? f.job = some j)
include hj

/-- One that finds no free tally is recorded and answered F-4103. -/
theorem onRequest_no_tally (judged : j.judge f = .apply) (full : (s.known p f).noTally f = true) (act : State → State) :
    onRequest op p f s act = .next (((s.known p f).syncFault 0x4103 (Frame.countIndex f) f.src.toNat f.job (j.signalled f).1
      (j.signalled f).2).sendError p.val f 0x4103) := by
  have hj' : (s.drained p f).expireTallies.job? f.job = some j := hj
  rw [onRequest_taken ho hc]
  simp only [State.known] at full
  simp only [State.request, State.known, hj', judged, full, if_true]

/-- One ahead of its tracker is a violation, which is answered and counts towards quarantine. -/
theorem onRequest_ahead (judged : j.judge f = .ahead) (act : State → State) : onRequest op p f s act =
    .next (((((s.drained p f).expireTallies).violation p.val 0x2303 f true).failFrame p.val f 0x2303).police p.val) := by
  have hj' : (s.drained p f).expireTallies.job? f.job = some j := hj
  rw [onRequest_taken ho hc]
  simp only [State.request, hj', judged]

end

/-! ### WRITE and MULTICAST (R247, R248, R279) -/

section
variable {s : State} {p : PortId} {f : Frame}

/-- A frame that is written is credited to its transfer. -/
theorem State.writeFrame_ok (ok : (s.writeMem f.job .remote f.vesper f.addr.toNat f.payload).1 = none) (k : Nat) :
    let z := s.writeMem f.job .remote f.vesper f.addr.toNat f.payload
    s.writeFrame k f = z.2.applied k f [ackFor z.2 f] := by
  dsimp only
  have written : s.writeMem f.job .remote f.vesper f.addr.toNat f.payload = (none, _) := Prod.ext ok rfl
  rw [State.writeFrame, written]

/-- One whose write faults is answered with the code. -/
theorem State.writeFrame_fault {c : Nat} (fault : (s.writeMem f.job .remote f.vesper f.addr.toNat f.payload).1 = some c) (k : Nat) :
    s.writeFrame k f = (s.writeMem f.job .remote f.vesper f.addr.toNat f.payload).2.failFrame k f c := by
  have written : s.writeMem f.job .remote f.vesper f.addr.toNat f.payload = (some c, _) := Prod.ext fault rfl
  rw [State.writeFrame, written]

/-- A frame that arrives to be written is credited or answered. -/
theorem onRequest_writes {op : BitVec 4} {j : JobCtx} (h : arrives s p op f j) :
    let z := (s.taken p f).writeMem f.job .remote f.vesper f.addr.toNat f.payload
    leads (onRequest op p f s fun s => s.writeFrame p.val f) fun s' =>
      (z.1 = none → s' = z.2.applied p.val f [ackFor z.2 f]) ∧ ∀ c, z.1 = some c → s' = z.2.failFrame p.val f c :=
  ⟨_, onRequest_arrives h _, fun ok => State.writeFrame_ok ok p.val, fun _ fault => State.writeFrame_fault fault p.val⟩

end

/-! ### ACCUMULATE, ATOMIC and ATOMIC_DATA (R211, R212, R303) -/

section
variable {s : State} {p : PortId} {f : Frame}

theorem exec_accumulateFrame : exec (.accumulateFrame p f) s = onRequest 3 p f s fun s => s.accumulateFrame p.val f := rfl

theorem exec_atomicFrame : exec (.atomicFrame p f) s = onRequest 4 p f s fun s => s.atomicFrame p.val f := rfl

theorem exec_atomicDataFrame : exec (.atomicDataFrame p f) s =
    onReply 5 p f s (fun _ => true) fun x s => (s.writeLocal x 0 (f.payload.take 8)).endXfer x 0 := rfl

/-- Elements that lie in no bucket are added into the sums at their address. -/
theorem State.accumulateFrame_sums {ps : List Place} {j : JobCtx} (k : Nat)
    (places : s.places f.job .remote .accumulate f.vesper f.addr.toNat (accBytes f) = .ok ps) (hj : s.job? f.job = some j)
    (outside : j.region? f.addr.toNat (accBytes f) = none) (ok : (s.addFrame ps f).1 = none) :
    s.accumulateFrame k f = (s.addFrame ps f).2.applied k f [ackFor (s.addFrame ps f).2 f] := by
  have added : s.addFrame ps f = (none, (s.addFrame ps f).2) := Prod.ext ok rfl
  generalize (s.addFrame ps f).2 = z at *
  rw [State.accumulateFrame, places]
  dsimp only
  rw [hj]
  dsimp only
  rw [outside, added]
  cases j.grad
  · rfl
  · rfl

/-- An atomic whose operation is defined writes what it makes of the old value, and answers that. -/
theorem State.atomicFrame_writes {ps : List Place} {v : Nat} (k : Nat)
    (places : s.places f.job .remote .atomic f.vesper f.addr.toNat 8 = .ok ps)
    (value : atomicOp (fld f.variant.toNat 0 4) (leNat (ps.map s.byteAt)) (leNat (f.payload.take 8)) (leNat (f.payload.drop 8)) = some v)
    (ok : (s.modifyPlaces (List.zip ps (leBytes 8 v))).1 = none) :
    let z := (s.modifyPlaces (List.zip ps (leBytes 8 v))).2
    s.atomicFrame k f = z.applied k f [atomicReply z f (leNat (ps.map s.byteAt))] := by
  have written : s.modifyPlaces (List.zip ps (leBytes 8 v)) = (none, (s.modifyPlaces (List.zip ps (leBytes 8 v))).2) := Prod.ext ok rfl
  dsimp only
  generalize (s.modifyPlaces (List.zip ps (leBytes 8 v))).2 = z at *
  rw [State.atomicFrame, places]
  dsimp only
  rw [value]
  dsimp only
  rw [written]

end

end Sys2Proof.Machine

/-! ### The obligations on frames that reach memory -/

section
open Sys2Proof Sys2Proof.Machine

/-- Settles O41: a request that arrives is written; one that is turned away is answered by the fabric alone, which touches no memory and
no tile (`State.core`). -/
theorem writeAndMulticastFrames : Obligations.WriteAndMulticastFrames := by
  refine ⟨fun s p f j => ⟨onRequest_writes, onRequest_writes⟩,
    fun s p f ho hc => ⟨fun absent => onRequest_no_context ho hc absent _,
      fun j hj judged full => onRequest_no_tally ho hc hj judged full _, fun j hj judged => ?_⟩⟩
  have untouched : (((((s.drained p f).expireTallies).violation p.val 0x2303 f true).failFrame p.val f 0x2303).police p.val).core = s.core := by
    rw [State.core_police, State.core_failFrame, State.core_violation, State.core_expireTallies, State.core_drained]
  exact ⟨_, onRequest_ahead ho hc hj judged _, State.mem_of_core untouched, State.tiles_of_core untouched⟩

/-- Settles O43: each frame takes its effect in the state in which it has been taken; a reply names its transfer. -/
theorem accumulateAndAtomicFrames : Obligations.AccumulateAndAtomicFrames := by
  refine fun s p f j => ⟨fun h => onRequest_arrives h _, fun ps j1 h places hj outside ok => ?_, fun ps v h places => ?_, fun x h found => ?_⟩
  · rw [exec_accumulateFrame, onRequest_arrives h, State.accumulateFrame_sums p.val places hj outside ok]
  · intro old value z ok
    rw [exec_atomicFrame, onRequest_arrives h, State.atomicFrame_writes p.val places value ok]
  · rw [exec_atomicDataFrame, onReply_replies h, found]
    rfl

end
end

section
/-!
PROOF. Reads of other modules (R247, R256, R267, R271): what the shared handling of requests and of replies does with a frame, by the
verdict on it, and O42 as its cases.
-/
namespace Sys2Proof.Machine

/-! ### Frames that are taken (R247, R256, R267, R271) -/

section
variable {s : State} {p : PortId} {op : BitVec 4} {f : Frame} (ho : f.op = op) (hc : (s.port p.val).inbox.contains f = true)
include ho hc

/-- A reply that waits at a port is taken from it and judged. -/
theorem onReply_taken (fits : Xfer → Bool) (act : Xfer → State → State) :
    onReply op p f s fits act = .next ((s.drained p f).replyIn p.val f fits act) := by
  rw [onReply, State.takeFrame_of ho hc]

variable {j : JobCtx} (hj : s.job? f.job = some j) (judged : j.judge f = .duplicate)
include hj judged

/-- A duplicate of a request is counted alone. -/
theorem onRequest_duplicate (act : State → State) : onRequest op p f s act = .next (((s.drained p f).expireTallies).bump 0x2010 1) := by
  have hj' : (s.drained p f).expireTallies.job? f.job = some j := hj
  rw [onRequest_taken ho hc]
  simp only [State.request, hj', judged]

/-- A duplicate of a reply is counted alone. -/
theorem onReply_duplicate (fits : Xfer → Bool) (act : Xfer → State → State) :
    onReply op p f s fits act = .next ((s.drained p f).bump 0x2010 1) := by
  have hj' : (s.drained p f).job? f.job = some j := hj
  rw [onReply_taken ho hc]
  simp only [State.replyIn, hj', judged]

end

section
variable {s : State} {p : PortId} {op : BitVec 4} {f : Frame} {j : JobCtx} (h : replies s p op f j) {fits : Xfer → Bool}
  (act : Xfer → State → State)
include h

/-- A reply that names no unanswered transfer is F-2304, and no tracker moves. -/
theorem onReply_stray (absent : s.xfers.find? (replyKey f) = none) :
    onReply op p f s fits act = .next (((s.drained p f).violation p.val 0x2304 f false).police p.val) := by
  rw [onReply_replies h, absent]
  rfl

variable {x : Xfer} (found : s.xfers.find? (replyKey f) = some x)
include found

/-- One that brings what its transfer did not ask for is F-2304 too. -/
theorem onReply_unfit (unfit : fits x = false) :
    onReply op p f s fits act = .next (((s.drained p f).violation p.val 0x2304 f false).police p.val) := by
  rw [onReply_replies h, found]
  simp only [unfit, Bool.false_eq_true, if_false, State.strayReply]

/-- One that its transfer asked for takes its effect on it. -/
theorem onReply_fit (fit : fits x = true) : onReply op p f s fits act = .next (act x (s.heeded p f)) := by
  rw [onReply_replies h, found]
  simp only [fit, if_true]

end

/-! ### READ and READ_DATA (R247) -/

/-- A READ whose bytes can be read is answered with them. -/
theorem execReadFrame_ok {s : State} {p : PortId} {f : Frame} {j : JobCtx} {bs : List Byte} (h : arrives s p 1 f j)
    (ok : ((s.taken p f).readFor f).1 = .ok bs) : execReadFrame p f s =
      .next (((s.taken p f).readFor f).2.replyAll (readReply ((s.taken p f).readFor f).2 f bs)) := by
  rw [execReadFrame, onRequest_arrives h]
  have read : (s.taken p f).readFor f = (.ok bs, ((s.taken p f).readFor f).2) := Prod.ext ok rfl
  rw [read]

end Sys2Proof.Machine

section
open Sys2Proof Sys2Proof.Machine

/-- Settles O42: each clause is one verdict on a taken frame, whose effect the lemmas on `onRequest` and `onReply` name. -/
theorem readFrames : Obligations.ReadFrames := by
  refine fun s p f j => ⟨fun bs h ok => execReadFrame_ok h ok, fun x h found read within => ?_, fun x h found unfit => ?_,
    fun hc hj judged => ⟨fun ho => ?_, fun ho => ?_⟩⟩
  · have fit : readFits f x = true := by simp [readFits, read, within]
    exact onReply_fit h _ found fit
  · exact onReply_unfit h _ found unfit
  · exact ⟨_, onRequest_duplicate ho hc hj judged _, State.word_bump_self _ _ _, rfl, rfl, rfl, rfl, rfl⟩
  · exact ⟨_, onReply_duplicate ho hc hj judged _ _, State.word_bump_self _ _ _, rfl, rfl, rfl, rfl, rfl⟩
end
end

section
/-!
PROOF. Signals, barriers, notices (R249, R279 to R288, R390) and the ends of transfers (R247, R250, R256): O44 and O45.
-/
namespace Sys2Proof.Machine

/-! ### Barrier frames and notices (R249, R284 to R288, R390) -/

section
variable {s : State} {p : PortId} {f : Frame} {j : JobCtx}

theorem exec_signalFrame : exec (.signalFrame p f) s = onRequest 6 p f s fun s => s.applied p.val f [ackFor s f] := rfl

theorem exec_noticeFault : exec (.noticeFault p f) s = onNotice 1 p f s fun j s =>
    s.forwardNotice 1 (fld f.aux.toNat 0 16) (j.sourceDevice f) (noticeWords f) (s.jobHosts f.job) := rfl

/-- A barrier frame that breaks no rule is credited and goes on to its slot. -/
theorem State.barrierFrameIn_ok (hj : s.job? f.job = some j) (ok : s.barrierFault j (j.barrier (fld f.variant.toNat 0 6)) f = none)
    (k : Nat) (act : JobCtx → Nat → Barrier → Bool → State → State) :
    let slot := fld f.variant.toNat 0 6
    s.barrierFrameIn k f act =
      act j slot (j.barrier slot) (BitVec.ofNat 16 (fld f.aux.toNat 0 16) != (j.barrier slot).epoch) (s.applied k f [ackFor s f]) := by
  simp only [State.barrierFrameIn, hj, ok]

/-- A notice that arrives is acknowledged, and what its kind does follows where its job is held. -/
theorem onNotice_arrives {kind : Nat} (hk : fld f.variant.toNat 0 4 = kind) (h : arrives s p 0xA f j) (act : JobCtx → State → State) :
    let s1 := (s.taken p f).applied p.val f [ackFor (s.taken p f) f]
    onNotice kind p f s act = .next (match s1.job? f.job with | some j => act j s1 | none => s1) :=
  (if_neg (not_not_intro hk)).trans (onRequest_arrives h _)

/-- A kind of which the rules say no more is acknowledged alone. -/
theorem onNotice_acknowledged {kind : Nat} (hk : fld f.variant.toNat 0 4 = kind) (h : arrives s p 0xA f j) :
    onNotice kind p f s (fun _ s => s) = .next ((s.taken p f).applied p.val f [ackFor (s.taken p f) f]) := by
  refine (onNotice_arrives hk h _).trans (congrArg Host.Outcome.next ?_)
  split
  · rfl
  · rfl

end

end Sys2Proof.Machine

section
open Sys2Proof Sys2Proof.Machine

/-- Settles O44: a request that arrives is applied through its tally, and what its kind adds follows on the state after that. -/
theorem signalBarrierNoticeFrames : Obligations.SignalBarrierNoticeFrames := by
  refine ⟨fun s p f j => ⟨fun h => ?_, fun j1 hj ok => ⟨fun h => ?_, fun h => ?_⟩⟩,
    fun s p f j h => ⟨fun hk => ?_, fun hk => onNotice_acknowledged hk h, fun hk => onNotice_acknowledged hk h⟩⟩
  · rw [exec_signalFrame, onRequest_arrives h]
  · exact (onRequest_arrives h _).trans (congrArg Host.Outcome.next (State.barrierFrameIn_ok hj ok p.val _))
  · exact (onRequest_arrives h _).trans (congrArg Host.Outcome.next (State.barrierFrameIn_ok hj ok p.val _))
  · exact exec_noticeFault.trans (onNotice_arrives hk h _)
end

namespace Sys2Proof.Machine

/-! ### Transfers that end (R247, R250, R256) -/

/-- Where names are unique, the first transfer of a name is the only one. -/
theorem ne_of_mem_eraseFirst_id {k : Nat} {xs : List Xfer} (unique : (xs.map (·.id)).Nodup) :
    ∀ y ∈ eraseFirst (fun y : Xfer => y.id == k) xs, y.id ≠ k := by
  induction xs with
  | nil => nofun
  | cons x xs ih =>
    obtain ⟨hx, hxs⟩ := List.nodup_cons.mp unique
    intro y hy
    rw [eraseFirst] at hy
    split at hy
    case isTrue named =>
      rintro rfl
      exact hx (List.mem_map.mpr ⟨y, hy, (beq_iff_eq.mp named).symm⟩)
    case isFalse other =>
      rcases List.mem_cons.mp hy with rfl | hy
      · simpa using other
      · exact ih hxs y hy

/-- Where no task and no engine waits for it, a transfer that ends is taken out of the list and nothing else happens. -/
theorem State.endXfer_idle {s : State} {x : Xfer} (task : s.xferTask x = none) (engine : s.engineOwns x = false) (code : Nat) :
    s.endXfer x code = { s with xfers := eraseFirst (fun y => y.id == x.id) s.xfers } := by
  have owned : State.engineOwns { s with xfers := eraseFirst (fun y => y.id == x.id) s.xfers } x = false := engine
  simp only [State.endXfer, task, State.engineXfer, owned, Bool.not_false, if_true]

section
variable {s : State} {k : Nat} {x : Xfer} (found : s.xfers.find? (fun y : Xfer => y.id == k) = some x)
include found

/-- A transfer of which a frame has not left does not time out. -/
theorem execTransferTimeout_waits (waits : s.waitsToLeave x = true) : execTransferTimeout k s = .next s := by
  simp only [execTransferTimeout, found, waits, Bool.true_or, if_true]

/-- One whose last frame left E2E_TIMEOUT ago ends with F-2202, and so does a tally of this module's own for it. -/
theorem execTransferTimeout_ends (left : s.waitsToLeave x = false) (late : s.passed x.sentAt (s.cfg.e2eTimeout * 1000000) = true) :
    let mine (t : OpenTally) : Bool := t.src == s.hall && t.job == x.job && t.vesper == x.vesper && t.xfer == x.id
    let s1 := { s with tallies := s.tallies.filter (fun t => !mine t) }.bump 0x2020 1
    execTransferTimeout k s =
      .next ((if (s1.xferTask x).isNone then s1.logEvent 0x2202 (some x.job) (0, 0) else s1).endXfer x 0x2202) := by
  simp only [execTransferTimeout, found, left, late, Bool.not_true, Bool.or_false, Bool.false_eq_true, if_false]

end

end Sys2Proof.Machine

section
open Sys2Proof Sys2Proof.Machine

/-- Settles O45: a reply is stray or fits its transfer, and no second transfer of its name is left because names are unique. -/
theorem repliesEndTransfers : Obligations.RepliesEndTransfers := by
  refine fun s p f j => ⟨fun absent => ⟨?_, ?_, ?_, ?_⟩, fun x => ⟨fun z code task engine => ?_, ne_of_mem_eraseFirst_id, ?_, ?_, ?_, ?_⟩⟩
  · exact fun h => onReply_stray h _ absent
  · exact fun h => onReply_stray h _ absent
  · exact fun h => onReply_stray h _ absent
  · exact fun h => onReply_stray h _ absent
  · rw [State.endXfer_idle task engine]
  · exact fun h found => onReply_fit h _ found rfl
  · exact fun h found => onReply_fit h _ found rfl
  · exact fun k found waits => execTransferTimeout_waits found waits
  · exact fun k found left late => execTransferTimeout_ends found left late
end
end

section
/-!
SUPPORT. What frames that leave on links change, and what they leave as it was (`Sends`).
-/
namespace Sys2Proof.Machine

/-! ### Ports after other updates -/

@[simp] theorem State.port_bump (s : State) (k n q : Nat) : (s.bump k n).port q = s.port q := rfl

@[simp] theorem State.port_drawn (s : State) (q : Nat) : s.drawn.port q = s.port q := rfl

@[simp] theorem State.port_emit (s : State) (o : Out) (q : Nat) : (s.emit o).port q = s.port q := rfl

@[simp] theorem State.port_across (s : State) (k : Nat) (bs : List Byte) (q : Nat) : (s.across k bs).port q = s.port q := by
  obtain ⟨x, hx⟩ := s.across_eq k bs
  rw [hx]
  rfl

/-- A frame that is taken leaves the rest of its port as it was. -/
theorem State.port_drained (s : State) (p : PortId) (f : Frame) :
    (s.drained p f).port p.val = { s.port p.val with inbox := eraseFirst (· == f) (s.port p.val).inbox } :=
  s.port_setPort_self p.val _

/-! ### Frames that leave on links (R242, R257, R258)

Where frames leave, a port changes in what it counts, keeps and owes, and in nothing that says how its link stands; of the rest of the
module only crossings, counters of frames sent, the record of what leaves and free values change. -/

/-- A port but for what sending on it changes: the numbers of frames, the replay buffer, the queue of LINK_CTRL frames, the share of
Vesper, the acknowledgement owed and the time of the old receive SA. -/
def Port.still (x : Port) : Port :=
  { x with txV := 0, txN := 0, pn := 0, lastV := false, ackOwed := false, share := (0, 0), oldUntil := none, replay := [], ackAt := 0,
           ctrlq := [] }

/-- Ports that agree in what `π` keeps of them agree in each part that it keeps. -/
theorem Port.part_eq {α : Type} {π : Port → Port} {x y : Port} (h : π x = π y) (g : Port → α) (kept : ∀ x, g (π x) = g x) : g x = g y := by
  rw [← kept x, h, kept]

/-- The module beside its links: what no frame that leaves changes. -/
def State.beside (s : State) : State := { s with ports := [], crossings := [], stat := [], out := [], freeCtr := 0 }

/-- From `s` to `z` frames have left on links, and nothing else has happened. -/
structure Sends (s z : State) : Prop where
  beside : z.beside = s.beside
  still : ∀ q, (z.port q).still = (s.port q).still
  /-- Only the counters of bytes and frames sent have risen. -/
  word : ∀ k, k % 64 ≠ 0x08 → k % 64 ≠ 0x18 → z.word k = s.word k
  /-- Only transmit crossings have been passed. -/
  crossing : ∀ k, k % 4 ≠ 1 → z.crossing k = s.crossing k

theorem Sends.refl (s : State) : Sends s s := ⟨rfl, fun _ => rfl, fun _ _ _ => rfl, fun _ _ => rfl⟩

theorem Sends.trans {s z u : State} (h : Sends s z) (g : Sends z u) : Sends s u :=
  ⟨g.beside.trans h.beside, fun q => (g.still q).trans (h.still q), fun k h8 h18 => (g.word k h8 h18).trans (h.word k h8 h18),
    fun k hk => (g.crossing k hk).trans (h.crossing k hk)⟩

section
variable {s z : State} (h : Sends s z)
include h

theorem Sends.core : z.core = s.core := (congrArg State.core h.beside :)

theorem Sends.jobs : z.jobs = s.jobs := (congrArg State.jobs h.beside :)

theorem Sends.sec : z.sec = s.sec := (congrArg State.sec h.beside :)

end

theorem State.crossing_setCrossing_ne (s : State) {k k' : Nat} (x : Crossing) (h : k' ≠ k) : (s.setCrossing k x).crossing k' = s.crossing k' :=
  Sp.get_put_ne _ _ h

/-- What passes through a crossing changes that crossing alone. -/
theorem State.crossing_across_ne (s : State) {k k' : Nat} (bs : List Byte) (h : k' ≠ k) : (s.across k bs).crossing k' = s.crossing k' := by
  unfold State.across State.holdAt
  split
  · exact s.crossing_setCrossing_ne _ h
  · split
    · exact s.crossing_setCrossing_ne _ h
    · rfl

section
variable {s0 s : State} (h : Sends s0 s)
include h

/-- A port that changes in what sending changes. -/
theorem Sends.setPort {p : Nat} {x : Port} (hx : x.still = (s.port p).still) : Sends s0 (s.setPort p x) := by
  refine h.trans ⟨rfl, fun q => ?_, fun _ _ _ => rfl, fun _ _ => rfl⟩
  by_cases e : q = p
  · subst e
    rw [State.port_setPort_self, hx]
  · rw [State.port_setPort_ne _ _ e]

/-- Bytes that pass through a port's transmit crossing. -/
theorem Sends.across {p : Nat} {bs : List Byte} : Sends s0 (s.across (portTx p) bs) := by
  obtain ⟨x, hx⟩ := s.across_eq (portTx p) bs
  refine h.trans ⟨by rw [hx]; rfl, fun q => by rw [hx]; rfl, fun k _ _ => by rw [hx]; rfl, fun k hk => s.crossing_across_ne bs ?_⟩
  rintro rfl
  unfold portTx at hk
  omega

/-- A counter of bytes or frames sent rises. -/
theorem Sends.bump {k n : Nat} (hk : k % 64 = 0x08 ∨ k % 64 = 0x18) : Sends s0 (s.bump k n) :=
  h.trans ⟨rfl, fun _ => rfl, fun k' h8 h18 => s.word_bump_ne (by rintro rfl; omega), fun _ _ => rfl⟩

theorem Sends.emit {o : Out} : Sends s0 (s.emit o) := h.trans ⟨rfl, fun _ => rfl, fun _ _ _ => rfl, fun _ _ => rfl⟩

theorem Sends.drawn : Sends s0 s.drawn := h.trans ⟨rfl, fun _ => rfl, fun _ _ _ => rfl, fun _ _ => rfl⟩

/-- A frame leaves. -/
theorem Sends.sent {p : Nat} {ok : Bool} {f : Frame} : Sends s0 (s.sent p ok f) := by
  unfold State.sent
  dsimp only
  have counted {z : State} (hz : Sends s0 z) (bs : List Byte) :
      Sends s0 (((z.across (portTx p) bs).bump (0x2108 + 0x40 * p) f.wireBytes).bump (0x2118 + 0x40 * p) 1) :=
    (hz.across.bump (by omega)).bump (by omega)
  split
  · refine (counted (h.setPort ?_) _).emit
    rfl
  · refine (counted (h.setPort ?_) _).drawn.emit
    rfl

/-- A LINK_CTRL frame leaves or waits. -/
theorem Sends.ctrl {p : Nat} {f : Frame} : Sends s0 (s.ctrl p f) := by
  unfold State.ctrl
  dsimp only
  split
  · exact h
  · split
    · refine (h.setPort ?_).sent
      rfl
    · refine h.setPort ?_
      rfl

theorem Sends.linkCtrl {kind aux : Nat} {payload : List Byte} {ps : List Nat} : Sends s0 (s.linkCtrl kind aux payload ps) := by
  induction ps generalizing s with
  | nil => exact h
  | cons p ps ih => exact ih h.ctrl

end

end Sys2Proof.Machine
end

section
/-!
PROOF. Links come up, go down and train (R239, R258, R269, R411): O47.
-/
namespace Sys2Proof.Machine

/-! ### How a port's link stands (R239, R258, R411, R412) -/

/-- What a record in the log writes is no port. -/
theorem Logged.port {s z : State} (h : Logged s z) (q : Nat) : z.port q = s.port q := by
  obtain ⟨_, _, _, rfl⟩ := h
  rfl

/-- A state whose port already stands as it is set. -/
theorem Sends.of_setPort_still {s : State} {p : Nat} {x : Port} (hx : x.still = (s.port p).still) : Sends (s.setPort p x) s := by
  refine ⟨rfl, fun q => ?_, fun _ _ _ => rfl, fun _ _ => rfl⟩
  by_cases e : q = p
  · subst e
    rw [State.port_setPort_self, hx]
  · rw [State.port_setPort_ne _ _ e]

/-- The port that was set, but for what sending changes. -/
theorem Sends.still_setPort {s z : State} {p : Nat} {x : Port} (h : Sends (s.setPort p x) z) : (z.port p).still = x.still := by
  rw [h.still, State.port_setPort_self]

/-- The state that a port comes to where it is set to `st`: without HALL_CAK none leaves TRAINING (R411). -/
def State.stFor (s : State) (p st : Nat) : Nat := if (s.port p).st = 1 ∧ s.sec.hallCak = none then 1 else st

/-- A port's state is set, and its dimension's peers hear of it: frames leave. -/
theorem State.setSt_sends (s : State) (p st : Nat) : Sends (s.setPort p { s.port p with st := s.stFor p st }) (s.setSt p st) := by
  have stays (h : s.stFor p st = (s.port p).st) : Sends (s.setPort p { s.port p with st := s.stFor p st }) s :=
    Sends.of_setPort_still (by rw [h])
  unfold State.setSt
  dsimp only
  split
  next h =>
    refine stays ?_
    unfold State.stFor
    rcases h with h | ⟨training, unkeyed⟩
    · split
      next held => exact held.1.symm
      next => exact h.symm
    · rw [if_pos ⟨training, Option.isNone_iff_eq_none.mp unkeyed⟩, training]
  next h =>
    have moves : s.stFor p st = st := if_neg fun held => h (Or.inr ⟨held.1, by rw [held.2]; rfl⟩)
    rw [moves]
    exact (Sends.refl _).linkCtrl

/-- The port whose state is set, but for what sending changes. -/
theorem State.port_setSt (s : State) (p st : Nat) : ((s.setSt p st).port p).still = Port.still { s.port p with st := s.stFor p st } :=
  (s.setSt_sends p st).still_setPort

/-- A port whose update is followed by a change of its state: its fields but those that sending changes. -/
theorem State.port_setPort_setSt (s : State) (k st : Nat) (x : Port) :
    (((s.setPort k x).setSt k st).port k).still = Port.still { x with st := if x.st = 1 ∧ s.sec.hallCak = none then 1 else st } := by
  rw [State.port_setSt, State.stFor, State.port_setPort_self]
  rfl

theorem State.mem_setPort_setSt (s : State) (k st : Nat) (x : Port) : ((s.setPort k x).setSt k st).mem = s.mem :=
  State.mem_of_core (by rw [State.core_setSt, State.core_setPort])

/-- An offer changes the port's own offer, and nothing is installed. -/
theorem State.port_offer (s : State) (p : Nat) : ((s.offer p).port p) =
    { s.port p with ephSecret := freshSecret s.freeCtr,
                    offer := (x25519Public (freshSecret s.freeCtr), (Config.freeValue (s.freeCtr + 1)).truncate 128),
                    installed := false, peerInstalled := false } :=
  State.port_setPort_self _ p _

@[simp] theorem State.core_offer (s : State) (p : Nat) : (s.offer p).core = s.core := (rfl)

@[simp] theorem State.core_sendIdentity (s : State) (p : Nat) : (s.sendIdentity p).core = s.core := s.core_ctrl p _

@[simp] theorem State.core_rekey (s : State) (p : Nat) : (s.rekey p).core = s.core := by
  simp [State.rekey]

/-! ### Links come up, go down and train (R239, R258, R269) -/

section
variable {s : State} {p : PortId}

/-- A port whose PHY has come up: its frames use SAK0, and no key has been offered (R411). -/
def State.lit (s : State) (k : Nat) : Port :=
  { s.port k with phy := true, an := 0, sak := 0, pn := 1, rxPn := [], saAt := s.now, key := s.sak0 k, peerOffer := none, oldUntil := none }

/-- A dark fabric port in service comes up, and its identity exchange begins. -/
theorem execLinkUp_dark (alive : s.alive = true) (fabric : p.val < 40) (dark : (s.port p.val).phy = false)
    (used : s.unusedPort p.val = false) (st : (s.port p.val).st = 0 ∨ (s.port p.val).st = 1 ∨ (s.port p.val).st = 2)
    (downs : (s.port p.val).downs ≠ 8) :
    execLinkUp p s = .next ((((s.setPort p.val (s.lit p.val)).setSt p.val 1).offer p.val).sendIdentity p.val) := by
  have lies : ¬40 ≤ p.val := by omega
  obtain ⟨h6, h4, h5, h3⟩ : (s.port p.val).st ≠ 6 ∧ (s.port p.val).st ≠ 4 ∧ (s.port p.val).st ≠ 5 ∧ (s.port p.val).st ≠ 3 := by omega
  simp only [execLinkUp, alive, lies, dark, used, h6, h4, h5, h3, downs, Bool.not_true, Bool.false_eq_true, if_false, Bool.or_self,
    decide_false]
  rfl

/-- It trains under SAK0. -/
theorem execLinkUp_trains (alive : s.alive = true) (fabric : p.val < 40) (dark : (s.port p.val).phy = false)
    (used : s.unusedPort p.val = false) (st : (s.port p.val).st = 0 ∨ (s.port p.val).st = 1 ∨ (s.port p.val).st = 2)
    (downs : (s.port p.val).downs ≠ 8) : leads (execLinkUp p s) fun s' =>
      (s'.port p.val).phy = true ∧ (s'.port p.val).st = 1 ∧ (s'.port p.val).sak = 0 ∧ (s'.port p.val).key = s.sak0 p.val ∧ s'.mem = s.mem := by
  have set := s.port_setPort_setSt p.val 1 (s.lit p.val)
  have mem := s.mem_setPort_setSt p.val 1 (s.lit p.val)
  generalize hz : (s.setPort p.val (s.lit p.val)).setSt p.val 1 = z at set mem
  have told : (((z.offer p.val).sendIdentity p.val).port p.val).still = ((z.offer p.val).port p.val).still := (Sends.refl _).ctrl.still p.val
  rw [State.port_offer] at told
  refine ⟨_, (execLinkUp_dark alive fabric dark used st downs).trans (by rw [hz]), ?_, ?_, ?_, ?_, ?_⟩
  · exact (Port.part_eq told Port.phy fun _ => rfl).trans (Port.part_eq set Port.phy fun _ => rfl)
  · exact ((Port.part_eq told Port.st fun _ => rfl).trans (Port.part_eq set Port.st fun _ => rfl)).trans (ite_self 1)
  · exact (Port.part_eq told Port.sak fun _ => rfl).trans (Port.part_eq set Port.sak fun _ => rfl)
  · exact (Port.part_eq told Port.key fun _ => rfl).trans (Port.part_eq set Port.key fun _ => rfl)
  · exact (State.mem_of_core (by rw [State.core_sendIdentity, State.core_offer])).trans mem

/-- After its eighth down event a port stays down. -/
theorem execLinkUp_spent (fabric : p.val < 40) (downs : (s.port p.val).downs = 8) : execLinkUp p s = .next s := by
  have lies : ¬40 ≤ p.val := by omega
  simp only [execLinkUp, lies, downs, decide_true, Bool.or_true, if_true, ite_self]

/-- A fabric port that loses alignment loses its link. -/
theorem execLinkDown_fabric (fabric : p.val < 40) (phy : (s.port p.val).phy = true) : execLinkDown p s = .next (s.linkLost p.val false) := by
  have lies : ¬40 ≤ p.val := by omega
  simp only [execLinkDown, lies, phy, if_false, if_true]

/-- In an attempt the link is down already, and the attempt fails. -/
theorem State.linkLost_attempt {k : Nat} (attempt : (s.port k).carried = false) : s.linkLost k false = s.attemptFails k := by
  simp [State.linkLost, attempt]

@[simp] theorem State.port_resetCrossings (s : State) (ks : List Nat) (q : Nat) : (s.resetCrossings ks).port q = s.port q := by
  induction ks generalizing s with
  | nil => rfl
  | cons k ks ih => exact ih _

@[simp] theorem State.conns_resetCrossings (s : State) (ks : List Nat) : (s.resetCrossings ks).conns = s.conns := by
  induction ks generalizing s with
  | nil => rfl
  | cons k ks ih => exact ih _

theorem Logged.sec {s z : State} (h : Logged s z) : z.sec = s.sec := by
  obtain ⟨_, _, _, rfl⟩ := h
  rfl

theorem Logged.conns {s z : State} (h : Logged s z) : z.conns = s.conns := by
  obtain ⟨_, _, _, rfl⟩ := h
  rfl

/-- A down event is no port's and no connection's. -/
theorem State.port_downEvent (s : State) (q : Nat) : s.downEvent.port q = s.port q := (s.logEvent_logged 0x2101 none (0, 0)).port q

theorem State.conns_downEvent (s : State) : s.downEvent.conns = s.conns := (s.logEvent_logged 0x2101 none (0, 0)).conns

@[simp] theorem State.core_downEvent (s : State) : s.downEvent.core = s.core := by
  simp [State.downEvent]

/-- A host port that goes down is counted. -/
theorem State.hostPortDown_counted {k : Nat} (phy : (s.port k).phy = true) :
    ((s.hostPortDown k).port k = { s.port k with phy := false, st := 0, downs := min ((s.port k).downs + 1) 8, downAt := s.now }) ∧
      (s.hostPortDown k).core = s.core ∧ (s.hostPortDown k).conns = s.conns := by
  simp only [State.hostPortDown, phy, Bool.not_true, Bool.false_eq_true, if_false]
  refine ⟨?_, by simp, ?_⟩
  · rw [State.port_downEvent, State.port_resetCrossings, State.port_setPort_self]
  · rw [State.conns_downEvent, State.conns_resetCrossings, State.setPort_conns]

theorem execLinkDown_host (host : 40 ≤ p.val) : execLinkDown p s = .next (s.hostPortDown p.val) := by
  simp only [execLinkDown, host, if_true]

/-- Where no acknowledgement comes in time the link goes down. -/
theorem execAckStall_late (fabric : p.val < 40) (linked : (s.port p.val).linked = true) (waits : (s.port p.val).replay ≠ [])
    (late : s.passed (s.port p.val).ackAt 20000 = true) : execAckStall p s = .next (s.linkLost p.val false) := by
  have some : (s.port p.val).replay.isEmpty = false := by simpa using waits
  simp only [execAckStall, fabric, linked, some, late, Bool.not_false, decide_true, Bool.and_true, if_true]

/-- A down port that has waited its second trains again. -/
theorem execTrainingAttempt_trains (alive : s.alive = true) (down : (s.port p.val).st = 0) (idle : (s.port p.val).attempting = false)
    (downs : (s.port p.val).downs < 8) (fabric : p.val < 40) (used : s.unusedPort p.val = false)
    (late : s.passed (s.port p.val).downAt 1000000000 = true) : leads (execTrainingAttempt p s) fun s' =>
      (s'.port p.val).st = 1 ∧ (s'.port p.val).attempting = true ∧ s'.mem = s.mem := by
  have due : s.alive ∧ (s.port p.val).st = 0 ∧ !(s.port p.val).attempting ∧ (s.port p.val).downs < 8 ∧ p.val < 40 ∧ !s.unusedPort p.val ∧
      s.passed (s.port p.val).downAt 1000000000 := by
    simp only [alive, down, idle, downs, fabric, used, late, Bool.not_false, and_self]
  have port := s.port_setPort_setSt p.val 1 { s.port p.val with attempting := true }
  refine ⟨_, if_pos due, ?_, (Port.part_eq port Port.attempting fun _ => rfl), s.mem_setPort_setSt _ _ _⟩
  exact (Port.part_eq port Port.st fun _ => rfl).trans (ite_self 1)

/-- An attempt that fails leaves the port DOWN, but in TRAINING without HALL_CAK, and is no down event. -/
theorem execTrainingAttemptFailed_down (training : (s.port p.val).st = 1) (attempt : (s.port p.val).attempting = true) :
    leads (execTrainingAttemptFailed p s) fun s' => (s'.port p.val).st = (if s.sec.hallCak = none then 1 else 0) ∧
      (s'.port p.val).attempting = false ∧ (s'.port p.val).downs = (s.port p.val).downs ∧ s'.mem = s.mem := by
  have port := s.port_setPort_setSt p.val 0 { (s.port p.val).cleared with downAt := s.now }
  refine ⟨_, if_pos ⟨training, attempt⟩, ?_, Port.part_eq port Port.attempting fun _ => rfl, Port.part_eq port Port.downs fun _ => rfl,
    s.mem_setPort_setSt _ _ _⟩
  have held : ((s.port p.val).cleared.st = 1 ∧ s.sec.hallCak = none) ↔ s.sec.hallCak = none := and_iff_right training
  exact (Port.part_eq port Port.st fun _ => rfl).trans (if_congr held rfl rfl)

/-- A quarantine that is over ends in training, which counts towards the eight down events. -/
theorem execQuarantineEnd_trains (quarantined : (s.port p.val).st = 3) (late : s.passed (s.port p.val).downAt 60000000000 = true) :
    leads (execQuarantineEnd p s) fun s' => (s'.port p.val).downs = min ((s.port p.val).downs + 1) 8 ∧
      (s'.port p.val).st = (if (s.port p.val).downs + 1 < 8 then 1 else 0) ∧ s'.mem = s.mem := by
  let n := min ((s.port p.val).downs + 1) 8
  have port := s.port_setPort_setSt p.val (if n < 8 then 1 else 0)
    { s.port p.val with downs := n, downAt := s.now, attempting := decide (n < 8) }
  refine ⟨_, if_pos ⟨quarantined, late⟩, (Port.part_eq port Port.downs fun _ => rfl), ?_, s.mem_setPort_setSt _ _ _⟩
  have free : ¬((s.port p.val).st = 1 ∧ s.sec.hallCak = none) := fun held => by omega
  have below : n < 8 ↔ (s.port p.val).downs + 1 < 8 := by omega
  exact ((Port.part_eq port Port.st fun _ => rfl).trans (if_neg free)).trans (if_congr below rfl rfl)

end

end Sys2Proof.Machine

section
open Sys2Proof Sys2Proof.Machine

/-- Settles O47: a change of a port's state only sends frames besides, so that what the port was set to is what it shows. -/
theorem linksComeAndGo : Obligations.LinksComeAndGo := by
  refine fun s p => ⟨fun alive fabric dark used st => ⟨fun downs => ?_, fun downs => ?_⟩, fun fabric phy => ⟨fun _ => ?_, fun attempt => ?_⟩,
    fun host phy => ?_, fun fabric linked waits late => ?_, fun alive down idle downs fabric used late => ?_, fun training attempt => ?_,
    fun quarantined late => ?_⟩
  · exact execLinkUp_trains alive fabric dark used st downs
  · exact execLinkUp_spent fabric downs
  · exact execLinkDown_fabric fabric phy
  · exact (execLinkDown_fabric fabric phy).trans (congrArg Host.Outcome.next (State.linkLost_attempt attempt))
  · obtain ⟨port, core, conns⟩ := State.hostPortDown_counted phy
    exact ⟨_, execLinkDown_host host, by rw [port], by rw [port], by rw [port], by rw [port], State.mem_of_core core, conns⟩
  · exact execAckStall_late fabric linked waits late
  · exact execTrainingAttempt_trains alive down idle downs fabric used late
  · exact execTrainingAttemptFailed_down training attempt
  · exact execQuarantineEnd_trains quarantined late
end
end

section
/-!
PROOF. Restored links, fences and new keys (R260, R411 to R413): O48.
-/
namespace Sys2Proof.Machine

/-! ### Restored links and new keys (R260, R412, R413) -/

section
variable {s : State} {p : PortId} {f : Frame}

/-- A restored link carries traffic again, but in TRAINING without HALL_CAK (R411). -/
theorem State.restored_moved (s : State) (k : Nat) :
    ((s.restored k).port k).st = (if (s.port k).st = 1 ∧ s.sec.hallCak = none then 1 else 2) ∧ ((s.restored k).port k).restoreAt = none ∧
      ((s.restored k).port k).fencing = false := by
  have port := s.port_setPort_setSt k 2 { s.port k with restoreAt := none, fencing := false }
  exact ⟨Port.part_eq port Port.st fun _ => rfl, Port.part_eq port Port.restoreAt fun _ => rfl,
    Port.part_eq port Port.fencing fun _ => rfl⟩

section
variable {t0 : Nat} (since : (s.port p.val).restoreAt = some t0) (late : s.passed t0 10000000000 = true) (idle : (s.port p.val).fencing = false)
  (linked : (s.port p.val).linked = true)
include since late idle linked

/-- Ten seconds have passed since the link came back, and it is not being fenced off. -/
theorem restore_due : ((s.port p.val).restoreAt.isNone || (s.port p.val).fencing || !(s.port p.val).linked ||
    !s.passed ((s.port p.val).restoreAt.getD 0) 10000000000) = false := by
  simp only [since, idle, linked, Option.getD_some, late, Option.isNone_some, Bool.not_true, Bool.or_self]

/-- Without a detour the link then carries traffic at once. -/
theorem execLinkRestore_direct (direct : ∀ e, s.linkTo (p.val / 10) (coordOf (s.peerOf p.val) (p.val / 10)) ≠ some (e, true)) :
    execLinkRestore p s = .next (s.restored p.val) := by
  -- `direct` excludes the first branch of the match
  simp only [execLinkRestore, restore_due since late idle linked, Bool.false_eq_true, if_false]

/-- With one, a FENCE goes along it in each buffer class. -/
theorem execLinkRestore_detour {e : Nat} (detour : s.linkTo (p.val / 10) (coordOf (s.peerOf p.val) (p.val / 10)) = some (e, true)) :
    execLinkRestore p s = .next (bufClasses.foldl (fun (s : State) c => s.sendFence p.val e c)
      (s.setPort p.val { s.port p.val with fencing := true })) := by
  simp only [execLinkRestore, restore_due since late idle linked, Bool.false_eq_true, if_false, detour]

end

/-- A FENCE that has not come yet is noted, and the last of the twelve is answered over the restored link. -/
theorem execFenceFrame_new {q : Nat} (ho : f.op = 0xD) (hc : (s.port p.val).inbox.contains f = true)
    (joined : (s.drained p f).portOf f.src.toNat = some q) (new : (f.vesper, fld f.variant.toNat 0 3) ∉ ((s.drained p f).port q).fences)
    (known : (f.vesper, fld f.variant.toNat 0 3) ∈ bufClasses) :
    let y := (s.drained p f).port q
    let last := (s.drained p f).setPort q { y with fences := [] }
    execFenceFrame p f s = .next (if y.fences.length = 11 then last.ctrl q (last.ctrlFrame q 5 true 0 [])
      else (s.drained p f).setPort q { y with fences := y.fences ++ [(f.vesper, fld f.variant.toNat 0 3)] }) := by
  simp only [execFenceFrame, State.takeFrame_of ho hc, joined]
  generalize (f.vesper, fld f.variant.toNat 0 3) = c at *
  have counts : (((s.drained p f).port q).fences.contains c || !bufClasses.contains c) = false := by simpa using ⟨new, known⟩
  have twelve : (((s.drained p f).port q).fences ++ [c]).length = 12 ↔ ((s.drained p f).port q).fences.length = 11 := by simp
  simp only [counts, Bool.false_eq_true, if_false, twelve]
  split
  · rfl
  · rfl

theorem exec_linkCtrlFenceDone : exec (.linkCtrlFenceDone p f) s =
    onCtrl 5 p f s fun x s => if x.fencing then s.restored p.val else s := rfl

/-- The answer to the FENCEs moves the sender from the detour to the restored link. -/
theorem execLinkCtrlFenceDone_moves (h : control s p 5 f) (fencing : (s.port p.val).fencing = true) :
    leads (exec (.linkCtrlFenceDone p f) s) fun s' =>
      (s'.port p.val).st = (if (s.port p.val).st = 1 ∧ s.sec.hallCak = none then 1 else 2) ∧ (s'.port p.val).fencing = false := by
  have taken := s.port_drained p f
  obtain ⟨st, -, done⟩ := (s.drained p f).restored_moved p.val
  rw [taken] at st
  refine ⟨_, exec_linkCtrlFenceDone.trans (onCtrl_control h _), ?_⟩
  rw [taken]
  simp only [fencing, if_true]
  exact ⟨st, done⟩

/-- A rekey begins with an offer of this end: the key in use and the port's state stay. -/
theorem State.rekey_offers (s : State) (k : Nat) : ((s.rekey k).port k).rekeyAt = some s.now ∧ ((s.rekey k).port k).installed = false ∧
    ((s.rekey k).port k).key = (s.port k).key ∧ ((s.rekey k).port k).st = (s.port k).st ∧ (s.rekey k).mem = s.mem := by
  have told : ((s.rekey k).port k).still = { (s.offer k).port k with rekeyAt := some s.now }.still :=
    ((Sends.refl _).ctrl.still k).trans (congrArg Port.still (State.port_setPort_self _ k _))
  rw [State.port_offer] at told
  exact ⟨Port.part_eq told Port.rekeyAt fun _ => rfl, Port.part_eq told Port.installed fun _ => rfl,
    Port.part_eq told Port.key fun _ => rfl, Port.part_eq told Port.st fun _ => rfl,
    State.mem_of_core (s.core_rekey k)⟩

theorem execRekeyStart_due (up : (s.port p.val).st = 2) (idle : (s.port p.val).rekeyAt = none) (due : s.rekeyDue (s.port p.val) = true) :
    execRekeyStart p s = .next (s.rekey p.val) :=
  if_pos ⟨up, by rw [idle]; rfl, due⟩

/-- A rekey that has not ended in its 10 ms takes the link down with F-8402. -/
theorem execRekeyFailed_late {t0 : Nat} (begun : (s.port p.val).rekeyAt = some t0) (late : s.passed t0 10000000 = true)
    (linked : (s.port p.val).linked = true) : execRekeyFailed p s = .next ((s.secFault 0x8402 0 0).linkLost p.val false) := by
  simp only [execRekeyFailed, begun, late, linked, Bool.and_self, if_true]

/-- The old receive SA goes once its time has come. -/
theorem execOldSaRetire_late {n : Nat} (kept : (s.port p.val).oldUntil = some (n + 1)) (late : n + 1 ≤ s.now) :
    execOldSaRetire p s = .next (s.setPort p.val { s.port p.val with oldUntil := none }) := by
  simp only [execOldSaRetire, kept, late, if_true]

end

end Sys2Proof.Machine

section
open Sys2Proof Sys2Proof.Machine

/-- Settles O48: the guard of each command holds, and the frames that then leave keep the port as it was set. -/
theorem linkRestoreAndRekey : Obligations.LinkRestoreAndRekey := by
  refine ⟨fun s p f => ⟨fun t0 since late idle linked direct => ?_, fun e t0 since late idle linked detour => ?_,
      fun q ho hc joined new known => ?_, fun h fencing => ?_⟩,
    fun s p => ⟨fun up idle due => ?_, fun t0 begun late linked => ?_, fun n kept late => ?_⟩⟩
  · obtain ⟨st, since', -⟩ := s.restored_moved p.val
    exact ⟨_, execLinkRestore_direct since late idle linked direct, st, since'⟩
  · exact execLinkRestore_detour since late idle linked detour
  · exact execFenceFrame_new ho hc joined new known
  · exact execLinkCtrlFenceDone_moves h fencing
  · obtain ⟨begun, fresh, key, st, mem⟩ := s.rekey_offers p.val
    exact ⟨_, execRekeyStart_due up idle due, begun, fresh, key, st.trans up, mem⟩
  · exact execRekeyFailed_late begun late linked
  · exact ⟨_, execOldSaRetire_late kept late, by rw [State.port_setPort_self], by rw [State.port_setPort_self], rfl⟩
end
end

section
/-!
PROOF. LINK_CTRL frames and the identity exchange (R239, R254, R257, R258, R411, R412): O46.
-/
namespace Sys2Proof.Machine

/-! ### What a port keeps of a frame that leaves (R254, R257) -/

/-- A port but for what a frame that leaves changes itself: the packet number, the share, the acknowledgement owed and the time of the old
receive SA. -/
def Port.unsent (x : Port) : Port := { x with pn := 0, lastV := false, ackOwed := false, share := (0, 0), oldUntil := none }

/-- A frame that leaves changes the rest of its port in nothing, and carries the acknowledgements that the port owed. -/
theorem State.port_sent (s : State) (p : Nat) (ok : Bool) (f : Frame) :
    ((s.sent p ok f).port p).unsent = (s.port p).unsent ∧ ((s.sent p ok f).port p).ackOwed = false := by
  unfold State.sent
  dsimp only
  split
  · simp only [State.port_emit, State.port_bump, State.port_across, State.port_setPort_self, and_true]
    rfl
  · simp only [State.port_emit, State.port_drawn, State.port_bump, State.port_across, State.port_setPort_self, and_true]
    rfl

/-! ### LINK_CTRL frames (R239, R254, R257, R258) -/

section
variable {s : State} {k : Nat} {f : Frame}

/-- Without HALL_CAK no LINK_CTRL frame leaves (R411). -/
theorem State.ctrl_unkeyed (unkeyed : s.sec.hallCak = none) : s.ctrl k f = s := by
  simp only [State.ctrl, unkeyed, Option.isNone_none, if_true]

variable (keyed : s.sec.hallCak.isSome = true)
include keyed

/-- One that may leave at once leaves, and stays in the replay buffer. -/
theorem State.ctrl_ready (ready : (s.port k).ctrlReady f = true) :
    s.ctrl k f = (s.setPort k ((s.port k).kept s.now ((s.port k).stamp f))).sent k true ((s.port k).stamp f) := by
  have some : s.sec.hallCak.isNone = false := by simpa using keyed
  simp only [State.ctrl, some, ready, Bool.false_eq_true, if_false, if_true]

/-- Another waits. -/
theorem State.ctrl_waits (busy : (s.port k).ctrlReady f = false) :
    s.ctrl k f = s.setPort k { s.port k with ctrlq := (s.port k).ctrlq ++ [f] } := by
  have some : s.sec.hallCak.isNone = false := by simpa using keyed
  simp only [State.ctrl, some, busy, Bool.false_eq_true, if_false]

/-- The port of one that leaves: the next LINK_SEQ of its class is used, and the frame is kept for replay. -/
theorem State.port_ctrl_ready (ready : (s.port k).ctrlReady f = true) :
    ((s.ctrl k f).port k).unsent = ((s.port k).kept s.now ((s.port k).stamp f)).unsent ∧ ((s.ctrl k f).port k).ackOwed = false := by
  rw [State.ctrl_ready keyed ready]
  obtain ⟨port, owed⟩ := (s.setPort k ((s.port k).kept s.now ((s.port k).stamp f))).port_sent k true ((s.port k).stamp f)
  rw [State.port_setPort_self] at port
  exact ⟨port, owed⟩

end

/-- Whether a LINK_CTRL frame may leave depends on its class and its length alone. -/
theorem Port.ctrlReady_congr (x : Port) {f g : Frame} (hv : f.vesper = g.vesper) (hw : f.wireBytes = g.wireBytes) :
    x.ctrlReady f = x.ctrlReady g := by
  simp only [Port.ctrlReady, Port.hasReplay, hv, hw]

section
variable {s : State} {p : PortId} {f : Frame}

/-- Credit that comes back is free again. -/
theorem execLinkCtrlCredit_back (h : control s p 0 f) (bare : f.ackValid = false) :
    let x := (s.drained p f).port p.val
    execLinkCtrlCredit p f s = .next ((s.drained p f).setPort p.val { x with used := giveBack x.used (payHalves f) }) := by
  rw [execLinkCtrlCredit, onCtrl_control h]
  simp only [bare, Bool.false_and, Bool.false_eq_true, if_false]

/-- An echo is returned with its stamp. -/
theorem execLinkCtrlEcho_returned (h : control s p 2 f) (outward : f.aux.toNat % 2 = 0) :
    execLinkCtrlEcho p f s = .next ((s.drained p f).sendEcho p.val true (leNat (f.payload.take 8))) := by
  rw [execLinkCtrlEcho, onCtrl_control h]
  simp only [outward, if_true]

/-- The port that a NAK leaves: the class is sent again from the LINK_SEQ that it names, and the retry is noted. -/
def Port.naked (x : Port) (now : Nat) (f : Frame) : Port :=
  { x with retries := lastSecond now x.retries ++ [now], restoreAt := x.restoreAt.map fun _ => now,
           resend := (x.replay.filter fun g => g.vesper == f.vesper &&
               decide ((g.linkSeq - BitVec.ofNat 16 (fld f.aux.toNat 0 16)).toNat < 2 ^ 15)) ++
             x.resend.filter fun g => g.vesper != f.vesper }

/-- A NAK that follows no other within 10 us. -/
theorem execLinkCtrlNak_first (h : control s p 3 f)
    (first : (((s.drained p f).port p.val).retries.any fun t => decide (s.now < t + 10000)) = false) :
    execLinkCtrlNak p f s = .next (((s.drained p f).setPort p.val (((s.drained p f).port p.val).naked s.now f)).bump (0x2120 + 0x40 * p.val) 1) := by
  rw [execLinkCtrlNak, onCtrl_control h]
  have now : (s.drained p f).now = s.now := rfl
  simp only [now, first, Bool.false_eq_true, if_false]
  rfl

/-- The states that the peer advertises are taken. -/
theorem execLinkCtrlPortStates_taken (h : control s p 4 f) : execLinkCtrlPortStates p f s = .next ((s.drained p f).setPort p.val
    { (s.drained p f).port p.val with
      advert := (List.range (min 10 f.payload.length)).map fun i => (10 * (p.val / 10) + i, nth 0#8 f.payload i == 2) }) := by
  rw [execLinkCtrlPortStates, onCtrl_control h]

/-- The twelve numbers of credit that a port owes, as bytes. -/
def Port.owedBytes (x : Port) : List Byte :=
  ((List.range 6).map (fun i => Sp.get 0 x.owed (bufKey true (i + 1))) ++ (List.range 6).map fun i => Sp.get 0 x.owed (bufKey false (i + 1))).flatMap
    (leBytes 2)

theorem Port.length_owedBytes (x : Port) : x.owedBytes.length = 24 := by
  simp [Port.owedBytes, List.length_flatMap, leBytes_length, Function.comp_def]

/-- What is owed goes back in one frame. -/
theorem execCreditReturn_owed (linked : (s.port p.val).linked = true)
    (owed : (s.port p.val).owed ≠ [] ∨ (s.port p.val).ackOwed = true) (lasts : (s.port p.val).spent = false) :
    let s1 := s.setPort p.val { s.port p.val with owed := [] }
    execCreditReturn p s = .next (s1.ctrl p.val (s1.ctrlFrame p.val 0 true 0 (s.port p.val).owedBytes)) := by
  have due : ((s.port p.val).owed.isEmpty && !(s.port p.val).ackOwed) = false := by
    rcases owed with units | ack
    · rw [List.isEmpty_eq_false_iff.mpr units, Bool.false_and]
    · rw [ack, Bool.not_true, Bool.and_false]
  simp only [execCreditReturn, linked, due, lasts, Bool.not_true, Bool.or_self, Bool.false_eq_true, if_false]
  rfl

/-- After it nothing is owed, and where the frame leaves at once the acknowledgement has gone with it. -/
theorem creditReturn_clears (keyed : s.sec.hallCak.isSome = true) :
    let y := s.port p.val
    let s1 := s.setPort p.val { y with owed := [] }
    let z := s1.ctrl p.val (s1.ctrlFrame p.val 0 true 0 y.owedBytes)
    (z.port p.val).owed = [] ∧
      (y.ctrlReady (s.ctrlFrame p.val 0 true 0 (List.replicate 24 0)) = true → (z.port p.val).ackOwed = false) := by
  intro y s1 z
  have told : Sends s1 z := (Sends.refl s1).ctrl
  refine ⟨Port.part_eq told.still_setPort Port.owed fun _ => rfl, fun ready => ?_⟩
  have length : (s1.ctrlFrame p.val 0 true 0 y.owedBytes).wireBytes = (s.ctrlFrame p.val 0 true 0 (List.replicate 24 0)).wireBytes :=
    congrArg (82 + 0 + ·) (y.length_owedBytes.trans List.length_replicate.symm)
  have ready' : (s1.port p.val).ctrlReady (s1.ctrlFrame p.val 0 true 0 y.owedBytes) = true := by
    rw [State.port_setPort_self]
    exact (y.ctrlReady_congr rfl length).trans ready
  exact (State.port_ctrl_ready (s := s1) keyed ready').2

end

/-! ### The identity exchange (R239, R412) -/

section
variable {s : State} {p : PortId} {f : Frame}

/-- Taking a peer's offer changes nothing of what the port knows of its peer, but for the offer. -/
theorem State.port_takeOffer (s : State) (k : Nat) (peer : BitVec 256 × BitVec 128) (inst : Bool) :
    ((s.takeOffer k peer inst).port k).identified = (s.port k).identified ∧ ((s.takeOffer k peer inst).port k).peerHall = (s.port k).peerHall ∧
      ((s.takeOffer k peer inst).port k).peerOffer = some peer ∧ (s.takeOffer k peer inst).core = s.core := by
  unfold State.takeOffer
  dsimp only
  generalize hs2 : s.setPort k _ = s2
  generalize hs3 : (if (s.port k).installed = true then s2 else s2.sendIdentity k) = s3
  have told : Sends s2 s3 := by
    subst hs3
    split
    · exact Sends.refl s2
    · exact (Sends.refl s2).ctrl
  subst hs2
  have port := told.still_setPort
  have known : (s3.port k).identified = (s.port k).identified ∧ (s3.port k).peerHall = (s.port k).peerHall ∧ (s3.port k).peerOffer = some peer ∧
      s3.core = s.core :=
    ⟨Port.part_eq port Port.identified fun _ => rfl, Port.part_eq port Port.peerHall fun _ => rfl,
      Port.part_eq port Port.peerOffer fun _ => rfl, told.core⟩
  split
  · unfold State.switchKey
    dsimp only
    rw [State.port_setPort_self]
    exact known
  · exact known

/-- A port that is found badly linked is dark and in that state, but in TRAINING without HALL_CAK. -/
theorem State.badLink_dark (s : State) (k code st : Nat) :
    ((s.badLink k code st).port k).st = s.stFor k st ∧ ((s.badLink k code st).port k).phy = false ∧ (s.badLink k code st).core = s.core := by
  unfold State.badLink
  dsimp only
  have logged := (s.setPort k { s.port k with phy := false, identified := false, attempting := false }).logEvent_logged code none (0, 0)
  have port := logged.port k
  have sec := logged.sec
  rw [State.port_setPort_self] at port
  generalize hz : State.logEvent _ code none (0, 0) = z at *
  have set := z.port_setSt k st
  rw [State.stFor, port, sec] at set
  refine ⟨(Port.part_eq set Port.st fun _ => rfl), (Port.part_eq set Port.phy fun _ => rfl), ?_⟩
  rw [State.core_setSt, ← hz, State.core_logEvent, State.core_setPort]

section
variable (h : control s p 1 f) (wellFormed : (identityOf f).2.2.2.2 = true) (phy : (s.port p.val).phy = true)
  (new : (s.port p.val).identified = false)
include h wellFormed phy new

/-- An identity that names the expected peer identifies it, with its offer. -/
theorem execLinkCtrlIdentity_expected (hall : (identityOf f).1 = (List.range 4).map (coordOf ((s.drained p f).peerOf p.val)))
    (port : (identityOf f).2.1 = peerPortOf p.val) : leads (execLinkCtrlIdentity p f s) fun s' =>
      (s'.port p.val).identified = true ∧ (s'.port p.val).peerHall = (s.drained p f).peerOf p.val ∧
        (s'.port p.val).peerOffer = some (identityOf f).2.2.2.1 ∧ s'.mem = s.mem := by
  rw [execLinkCtrlIdentity, onCtrl_control h, State.port_drained]
  simp only [wellFormed, phy, new, hall, port, Bool.not_true, Bool.false_eq_true, if_false, ne_eq, not_true_eq_false, or_self]
  generalize hz : (s.drained p f).setPort p.val _ = z
  have set : (z.port p.val).identified = true ∧ (z.port p.val).peerHall = (s.drained p f).peerOf p.val := by
    rw [← hz, State.port_setPort_self]
    exact ⟨rfl, rfl⟩
  have core : z.core = s.core := by rw [← hz, State.core_setPort, State.core_drained]
  obtain ⟨identified, peerHall, offer, kept⟩ := z.port_takeOffer p.val (identityOf f).2.2.2.1 (identityOf f).2.2.1
  generalize z.takeOffer p.val (identityOf f).2.2.2.1 (identityOf f).2.2.1 = u at *
  have told : Sends u (u.sendEcho p.val false (s.drained p f).now) := (Sends.refl u).ctrl
  have here := told.still p.val
  exact ⟨_, rfl, ((Port.part_eq here Port.identified fun _ => rfl).trans identified).trans set.1,
    ((Port.part_eq here Port.peerHall fun _ => rfl).trans peerHall).trans set.2,
    (Port.part_eq here Port.peerOffer fun _ => rfl).trans offer, State.mem_of_core (told.core.trans (kept.trans core))⟩

/-- One that names another port or position leaves the port dark, and MISCABLED where it may leave TRAINING. -/
theorem execLinkCtrlIdentity_other (other : (identityOf f).1 ≠ (List.range 4).map (coordOf ((s.drained p f).peerOf p.val)) ∨
    (identityOf f).2.1 ≠ peerPortOf p.val) : leads (execLinkCtrlIdentity p f s) fun s' =>
      (s'.port p.val).st = (if (s.port p.val).st = 1 ∧ s.sec.hallCak = none then 1 else 4) ∧ (s'.port p.val).phy = false ∧ s'.mem = s.mem := by
  rw [execLinkCtrlIdentity, onCtrl_control h, State.port_drained]
  simp only [wellFormed, phy, new, Bool.not_true, Bool.false_eq_true, if_false]
  rw [if_pos other]
  generalize hz : (s.drained p f).setPort p.val _ = z
  have set : z.stFor p.val 4 = (if (s.port p.val).st = 1 ∧ s.sec.hallCak = none then 1 else 4) := by
    rw [State.stFor, ← hz, State.port_setPort_self]
    rfl
  have core : z.core = s.core := by rw [← hz, State.core_setPort, State.core_drained]
  obtain ⟨st, dark, kept⟩ := z.badLink_dark p.val 0x2102 4
  exact ⟨_, rfl, st.trans set, dark, State.mem_of_core (kept.trans core)⟩

end

theorem execIdentityExchangeTick_sends (fabric : p.val < 40) (phy : (s.port p.val).phy = true) (new : (s.port p.val).identified = false) :
    execIdentityExchangeTick p s = .next (s.sendIdentity p.val) := by
  simp only [execIdentityExchangeTick, fabric, phy, new, Bool.not_false, decide_true, Bool.and_self, if_true]

end

end Sys2Proof.Machine

section
open Sys2Proof Sys2Proof.Machine

/-- Settles O46: a LINK_CTRL frame leaves or waits, and neither undoes what its kind has set on the port. -/
theorem linkControlAndIdentity : Obligations.LinkControlAndIdentity := by
  refine ⟨fun s p f => ⟨fun h bare => ?_, fun h outward => ?_, fun h first => ?_, fun h => ?_, fun linked owed lasts keyed => ?_⟩,
    fun s k f => ⟨fun unkeyed => ?_, fun keyed ready => ?_, fun keyed busy => ?_⟩,
    fun s p f => ⟨fun phy new fabric => ?_, fun h wellFormed phy new => ⟨fun hall port => ?_, fun other => ?_⟩⟩⟩
  · exact execLinkCtrlCredit_back h bare
  · exact execLinkCtrlEcho_returned h outward
  · refine ⟨_, execLinkCtrlNak_first h first, by simp [State.drained], by simp [State.drained], ?_⟩
    rw [State.port_bump, State.port_setPort_self]
    rfl
  · exact ⟨_, execLinkCtrlPortStates_taken h, (congrArg Port.advert (State.port_setPort_self _ p.val _) :)⟩
  · obtain ⟨none, sent⟩ := creditReturn_clears keyed
    exact ⟨_, execCreditReturn_owed linked owed lasts, none, sent, State.mem_of_core (by rw [State.core_ctrl, State.core_setPort]),
      (Sends.refl _).ctrl.jobs⟩
  · exact State.ctrl_unkeyed unkeyed
  · obtain ⟨port, -⟩ := State.port_ctrl_ready keyed ready
    exact ⟨Port.part_eq port Port.replay fun _ => rfl, Port.part_eq port Port.txV fun _ => rfl, Port.part_eq port Port.txN fun _ => rfl⟩
  · exact State.ctrl_waits keyed busy
  · exact execIdentityExchangeTick_sends fabric phy new
  · exact execLinkCtrlIdentity_expected h wellFormed phy new hall port
  · exact execLinkCtrlIdentity_other h wellFormed phy new other
end
end

section
/-!
SUPPORT. Overruns of a port's crossing (R453), and the NAK and the counters of a frame that arrives (R257, R271).
-/
namespace Sys2Proof.Machine

/-! ### Overruns of a port's crossing (R453) -/

/-- A record touches no status word below its count but the records dropped. -/
theorem State.word_record_below (s : State) {base k : Nat} (m : Nat) (w : W64 × W64) (h : k < base) : (s.record base m w).word k = s.word k := by
  rw [State.record, State.word_bump_ne _ (by omega), State.word_setWord_ne _ _ (by omega), State.word_setWord_ne _ _ (by omega)]

/-- An overrun touches no status word below those of the crossings but the records dropped. -/
theorem State.word_portOverrun (s : State) (p : Nat) (rx : Bool) {k : Nat} (below : k < 0xB000) (h : k ≠ 0x0718) :
    (s.portOverrun p rx).word k = s.word k := by
  unfold State.portOverrun State.overran State.xingEvent
  generalize hz : State.setCrossing _ _ _ = z
  have points (u : State) : (u.points 20).word k = u.word k := rfl
  rw [points, State.logEvent, State.word_logAs _ h, State.word_record_below _ _ _ (by omega), State.word_bump_ne _ (by omega), ← hz]
  exact State.word_bump_ne s (by omega)

/-- What a record in the log writes is no crossing. -/
theorem Logged.crossing {s z : State} (h : Logged s z) (k : Nat) : z.crossing k = s.crossing k := by
  obtain ⟨_, _, _, rfl⟩ := h
  rfl

@[simp] theorem State.crossing_setCrossing_self (s : State) (k : Nat) (x : Crossing) : (s.setCrossing k x).crossing k = x :=
  Sp.get_put_self _ _ _

/-- The crossing that overruns says so. -/
theorem State.crossing_overran (s : State) (k cls kind inst : Nat) (dir : Bool) :
    ((s.overran k cls kind inst dir).crossing k).overrun = true := by
  unfold State.overran
  generalize hz : s.setCrossing k _ = z
  have points (u : State) : (u.points 20).crossing k = u.crossing k := rfl
  rw [points, (State.xingEvent_logged _ _ _ _ _).crossing, (State.bump_logged _ _ _).crossing, ← hz, State.crossing_setCrossing_self]

theorem State.crossing_portOverrun (s : State) (p : Nat) (rx : Bool) :
    ((s.portOverrun p rx).crossing (if rx then portRx p else portTx p)).overrun = true :=
  State.crossing_overran _ _ _ _ _ _

theorem State.portOverrun_port (s : State) (p : Nat) (rx : Bool) (q : Nat) : (s.portOverrun p rx).port q = s.port q :=
  congrArg (Sp.get Port.start · q) (s.portOverrun_ports p rx)

theorem State.portOverrun_mem (s : State) (p : Nat) (rx : Bool) : (s.portOverrun p rx).mem = s.mem := by
  obtain ⟨_, _, _, _, _, h⟩ := s.portOverrun_frame p rx; rw [h]

theorem State.portOverrun_jobs (s : State) (p : Nat) (rx : Bool) : (s.portOverrun p rx).jobs = s.jobs := by
  obtain ⟨_, _, _, _, _, h⟩ := s.portOverrun_frame p rx; rw [h]

section
variable (s : State) (k : Nat) (bs : List Byte)

@[simp] theorem State.cfg_across : (s.across k bs).cfg = s.cfg := by
  obtain ⟨x, hx⟩ := s.across_eq k bs
  rw [hx]

@[simp] theorem State.jobs_across : (s.across k bs).jobs = s.jobs := by
  obtain ⟨x, hx⟩ := s.across_eq k bs
  rw [hx]

@[simp] theorem State.word_across (n : Nat) : (s.across k bs).word n = s.word n := by
  obtain ⟨x, hx⟩ := s.across_eq k bs
  rw [hx]
  rfl

@[simp] theorem State.word_setPort (x : Port) (n : Nat) : (s.setPort k x).word n = s.word n := rfl

end

/-! ### Frames that arrive on a fabric port (R242, R254, R257, R413) -/

/-- One NAK for the class is outstanding: frames leave. -/
theorem State.nak_sends (s : State) (p : Nat) (v : Bool) :
    Sends (s.setPort p { s.port p with nakV := (s.port p).nakV || v, nakN := (s.port p).nakN || !v }) (s.nak p v) := by
  unfold State.nak
  dsimp only
  split
  next standing =>
    refine Sends.of_setPort_still (congrArg Port.still ?_)
    have same : ((s.port p).nakV || v) = (s.port p).nakV ∧ ((s.port p).nakN || !v) = (s.port p).nakN := by
      cases v <;> simpa using standing
    rw [same.1, same.2]
  next => exact (Sends.refl _).ctrl

/-- A frame that has been counted and is not passed on: a NAK of its class is outstanding after it. -/
theorem State.nak_damaged (s : State) (p : Nat) (v : Bool) :
    ((s.nak p v).port p).rxq = (s.port p).rxq ∧ ((s.nak p v).port p).inbox = (s.port p).inbox ∧
      (if v then ((s.nak p v).port p).nakV = true else ((s.nak p v).port p).nakN = true) ∧ (s.nak p v).mem = s.mem ∧ (s.nak p v).jobs = s.jobs := by
  have told := s.nak_sends p v
  have port := told.still_setPort
  refine ⟨Port.part_eq port Port.rxq fun _ => rfl, Port.part_eq port Port.inbox fun _ => rfl, ?_,
    State.mem_of_core (told.core.trans (s.core_setPort p _)), told.jobs.trans (s.setPort_jobs p _)⟩
  cases v
  · exact (Port.part_eq port Port.nakN fun _ => rfl).trans (Bool.or_true _)
  · exact (Port.part_eq port Port.nakV fun _ => rfl).trans (Bool.or_true _)

/-- A frame's bytes and corrected codewords are counted on its port (R271). -/
def State.countedRx (s : State) (p : Nat) (rx : RxFrame) : State :=
  (s.bump (0x2110 + 0x40 * p) rx.frame.wireBytes).bump (0x2128 + 0x40 * p) rx.corrected

@[simp] theorem State.port_countedRx (s : State) (p : Nat) (rx : RxFrame) (q : Nat) : (s.countedRx p rx).port q = s.port q := rfl

@[simp] theorem State.cfg_countedRx (s : State) (p : Nat) (rx : RxFrame) : (s.countedRx p rx).cfg = s.cfg := rfl

@[simp] theorem State.jobs_countedRx (s : State) (p : Nat) (rx : RxFrame) : (s.countedRx p rx).jobs = s.jobs := rfl

@[simp] theorem State.core_countedRx (s : State) (p : Nat) (rx : RxFrame) : (s.countedRx p rx).core = s.core := by
  rw [State.countedRx, State.core_bump, State.core_bump]

/-- The two counters of a port that an arriving frame raises. -/
theorem State.word_countedRx (s : State) (p : Nat) (rx : RxFrame) :
    (s.countedRx p rx).word (0x2110 + 0x40 * p) = s.word (0x2110 + 0x40 * p) + BitVec.ofNat 64 rx.frame.wireBytes ∧
      (s.countedRx p rx).word (0x2128 + 0x40 * p) = s.word (0x2128 + 0x40 * p) + BitVec.ofNat 64 rx.corrected := by
  unfold State.countedRx
  rw [State.word_bump_ne _ (by omega), State.word_bump_self, State.word_bump_self, State.word_bump_ne _ (by omega)]
  exact ⟨rfl, rfl⟩

end Sys2Proof.Machine
end

section
/-!
PROOF. Frames that arrive on a fabric port (R242, R254, R257, R413, R453): O39.
-/
namespace Sys2Proof.Machine

section
variable {s : State} {k : Nat} {rx : RxFrame} (phy : (s.port k).phy = true)

/-- No frame arrives on a port whose PHY is down. -/
theorem State.receive_dark (dark : (s.port k).phy = false) : s.receive k rx = s := by
  simp only [State.receive, dark, Bool.not_false, if_true]

include phy

/-- One that finds the receive crossing full is lost there, and the overrun is recorded. -/
theorem State.receive_overrun (full : rx.overrun = true) :
    s.receive k rx = ((s.countedRx k rx).portOverrun k true).nak k rx.frame.vesper := by
  simp only [State.receive, phy, full, Bool.not_true, Bool.false_eq_true, if_false, if_true]
  rfl

variable (whole : rx.overrun = false)
include whole

/-- One that is shown to be damaged is lost. -/
theorem State.receive_damaged (bad : s.verifies k rx = false) :
    s.receive k rx = ((s.countedRx k rx).across (portRx k) (s.rxBytes k rx)).nak k rx.frame.vesper := by
  simp only [State.receive, phy, whole, bad, Bool.not_true, Bool.not_false, Bool.false_eq_true, if_false, if_true]
  rfl

/-- The state in which MACsec has taken a frame: it is counted, and its packet number does not come again (R413). -/
def State.tookFrame (s : State) (k : Nat) (rx : RxFrame) : State :=
  ((s.countedRx k rx).setPort k ((s.port k).tookPn rx)).across (portRx k) (s.rxBytes k rx)

variable (good : s.verifies k rx = true)
include good

/-- One of another address is a violation (R242, R267). -/
theorem State.receive_misaddressed (other : rx.hdr.dst ≠ macOf s.hall k) :
    s.receive k rx = ((s.tookFrame k rx).violation k 0x2301 rx.frame false).police k := by
  simp only [State.receive, phy, whole, good, Bool.not_true, Bool.false_eq_true, if_false]
  rw [if_pos (Or.inr other)]
  rfl

/-- One that its port expects next, without acknowledgements, is taken in its order (R257). -/
theorem State.receive_expected (inner : rx.hdr.inner = 0x88B5) (own : rx.hdr.dst = macOf s.hall k) (linked : (s.port k).linked = true)
    (bare : rx.frame.ackValid = false) (next : rx.frame.linkSeq = (if rx.frame.vesper then (s.port k).rxV else (s.port k).rxN)) :
    s.receive k rx = (s.tookFrame k rx).inOrder k rx.frame := by
  simp only [State.receive, phy, whole, good, inner, own, linked, bare, next, Bool.not_true, Bool.false_eq_true, Bool.false_and, if_false,
    ne_eq, not_true_eq_false, or_self, and_false, BitVec.sub_self, BitVec.toNat_zero]
  rfl

end

/-- What MACsec has taken changes crossings, counters and the port's packet numbers alone. -/
theorem State.tookFrame_parts (s : State) (k : Nat) (rx : RxFrame) :
    (s.tookFrame k rx).port k = (s.port k).tookPn rx ∧ (∀ q, q ≠ k → (s.tookFrame k rx).port q = s.port q) ∧
      (∀ n, (s.tookFrame k rx).word n = (s.countedRx k rx).word n) ∧ (s.tookFrame k rx).cfg = s.cfg ∧ (s.tookFrame k rx).core = s.core ∧
      (s.tookFrame k rx).jobs = s.jobs := by
  unfold State.tookFrame
  refine ⟨?_, fun q hq => ?_, fun n => ?_, ?_, ?_, ?_⟩
  · rw [State.port_across, State.port_setPort_self]
  · rw [State.port_across, State.port_setPort_ne _ _ hq, State.port_countedRx]
  · rw [State.word_across, State.word_setPort]
  · rw [State.cfg_across, State.setPort_cfg, State.cfg_countedRx]
  · rw [State.core_across, State.core_setPort, State.core_countedRx]
  · rw [State.jobs_across, State.setPort_jobs, State.jobs_countedRx]

/-- Whether a frame breaks the route rules depends on the configuration alone. -/
theorem State.routeBad_congr {s z : State} (h : z.cfg = s.cfg) (k : Nat) (f : Frame) : z.routeBad k f = s.routeBad k f := by
  simp only [State.routeBad, State.nonminimal, State.routeUses, State.peerOf, State.hall, h]

theorem State.nonminimal_congr {s z : State} (h : z.cfg = s.cfg) (k : Nat) (f : Frame) : z.nonminimal k f = s.nonminimal k f := by
  simp only [State.nonminimal, State.hall, h]

/-- The port to which the frame that it expects has come: the next one is expected, and an acknowledgement is owed (R257). -/
def Port.awaitsNext (x : Port) (f : Frame) : Port :=
  if f.vesper then { x with rxV := x.rxV + 1, nakV := false, ackOwed := true } else { x with rxN := x.rxN + 1, nakN := false, ackOwed := true }

/-- Whether a port has room for a frame depends on what it holds and owes. -/
theorem Port.credited_congr {x y : Port} (held : x.rxq = y.rxq) (owed : x.owed = y.owed) (f : Frame) : x.credited f = y.credited f := by
  rw [Port.credited, Port.credited, Port.occupied, Port.occupied, held, owed]

theorem Port.tookPn_eq (x : Port) (rx : RxFrame) : ∃ m, x.tookPn rx = { x with rxPn := m } := ⟨_, rfl⟩

theorem Port.rxq_tookPn (x : Port) (rx : RxFrame) : (x.tookPn rx).rxq = x.rxq := by
  obtain ⟨m, h⟩ := x.tookPn_eq rx
  rw [h]

theorem Port.owed_tookPn (x : Port) (rx : RxFrame) : (x.tookPn rx).owed = x.owed := by
  obtain ⟨m, h⟩ := x.tookPn_eq rx
  rw [h]

/-- A frame in order that holds credit and breaks no rule goes to the switch. -/
theorem State.inOrder_passed {s : State} {k : Nat} {f : Frame} (ho : f.op ≠ 0xE) (credit : (s.port k).credited f = true)
    (header : headerBad f = false) (row : opBad f = false) (route : s.routeBad k f = false) : s.inOrder k f = (s.cameIn k f).setPort k
      { (s.port k).awaitsNext f with rxq := (s.port k).rxq ++ [{ f with nonmin := f.nonmin || s.nonminimal k f }] } := by
  have port : (s.cameIn k f).port k = (s.port k).awaitsNext f := s.port_setPort_self k _
  have rxq : ((s.port k).awaitsNext f).rxq = (s.port k).rxq := by
    unfold Port.awaitsNext
    split <;> rfl
  have route' : (s.cameIn k f).routeBad k f = false := route
  have hop : (s.cameIn k f).nonminimal k f = s.nonminimal k f := rfl
  simp only [State.inOrder, ho, credit, State.accepted, header, row, route', hop, port, rxq, Bool.not_true, Bool.or_self, Bool.false_eq_true,
    if_false]

/-- A fabric port has counted a frame that it does not pass on, and a NAK of its class is outstanding; memory and job contexts are as they
were. -/
def lostFrame (s z : State) (k : Nat) (rx : RxFrame) : Prop :=
  (z.word (0x2110 + 0x40 * k) = s.word (0x2110 + 0x40 * k) + BitVec.ofNat 64 rx.frame.wireBytes ∧
    z.word (0x2128 + 0x40 * k) = s.word (0x2128 + 0x40 * k) + BitVec.ofNat 64 rx.corrected) ∧
  (z.port k).rxq = (s.port k).rxq ∧ (z.port k).inbox = (s.port k).inbox ∧
  (if rx.frame.vesper then (z.port k).nakV = true else (z.port k).nakN = true) ∧ z.mem = s.mem ∧ z.jobs = s.jobs

/-- A NAK after a frame that has been counted and is lost. -/
theorem State.nak_lostFrame {s z : State} {k : Nat} {rx : RxFrame} (port : z.port k = s.port k) (mem : z.mem = s.mem) (jobs : z.jobs = s.jobs)
    (bytes : z.word (0x2110 + 0x40 * k) = (s.countedRx k rx).word (0x2110 + 0x40 * k))
    (corrected : z.word (0x2128 + 0x40 * k) = (s.countedRx k rx).word (0x2128 + 0x40 * k)) : lostFrame s (z.nak k rx.frame.vesper) k rx := by
  obtain ⟨rxq, inbox, outstanding, mem', jobs'⟩ := z.nak_damaged k rx.frame.vesper
  obtain ⟨bytes', corrected'⟩ := s.word_countedRx k rx
  rw [port] at rxq inbox
  refine ⟨⟨?_, ?_⟩, rxq, inbox, outstanding, mem'.trans mem, jobs'.trans jobs⟩
  · rw [← bytes', ← bytes]
    exact (z.nak_sends k rx.frame.vesper).word _ (by omega) (by omega)
  · rw [← corrected', ← corrected]
    exact (z.nak_sends k rx.frame.vesper).word _ (by omega) (by omega)

/-- A frame that FEC, ICV, FCS, SecTAG or replay protection shows bad. -/
theorem receive_damaged_lost {s : State} {k : Nat} {rx : RxFrame} (phy : (s.port k).phy = true) (whole : rx.overrun = false)
    (bad : s.verifies k rx = false) : lostFrame s (s.receive k rx) k rx := by
  rw [State.receive_damaged phy whole bad]
  refine State.nak_lostFrame ?_ (State.mem_of_core ?_) ?_ (State.word_across _ _ _ _) (State.word_across _ _ _ _)
  · rw [State.port_across, State.port_countedRx]
  · rw [State.core_across, State.core_countedRx]
  · rw [State.jobs_across, State.jobs_countedRx]

/-- A good frame in order, of this port, that holds credit and breaks no rule, is passed to the switch, counted. -/
theorem State.receive_passed {s : State} {k : Nat} {rx : RxFrame} (phy : (s.port k).phy = true) (whole : rx.overrun = false)
    (good : s.verifies k rx = true) (inner : rx.hdr.inner = 0x88B5) (own : rx.hdr.dst = macOf s.hall k) (ho : rx.frame.op ≠ 0xE)
    (linked : (s.port k).linked = true) (bare : rx.frame.ackValid = false)
    (next : rx.frame.linkSeq = (if rx.frame.vesper then (s.port k).rxV else (s.port k).rxN)) (credit : (s.port k).credited rx.frame = true)
    (header : headerBad rx.frame = false) (row : opBad rx.frame = false) (route : s.routeBad k rx.frame = false) :
    s.receive k rx = ((s.tookFrame k rx).cameIn k rx.frame).setPort k
      { ((s.port k).tookPn rx).awaitsNext rx.frame with
        rxq := (s.port k).rxq ++ [{ rx.frame with nonmin := rx.frame.nonmin || s.nonminimal k rx.frame }] } := by
  obtain ⟨port, -, -, cfg, -, -⟩ := s.tookFrame_parts k rx
  have credit' : ((s.tookFrame k rx).port k).credited rx.frame = true := by
    rw [port, Port.credited_congr (Port.rxq_tookPn _ rx) (Port.owed_tookPn _ rx), credit]
  rw [State.receive_expected phy whole good inner own linked bare next,
    State.inOrder_passed ho credit' header row ((State.routeBad_congr cfg _ _).trans route), port, State.nonminimal_congr cfg, Port.rxq_tookPn]

/-- What is left of a frame's arrival once its port has been written. -/
theorem State.passed_parts (s : State) (k : Nat) (rx : RxFrame) (y : Port) :
    let z := ((s.tookFrame k rx).cameIn k rx.frame).setPort k y
    z.port k = y ∧ (∀ q, q ≠ k → z.port q = s.port q) ∧ (∀ n, z.word n = (s.countedRx k rx).word n) ∧ z.core = s.core ∧ z.jobs = s.jobs := by
  obtain ⟨-, others, word, -, core, jobs⟩ := s.tookFrame_parts k rx
  refine ⟨State.port_setPort_self _ k y, fun q hq => ?_, fun n => ?_, ?_, ?_⟩
  · rw [State.port_setPort_ne _ _ hq, State.cameIn, State.port_setPort_ne _ _ hq, others q hq]
  · rw [State.word_setPort, State.cameIn, State.word_setPort, word]
  · rw [State.core_setPort, State.cameIn, State.core_setPort, core]
  · rw [State.setPort_jobs, State.cameIn, State.setPort_jobs, jobs]

/-- What a port has counted and expects once MACsec has taken the frame that it awaited. -/
theorem Port.awaitsNext_tookPn (x : Port) (rx : RxFrame) (f : Frame) :
    ((x.tookPn rx).awaitsNext f).rxV = (if f.vesper then x.rxV + 1 else x.rxV) ∧
      ((x.tookPn rx).awaitsNext f).rxN = (if f.vesper then x.rxN else x.rxN + 1) ∧ ((x.tookPn rx).awaitsNext f).ackOwed = true ∧
      ((x.tookPn rx).awaitsNext f).rxPn = Sp.put 1 x.rxPn rx.hdr.an.toNat (wholePn (x.nextPn rx.hdr.an) rx.hdr.pn.toNat + 1) := by
  unfold Port.awaitsNext Port.tookPn Port.pnOf
  generalize wholePn _ _ = n
  split
  · exact ⟨rfl, rfl, rfl, rfl⟩
  · exact ⟨rfl, rfl, rfl, rfl⟩

section
variable {s : State} {p : PortId} {rx : RxFrame} (fabric : p.val < 40)
include fabric

theorem execFrameReceive_fabric : execFrameReceive p rx s = .next (s.receive p.val rx) := by
  have lies : ¬40 ≤ p.val := by omega
  simp only [execFrameReceive, lies, if_false]

variable (phy : (s.port p.val).phy = true)
include phy

/-- A frame that finds the receive crossing full. -/
theorem receive_overrun_lost (full : rx.overrun = true) :
    lostFrame s (s.receive p.val rx) p.val rx ∧ ((s.receive p.val rx).crossing (portRx p.val)).overrun = true := by
  rw [State.receive_overrun phy full]
  refine ⟨State.nak_lostFrame ?_ ?_ ?_ ?_ ?_, ?_⟩
  · exact State.portOverrun_port _ _ _ _
  · exact State.portOverrun_mem _ _ _
  · exact State.portOverrun_jobs _ _ _
  · exact State.word_portOverrun _ _ _ (by omega) (by omega)
  · exact State.word_portOverrun _ _ _ (by omega) (by omega)
  · rw [(State.nak_sends _ _ _).crossing _ (by unfold portRx; omega)]
    exact State.crossing_portOverrun _ p.val true

end

end Sys2Proof.Machine

section
open Sys2Proof Sys2Proof.Machine

/-- Settles O39: the checks on an arriving frame, in their order, each end in one lemma on `State.receive`. -/
theorem frameReceive : Obligations.FrameReceive := by
  intro s p rx f x counted damaged
  refine ⟨fun fabric dark => ?_, fun fabric phy => ⟨fun full => ?_, fun whole bad => ?_, fun whole good => ⟨fun other => ?_,
    fun inner own ho linked bare next credit header row route => ?_⟩⟩⟩
  · exact (execFrameReceive_fabric fabric).trans (congrArg Host.Outcome.next (State.receive_dark dark))
  · exact ⟨_, execFrameReceive_fabric fabric, receive_overrun_lost fabric phy full⟩
  · exact ⟨_, execFrameReceive_fabric fabric, receive_damaged_lost phy whole bad⟩
  · obtain ⟨port, -, -, -, core, jobs⟩ := s.tookFrame_parts p.val rx
    exact ⟨s.tookFrame p.val rx, by rw [port, Port.rxq_tookPn], State.mem_of_core core, jobs,
      (execFrameReceive_fabric fabric).trans (congrArg Host.Outcome.next (State.receive_misaddressed phy whole good other))⟩
  · have passed := State.receive_passed phy whole good inner own ho linked bare next credit header row route
    generalize hy : ({ (x.tookPn rx).awaitsNext f with rxq := _ } : Port) = y at passed
    obtain ⟨port, others, word, core, jobs⟩ := s.passed_parts p.val rx y
    obtain ⟨rxV, rxN, owed, rxPn⟩ := x.awaitsNext_tookPn rx f
    obtain ⟨bytes, corrected⟩ := s.word_countedRx p.val rx
    refine ⟨_, (execFrameReceive_fabric fabric).trans (congrArg Host.Outcome.next passed), ?_, ?_, ?_, ?_, ?_,
      ⟨(word _).trans bytes, (word _).trans corrected⟩, others, State.mem_of_core core, jobs, State.tiles_of_core core⟩
    all_goals
      rw [port, ← hy]
    · exact rxV
    · exact rxN
    · exact owed
    · exact rxPn
end
end

section
/-!
PROOF. Frames that are switched and sent (R251, R254, R257, R262, R411, R413, R453): O40.
-/
namespace Sys2Proof.Machine

/-! ### Frames that the switch takes (R251, R254) -/

section
variable {s : State} {p : PortId} {f : Frame}

/-- The state in which the switch has taken a frame from a port: its buffer is free, and its credit is owed. -/
def State.switched (s : State) (k : Nat) (f : Frame) : State :=
  (s.setPort k { s.port k with rxq := eraseFirst (· == f) (s.port k).rxq }).freeBuffer k f

variable (head : (s.port p.val).head = some f)
include head

/-- A frame at its destination goes to the slice of its port. -/
theorem execFrameForward_here (here : f.dst.toNat = s.hall) : execFrameForward p s = .next ((s.switched p.val f).deliver p.val f) := by
  simp only [execFrameForward, head, here, if_true]
  rfl

variable (away : f.dst.toNat ≠ s.hall)
include away

/-- Another goes on at the exit that its route names. -/
theorem execFrameForward_on {e : Nat × Bool × Bool} (hops : f.hops.toNat < 6)
    (route : (s.switched p.val f).routeOf { f with detour := false } = some e) :
    execFrameForward p s = .next ((s.switched p.val f).queueAt e { f with detour := false }) := by
  have last : ¬(f.op = 0xD ∧ f.hops.toNat = 6) := by omega
  have seventh : ¬6 ≤ f.hops.toNat := by omega
  unfold State.switched at route ⊢
  simp only [execFrameForward, head, away, last, seventh, if_false, route]

/-- One that would go a seventh hop, or for which there is no way, is unreachable. -/
theorem execFrameForward_lost (ho : f.op ≠ 0xD)
    (lost : 6 ≤ f.hops.toNat ∨ (s.switched p.val f).routeOf { f with detour := false } = none) :
    execFrameForward p s = .next ((s.switched p.val f).unreachable p.val f) := by
  unfold State.switched at lost ⊢
  simp only [execFrameForward, head, away, ho, false_and, if_false]
  split
  next => rfl
  next near => rw [lost.resolve_left near]

end

/-! ### Frames that are sent (R254, R257, R262, R413, R453) -/

/-- The frame that leaves next depends on the time, the configuration and the port. -/
theorem State.nextOut_congr {s z : State} (start : z.start = s.start) (cfg : z.cfg = s.cfg) (x : Port) : z.nextOut x = s.nextOut x := by
  unfold State.nextOut State.now
  rw [start, cfg]

section
variable {s : State} {k : Nat} {ok : Bool} {f : Frame}

/-- A frame to be resent goes out as it stands, with the port's acknowledgements. -/
theorem State.transmit_resend {rest : List Frame} (again : (s.port k).resend = f :: rest) (vesper : f.vesper = true) :
    s.transmit k ok = (s.setPort k { s.port k with resend := rest }).sent k ok
      { f with ackVesper := (s.port k).rxV, ackNoon := (s.port k).rxN, ackValid := true } := by
  simp only [State.transmit, again, List.find?_cons, vesper, Option.orElse_some, eraseFirst, beq_self_eq_true, if_true]

variable (fresh : (s.port k).resend = [])
include fresh

/-- With none to be resent, a waiting LINK_CTRL frame with replay space leaves. -/
theorem State.transmit_ctrl {rest : List Frame} (waits : (s.port k).ctrlq = f :: rest) (room : (s.port k).hasReplay f = true) :
    s.transmit k ok = s.depart k ok { s.port k with ctrlq := rest } f := by
  simp only [State.transmit, fresh, waits, room, List.find?_nil, List.head?_nil, Option.orElse_none, if_true]

variable (idle : (s.port k).ctrlq = []) (up : (s.port k).st = 2)
include idle up

/-- With none of either, nothing leaves where no frame may. -/
theorem State.transmit_none (none : s.nextOut (s.port k) = none) : s.transmit k ok = s := by
  simp only [State.transmit, fresh, idle, up, none, List.find?_nil, List.head?_nil, Option.orElse_none, ne_eq, not_true_eq_false, if_false]

/-- And where one may it leaves its queue and takes its credit. -/
theorem State.transmit_next (next : s.nextOut (s.port k) = some f) :
    let x := s.port k
    s.transmit k ok = s.depart k ok
      { x with txqV := if f.vesper then eraseFirst (· == f) x.txqV else x.txqV, txqN := if f.vesper then x.txqN else eraseFirst (· == f) x.txqN,
               used := Sp.put 0 x.used (bufKey f.vesper f.hops.toNat) (Sp.get 0 x.used (bufKey f.vesper f.hops.toNat) + units f) } f := by
  simp only [State.transmit, fresh, idle, up, next, List.find?_nil, List.head?_nil, Option.orElse_none, ne_eq, not_true_eq_false, if_false]

end

/-- A frame that departs leaves its port as it was but for what sending changes, and is kept there for replay. -/
theorem State.depart_parts (s : State) (k : Nat) (ok : Bool) (x : Port) (f : Frame) :
    ((s.depart k ok x f).port k).unsent = (x.kept s.now (x.stamp f)).unsent ∧ (s.depart k ok x f).core = s.core ∧
      (s.depart k ok x f).jobs = s.jobs := by
  obtain ⟨port, -⟩ := ((s.left f).setPort k (x.kept s.now (x.stamp f))).port_sent k ok (x.stamp f)
  rw [State.port_setPort_self] at port
  exact ⟨port, (State.core_sent _ k ok _).trans (State.core_setPort _ k _), (Sends.refl _).sent.jobs⟩

/-- The state in which a turn to send begins: where the transmit crossing runs empty under a frame that leaves, it has overrun (R453). -/
def State.turn (s : State) (k : Nat) (underrun : Bool) : State := if underrun && s.sends (s.port k) then s.portOverrun k false else s

/-- An overrun leaves ports, time, configuration, memory and job contexts as they are. -/
theorem State.turn_parts (s : State) (k : Nat) (underrun : Bool) : (∀ q, (s.turn k underrun).port q = s.port q) ∧
    (s.turn k underrun).start = s.start ∧ (s.turn k underrun).cfg = s.cfg ∧ (s.turn k underrun).mem = s.mem ∧
    (s.turn k underrun).jobs = s.jobs := by
  unfold State.turn
  split
  · exact ⟨s.portOverrun_port k false, s.portOverrun_start k false, s.portOverrun_cfg k false, s.portOverrun_mem k false, s.portOverrun_jobs k false⟩
  · exact ⟨fun _ => rfl, rfl, rfl, rfl, rfl⟩

theorem exec_frameTransmit (x : TxTurn) (s : State) : exec (.frameTransmit x) s = execFrameTransmit x s := rfl

/-- Where nothing may leave, nothing overruns. -/
theorem State.turn_none {s : State} {k : Nat} (fresh : (s.port k).resend = []) (idle : (s.port k).ctrlq = [])
    (none : s.nextOut (s.port k) = none) (underrun : Bool) : s.turn k underrun = s := by
  have silent : s.sends (s.port k) = false := by
    simp only [State.sends, fresh, idle, none, List.isEmpty_nil, Option.isSome_none, Bool.not_true, Bool.and_false, Bool.or_self]
  rw [State.turn, silent, Bool.and_false]
  rfl

section
variable {s : State} {k : Nat} {u ok : Bool} {f : Frame}

/-- In its turn a port sends first what is to be resent. -/
theorem State.turn_resend {rest : List Frame} (again : (s.port k).resend = f :: rest) (vesper : f.vesper = true) :
    (s.turn k u).transmit k ok = ((s.turn k u).setPort k { s.port k with resend := rest }).sent k ok
      { f with ackVesper := (s.port k).rxV, ackNoon := (s.port k).rxN, ackValid := true } := by
  obtain ⟨port, -⟩ := s.turn_parts k u
  rw [← port] at again
  rw [State.transmit_resend again vesper, port]

variable (fresh : (s.port k).resend = [])
include fresh

/-- Then a waiting LINK_CTRL frame. -/
theorem State.turn_ctrl {rest : List Frame} (waits : (s.port k).ctrlq = f :: rest) (room : (s.port k).hasReplay f = true) :
    let z := (s.turn k u).transmit k ok
    (z.port k).ctrlq = rest ∧ (z.port k).replay = (s.port k).replay ++ [(s.port k).stamp f] ∧ z.mem = s.mem ∧ z.jobs = s.jobs := by
  obtain ⟨port, -, -, mem, jobs⟩ := s.turn_parts k u
  obtain ⟨left, core, kept⟩ := (s.turn k u).depart_parts k ok { s.port k with ctrlq := rest } f
  rw [← port] at fresh waits room
  rw [State.transmit_ctrl fresh waits room, port]
  exact ⟨Port.part_eq left Port.ctrlq fun _ => rfl, Port.part_eq left Port.replay fun _ => rfl, (State.mem_of_core core).trans mem, kept.trans jobs⟩

/-- Then the frame that may leave, under the next LINK_SEQ of its class. -/
theorem State.turn_next (idle : (s.port k).ctrlq = []) (up : (s.port k).st = 2) (next : s.nextOut (s.port k) = some f) :
    let x := s.port k
    let b := bufKey f.vesper f.hops.toNat
    let g := x.stamp f
    (s.turn k u).transmit k ok = (((s.turn k u).left f).setPort k
      { x with txqV := if f.vesper then eraseFirst (· == f) x.txqV else x.txqV, txqN := if f.vesper then x.txqN else eraseFirst (· == f) x.txqN,
               txV := if f.vesper then x.txV + 1 else x.txV, txN := if f.vesper then x.txN else x.txN + 1,
               used := Sp.put 0 x.used b (Sp.get 0 x.used b + units f), replay := x.replay ++ [g],
               ackAt := if x.replay.isEmpty then (s.turn k u).now else x.ackAt }).sent k ok g := by
  obtain ⟨port, start, cfg, -, -⟩ := s.turn_parts k u
  rw [← State.nextOut_congr start cfg, ← port] at next
  rw [← port] at fresh idle up
  rw [State.transmit_next fresh idle up next, port]
  rfl

end

section
variable {s : State} {p : Fin 43} (fabric : p.val < 40)
include fabric

/-- Without HALL_CAK nothing leaves (R411). -/
theorem execFrameTransmit_unkeyed (unkeyed : s.sec.hallCak = none) (u : Bool) : execFrameTransmit ⟨p, u⟩ s = .next s := by
  have lies : ¬40 ≤ p.val := by omega
  simp only [execFrameTransmit, lies, unkeyed, Option.isNone_none, Bool.or_true, if_false, if_true]

variable (phy : (s.port p.val).phy = true) (keyed : s.sec.hallCak.isSome = true) (u : Bool)
include phy keyed

/-- A port whose packet numbers are spent goes down (R413). -/
theorem execFrameTransmit_spent (spent : (s.port p.val).spent = true) :
    execFrameTransmit ⟨p, u⟩ s = .next ((s.secFault 0x8402 0 0).linkLost p.val false) := by
  have lies : ¬40 ≤ p.val := by omega
  have some : s.sec.hallCak.isNone = false := by simpa using keyed
  simp only [execFrameTransmit, lies, phy, some, spent, Bool.not_true, Bool.or_self, Bool.false_eq_true, if_false, if_true]
  rfl

/-- Else it has its turn to send. -/
theorem execFrameTransmit_turn (lasts : (s.port p.val).spent = false) :
    execFrameTransmit ⟨p, u⟩ s = .next ((s.turn p.val u).transmit p.val (!u)) := by
  have lies : ¬40 ≤ p.val := by omega
  have some : s.sec.hallCak.isNone = false := by simpa using keyed
  simp only [execFrameTransmit, lies, phy, some, lasts, Bool.not_true, Bool.or_self, Bool.false_eq_true, if_false]
  rfl

end

/-! ### The underrun of a host port and of the service link (R453) -/

/-- An overrun leaves what has been sent, memory and connections as they are. -/
theorem State.overran_beside (s : State) (k cls kind inst : Nat) (dir : Bool) :
    (s.overran k cls kind inst dir).out = s.out ∧ (s.overran k cls kind inst dir).mem = s.mem ∧
      (s.overran k cls kind inst dir).conns = s.conns := by
  unfold State.overran
  obtain ⟨_, _, _, counted⟩ := (s.setCrossing k { s.crossing k with overrun := true }).bump_logged (0xB010 + 8 * cls) 1
  rw [counted]
  generalize hz : State.xingEvent _ _ _ _ _ = z
  obtain ⟨_, _, _, told⟩ := hz ▸ State.xingEvent_logged _ 0xB201 kind inst dir
  rw [told]
  exact ⟨rfl, rfl, rfl⟩

/-- The overrun is recorded, and what leaves is the frame that ran empty. -/
theorem State.overran_spoiled (s : State) (k cls kind inst : Nat) (dir : Bool) (p : Nat) :
    let z := (s.overran k cls kind inst dir).emit (.spoiled p)
    (z.crossing k).overrun = true ∧ z.out = s.out ++ [.spoiled p] ∧ z.mem = s.mem ∧ z.conns = s.conns := by
  obtain ⟨out, mem, conns⟩ := s.overran_beside k cls kind inst dir
  exact ⟨s.crossing_overran k cls kind inst dir, congrArg (fun o => o ++ [Out.spoiled p]) out, mem, conns⟩

theorem State.portOverrun_spoiled (s : State) (p : Nat) :
    let z := (s.portOverrun p false).emit (.spoiled p)
    (z.crossing (portTx p)).overrun = true ∧ z.out = s.out ++ [.spoiled p] ∧ z.mem = s.mem ∧ z.conns = s.conns := by
  obtain ⟨full, out, mem, conns⟩ := (s.bump (0xB100 + 8 * p) 1).overran_spoiled (portTx p) 1 0 p false p
  exact ⟨full, out, mem, conns⟩

section
variable {s : State} {p : Fin 43}

theorem execFrameTransmit_host (host : p.val = 40 ∨ p.val = 41) (phy : (s.port p.val).phy = true) :
    execFrameTransmit ⟨p, true⟩ s = .next ((s.portOverrun p.val false).emit (.spoiled p.val)) := by
  have beyond : 40 ≤ p.val := by omega
  have port : p.val ≠ 42 := by omega
  simp only [execFrameTransmit, State.spoiled, beyond, port, phy, if_true, if_false]

theorem execFrameTransmit_service (service : p.val = 42) (runs : s.start.phase ≠ .off) :
    execFrameTransmit ⟨p, true⟩ s = .next ((s.overran serviceTx 3 1 0 false).emit (.spoiled p.val)) := by
  have beyond : 40 ≤ p.val := by omega
  rw [execFrameTransmit, if_pos beyond]
  simp only [State.spoiled, service, runs, if_true, if_false]

end

end Sys2Proof.Machine

section
open Sys2Proof Sys2Proof.Machine

/-- Settles O40: an underrun changes nothing on which the choice of the frame depends, so that the turn sends what the port held. -/
theorem frameForwardAndTransmit : Obligations.FrameForwardAndTransmit := by
  refine ⟨fun s p f head => ⟨fun here => ?_, fun e away hops route => ?_, fun away ho lost => ?_⟩,
    fun s p => ⟨fun fabric _ unkeyed u => ?_, fun host => ?_, fun host phy => ?_, fun service runs => ?_⟩,
    fun s p u f fabric phy keyed => ⟨fun spent => ?_, fun lasts => ⟨fun up fresh idle => ?_, fun rest again vesper => ?_,
      fun rest fresh waits room => ?_⟩⟩⟩
  · exact execFrameForward_here head here
  · exact execFrameForward_on head away hops route
  · exact execFrameForward_lost head away ho lost
  · exact execFrameTransmit_unkeyed fabric unkeyed u
  · exact if_pos host
  · exact ⟨_, execFrameTransmit_host host phy, s.portOverrun_spoiled p.val⟩
  · exact ⟨_, execFrameTransmit_service service runs, s.overran_spoiled serviceTx 3 1 0 false p.val⟩
  · exact execFrameTransmit_spent fabric phy keyed u spent
  · obtain ⟨port, start, cfg, -, -⟩ := s.turn_parts p.val u
    rw [exec_frameTransmit, execFrameTransmit_turn fabric phy keyed u lasts]
    refine congrArg Host.Outcome.next ?_
    split
    next none =>
      rw [State.turn_none fresh idle none]
      exact State.transmit_none fresh idle up none
    next g next => exact State.turn_next fresh idle up next
  · rw [exec_frameTransmit, execFrameTransmit_turn fabric phy keyed u lasts]
    exact congrArg Host.Outcome.next (State.turn_resend again vesper)
  · rw [exec_frameTransmit, execFrameTransmit_turn fabric phy keyed u lasts]
    exact ⟨_, rfl, State.turn_ctrl fresh waits room⟩
end
end

section
/-!
PROOF. The vault's events (R371, R392, R401 to R404, R409, R413, R416): O59.
-/
namespace Sys2Proof.Machine

/-! ### What messages and unlocks leave of a tenant's state (R401 to R404, R416) -/

/-- Memory, tiles and packages, the job contexts, the tenant and the zeroing for one. -/
def State.tenancy (s : State) : (MemState × Sp TileState × List Pkg) × List JobCtx × Option Tenant × Option Zeroing :=
  (s.core, s.jobs, s.sec.tenant, s.sec.zeroing)

theorem State.jobs_of_tenancy {s z : State} (h : z.tenancy = s.tenancy) : z.jobs = s.jobs := congrArg (fun x => x.2.1) h

section
variable (s : State)

@[simp] theorem State.tenancy_setWord (k : Nat) (x : W64) : (s.setWord k x).tenancy = s.tenancy := (rfl)

@[simp] theorem State.tenancy_bump (k n : Nat) : (s.bump k n).tenancy = s.tenancy := s.tenancy_setWord k _

@[simp] theorem State.tenancy_emit (o : Out) : (s.emit o).tenancy = s.tenancy := (rfl)

@[simp] theorem State.tenancy_updConn (id : BitVec 32) (f : Conn → Conn) : (s.updConn id f).tenancy = s.tenancy := (rfl)

/-- An event of M5 changes that measurement alone. -/
theorem State.m5Event_eq (code : Nat) : ∃ m5, s.m5Event code = { s with sec := { s.sec with m5 := m5 } } := ⟨_, rfl⟩

@[simp] theorem State.tenancy_m5Event (code : Nat) : (s.m5Event code).tenancy = s.tenancy := by
  obtain ⟨m5, h⟩ := s.m5Event_eq code
  rw [h]
  rfl

theorem State.conns_m5Event (code : Nat) : (s.m5Event code).conns = s.conns := by
  obtain ⟨m5, h⟩ := s.m5Event_eq code
  rw [h]

@[simp] theorem State.tenancy_noteBind : s.noteBind.tenancy = s.tenancy := (rfl)

@[simp] theorem State.tenancy_across (k : Nat) (bs : List Byte) : (s.across k bs).tenancy = s.tenancy := by
  obtain ⟨x, hx⟩ := s.across_eq k bs
  rw [hx]
  rfl

@[simp] theorem State.tenancy_khtSent (bs : List Byte) (o : Out) (p : Fin 3) : (s.khtSent bs o p).tenancy = s.tenancy := by
  unfold State.khtSent State.hostTx
  split <;> simp

@[simp] theorem State.tenancy_datagram (id : BitVec 32) (u : Unacked) : (s.datagram id u).tenancy = s.tenancy := by
  unfold State.datagram
  split
  · rfl
  · split <;> simp

@[simp] theorem State.tenancy_sendMsg (id : BitVec 32) (m : OMsg) : (s.sendMsg id m).tenancy = s.tenancy := by
  unfold State.sendMsg State.flush
  split
  · exact s.tenancy_updConn id _
  · exact List.foldlRecOn (motive := fun z : State => z.tenancy = s.tenancy) _ _ (s.tenancy_updConn id _) fun z kept u _ =>
      (z.tenancy_datagram id u).trans kept

/-- The words that a replay of the log shows are the only thing that ends with it, besides the replay itself. -/
theorem State.setWords_beside (k : Nat) (ws : List Nat) : (s.setWords k ws).tenancy = s.tenancy ∧ (s.setWords k ws).conns = s.conns := by
  induction ws generalizing s k with
  | nil => exact ⟨rfl, rfl⟩
  | cons w ws ih => exact ih _ _

theorem State.replayEnd_beside : s.replayEnd.tenancy = s.tenancy ∧ s.replayEnd.conns = s.conns := State.setWords_beside _ _ _

/-- An unlock that ends is its connection's, and nothing else of the connections. -/
theorem State.conns_endUnlock {id : BitVec 32} {c : Conn} {u : Nat × Nat} (hc : s.conn? id = some c) (hu : c.unlock = some u) :
    (s.endUnlock id).conns = (s.updConn id fun c => { c with unlock := none }).conns := by
  have held : c.unlock.isSome = true := by rw [hu]; rfl
  simp only [State.endUnlock, hc, held, if_true]
  split
  · rw [(State.replayEnd_beside _).2, State.conns_m5Event]
  · rw [State.conns_m5Event]

@[simp] theorem State.tenancy_endUnlock (id : BitVec 32) : (s.endUnlock id).tenancy = s.tenancy := by
  unfold State.endUnlock
  split
  · rfl
  · split
    · dsimp only
      split
      · rw [(State.replayEnd_beside _).1, State.tenancy_m5Event, State.tenancy_updConn]
      · rw [State.tenancy_m5Event, State.tenancy_updConn]
    · rfl

@[simp] theorem State.tenancy_endUnlocks (cs : List Conn) : (s.endUnlocks cs).tenancy = s.tenancy := by
  induction cs generalizing s with
  | nil => rfl
  | cons c cs ih => exact (ih _).trans (s.tenancy_endUnlock c.id)

/-- After its unlock has ended no session of that number holds one. -/
theorem State.endUnlock_ends {id : BitVec 32} {c d : Conn} {u : Nat × Nat} (hc : s.conn? id = some c) (hu : c.unlock = some u)
    (hd : (s.endUnlock id).conn? id = some d) : d.unlock = none := by
  have session : (s.endUnlock id).conn? id = (s.updConn id fun c => { c with unlock := none }).conn? id :=
    congrArg (List.find? fun x : Conn => x.id == id) (s.conns_endUnlock hc hu)
  rw [session, State.conn?_updConn s id (f := fun c => { c with unlock := none }) fun _ => rfl, hc, Option.map_some,
    Option.some.injEq] at hd
  rw [← hd]

/-! ### Zeroing (R403, R404) -/

/-- A bind leaves memory, tiles and contexts alone and binds its tenant. -/
theorem State.tenancy_bind (t : Tenant) (m3 : BitVec 512) :
    (s.bind t m3).tenancy = (s.core, s.jobs, some t, s.sec.zeroing) := by
  simp only [State.bind, State.tenancy_endUnlocks, State.tenancy_noteBind, State.tenancy_m5Event, State.tenancy_bump]
  rfl

/-- An unbind leaves no tenant. -/
theorem State.tenancy_unbind : s.unbind.tenancy = (s.core, s.jobs, none, s.sec.zeroing) := by
  simp only [State.unbind, State.tenancy_endUnlocks, State.tenancy_noteBind, State.tenancy_m5Event, State.tenancy_bump]
  rfl

/-- Zeroing of tiles reaches each of them. -/
theorem State.tile_zeroTiles (ts : List Nat) (t : Nat) :
    (s.zeroTiles ts).tile t = s.tile t ∧ t ∉ ts ∨ ((s.zeroTiles ts).tile t).scratch = [] ∧ ((s.zeroTiles ts).tile t).queue = [] := by
  induction ts generalizing s with
  | nil => exact .inl ⟨rfl, List.not_mem_nil⟩
  | cons u ts ih =>
    obtain ⟨kept, out⟩ | zeroed := ih (s.setTile u (s.tile u).zero)
    · by_cases e : t = u
      · subst e
        refine .inr ?_
        rw [State.zeroTiles, kept, State.tile_setTile_self]
        exact ⟨rfl, rfl⟩
      · rw [State.tile_setTile_ne _ _ e] at kept
        exact .inl ⟨kept, List.not_mem_cons_of_ne_of_not_mem e out⟩
    · exact .inr zeroed

/-- A sparse map without an entry for a key holds its default there. -/
theorem Sp.get_of_not_mem {α : Type} {d : α} {m : Sp α} {k : Nat} (h : k ∉ m.map (·.1)) : Sp.get d m k = d := by
  induction m with
  | nil => rfl
  | cons e m ih =>
    rw [List.map_cons, List.mem_cons, not_or] at h
    rw [Sp.get, if_neg (Ne.symm h.1), ih h.2]

theorem State.mem_zeroTiles (ts : List Nat) : (s.zeroTiles ts).mem = s.mem := by
  induction ts generalizing s with
  | nil => rfl
  | cons u ts ih => exact ih _

/-- With every tile that is kept zeroed, no tile holds anything. -/
theorem State.zeroTiles_all (t : Nat) :
    ((s.zeroTiles (s.tiles.map (·.1))).tile t).scratch = [] ∧ ((s.zeroTiles (s.tiles.map (·.1))).tile t).queue = [] := by
  obtain ⟨kept, out⟩ | zeroed := s.tile_zeroTiles (s.tiles.map (·.1)) t
  · rw [kept, State.tile, Sp.get_of_not_mem out]
    exact ⟨rfl, rfl⟩
  · exact zeroed

/-- The module with its stacked memory, its tiles and its contexts zeroed, before a tenant is bound or released. -/
def State.cleared (z : Zeroing) : State :=
  let s1 := { s with mem := { s.mem with dram := [], poison := [] }, power := { s.power with kappa := BitVec.ofNat 32 (hundredths s.cfg.calSeed) } }
  let s2 := (s1.zeroTiles (s1.tiles.map (·.1))).setWord 0x8020 (BitVec.ofNat 64 ((s.now - z.since) / 1000))
  { s2 with sec := { s2.sec with zeroing := none, zeroed := true }, jobs := [], tallies := [] }

theorem State.tenancy_zeroed {z : Zeroing} (hz : s.sec.zeroing = some z) :
    s.zeroed.tenancy = ((s.cleared z).core, [], z.tenant, none) := by
  unfold State.zeroed
  rw [hz]
  dsimp only
  rw [State.tenancy_sendMsg, State.tenancy_bump]
  cases tenant : z.tenant with
  | some t => exact State.tenancy_bind _ t z.m3
  | none => exact State.tenancy_unbind _

/-- Zeroing leaves no byte of stacked memory, nothing in a tile, no context and no zeroing, and the tenant of the grant bound or none. -/
theorem State.zeroed_clears {z : Zeroing} (hz : s.sec.zeroing = some z) :
    s.zeroed.mem.dram = [] ∧ (∀ t, (s.zeroed.tile t).scratch = [] ∧ (s.zeroed.tile t).queue = []) ∧ s.zeroed.sec.zeroing = none ∧
      s.zeroed.sec.tenant = z.tenant ∧ s.zeroed.jobs = [] := by
  have left := s.tenancy_zeroed hz
  have core : s.zeroed.core = (s.cleared z).core := congrArg Prod.fst left
  refine ⟨?_, fun t => ?_, congrArg (fun x => x.2.2.2) left, congrArg (fun x => x.2.2.1) left, congrArg (fun x => x.2.1) left⟩
  · rw [State.mem_of_core core]
    exact congrArg MemState.dram (State.mem_zeroTiles _ _)
  · rw [State.tile, State.tiles_of_core core]
    exact State.zeroTiles_all _ t

end

/-! ### Events that end at their time (R392, R409, R416) -/

section
variable {s : State}

theorem execZeroingComplete_some {z : Zeroing} (hz : s.sec.zeroing = some z) :
    execZeroingComplete s = .next ((s.zeroed.applyHeld z.conn
      (match s.zeroed.conn? z.conn with | some c => c.held.length | none => 0)).closeIfDone z.conn) := by
  unfold execZeroingComplete
  split
  next none => exact absurd (none.symm.trans hz) nofun
  next found =>
    obtain rfl := Option.some.inj (found.symm.trans hz)
    rfl

/-- The oldest unseal of a job runs, and is answered. -/
theorem execUnsealComplete_some {job : BitVec 16} {u : Unseal} (hu : s.sec.unseals.find? (fun u => u.job == job) = some u) :
    let s1 := { s with sec := { s.sec with unseals := eraseFirst (fun y => y.job == job) s.sec.unseals } }
    let r := s1.unsealAll job u.key u.extents
    execUnsealComplete job s = .next ((if r.1 = 0 then r.2 else r.2.noteCode u.conn 0x52 r.1 (some job)).outcome u.conn u.ref r.1) := by
  unfold execUnsealComplete
  rw [hu]

theorem execUnlockExpiry_due {id : BitVec 32} {c : Conn} {u : Nat × Nat} (hc : s.conn? id = some c) (hu : c.unlock = some u) (due : u.2 ≤ s.now) :
    execUnlockExpiry id s = .next (s.endUnlock id) := by
  simp only [execUnlockExpiry, hc, Option.bind_some, hu, due, if_true]

theorem execLockoutEnd_some {t : Nat} (ht : s.sec.lockout = some t) :
    execLockoutEnd s = .next (if t ≤ s.now then { s with sec := { s.sec with lockout := none } } else s) := by
  unfold execLockoutEnd
  rw [ht]

/-- What stays quarantined is every other source, and this one until its 60 s have passed. -/
theorem State.mem_quarantine_ends (s : State) (source : BitVec 128) (q : BitVec 128 × Nat) :
    (q ∈ s.quarantined.filter fun q => !(q.1 == source && s.passed q.2 60000000000)) ↔
      q ∈ s.quarantined ∧ ¬(q.1 = source ∧ q.2 + 60000000000 ≤ s.now) := by
  rw [List.mem_filter]
  exact and_congr_right fun _ => by simp [State.passed, imp_iff_not_or]

end

/-! ### ICMPv6 and MKA frames (R271, R371, R413) -/

theorem State.word_emit (s : State) (o : Out) (k : Nat) : (s.emit o).word k = s.word k := rfl

section
variable {s : State} {port : Fin 2}

/-- The port of an ICMPv6 request that it takes: what it received, what it sent, and the answer. -/
theorem execIcmpv6Request_eq {echo : Bool} {data : List Byte} (runs : s.start.phase = .starting ∨ s.start.phase = .ready)
    (up : (s.port (40 + port.val)).st = 2) (fits : data.length ≤ 8952) :
    execIcmpv6Request port echo data s = .next ((((s.bump (0x2110 + 0x40 * (40 + port.val)) (90 + data.length)).bump
      (0x2108 + 0x40 * (40 + port.val)) (if echo then 90 + data.length else 114)).bump (0x2118 + 0x40 * (40 + port.val)) 1).emit
        (.icmp port echo data)) := by
  have fabric : (⟨port.val, by omega⟩ : Fin 3) ≠ 2 := Fin.ne_of_val_ne (by simpa using (Nat.ne_of_lt port.isLt))
  simp only [execIcmpv6Request, runs, up, fits, and_self, if_true, State.hostRx, State.hostTx, if_neg fabric]

/-- An ICMPv6 request that the port takes is counted and answered. -/
theorem execIcmpv6Request_answered {echo : Bool} {data : List Byte} (runs : s.start.phase = .starting ∨ s.start.phase = .ready)
    (up : (s.port (40 + port.val)).st = 2) (fits : data.length ≤ 8952) :
    leads (execIcmpv6Request port echo data s) fun z => Out.icmp port echo data ∈ z.out ∧ z.mem = s.mem ∧ z.conns = s.conns ∧
      z.word (0x2110 + 0x40 * (40 + port.val)) = s.word (0x2110 + 0x40 * (40 + port.val)) + BitVec.ofNat 64 (90 + data.length) := by
  refine ⟨_, execIcmpv6Request_eq runs up fits, ?_⟩
  refine ⟨List.mem_append_right _ (List.mem_singleton_self _), by simp, by simp, ?_⟩
  rw [State.word_emit, State.word_bump_ne _ (by omega), State.word_bump_ne _ (by omega), State.word_bump_self]

/-- A longer one is not the port's. -/
theorem execIcmpv6Request_long {echo : Bool} {data : List Byte} (long : 8952 < data.length) : execIcmpv6Request port echo data s = .next s :=
  if_neg fun taken => absurd taken.2.2 (Nat.not_le.mpr long)

/-- A port that holds a CAK holds the one that the CAK's CKN names. -/
theorem State.holdsCkn_of_cak {cak : BitVec 256} {ckn : BitVec 128}
    (held : (if port = 0 then s.sec.hostCak.1 else s.sec.hostCak.2) = some (cak, ckn)) : s.holdsCkn port ckn = true := by
  unfold State.holdsCkn
  rw [held]
  exact beq_self_eq_true ckn

/-- The two counters of a host port that an MKA frame raises. -/
def State.countedMka (s : State) (port : Fin 2) (k : MkaKey) : State :=
  (s.bump (0x2110 + 0x40 * (40 + port.val)) k.bytes).bump (0x2128 + 0x40 * (40 + port.val)) k.corrected

theorem State.countedMka_beside (s : State) (port : Fin 2) (k : MkaKey) : (s.countedMka port k).mem = s.mem ∧
    (s.countedMka port k).conns = s.conns ∧
    (s.countedMka port k).word (0x2110 + 0x40 * (40 + port.val)) = s.word (0x2110 + 0x40 * (40 + port.val)) + BitVec.ofNat 64 k.bytes ∧
    (s.countedMka port k).word 0x8050 = s.word 0x8050 := by
  unfold State.countedMka
  refine ⟨by simp, by simp, ?_, ?_⟩
  · rw [State.word_bump_ne _ (by omega), State.word_bump_self]
  · rw [State.word_bump_ne _ (by omega), State.word_bump_ne _ (by omega)]

variable {an : BitVec 2} {k : MkaKey} (live : s.alive = true) (phy : (s.port (40 + port.val)).phy = true)
include live phy

/-- An MKA frame whose CKN names no CAK of the port is only counted. -/
theorem execMkaFrame_foreign (foreign : s.holdsCkn port k.ckn = false) :
    execMkaFrame port an k s = .next (s.countedMka port k) := by
  have own : (s.countedMka port k).holdsCkn port k.ckn = false := foreign
  unfold State.countedMka at own ⊢
  simp only [execMkaFrame, live, phy, own, Bool.not_true, Bool.or_self, Bool.false_eq_true, if_false]

/-- One whose CKN does installs the key server's SAK with PN 1 (R413). -/
theorem execMkaFrame_installs (own : s.holdsCkn port k.ckn = true) :
    let z := s.countedMka port k
    let x := z.port (40 + port.val)
    execMkaFrame port an k s = .next ((z.bump 0x8050 1).setPort (40 + port.val)
      { x with an := an, oldKey := x.key, key := k.sak.zeroExtend 352, sak := x.sak + 1, pn := 1, saAt := z.now }) := by
  have own' : (s.countedMka port k).holdsCkn port k.ckn = true := own
  unfold State.countedMka at own' ⊢
  simp only [execMkaFrame, live, phy, own', Bool.not_true, Bool.or_self, Bool.false_eq_true, if_false, if_true]
  rfl

/-- An MKA frame is counted, and one whose CKN names the port's CAK moves it to the new SAK. -/
theorem execMkaFrame_counts :
    leads (execMkaFrame port an k s) fun z => z.mem = s.mem ∧ z.conns = s.conns ∧
      z.word (0x2110 + 0x40 * (40 + port.val)) = s.word (0x2110 + 0x40 * (40 + port.val)) + BitVec.ofNat 64 k.bytes ∧
      (s.holdsCkn port k.ckn = false → z.port (40 + port.val) = s.port (40 + port.val)) ∧
      (s.holdsCkn port k.ckn = true → (z.port (40 + port.val)).an = an ∧ (z.port (40 + port.val)).key = k.sak.zeroExtend 352 ∧
        (z.port (40 + port.val)).pn = 1 ∧ z.word 0x8050 = s.word 0x8050 + 1) := by
  obtain ⟨mem, conns, counted, rekeys⟩ := s.countedMka_beside port k
  cases own : s.holdsCkn port k.ckn with
  | false => exact ⟨_, execMkaFrame_foreign live phy own, mem, conns, counted, fun _ => rfl, fun h => by simp at h⟩
  | true =>
    refine ⟨_, execMkaFrame_installs live phy own, mem, conns, ?_, fun h => by simp at h, fun _ => ?_⟩
    · rw [State.word_setPort, State.word_bump_ne _ (by omega), counted]
    · rw [State.port_setPort_self, State.word_setPort, State.word_bump_self, rekeys]
      exact ⟨rfl, rfl, rfl, rfl⟩

end

end Sys2Proof.Machine

section
open Sys2Proof Sys2Proof.Machine

/-- Settles O59: messages and the ends of unlocks keep what zeroing has set (`State.tenancy`); the other events are their guards' cases. -/
theorem vaultEvents : Obligations.VaultEvents := by
  refine fun s id job source port => ⟨fun z hz => ⟨_, execZeroingComplete_some hz, rfl⟩, fun z hz => s.zeroed_clears hz,
    fun u hu => execUnsealComplete_some hu, fun c u hc hu due => ⟨_, execUnlockExpiry_due hc hu due, rfl, fun d hd => ?_, ?_⟩,
    fun t ht => execLockoutEnd_some ht, ⟨_, rfl, fun q => s.mem_quarantine_ends source q, rfl⟩,
    fun echo data runs up fits => execIcmpv6Request_answered runs up fits, fun echo data long => execIcmpv6Request_long long,
    fun ckn an sak bytes corrected live phy => execMkaFrame_counts live phy, fun cak ckn held => State.holdsCkn_of_cak held⟩
  · exact s.endUnlock_ends hc hu hd
  · exact State.jobs_of_tenancy (s.tenancy_endUnlock id)
end
end

section
/-!
Counts (R273 to R278, R295, R309): when a target is reached and what every wait on a count comes to, the F-4101 of a wait on a count of
another module, and what an increment changes.
-/
namespace Sys2Proof.Machine

/-! ### Targets that are reached (R275, R309) -/

section
variable (j : JobCtx)

/-- A target is reached where the count, as a 32-bit modular number, is less than half the range beyond it (R275). -/
theorem JobCtx.reachedAt_iff (i : Nat) (target : BitVec 32) :
    j.reachedAt i target.toNat = true ↔ (Sp.get 0#32 j.counts i - target).toNat < 2 ^ 31 := by
  have bound := target.isLt
  have turned : (Sp.get 0#32 j.counts i).toNat + 2 ^ 32 - target.toNat = 2 ^ 32 - target.toNat + (Sp.get 0#32 j.counts i).toNat := by omega
  rw [JobCtx.reachedAt, decide_eq_true_iff, Nat.mod_eq_of_lt bound, turned, BitVec.toNat_sub]

variable {j} {i : Nat} {w : Nat × Nat × Nat}

/-- A kernel's wait that is reached has its count reached. -/
theorem JobCtx.reachedAt_of_waitReached (h : j.waitReached i w = true) :
    j.reachedAt (refIndex w.1) ((w.2.1 + i * w.2.2) % 2 ^ 32) = true := by
  obtain ⟨reached, -⟩ := Bool.and_eq_true_iff.mp h
  exact reached

/-- A kernel's wait on another count than VERDICT_COUNT + 4 asks for its count alone (R309). -/
theorem JobCtx.waitReached_of_no_verdict (other : ∀ g, j.grad = some g → refIndex w.1 ≠ g.verdictCount + 4) :
    j.waitReached i w = j.reachedAt (refIndex w.1) ((w.2.1 + i * w.2.2) % 2 ^ 32) := by
  unfold JobCtx.waitReached
  cases hg : j.grad with
  | none => exact Bool.and_true _
  | some g =>
    have count : (refIndex w.1 == g.verdictCount + 4) = false := beq_eq_false_iff_ne.mpr (other g hg)
    simp only [count, Bool.not_false, Bool.true_or, Bool.and_true]

end

section
variable {s : State} {job : BitVec 16} {j : JobCtx} {ref target : Nat}

theorem State.countReached_of_job (hj : s.job? job = some j) : s.countReached job ref target = j.reachedAt (refIndex ref) target := by
  simp only [State.countReached, hj]

/-- A wait for one count is over exactly where its target is reached. -/
theorem State.awaits_count_iff (t : Nat) : s.awaits t job [(2, ref, target)] = none ↔ s.countReached job ref target = true := by
  cases reached : s.countReached job ref target <;> simp [State.awaits, reached]

/-- A well-formed COUNT_REF of a device that this module does not play is F-4101 (R275). -/
theorem State.waitRefFault_foreign (hj : s.job? job = some j) (formed : countRefBad ref = false)
    (foreign : s.plays j (refDevice ref) = false) : s.waitRefFault job ref = some 0x4101 := by
  simp only [State.waitRefFault, State.refLocal, hj, formed, foreign, Bool.false_eq_true, if_false, Bool.not_false, if_true]

end

/-! ### Waits on counts of another module (R275, R295) -/

section
variable {s : State} {t : TileId} {v : Bool} {w : BitVec 128} {c : Ctx}

theorem exec_countWait_faults (st : stands s t v w c) (op : opcodeOf w.toNat = 0x60) (zeros : fld w.toNat 68 42 = 0) {f : Nat}
    (fault : s.waitRefFault c.job (fld w.toNat 0 32) = some f) :
    exec (.countWait t v w) s = .next ((s.waitFaulted c.job (fld w.toNat 0 32) f).faultTask t.val v f c.off) := by
  rw [exec_countWait st op]
  simp only [countWaitWord, zeros, fault, ne_eq, not_true_eq_false, if_false, settle]

/-- A PASS whose other checks pass raises the fault of the count that its scan waits for. -/
theorem exec_pass_faults (st : stands s t v w c) (op : opcodeOf w.toNat = 0x30) {a : Nat} {p : VPass} {sc : VScan} {f : Nat × Nat}
    (hs : stray w.toNat [(0, 24), (106, 4), (102, 4)] = false) (ha : paramAt v w.toNat (c.reg (xregOf w.toNat)) 320 = .ok a)
    (hp : passPrepare v (memWords (s.tile t.val).scratch a 40) (c.reg (fld w.toNat 106 4)) (c.reg (fld w.toNat 102 4))
      (c.projected (s.tile t.val).mat) (s.tile t.val).slotImage = .ok p)
    (hu : (s.undeclared t.val v c && p.usesAcc) = false) (scan : p.scan = some sc)
    (fault : s.waitFault c.job sc.carryIn sc.waitCount = some f) :
    exec (.pass t v w) s = .next ((s.waitFaulted c.job f.2 f.1).faultTask t.val v f.1 c.off) := by
  rw [exec_pass st op]
  simp only [passWord, hs, ha, hp, hu, scan, Option.bind_some, fault, Bool.false_eq_true, if_false, settle]

/-- A record operation whose other checks pass raises the fault of the first count that it waits for, X's before Y's. -/
theorem acceptRec_faults {i : Instr} {rec : RecBlock → EngOp} {y : Bool} {r : Except Nat RecBlock} {b : RecBlock} {f : Nat × Nat}
    (issues : exec i s = .next (settle t.val v c.off (acceptRec rec y c r s))) (hr : r = .ok b)
    (fault : s.waitFault c.job b.xMode b.xWait = some f ∨
      s.waitFault c.job b.xMode b.xWait = none ∧ y = true ∧ s.waitFault c.job b.yMode b.yWait = some f) :
    exec i s = .next ((s.waitFaulted c.job f.2 f.1).faultTask t.val v f.1 c.off) := by
  rw [issues, hr]
  rcases fault with atX | ⟨noneAtX, readsY, atY⟩
  · simp only [acceptRec, atX, Option.orElse_some, settle]
  · simp only [acceptRec, noneAtX, readsY, atY, Option.orElse_none, if_true, settle]

end

/-! ### Wake wires of several tiles (R74) -/

/-- A tile that is not in retention and none of whose words waits for a wire. -/
def TileState.awake (x : TileState) : Prop := x.retained = false ∧ ∀ v c, x.ctx v = some c → c.waiting = false

section
variable (s : State)

theorem State.awake_wake (t : Nat) : ((s.wake t).tile t).awake :=
  ⟨by rw [State.tile_wake], fun _ _ running => s.waiting_wake t running⟩

theorem State.awake_wakeAll {ts : List Nat} {u : Nat} (h : u ∈ ts ∨ (s.tile u).awake) : ((s.wakeAll ts).tile u).awake := by
  induction ts generalizing s with
  | nil => exact h.resolve_left List.not_mem_nil
  | cons t ts ih =>
    by_cases first : u = t
    · exact ih (s.wake t) (.inr (first ▸ s.awake_wake u))
    · refine ih (s.wake t) (h.imp (fun listed => (List.mem_cons.mp listed).resolve_left first) fun awake => ?_)
      rwa [State.tile_wake_ne s first]

/-- Wires of other tiles leave a tile as it was. -/
theorem State.tile_wakeAll_ne {ts : List Nat} {u : Nat} (h : u ∉ ts) : (s.wakeAll ts).tile u = s.tile u := by
  induction ts generalizing s with
  | nil => rfl
  | cons t ts ih =>
    obtain ⟨first, rest⟩ := not_or.mp (mt List.mem_cons.mpr h)
    exact (ih (s.wake t) rest).trans (State.tile_wake_ne s first)

theorem State.mem_wakeAll (ts : List Nat) : (s.wakeAll ts).mem = s.mem := by
  obtain ⟨_, h⟩ := s.wakeAll_eq ts
  rw [h]

theorem State.job?_wakeAll (ts : List Nat) (job : BitVec 16) : (s.wakeAll ts).job? job = s.job? job := by
  obtain ⟨_, h⟩ := s.wakeAll_eq ts
  rw [h, State.job?, State.job?]

end

/-! ### Increments (R274, R276, R278) -/

/-- A job context whose count `i` has come to `x`; its watch bits are clear (R276). -/
def JobCtx.raised (j : JobCtx) (i : Nat) (x : BitVec 32) : JobCtx :=
  { j with counts := Sp.put 0#32 j.counts i x, watch := j.watch.filter (·.1 != i) }

/-- The tiles that watch a count. -/
def JobCtx.watchers (j : JobCtx) (i : Nat) : List Nat := (j.watch.filter (·.1 == i)).map (·.2)

theorem JobCtx.mem_watchers {j : JobCtx} {i u : Nat} : u ∈ j.watchers i ↔ (i, u) ∈ j.watch := by
  simp [JobCtx.watchers]

theorem JobCtx.not_mem_watch_raised (j : JobCtx) (i u : Nat) (x : BitVec 32) : (i, u) ∉ (j.raised i x).watch := by
  simp [JobCtx.raised]

section
variable {s : State} {job : BitVec 16} {j : JobCtx} {i inc : Nat} (hj : s.job? job = some j)
include hj

/-- An increment that no pair forbids raises its count and wakes the tiles that watch it (R274, R276). -/
theorem State.raiseCount_allowed (allowed : j.pairFault i inc = none) (src : Nat) :
    s.raiseCount job i inc src =
      (none, (s.updJob job (·.raised i (Sp.get 0#32 j.counts i + BitVec.ofNat 32 inc))).wakeAll (j.watchers i)) := by
  have sum : BitVec.ofNat 32 ((Sp.get 0#32 j.counts i).toNat + inc) = Sp.get 0#32 j.counts i + BitVec.ofNat 32 inc := by
    rw [BitVec.ofNat_add, BitVec.ofNat_toNat, BitVec.setWidth_eq]
  simp only [State.raiseCount, hj, allowed, sum]
  rfl

/-- An increment that a pair forbids is recorded and counted, and does nothing else (R278). -/
theorem State.raiseCount_forbidden {code : Nat} (forbidden : j.pairFault i inc = some code) (src : Nat) :
    s.raiseCount job i inc src =
      (some code, (s.syncFault code i src job (Sp.get 0#32 j.counts i).toNat inc).bump 0x4030 1) := by
  simp only [State.raiseCount, hj, forbidden]

/-- A job's context after an update that keeps its name. -/
theorem State.job?_updJob_some (f : JobCtx → JobCtx) (named : ∀ x, (f x).id = x.id) : (s.updJob job f).job? job = some (f j) := by
  rw [State.job?_updJob s job named, hj, Option.map_some]

end

/-! ### Synchronisation faults (R295) -/

theorem Logged.jobs {s z : State} (h : Logged s z) : z.jobs = s.jobs := by
  obtain ⟨_, _, _, rfl⟩ := h
  rfl

section
variable (s : State) (code idx src : Nat) (job : BitVec 16) (before inc : Nat)

theorem State.syncFault_logged : Logged s (s.syncFault code idx src job before inc) :=
  (s.record_logged _ _ _).trans (State.logEvent_logged _ _ _ _)

/-- A synchronisation fault touches no status word below its records but the records dropped. -/
theorem State.word_syncFault {k : Nat} (below : k < 0x4100) (h : k ≠ 0x0718) :
    (s.syncFault code idx src job before inc).word k = s.word k := by
  rw [State.syncFault, State.logEvent, State.word_logAs _ h, State.word_record_below _ _ _ below]

end

/-! ### COUNT_INCREMENT (R273, R274) -/

section
variable {s : State} {job : BitVec 16} {ref inc : BitVec 32}

/-- The two ways to say that a COUNT_REF is well formed (R171) are one. -/
theorem countRefBad_of_ok (ok : countRefOk ref = true) : countRefBad ref.toNat = false := by
  obtain ⟨valid, reserved⟩ := Bool.and_eq_true_iff.mp ok
  have set : flag ref.toNat 31 = true := valid
  have zero : fld ref.toNat 26 5 = 0 := by
    rw [fld, Nat.shiftRight_eq_div_pow]
    exact beq_iff_eq.mp reserved
  simp [countRefBad, set, zero]

/-- A well-formed increment of a count of this module reaches its count. -/
theorem exec_countIncrement (ok : countRefOk ref = true) (pos : 0 < inc.toNat) (small : inc.toNat < 2 ^ 31)
    (own : s.refLocal job ref.toNat = true) :
    exec (.countIncrement job ref inc) s = .next (s.raiseCount job (refIndex ref.toNat) inc.toNat 0x3FFF).2 := by
  have nonzero : (inc == 0) = false := beq_eq_false_iff_ne.mpr fun zero => by simp [zero] at pos
  have fits : decide (2 ^ 31 ≤ inc.toNat) = false := decide_eq_false (Nat.not_le.mpr small)
  change execCountIncrement job ref inc s = _
  simp only [execCountIncrement, countRefBad_of_ok ok, nonzero, fits, own, Bool.or_self, Bool.not_true, Bool.false_eq_true, if_false]

end

end Sys2Proof.Machine

/-! ### The obligations on counts -/

section
open Sys2Proof Sys2Proof.Machine

/-- Settles O22: every wait asks `JobCtx.reachedAt`, and each word that waits raises its count's fault after its other checks. -/
theorem countRule : Obligations.CountRule := by
  refine ⟨fun j i target => j.reachedAt_iff i target,
    fun s job t ref target j hj => ⟨State.countReached_of_job hj, ?_, State.waitRefFault_foreign hj⟩,
    fun j i w => ⟨JobCtx.reachedAt_of_waitReached, JobCtx.waitReached_of_no_verdict⟩,
    fun s t v w c st => ⟨fun op zeros fault => exec_countWait_faults st op zeros fault,
      fun a p sc op hs ha hp hu scan fault => exec_pass_faults st op hs ha hp hu scan fault,
      fun b op hb fault => acceptRec_faults (exec_carryCompose st op) hb (.inl fault),
      fun b op hb => ⟨fun fault => acceptRec_faults (exec_rowstatCombine st op) hb (.inl fault),
        fun noneAtX fault => acceptRec_faults (exec_rowstatCombine st op) hb (.inr ⟨noneAtX, rfl, fault⟩)⟩,
      fun b op hb fault => acceptRec_faults (exec_rowstatFinalise st op) hb (.inl fault)⟩⟩
  rw [State.awaits_count_iff, State.countReached_of_job hj]

/-- Settles O24: an increment does what `State.raiseCount_allowed` says, or what `State.raiseCount_forbidden` does. -/
theorem countIncrement : Obligations.CountIncrement := by
  refine ⟨fun s job ref inc j ok pos small own hj allowed => ?_, fun s job ref inc j code ok pos small own hj forbidden => ?_⟩
  · intro i
    have issues := exec_countIncrement ok pos small own
    rw [State.raiseCount_allowed hj allowed] at issues
    refine ⟨_, issues, _, (State.job?_wakeAll _ _ _).trans (State.job?_updJob_some hj _ fun _ => rfl), ?_,
      fun k other => Sp.get_put_ne _ _ other, fun u => j.not_mem_watch_raised i u _, fun u unwatched => ?_, fun u watched => ?_, State.mem_wakeAll _ _⟩
    · rw [JobCtx.raised, Sp.get_put_self, BitVec.ofNat_toNat, BitVec.setWidth_eq]
    · exact State.tile_wakeAll_ne _ fun watching => unwatched (JobCtx.mem_watchers.mp watching)
    · obtain ⟨kept, awake⟩ := State.awake_wakeAll
        (s.updJob job (·.raised i (Sp.get 0#32 j.counts i + BitVec.ofNat 32 inc.toNat))) (.inl (JobCtx.mem_watchers.mpr watched))
      exact ⟨kept, fun c running => awake false c running⟩
  · have issues := exec_countIncrement ok pos small own
    rw [State.raiseCount_forbidden hj forbidden] at issues
    have core := s.core_syncFault code (refIndex ref.toNat) 0x3FFF job (Sp.get 0#32 j.counts (refIndex ref.toNat)).toNat inc.toNat
    refine ⟨_, issues, (s.syncFault_logged ..).jobs, State.tiles_of_core core, State.mem_of_core core, ?_⟩
    rw [State.word_bump_self, State.word_syncFault _ _ _ _ _ _ _ (by decide) (by decide)]
    rfl

end
end

section
/-!
Barrier words and host signals (R283 to R291): how a local arrival counts, the two barrier words, HOST_SIGNAL and HOST_WAIT,
BARRIER_TIMEOUT and SIGNAL_OUT.
-/
namespace Sys2Proof.Machine

/-! ### Local arrivals (R283, R284) -/

section
variable {s : State} {job : BitVec 16} {slot : Nat} {g : W64 × W64} {j : JobCtx} (hj : s.job? job = some j)
  (valid : s.groupBad (s.deviceOf j) g.1.toNat g.2.toNat = false)
include hj valid

/-- An arrival of the current epoch's group, or the epoch's first, counts for the current epoch while arrivals are missing. -/
theorem State.arriveLocal_current (short : (j.barrier slot).complete = false)
    (group : (j.barrier slot).group = none ∨ (j.barrier slot).group = some g) :
    (s.arriveLocal job slot g).1 = .ok (j.barrier slot).epoch := by
  have same : ((j.barrier slot).group.isSome && (j.barrier slot).group != some g) = false := by
    rcases group with first | same
    · simp [first]
    · simp [same]
  simp only [State.arriveLocal, hj, valid, short, same, Bool.false_eq_true, if_false, Bool.not_false, if_true]

/-- Once they are all there, the first of the next epoch counts for that one and fixes its group. -/
theorem State.arriveLocal_next (full : (j.barrier slot).complete = true) (first : (j.barrier slot).group1 = none) :
    s.arriveLocal job slot g = (.ok ((j.barrier slot).epoch + 1),
      s.setBarrier job slot { j.barrier slot with group1 := some g, count1 := (j.barrier slot).count1 + 1 }) := by
  simp only [State.arriveLocal, hj, valid, full, first, Option.isSome_none, Bool.false_and, Bool.false_eq_true, Bool.not_true, if_false]

/-- An arrival of another group is F-4301 and recorded (R295). -/
theorem State.arriveLocal_other_group (short : (j.barrier slot).complete = false) (begun : (j.barrier slot).group.isSome = true)
    (other : (j.barrier slot).group ≠ some g) :
    s.arriveLocal job slot g = (.error 0x4301, s.syncFault 0x4301 slot 0x3FFF job (j.barrier slot).epoch.toNat 0) := by
  have differs : ((j.barrier slot).group != some g) = true := bne_iff_ne.mpr other
  simp only [State.arriveLocal, hj, valid, short, begun, differs, Bool.and_self, Bool.false_eq_true, if_false, Bool.not_false, if_true]

end

/-! ### BARRIER_ARRIVE and BARRIER_WAIT (R284, R288) -/

section
variable {s : State} {t : TileId} {v : Bool} {w : BitVec 128} {c : Ctx}

theorem exec_barrierArrive (st : stands s t v w c) (op : opcodeOf w.toNat = 0x61) :
    exec (.barrierArrive t v w) s = .next (settle t.val v c.off (barrierArriveWord t.val v w.toNat c (c.reg (xregOf w.toNat)) s)) :=
  issue_stands st (by rw [op]; decide) (by rw [ofOpcode, op]; decide)

theorem exec_barrierWait (st : stands s t v w c) (op : opcodeOf w.toNat = 0x62) :
    exec (.barrierWait t v w) s = .next (settle t.val v c.off (barrierWaitWord t.val v w.toNat c (c.reg (xregOf w.toNat)) s)) :=
  issue_stands st (by rw [op]; decide) (by rw [ofOpcode, op]; decide)

/-- The control state that remembers which epoch of a slot its task has arrived for. -/
def Ctx.arrivedFor (c : Ctx) (slot : Nat) (e : BitVec 16) : Ctx := { c with arrivals := (slot, e) :: c.arrivals.filter (·.1 != slot) }

/-- The group record at an offset of a scratchpad (Table 11-4). -/
def groupRecord (sp : Mem) (a : Nat) : W64 × W64 :=
  let ws := memWords sp a 2
  (BitVec.ofNat 64 (nth 0 ws 0), BitVec.ofNat 64 (nth 0 ws 1))

/-- BARRIER_ARRIVE without AND_WAIT is done once its arrival has been counted. -/
theorem barrierArriveWord_counts {t n x a : Nat} {e : BitVec 16} {s1 : State} (zeros : fld n 31 79 = 0) (fresh : c.arrived = false)
    (apart : flag n 30 = false) (record : groupAt v n x = .ok a)
    (counted : s.arriveLocal c.job (fld n 0 6) (groupRecord (s.tile t).scratch a) = (.ok e, s1)) :
    barrierArriveWord t v n c x s = .ok (s1.updCtx t v (·.arrivedFor (fld n 0 6) e)) := by
  unfold groupRecord at counted
  simp only [barrierArriveWord, zeros, fresh, apart, record, counted, ne_eq, not_true_eq_false, Bool.false_eq_true, if_false]
  rfl

/-- BARRIER_WAIT is the wait for the epoch of the task's last arrival on its slot. -/
theorem barrierWaitWord_arrived {t n x : Nat} {e : BitVec 16} (zeros : fld n 6 104 = 0)
    (last : c.arrivals.find? (·.1 == fld n 0 6) = some (fld n 0 6, e)) :
    barrierWaitWord t v n c x s = barrierHold t v (fld n 0 6) e c s := by
  simp only [barrierWaitWord, zeros, last, ne_eq, not_true_eq_false, if_false]

/-- The wait for an epoch ends with its release. -/
theorem barrierHold_of_job {t slot : Nat} {e : BitVec 16} {j : JobCtx} (hj : s.job? c.job = some j) :
    barrierHold t v slot e c s =
      if (j.barrier slot).passed e then .ok (s.updCtx t v fun c => { c with arrived := false })
      else .wait (s.updCtx t v fun c => { c with onSlot := some slot }) := by
  simp only [barrierHold, hj]

/-- A word that waits after an update of its context changes that context alone. -/
theorem onlyCtx_waits_after {t off : Nat} (hc : s.ctx? t v = some c) (f : Ctx → Ctx) :
    onlyCtx s (settle t v off (.wait (s.updCtx t v f))) t v { f c with waiting := true } := by
  refine ⟨⟨rfl, fun u hu => ?_⟩, rfl, ?_⟩
  · exact (State.tile_updCtx_ne _ v _ hu).trans (State.tile_updCtx_ne s v f hu)
  · rw [settle, State.tile_updCtx _ (State.ctx?_updCtx s hc f), State.tile_updCtx s hc f, TileState.setCtx_setCtx]
    cases v <;> rfl

end

/-! ### HOST_SIGNAL and HOST_WAIT (R290, R291) -/

/-- Issuing leaves the context as the word left it, at the next word and waiting for nothing. -/
theorem State.ctx?_issued {s : State} {t : Nat} {v : Bool} {c : Ctx} (hc : s.ctx? t v = some c) (f : Ctx → Ctx) :
    (s.issued t v f).ctx? t v = some { f c with waiting := false, onSlot := none } := by
  rw [State.ctx?, State.tile_issued hc]
  exact TileState.ctx_setCtx _ v _

/-- A wake wire leaves a control state that waits for none as it was. -/
theorem State.ctx?_wakeAll {s : State} {t : Nat} {v : Bool} {c : Ctx} (hc : s.ctx? t v = some c) (runs : c.waiting = false)
    (ts : List Nat) : (s.wakeAll ts).ctx? t v = some c := by
  induction ts generalizing s with
  | nil => exact hc
  | cons u ts ih =>
    refine ih (s := s.wake u) ?_
    by_cases own : t = u
    · subst own
      have woken : { c with waiting := false } = c := by rw [← runs]
      rw [State.ctx?, State.tile_wake]
      cases v with
      | false => exact (congrArg (Option.map _) hc).trans (congrArg some woken)
      | true => exact (congrArg (Option.map _) hc).trans (congrArg some woken)
    · rw [State.ctx?, State.tile_wake_ne s own]
      exact hc

/-- Writing a register makes no word wait. -/
theorem Ctx.setReg_waiting (c : Ctx) (i x : Nat) : (c.setReg i x).waiting = c.waiting := by
  unfold Ctx.setReg
  split <;> rfl

/-- A job context with a signal entered in its outbound table. -/
def JobCtx.signalling (j : JobCtx) (n : Nat) (p : W64) : JobCtx := { j with outbound := enterSignal n p j.outbound }

/-- Is a signal of a number pending in the outbound table? -/
def JobCtx.signals (j : JobCtx) (n : Nat) : Bool := match j.outbound.find? (·.1 == n) with | some x => x.2.pend != 0 | none => false

/-- The tiles of the other tasks that wait on the number of `me`. -/
def JobCtx.behind (j : JobCtx) (me : Nat × Nat × Bool) : List Nat := (j.hostWaiters.filter fun m => m.1 == me.1 && m != me).map (·.2.1)

/-- A job context from which a task has taken a pending signal of number `n`: `k` remain, and the task waits no more. -/
def JobCtx.taking (j : JobCtx) (n : Nat) (k : BitVec 32) (p : W64) (me : Nat × Nat × Bool) : JobCtx :=
  { j with inbox := updFirst (·.1 == n) (fun _ => (n, k, p)) j.inbox, hostWaiters := j.hostWaiters.filter (· != me) }

/-- What is left of the signals of that number. -/
theorem JobCtx.inbox_taking {j : JobCtx} {n : Nat} {old : BitVec 32 × W64} (pending : j.inbox.find? (·.1 == n) = some (n, old))
    (k : BitVec 32) (p : W64) (me : Nat × Nat × Bool) : (j.taking n k p me).inbox.find? (·.1 == n) = some (n, k, p) :=
  (find?_updFirst (p := (·.1 == n)) (f := fun _ => (n, k, p)) fun _ _ => beq_self_eq_true n).trans
    (congrArg (Option.map fun _ => (n, k, p)) pending)

theorem JobCtx.not_mem_taking (j : JobCtx) (n : Nat) (k : BitVec 32) (p : W64) (me : Nat × Nat × Bool) :
    me ∉ (j.taking n k p me).hostWaiters := by
  simp [JobCtx.taking]

section
variable {s : State} {t : TileId} {v : Bool} {w : BitVec 128} {c : Ctx} {j : JobCtx}

/-- A word that stands waits for no wire. -/
theorem not_waiting_of_stands (st : stands s t v w c) : c.waiting = false := by
  obtain ⟨-, runs, -⟩ := st
  exact runs

theorem exec_hostSignal (st : stands s t v w c) (op : opcodeOf w.toNat = 0x63) :
    exec (.hostSignal t v w) s = .next (settle t.val v c.off (hostSignalWord w.toNat c (c.reg (xregOf w.toNat)) s)) :=
  issue_stands st (by rw [op]; decide) (by rw [ofOpcode, op]; decide)

theorem exec_hostWait (st : stands s t v w c) (op : opcodeOf w.toNat = 0x64) :
    exec (.hostWait t v w) s = .next (settle t.val v c.off (hostWaitWord t.val v w.toNat c (c.reg (xregOf w.toNat)) s)) :=
  issue_stands st (by rw [op]; decide) (by rw [ofOpcode, op]; decide)

/-- HOST_SIGNAL enters its signal and counts it; where one of its number is pending it counts that the two have merged (R290). -/
theorem hostSignalWord_enters {n x : Nat} (zeros : fld n 20 90 = 0) (hj : s.job? c.job = some j) :
    let z := (s.updJob c.job (·.signalling (fld n 0 16) (BitVec.ofNat 64 (c.reg (fld n 16 4))))).bump 0x4040 1
    hostSignalWord n c x s = .ok (if j.signals (fld n 0 16) then z.bump 0x4048 1 else z) := by
  simp only [hostSignalWord, zeros, hj, ne_eq, not_true_eq_false, if_false]
  rfl

/-- Beside its signal it changes status words alone. -/
theorem hostSignalWord_leaves {n x : Nat} (zeros : fld n 20 90 = 0) (hj : s.job? c.job = some j) :
    ∃ z, hostSignalWord n c x s = .ok z ∧ z.tiles = s.tiles ∧ z.mem = s.mem ∧ z.word 0x4040 = s.word 0x4040 + 1 ∧
      z.job? c.job = some (j.signalling (fld n 0 16) (BitVec.ofNat 64 (c.reg (fld n 16 4)))) := by
  have entered := State.job?_updJob_some hj (·.signalling (fld n 0 16) (BitVec.ofNat 64 (c.reg (fld n 16 4)))) fun _ => rfl
  rw [hostSignalWord_enters zeros hj]
  split
  · exact ⟨_, rfl, rfl, rfl, (State.word_bump_ne _ (by decide)).trans (State.word_bump_self _ _ _), entered⟩
  · exact ⟨_, rfl, rfl, rfl, State.word_bump_self _ _ _, entered⟩

/-- HOST_WAIT of the earliest waiter takes a pending signal, and while more are pending it wakes those that wait behind it (R291). -/
theorem hostWaitWord_takes {t n x : Nat} {k : BitVec 32} {p : W64} (zeros : fld n 20 90 = 0) (hj : s.job? c.job = some j)
    (pending : j.inbox.find? (·.1 == fld n 0 16) = some (fld n 0 16, k, p)) (left : k ≠ 0)
    (earliest : j.hostWaiters.find? (·.1 == fld n 0 16) = none ∨
      j.hostWaiters.find? (·.1 == fld n 0 16) = some (fld n 0 16, t, v)) :
    let me := (fld n 0 16, t, v)
    hostWaitWord t v n c x s =
      .ok (((s.updJob c.job (·.taking (fld n 0 16) (k - 1) p me)).setReg t v (fld n 16 4) p.toNat).wakeAll
        (if k = 1 then [] else j.behind me)) := by
  rcases earliest with alone | mine
  · simp only [hostWaitWord, zeros, hj, pending, alone, left, ne_eq, not_true_eq_false, decide_false, Bool.not_true, Bool.or_self,
      Bool.false_eq_true, if_false]
    split <;> rfl
  · simp only [hostWaitWord, zeros, hj, pending, mine, left, beq_self_eq_true, ne_eq, not_true_eq_false, decide_false, Bool.not_true,
      Bool.or_self, Bool.false_eq_true, if_false]
    split <;> rfl

end

/-! ### BARRIER_TIMEOUT and SIGNAL_OUT (R289, R290) -/

/-- The connection and SEQ of the next message to it, where it is OPEN. -/
def State.nextMessage (s : State) (conn : BitVec 32) : BitVec 32 × W64 :=
  match s.conn? conn with | some c => if c.st = 2 then (c.id, c.txNext) else (0, 0) | none => (0, 0)

/-- A job context whose entry `o` of number `n` is on its way as message `key`. -/
def JobCtx.reporting (j : JobCtx) (n : Nat) (o : OutSig) (key : BitVec 32 × W64) : JobCtx :=
  { j with outbound := updFirst (·.1 == n) (fun _ => (n, { o with pend := 0, sent := some key })) j.outbound }

section
variable {s : State} {job : BitVec 16} {j : JobCtx} (hj : s.job? job = some j)
include hj

theorem exec_barrierTimeout_late {slot : Fin 64} (complete : (j.barrier slot.val).since ≠ 0)
    (late : s.passed ((j.barrier slot.val).since - 1) (s.cfg.barrierTimeout * 1000000) = true) :
    exec (.barrierTimeout job slot) s = .next (s.barrierFail job slot.val) := by
  change execBarrierTimeout job slot s = _
  simp only [execBarrierTimeout, hj, complete, late, Bool.not_true, Bool.false_eq_true, or_self, if_false]

/-- SIGNAL_OUT sends what the outbound table first holds unreported, and notes under which key (R290). -/
theorem exec_signalOut_sends {n : Nat} {o : OutSig}
    (unreported : j.outbound.find? (fun e => e.2.pend != 0 && e.2.sent.isNone) = some (n, o)) :
    exec (.signalOut job) s = .next ((s.updJob job (·.reporting n o (s.nextMessage j.host.1))).originate j.host.1 j.host.2
      (.signalOut job n (o.pend - 1) o.payload)) := by
  change execSignalOut job s = _
  simp only [execSignalOut, hj, unreported]
  rfl

end

end Sys2Proof.Machine

/-! ### The obligations on barrier words and host signals -/

section
open Sys2Proof Sys2Proof.Machine

/-- Settles O25: what counts an arrival and what a wait asks are `arriveLocal`'s and `barrierHold`'s cases. -/
theorem barrierWords : Obligations.BarrierWords := by
  refine ⟨fun s t v w c st => ⟨fun a e s1 op zeros fresh apart record counted => ?arrives, fun e j op zeros last hj => ?waits⟩,
    fun s job slot g j hj valid => ⟨State.arriveLocal_current hj valid, State.arriveLocal_next hj valid,
      fun short begun other => ?other⟩⟩
  case arrives =>
    rw [exec_barrierArrive st op, barrierArriveWord_counts zeros fresh apart record counted]
    rfl
  case waits =>
    have issues := exec_barrierWait st op
    rw [barrierWaitWord_arrived zeros last, barrierHold_of_job hj] at issues
    refine ⟨fun released => ⟨_, issues, ?_⟩, fun held => ⟨_, issues, ?_⟩⟩
    · rw [if_pos released]
      exact onlyCtx_issued₂ (ctx?_of_stands st) (fun c => { c with arrived := false }) fun c => { c with pos := c.pos + 16 }
    · rw [if_neg (by rw [held]; decide)]
      exact onlyCtx_waits_after (ctx?_of_stands st) fun c => { c with onSlot := some (fld w.toNat 0 6) }
  case other =>
    rw [State.arriveLocal_other_group hj valid short begun other]
    exact ⟨rfl, (State.syncFault_logged ..).jobs⟩

/-- Settles O26: each word changes its job context and its own control state; a wake wire of those that wait behind changes neither. -/
theorem hostSignals : Obligations.HostSignals := by
  refine ⟨fun s t v w c j st hj => ⟨fun op zeros => ?signals, fun k p op zeros pending left earliest => ?waits⟩,
    fun s job slot j hj => ⟨exec_barrierTimeout_late hj, fun n o unreported => exec_signalOut_sends hj unreported⟩⟩
  case signals =>
    obtain ⟨z, enters, tiles, mem, counted, entered⟩ := hostSignalWord_leaves (x := c.reg (xregOf w.toNat)) zeros hj
    have issues := exec_hostSignal st op
    rw [enters] at issues
    have held : z.ctx? t.val v = some c := (congrArg (·.ctx v) (State.tile_congr tiles t.val)).trans (ctx?_of_stands st)
    exact ⟨_, issues, State.ctx?_issued held _, mem, counted, _, entered, rfl, rfl⟩
  case waits =>
    have issues := exec_hostWait st op
    rw [hostWaitWord_takes zeros hj pending left earliest] at issues
    have held : (s.updJob c.job (·.taking (fld w.toNat 0 16) (k - 1) p (fld w.toNat 0 16, t.val, v))).ctx? t.val v = some c :=
      (ctx?_of_stands st : s.ctx? t.val v = some c)
    have written := State.ctx?_updCtx _ held (·.setReg (fld w.toNat 16 4) p.toNat)
    have runs := (c.setReg_waiting (fld w.toNat 16 4) p.toNat).trans (not_waiting_of_stands st)
    refine ⟨_, issues, State.ctx?_issued (State.ctx?_wakeAll written runs _) _, State.mem_wakeAll _ _, _,
      (State.job?_wakeAll _ _ _).trans (State.job?_updJob_some hj _ fun _ => rfl), JobCtx.inbox_taking pending _ _ _,
      j.not_mem_taking _ _ _ _⟩

end
end

section
/-!
Buckets that close, are compared and are cleared (R298, R304, R305, R312, R316 to R318): what the module's own accesses to memory leave of
the job contexts, and what BUCKET_DEADLINE, STEP_CLOSE_LIMIT, CHECK_GRACE, CHECK_COMPARE and BUCKET_CLEAR do.
-/
namespace Sys2Proof.Machine

/-! ### Pairs and lists -/

section
variable {α β : Type}

@[simp] theorem pget_pset_self (x : α × α) (i : Bool) (v : α) : pget (pset x i v) i = v := by cases i <;> rfl

/-- What an update of one element does not show in a view of it shows nowhere in the view of the list. -/
theorem map_updFirst {p : α → Bool} {f : α → α} {view : α → β} (same : ∀ x, view (f x) = view x) (l : List α) :
    (updFirst p f l).map view = l.map view := by
  induction l with
  | nil => rfl
  | cons x xs ih =>
    rw [updFirst]
    split
    · rw [List.map_cons, List.map_cons, same]
    · rw [List.map_cons, List.map_cons, ih]

/-- An update of the first element of its kind is what it makes of that element. -/
theorem updFirst_congr {p : α → Bool} {f g : α → α} {l : List α} {a : α} (found : l.find? p = some a) (same : f a = g a) :
    updFirst p f l = updFirst p g l := by
  induction l with
  | nil => rfl
  | cons x xs ih =>
    by_cases here : p x = true
    · obtain rfl : x = a := Option.some.inj ((List.find?_cons_of_pos here).symm.trans found)
      simp only [updFirst, here, if_true, same]
    · simp only [updFirst, here, Bool.false_eq_true, if_false, ih ((List.find?_cons_of_neg here).symm.trans found)]

end

/-! ### What the module's own accesses to memory leave of the job contexts (R194, R195, R200) -/

section
variable (s : State)

theorem State.jobs_foldl {α : Type} {f : State → α → State} (hf : ∀ z x, (f z x).jobs = z.jobs) (xs : List α) (s : State) :
    (xs.foldl f s).jobs = s.jobs :=
  List.foldlRecOn (motive := fun z => z.jobs = s.jobs) xs f rfl fun z kept x _ => (hf z x).trans kept

theorem State.jobs_ueFound (beat finder : Nat) : (s.ueFound beat finder).jobs = s.jobs := by
  rw [State.ueFound, State.points_jobs, (State.record_logged _ _ _ _).jobs, State.bump_jobs]

theorem State.jobs_ueEach (finder : Nat) (bs : List Nat) : (s.ueEach finder bs).jobs = s.jobs := by
  induction bs generalizing s with
  | nil => rfl
  | cons b bs ih =>
    unfold State.ueEach
    rw [ih]
    exact s.jobs_ueFound b finder

theorem State.jobs_ueAll (finder : Nat) (bs : List Nat) : (s.ueAll finder bs).jobs = s.jobs := by
  have noted (z : State) (x : W64 × W64) : State.jobs { z with mem := { z.mem with found := x } } = z.jobs := rfl
  cases bs with
  | nil => rfl
  | cons b bs => rw [State.ueAll, noted, State.jobs_ueEach]

theorem State.jobs_putByte (p : Place) (b : Byte) : (s.putByte p b).jobs = s.jobs := by cases p <;> rfl

theorem State.jobs_writePlaces (ws : List (Place × Byte)) (finder : Nat) : (s.writePlaces ws finder).2.jobs = s.jobs := by
  have cleared (z : State) (w : Place × Byte) : State.jobs (match w.1 with
      | .dram k => { z with mem := { z.mem with poison := Sp.drop z.mem.poison (k / 32) } }
      | .scratch _ _ => z) = z.jobs := by split <;> rfl
  have put (z : State) (w : Place × Byte) : (z.putByte w.1 w.2).jobs = z.jobs := z.jobs_putByte w.1 w.2
  unfold State.writePlaces
  dsimp only
  split
  · exact (State.jobs_foldl cleared _ _).trans (State.jobs_foldl put _ s)
  · exact (State.jobs_ueAll _ _ _).trans ((State.jobs_foldl cleared _ _).trans (State.jobs_foldl put _ s))

theorem State.jobs_meetLost (ps : List Place) : (s.meetLost ps).jobs = s.jobs := by
  unfold State.meetLost
  split
  · exact (s.logEvent_logged _ _ _).jobs
  · rfl

theorem State.jobs_looked (job : BitVec 16) (a n : Nat) : (s.looked job a n).jobs = s.jobs :=
  (State.jobs_meetLost _ _).trans (s.jobs_ueAll _ _)

theorem State.jobs_poke (job : BitVec 16) (a : Nat) (bs : List Byte) : (s.poke job a bs).jobs = s.jobs := by
  unfold State.poke
  split
  · rfl
  · exact (State.jobs_meetLost _ _).trans (s.jobs_writePlaces _ _)

/-- The contexts decide which one a job names. -/
theorem State.job?_congr {s z : State} (h : z.jobs = s.jobs) (job : BitVec 16) : z.job? job = s.job? job := by
  rw [State.job?, h, State.job?]

end

/-! ### Closing by time (R304, R305, R317) -/

section
variable {s : State} {job : BitVec 16} {bucket : Nat} {j : JobCtx} {b : Bucket} (hj : s.job? job = some j)
include hj

section
variable (hb : j.bucket? bucket = some b)
include hb

/-- BUCKET_DEADLINE closes the set whose deadline has passed, the first of two. -/
theorem exec_bucketDeadline_closes {i : Bool} (main : b.checkOf = none) (past : s.pastDeadline b i = true)
    (first : i = true → s.pastDeadline b false = false) :
    exec (.bucketDeadline job bucket) s = .next (s.closeBucket job b i .deadline) := by
  have due : s.dueSet b = some i := by
    cases i with
    | false => simp [State.dueSet, main, past]
    | true => simp [State.dueSet, main, past, first rfl]
  change execBucketDeadline job bucket s = _
  simp only [execBucketDeadline, hj, Option.bind_some, hb, due]

theorem exec_bucketDeadline_early (first : s.pastDeadline b false = false) (second : s.pastDeadline b true = false) :
    exec (.bucketDeadline job bucket) s = .next s := by
  have due : s.dueSet b = none := by simp [State.dueSet, first, second]
  change execBucketDeadline job bucket s = _
  simp only [execBucketDeadline, hj, Option.bind_some, hb, due]

/-- CHECK_GRACE closes the set of a check bucket whose main bucket's has been closed for the grace, the first of two. -/
theorem exec_checkGrace_closes {m : Bucket} {i : Bool} (main : j.mainOf b = some m) (past : s.pastGrace m b i = true)
    (first : i = true → s.pastGrace m b false = false) :
    exec (.checkGrace job bucket) s = .next (s.closeBucket job b i .grace) := by
  change execCheckGrace job bucket s = _
  cases i with
  | false => simp only [execCheckGrace, hj, hb, main, past, if_true]
  | true => simp only [execCheckGrace, hj, hb, main, past, first rfl, Bool.false_eq_true, if_false, if_true]

end

theorem exec_stepCloseLimit_closes (runs : j.stepping = true) (past : j.stepAt + s.cfg.stepCloseLimit * 1000000 ≤ s.now) :
    exec (.stepCloseLimit job) s = .next (s.closeAll job (setOf j.step) .limit j.buckets) := by
  change execStepCloseLimit job s = _
  simp only [execStepCloseLimit, hj, State.pastCloseLimit, runs, decide_eq_true past, Bool.and_self, if_true]

end

/-! ### The sampled check (R316, R318) -/

section
variable {s : State} {job : BitVec 16} {bucket : Nat} {j : JobCtx} {b : Bucket} {g : GradBlock} {c : Bucket}

/-- The set of the running step is closed in a main bucket and in its check bucket, and is not yet compared. -/
structure CheckDue (s : State) (job : BitVec 16) (bucket : Nat) (j : JobCtx) (b c : Bucket) (g : GradBlock) : Prop where
  held : s.job? job = some j
  named : j.bucket? bucket = some b
  grad : j.grad = some g
  check : j.checkFor b = some c
  runs : j.stepping = true
  closed : pget b.st (setOf j.step) = 2
  checkClosed : pget c.st (setOf j.step) = 2
  fresh : pget b.checked (setOf j.step) = false

/-- CHECK_COMPARE where the check does not run (R318). -/
theorem CheckDue.exec_idle (due : CheckDue s job bucket j b c g) (idle : checkRuns g b c (setOf j.step) = false) :
    exec (.checkCompare job bucket) s =
      .next (((s.updBucket job b.id fun b => { b with checked := pset b.checked (setOf j.step) true }).bump 0x5070 1).updBucket job
        b.id fun b => { b with mismatch := 0 }) := by
  obtain ⟨hj, hb, hg, hc, runs, closed, checkClosed, fresh⟩ := due
  change execCheckCompare job bucket s = _
  simp [execCheckCompare, hj, hb, hg, hc, runs, closed, checkClosed, fresh, idle]

/-- CHECK_COMPARE where it runs: up to the first block whose sums disagree, if there is one (R318). -/
theorem CheckDue.exec_runs (due : CheckDue s job bucket j b c g) (runs : checkRuns g b c (setOf j.step) = true) :
    exec (.checkCompare job bucket) s =
      let s1 := (s.updBucket job b.id fun b => { b with checked := pset b.checked (setOf j.step) true }).bump 0x5068 1
      let seen (n : Nat) : State := s1.checkReads j b c (setOf j.step) j.step (List.range n)
      .next (match s.disagreement j b c (setOf j.step) j.step with
        | some k => (seen (k + 1)).mismatchAt j b (setOf j.step) j.step k
        | none => (seen (cdiv b.elements 4096)).updBucket job b.id fun b => { b with mismatch := 0 }) := by
  obtain ⟨hj, hb, hg, hc, stepping, closed, checkClosed, fresh⟩ := due
  change execCheckCompare job bucket s = _
  cases disagree : s.disagreement j b c (setOf j.step) j.step with
  | none => simp [execCheckCompare, hj, hb, hg, hc, stepping, closed, checkClosed, fresh, runs, disagree]
  | some k => simp [execCheckCompare, hj, hb, hg, hc, stepping, closed, checkClosed, fresh, runs, disagree]

end

/-! ### Clearing (R298, R312) -/

/-- A bucket one of whose sets is idle again, for the step after next (R312). -/
def Bucket.cleared (i : Bool) (b : Bucket) : Bucket :=
  { b with st := pset b.st i 0, full := pset b.full i false, checked := pset b.checked i false, steps := pset b.steps i (pget b.steps i + 2),
           claims := b.claims.filter (·.1 != i), begun := b.begun.filter (·.set != i), added := b.added.filter (·.set != i) }

section
variable {j : JobCtx} {b : Bucket} {i : Bool}

/-- Of two sets that may be cleared, that of the older step is cleared next. -/
theorem JobCtx.clearNext_eq (may : j.clearable b i = true) (older : j.clearable b (!i) = true → pget b.steps i < pget b.steps (!i)) :
    j.clearNext b = some i := by
  unfold JobCtx.clearNext
  dsimp only
  by_cases order : decide (b.steps.2 < b.steps.1) = i
  · rw [order, if_pos may]
  · have not_other : ¬ j.clearable b (!i) = true := fun may' => by
      have before := older may'
      cases i <;> simp [pget] at before order <;> omega
    rw [Bool.eq_not.mpr order, if_neg not_other, Bool.not_not, if_pos may]

variable {s : State} {job : BitVec 16} {bucket : Nat} (hj : s.job? job = some j) (hb : j.bucket? bucket = some b)
include hj hb

theorem exec_bucketClear (may : j.clearable b i = true) (older : j.clearable b (!i) = true → pget b.steps i < pget b.steps (!i)) :
    exec (.bucketClear job bucket) s = .next (s.clearSet job b i) := by
  change execBucketClear job bucket s = _
  simp only [execBucketClear, hj, hb, JobCtx.clearNext_eq may older]

/-- Clearing writes zeros, which no job context shows, and then the bucket. -/
theorem State.bucket?_clearSet (i : Bool) :
    ∃ j', (s.clearSet job b i).job? job = some j' ∧ j'.bucket? bucket = some (b.cleared i) := by
  have named : b.id = bucket := beq_iff_eq.mp (List.find?_some hb :)
  have held := (State.job?_congr ((State.jobs_poke _ job (pget b.granules i).toNat (List.replicate (16 * b.granuleCount) 0#8)).trans
    (s.jobs_poke job (b.base i) (List.replicate b.bytes 0#8))) job).trans hj
  refine ⟨_, State.job?_updJob_some held _ fun _ => rfl, ?_⟩
  rw [named]
  refine (find?_updFirst fun x hx => ?_).trans (congrArg (Option.map (Bucket.cleared i)) hb)
  exact hx

end

end Sys2Proof.Machine

/-! ### The obligation on buckets -/

section
open Sys2Proof Sys2Proof.Machine

/-- Settles O49: each command's guard chooses the set that its clause names; clearing changes the one bucket besides memory. -/
theorem bucketsCloseAndClear : Obligations.BucketsCloseAndClear := by
  refine fun s job bucket j b hj hb => ⟨fun i => exec_bucketDeadline_closes hj hb, exec_bucketDeadline_early hj hb,
    exec_stepCloseLimit_closes hj, fun m i => exec_checkGrace_closes hj hb, fun g c hg hc runs => ?compares, fun i may older => ?clears⟩
  case compares =>
    intro i closed checkClosed fresh
    have due : CheckDue s job bucket j b c g := ⟨hj, hb, hg, hc, runs, closed, checkClosed, fresh⟩
    cases check : checkRuns g b c i with
    | false => exact due.exec_idle check
    | true => exact due.exec_runs check
  case clears =>
    obtain ⟨j', job', bucket'⟩ := State.bucket?_clearSet hj hb i
    exact ⟨exec_bucketClear hj hb may older, j', _, job', bucket', pget_pset_self _ _ _, pget_pset_self _ _ _⟩

end
end

section
/-!
The verdict round (R308, R309, R314, R315, R330): what signals, the passing on of landing slots and the step record leave of a job
context (`JobCtx.lesson`), and what VERDICT_ROUND, VERDICT_FORM and VERDICT_RECEIVE do.
-/
namespace Sys2Proof.Machine

/-! ### What a job context has learnt of its verdicts -/

/-- A job's name and what VERDICT_RECEIVE teaches its context (R308, R309, R315, R330). -/
structure Lesson where
  /-- JOB_ID. -/
  id : BitVec 16
  /-- The verdict of the step, once it has come. -/
  verdict : Option Nat
  /-- The step still runs. -/
  stepping : Bool
  /-- LOSS_SCALE. -/
  lossScale : BitVec 32
  /-- Clean steps since the scale last changed. -/
  clean : Nat
  /-- Consecutive skips. -/
  skips : Nat
  /-- The flags of the last verdict. -/
  lastFlags : Nat
  /-- The level of a Chrysalis block. -/
  level : Option Nat

/-- What a job context has learnt. -/
def JobCtx.lesson (j : JobCtx) : Lesson :=
  ⟨j.id, j.verdict, j.stepping, j.lossScale, j.clean, j.skips, j.lastFlags, j.chrys.map (·.level)⟩

/-- What every job context has learnt. -/
def State.lessons (s : State) : List Lesson := s.jobs.map JobCtx.lesson

/-- A job's context has learnt what it had, where all have. -/
theorem State.job?_of_lessons {s z : State} {job : BitVec 16} {j : JobCtx} (h : z.lessons = s.lessons) (hj : s.job? job = some j) :
    ∃ j', z.job? job = some j' ∧ j'.lesson = j.lesson := by
  have look (x : State) : x.lessons.find? (·.id == job) = (x.job? job).map JobCtx.lesson := List.find?_map
  have same : (z.job? job).map JobCtx.lesson = some j.lesson := by rw [← look, h, look, hj, Option.map_some]
  exact Option.map_eq_some_iff.mp same

/-- An update of a job context is what it makes of that context. -/
theorem State.updJob_congr {s : State} {job : BitVec 16} {j : JobCtx} {f f' : JobCtx → JobCtx} (hj : s.job? job = some j) (same : f j = f' j) :
    s.updJob job f = s.updJob job f' :=
  congrArg (fun js => { s with jobs := js }) (updFirst_congr hj same)

theorem State.lessons_congr {s z : State} (h : z.jobs = s.jobs) : z.lessons = s.lessons := congrArg (List.map JobCtx.lesson) h

section
variable (s : State)

/-- An update that teaches a job context nothing. -/
theorem State.lessons_updJob (job : BitVec 16) {f : JobCtx → JobCtx} (same : ∀ x, (f x).lesson = x.lesson) :
    (s.updJob job f).lessons = s.lessons := map_updFirst same s.jobs

theorem State.lessons_note (job : BitVec 16) (is : List Nat) : (s.note job is).lessons = s.lessons := by
  refine s.lessons_updJob job fun x => ?_
  rfl

/-! #### Frames and signals (R244 to R256, R273, R274) -/

/-- The unanswered transfers and what the job contexts have learnt: nothing of it changes as frames leave. -/
def State.unsent (s : State) : List Xfer × List Lesson := (s.xfers, s.lessons)

theorem Logged.unsent {s z : State} (h : Logged s z) : z.unsent = s.unsent := by
  obtain ⟨_, _, _, rfl⟩ := h
  rfl

theorem State.unsent_updJob (job : BitVec 16) {f : JobCtx → JobCtx} (same : ∀ x, (f x).lesson = x.lesson) :
    (s.updJob job f).unsent = s.unsent := congrArg (Prod.mk s.xfers) (s.lessons_updJob job same)

theorem State.unsent_number (f : Frame) : (s.number f).2.unsent = s.unsent := by
  simp only [State.number, State.takeSeq]
  split
  · rfl
  · split
    · exact s.unsent_updJob _ fun _ => rfl
    · exact s.unsent_updJob _ fun _ => rfl

theorem State.unsent_queueAt (e : Nat × Bool × Bool) (f : Frame) : (s.queueAt e f).unsent = s.unsent := by
  unfold State.queueAt
  dsimp only
  split <;> rfl

theorem State.unsent_ownError (f : Frame) : (s.ownError f).unsent = s.unsent := by
  have logged := (s.logEvent_logged 0x2201 (some f.job) (0, 0)).trans (State.bump_logged _ 0x2018 1)
  unfold State.ownError
  split
  · rfl
  · exact (State.unsent_number _ _).trans logged.unsent

theorem State.unsent_inject (f : Frame) : (s.inject f).unsent = s.unsent := by
  unfold State.inject
  split
  · rfl
  · split
    · exact s.unsent_queueAt _ f
    · exact s.unsent_ownError f

theorem State.unsent_sendAll (fs : List Frame) : (s.sendAll fs).unsent = s.unsent := by
  induction fs generalizing s with
  | nil => rfl
  | cons f fs ih => exact (ih _).trans ((State.unsent_inject _ _).trans (s.unsent_number f))

theorem State.lessons_wakeAll (ts : List Nat) : (s.wakeAll ts).lessons = s.lessons := by
  obtain ⟨_, h⟩ := s.wakeAll_eq ts
  rw [h]
  rfl

theorem State.lessons_raiseCount (job : BitVec 16) (i inc src : Nat) : (s.raiseCount job i inc src).2.lessons = s.lessons := by
  cases hj : s.job? job with
  | none => simp only [State.raiseCount, hj]
  | some j =>
    cases fault : j.pairFault i inc with
    | none =>
      rw [State.raiseCount_allowed hj fault]
      exact (State.lessons_wakeAll _ _).trans (s.lessons_updJob job fun _ => rfl)
    | some code =>
      rw [State.raiseCount_forbidden hj fault]
      exact State.lessons_congr ((s.syncFault_logged _ _ _ _ _ _).trans (State.bump_logged _ _ _)).jobs

/-- A control request is one unanswered transfer, and teaches nothing. -/
theorem State.unsent_sendControl (op : BitVec 4) (channel : Nat) (job : BitVec 16) (dst variant aux : Nat) (payload : List Byte)
    (sig : Option SigExt) : ∃ x : Xfer, (s.sendControl op channel job dst variant aux payload sig).unsent = (s.xfers ++ [x], s.lessons) ∧
      x.op = op.toNat ∧ x.dst = dst ∧ x.job = job :=
  ⟨_, State.unsent_sendAll _ _, rfl, rfl, rfl⟩

theorem State.lessons_signalTo (job : BitVec 16) (device count inc : Nat) : (s.signalTo job device count inc).lessons = s.lessons := by
  unfold State.signalTo
  split
  · rfl
  · split
    · exact s.lessons_raiseCount _ _ _ _
    · obtain ⟨x, sent, -⟩ := s.unsent_sendControl 6 0 job _ 0 0 [] _
      exact congrArg Prod.snd sent

theorem State.lessons_signalAll (job : BitVec 16) (count inc : Nat) (ds : List Nat) :
    (s.signalAll job count inc ds).lessons = s.lessons := by
  induction ds generalizing s with
  | nil => rfl
  | cons d ds ih => exact (ih _).trans (s.lessons_signalTo job d count inc)

/-! #### Landing slots under SKIP (R27, R29) -/

theorem State.lessons_freeSlot (job : BitVec 16) (l : Layer) : (s.freeSlot job l).lessons = s.lessons := by
  unfold State.freeSlot
  split
  · rfl
  · exact (State.lessons_signalAll _ _ _ _ _).trans (s.lessons_updJob job fun _ => rfl)

theorem State.lessons_passSlot (job : BitVec 16) (x : Landing) (l : Nat) (y : Layer) : (s.passSlot job x l y).lessons = s.lessons := by
  unfold State.passSlot
  dsimp only
  split
  · exact (State.lessons_freeSlot _ _ _).trans (s.lessons_updJob job fun _ => rfl)
  · exact s.lessons_updJob job fun _ => rfl

theorem State.lessons_passSkipped (job : BitVec 16) (x : Landing) (ls : List (Nat × Layer)) :
    (s.passSkipped job x ls).lessons = s.lessons := by
  induction ls generalizing s with
  | nil => rfl
  | cons l ls ih =>
    refine (ih _).trans ?_
    split
    · split
      · exact s.lessons_passSlot job x _ _
      · rfl
    · rfl

theorem State.lessons_passSkips (job : BitVec 16) (x : Landing) (n : Nat) : (s.passSkips job x n).lessons = s.lessons := by
  induction n generalizing s with
  | zero => rfl
  | succ n ih => exact (ih _).trans (s.lessons_passSkipped job x _)

theorem State.lessons_settleSkips (job : BitVec 16) (x : Landing) : (s.settleSkips job x).lessons = s.lessons := by
  unfold State.settleSkips
  split
  · refine (State.lessons_updJob _ job fun y => ?_).trans (s.lessons_passSkips job x _)
    rfl
  · rfl

theorem State.lessons_skipLayers (job : BitVec 16) : (s.skipLayers job).lessons = s.lessons := by
  unfold State.skipLayers
  split
  · split
    · exact (State.lessons_settleSkips _ job _).trans (s.lessons_updJob job fun _ => rfl)
    · rfl
  · rfl

/-! #### Counters, the generation that is due, the step record (R327, R331) -/

theorem State.countVerdict_logged (flags : Nat) : Logged s (s.countVerdict flags) := by
  unfold State.countVerdict
  split
  · exact s.bump_logged _ _
  · exact (((s.bump_logged _ _).trans (State.bump_logged _ _ _)).trans (State.bump_logged _ _ _)).trans (State.bump_logged _ _ _)

theorem State.lessons_markDue (job : BitVec 16) (n : Nat) : (s.markDue job n).lessons = s.lessons := by
  unfold State.markDue
  split
  · rfl
  · split
    · refine s.lessons_updJob job fun x => ?_
      simp [JobCtx.lesson, Function.comp_def]
    · rfl

theorem State.jobs_writeRecordHead (job : BitVec 16) (n g : Nat) : (s.writeRecordHead job n g).jobs = s.jobs := by
  unfold State.writeRecordHead
  split
  · rfl
  · split
    · rfl
    · exact (State.jobs_poke _ _ _ _).trans ((State.jobs_poke _ _ _ _).trans (s.jobs_looked _ _ _))

theorem State.jobs_zeroRecordNorms (job : BitVec 16) (n : Nat) : (s.zeroRecordNorms job n).jobs = s.jobs := by
  unfold State.zeroRecordNorms
  split
  · exact s.jobs_poke _ _ _
  · rfl

end

/-! ### Signals to a device (R27, R308, R330, R332) -/

section
variable {s : State} {job : BitVec 16} {j : JobCtx} {device : Nat} (hj : s.job? job = some j)
include hj

/-- A signal to a device that another module plays is one unanswered transfer on operation 6. -/
theorem State.signalTo_sends (other : j.hallOf device ≠ s.hall) (count inc : Nat) :
    ∃ x : Xfer, (s.signalTo job device count inc).xfers = s.xfers ++ [x] ∧ x.op = 6 ∧ x.dst = j.hallOf device ∧ x.job = job := by
  simp only [State.signalTo, hj, if_neg other]
  obtain ⟨x, sent, op, dst, named⟩ := s.unsent_sendControl 6 0 job (j.hallOf device) 0 0 []
    (some ⟨BitVec.ofNat 32 (count + device * 2 ^ 12 + 2 ^ 31), BitVec.ofNat 32 inc, 0⟩)
  exact ⟨x, congrArg Prod.fst sent, op, dst, named⟩

/-- A signal to the device that this module plays raises the count here. -/
theorem State.signalTo_raises {count inc : Nat} (own : j.hallOf device = s.hall) (allowed : j.pairFault count inc = none) :
    ∃ j', (s.signalTo job device count inc).job? job = some j' ∧
      Sp.get 0#32 j'.counts count = Sp.get 0#32 j.counts count + BitVec.ofNat 32 inc ∧
      (s.signalTo job device count inc).xfers = s.xfers := by
  simp only [State.signalTo, hj, if_pos own, State.raiseCount_allowed hj allowed]
  obtain ⟨tiles, woken⟩ := (s.updJob job (·.raised count (Sp.get 0#32 j.counts count + BitVec.ofNat 32 inc))).wakeAll_eq (j.watchers count)
  refine ⟨_, (State.job?_wakeAll _ _ _).trans (State.job?_updJob_some hj _ fun _ => rfl), Sp.get_put_self _ _ _, ?_⟩
  rw [woken]
  rfl

end

/-! ### VERDICT_ROUND (R308, R314, R330) -/

/-- Each vote that is cast goes to a count of a device, in order. -/
def State.vote (s : State) (job : BitVec 16) (device : Nat) (votes : List (Bool × Nat)) : State :=
  votes.foldl (fun s x => if x.1 then s.signalTo job device x.2 1 else s) s

/-- The flags of the step for the counts from `v` on (R308). -/
def JobCtx.flagVotes (j : JobCtx) (v : Nat) : List (Bool × Nat) :=
  [(decide (0 < j.rise (v + 5)), v), (pget j.gradFlag (setOf j.step), v + 1), (pget j.checkFlag (setOf j.step), v + 2)]

/-- The votes for the levels 1 and 2 (R330). -/
def State.levelVotes (s : State) (c : Chrys) : List (Bool × Nat) :=
  [(decide (1 ≤ s.health.level), c.secureCount), (s.health.level == 2, c.secureCount + 1)]

/-- The norm table that this module holds is cleared (log 78), and the arrival follows the votes (R308). -/
def State.arriveRound (s : State) (job : BitVec 16) (j : JobCtx) (g : GradBlock) : State :=
  (((s.clearNorms j g).signalTo job g.verdictDevice (g.verdictCount + 3) 1).note job [g.verdictCount + 5]).updJob job
    fun j => { j with rounded := true }

/-- In the running step the module has not voted, its loss kernel has ended, and every bucket is ready (R308). -/
structure RoundDue (s : State) (job : BitVec 16) (j : JobCtx) (g : GradBlock) : Prop where
  held : s.job? job = some j
  grad : j.grad = some g
  runs : j.stepping = true
  unvoted : j.rounded = false
  loss : s.lossEnded job g = true
  ready : j.buckets.all j.bucketReady = true

section
variable {s : State} {job : BitVec 16} {j : JobCtx} {g : GradBlock}

theorem RoundDue.exec_flags (due : RoundDue s job j g) (plain : j.chrys = none) :
    exec (.verdictRound job) s = .next ((s.vote job g.verdictDevice (j.flagVotes g.verdictCount)).arriveRound job j g) := by
  obtain ⟨hj, hg, runs, unvoted, loss, ready⟩ := due
  change execVerdictRound job s = _
  simp only [execVerdictRound, hj, hg, runs, unvoted, loss, ready, plain, Bool.not_true, Bool.or_self, Bool.false_eq_true, if_false]
  rfl

theorem RoundDue.exec_levels (due : RoundDue s job j g) {c : Chrys} (secured : j.chrys = some c) :
    exec (.verdictRound job) s = .next (((s.vote job g.verdictDevice (j.flagVotes g.verdictCount)).vote job g.verdictDevice
      (s.levelVotes c)).arriveRound job j g) := by
  obtain ⟨hj, hg, runs, unvoted, loss, ready⟩ := due
  change execVerdictRound job s = _
  simp only [execVerdictRound, hj, hg, runs, unvoted, loss, ready, secured, Bool.not_true, Bool.or_self, Bool.false_eq_true, if_false]
  rfl

/-- A module that has voted in a step does so no more. -/
theorem exec_verdictRound_again (z : State) (job : BitVec 16) (j : JobCtx) (g : GradBlock) :
    exec (.verdictRound job) (z.arriveRound job j g) = .next (z.arriveRound job j g) := by
  have voted : ∀ x, (z.arriveRound job j g).job? job = some x → x.rounded = true := fun x hx => by
    rw [State.arriveRound, State.job?_updJob] at hx
    · obtain ⟨y, -, rfl⟩ := Option.map_eq_some_iff.mp hx
      rfl
    · exact fun _ => rfl
  change execVerdictRound job _ = _
  cases hx : (z.arriveRound job j g).job? job with
  | none => simp only [execVerdictRound, hx]
  | some x =>
    cases hg : x.grad with
    | none => simp only [execVerdictRound, hx, hg]
    | some _ => simp only [execVerdictRound, hx, hg, voted x hx, Bool.or_true, Bool.true_or, if_true]

/-! ### VERDICT_FORM (R308, R330) -/

/-- The verdict goes to every device of the job, as its flags come to. -/
def State.tellVerdict (z s : State) (job : BitVec 16) (j : JobCtx) (v : Nat) : State :=
  ((z.signalAll job (v + 4) (1 + 2 * (bit (decide (0 < j.rise v)) + 2 * bit (decide (0 < j.rise (v + 1))) + 4 * bit (decide (0 < j.rise (v + 2)))))
    (s.jobDevices j)).note job [v, v + 1, v + 2, v + 3]).updJob job fun j => { j with formed := j.formed + 1 }

/-- This module plays VERDICT_DEVICE, and every device's arrival has come (R308). -/
structure FormDue (s : State) (job : BitVec 16) (j : JobCtx) (g : GradBlock) : Prop where
  held : s.job? job = some j
  grad : j.grad = some g
  plays : s.deviceOf j = g.verdictDevice
  arrived : j.rise (g.verdictCount + 3) = j.devices

theorem FormDue.exec_verdict (due : FormDue s job j g) (plain : j.chrys = none) :
    exec (.verdictForm job) s = .next (s.tellVerdict s job j g.verdictCount) := by
  obtain ⟨hj, hg, plays, arrived⟩ := due
  change execVerdictForm job s = _
  simp only [execVerdictForm, hj, hg, plays, arrived, plain, ne_eq, not_true_eq_false, or_self, if_false]
  rfl

theorem FormDue.exec_level (due : FormDue s job j g) {c : Chrys} (secured : j.chrys = some c) :
    exec (.verdictForm job) s = .next (((s.signalAll job (c.secureCount + 2)
      (1 + if 0 < j.rise (c.secureCount + 1) then 2 else if 0 < j.rise c.secureCount then 1 else 0) (s.jobDevices j)).note job
        [c.secureCount, c.secureCount + 1]).tellVerdict s job j g.verdictCount) := by
  obtain ⟨hj, hg, plays, arrived⟩ := due
  change execVerdictForm job s = _
  simp only [execVerdictForm, hj, hg, plays, arrived, secured, ne_eq, not_true_eq_false, or_self, if_false]
  rfl

end

/-! ### VERDICT_RECEIVE (R308, R309, R315, R327) -/

/-- The flags of a verdict (R308). -/
def verdictFlags (w : Nat) : Nat := (w - 1) / 2 % 8

/-- The consecutive skips after a verdict (R309). -/
def JobCtx.skipsAfter (j : JobCtx) (flags : Nat) : Nat := if flags = 0 then 0 else j.skips + 1

/-- A job context that has learnt a verdict, with its loss scale and clean steps and its consecutive skips. -/
def JobCtx.learnt (w : Nat) (scale : BitVec 32 × Nat) (skips : Nat) (j : JobCtx) : JobCtx :=
  { j with verdict := some w, normsDue := if verdictFlags w = 0 then some j.step else none, verdicts := j.verdicts + 1, lossScale := scale.1,
           clean := scale.2, skips := skips, lastFlags := verdictFlags w, stepping := false }

/-- The verdict is learnt; of each context, for its loss scale and clean steps, what it held counts. -/
def State.learnVerdict (s : State) (job : BitVec 16) (j : JobCtx) (g : GradBlock) (w : Nat) : State :=
  (s.updJob job fun x => x.learnt w (s.nextScale x (verdictFlags w)) (j.skipsAfter (verdictFlags w))).note job [g.verdictCount + 4]

/-- The level that came before the verdict is learnt (R330). -/
def State.learnLevel (s : State) (job : BitVec 16) (j : JobCtx) (c : Chrys) : State :=
  (s.updChrys job fun x => { x with level := j.rise (c.secureCount + 2) - 1 }).note job [c.secureCount + 2]

/-- What verdict `w` teaches a job context. -/
def State.lessonOf (s : State) (j : JobCtx) (w : Nat) : Lesson :=
  let scale := s.nextScale j (verdictFlags w)
  ⟨j.id, some w, false, scale.1, scale.2, j.skipsAfter (verdictFlags w), verdictFlags w, j.chrys.map fun c => j.rise (c.secureCount + 2) - 1⟩

/-- A verdict that has been learnt is counted, may make a generation due, and enters the step record; under SKIP the layers are
passed on (R29, R309, R327, R331). -/
def State.recordVerdict (s : State) (job : BitVec 16) (n flags : Nat) : State :=
  let s1 := (s.countVerdict flags).markDue job n
  let gen := match (s1.job? job).bind (·.chrys) with
    | some c => if c.pendingStep = some n then c.nextGen else 0
    | none => 0
  let s2 := s1.writeRecordHead job n gen
  if flags = 0 then s2 else (s2.zeroRecordNorms job n).skipLayers job

/-- The running training package of a job is abandoned at SKIP_LIMIT (R309). -/
def State.abandonSkipped (s : State) (job : BitVec 16) : State :=
  (s.logEvent 0x5201 (some job) (0, 0)).abandonAll 0x5201 0x3FF false
    ((s.pkgs.filter fun p => p.job == job && p.kind == 1 && p.running).map (·.tag))

theorem State.lessons_recordVerdict (s : State) (job : BitVec 16) (n flags : Nat) : (s.recordVerdict job n flags).lessons = s.lessons := by
  have due := ((s.countVerdict flags).lessons_markDue job n).trans (State.lessons_congr (s.countVerdict_logged flags).jobs)
  have head (gen : Nat) := (State.lessons_congr (((s.countVerdict flags).markDue job n).jobs_writeRecordHead job n gen)).trans due
  unfold State.recordVerdict
  dsimp only
  split
  · exact head _
  · exact (State.lessons_skipLayers _ job).trans ((State.lessons_congr (State.jobs_zeroRecordNorms _ job n)).trans (head _))

/-- Without a Chrysalis block there is no step record and no generation. -/
theorem State.recordVerdict_plain {s : State} {job : BitVec 16} {j : JobCtx} (hj : s.job? job = some j) (plain : j.chrys = none)
    (n flags : Nat) : s.recordVerdict job n flags =
      if flags = 0 then s.countVerdict flags else (s.countVerdict flags).skipLayers job := by
  have held : (s.countVerdict flags).job? job = some j := (State.job?_congr (s.countVerdict_logged flags).jobs job).trans hj
  simp only [State.recordVerdict, State.markDue, State.writeRecordHead, State.zeroRecordNorms, held, Option.bind_some, plain]

/-- A verdict `w` has come for a step in which this module has voted (R308). -/
structure VerdictDue (s : State) (job : BitVec 16) (j : JobCtx) (g : GradBlock) (w : Nat) : Prop where
  held : s.job? job = some j
  grad : j.grad = some g
  voted : j.rounded = true
  unlearnt : j.verdict = none
  come : j.rise (g.verdictCount + 4) = w
  nonzero : w ≠ 0

namespace VerdictDue
variable {s : State} {job : BitVec 16} {j : JobCtx} {g : GradBlock} {w : Nat} (due : VerdictDue s job j g w)
include due

theorem exec_eq : exec (.verdictReceive job) s =
    let z := (j.chrys.elim (s.learnVerdict job j g w) ((s.learnVerdict job j g w).learnLevel job j)).recordVerdict job j.step (verdictFlags w)
    .next (if s.cfg.skipLimit ≤ j.skipsAfter (verdictFlags w) then z.abandonSkipped job else z) := by
  obtain ⟨hj, hg, voted, unlearnt, come, nonzero⟩ := due
  have some_verdict : (w == 0) = false := beq_eq_false_iff_ne.mpr nonzero
  have own : s.learnVerdict job j g w =
      (s.updJob job (JobCtx.learnt w (s.nextScale j (verdictFlags w)) (j.skipsAfter (verdictFlags w)))).note job [g.verdictCount + 4] :=
    congrArg (State.note · job _) (State.updJob_congr hj rfl)
  change execVerdictReceive job s = _
  rw [own]
  simp only [execVerdictReceive, hj, hg, voted, unlearnt, come, some_verdict, Option.isSome_none, Bool.not_true, Bool.or_self, Bool.false_eq_true,
    if_false]
  cases hc : j.chrys with
  | none => exact (apply_ite Host.Outcome.next _ _ _).symm
  | some c => exact (apply_ite Host.Outcome.next _ _ _).symm

/-- What has been learnt once the verdict and the level are. -/
theorem job?_learnt : ∃ j', (j.chrys.elim (s.learnVerdict job j g w) ((s.learnVerdict job j g w).learnLevel job j)).job? job = some j' ∧
    j'.lesson = s.lessonOf j w := by
  have learnt := State.job?_updJob_some due.held (fun x => x.learnt w (s.nextScale x (verdictFlags w)) (j.skipsAfter (verdictFlags w)))
    fun _ => rfl
  obtain ⟨y, held, lesson⟩ := State.job?_of_lessons (State.lessons_note _ job [g.verdictCount + 4]) learnt
  cases hc : j.chrys with
  | none => exact ⟨y, held, by rw [lesson, State.lessonOf, JobCtx.lesson, JobCtx.learnt, hc]; rfl⟩
  | some c =>
    have level := State.job?_updJob_some held (fun y => { y with chrys := y.chrys.map fun x => { x with level := j.rise (c.secureCount + 2) - 1 } })
      fun _ => rfl
    obtain ⟨z, held', lesson'⟩ := State.job?_of_lessons (State.lessons_note _ job [c.secureCount + 2]) level
    refine ⟨z, held', lesson'.trans ?_⟩
    simp only [JobCtx.lesson, JobCtx.learnt, Lesson.mk.injEq, hc, Option.map_some, Option.map_eq_some_iff] at lesson
    obtain ⟨hid, hverdict, hstepping, hscale, hclean, hskips, hflags, x, hx, -⟩ := lesson
    simp only [JobCtx.lesson, State.lessonOf, hc, hid, hverdict, hstepping, hscale, hclean, hskips, hflags, hx, Option.map_some]

/-- Short of SKIP_LIMIT, VERDICT_RECEIVE leaves what has been learnt. -/
theorem leads_learnt (short : j.skipsAfter (verdictFlags w) < s.cfg.skipLimit) : leads (exec (.verdictReceive job) s) fun s' =>
    ∃ j', s'.job? job = some j' ∧ j'.lesson = s.lessonOf j w := by
  obtain ⟨y, held, lesson⟩ := due.job?_learnt
  obtain ⟨j', held', lesson'⟩ := State.job?_of_lessons (State.lessons_recordVerdict _ job j.step (verdictFlags w)) held
  refine ⟨_, due.exec_eq, j', ?_, lesson'.trans lesson⟩
  rw [if_neg (Nat.not_le.mpr short)]
  exact held'

/-- At SKIP_LIMIT, VERDICT_RECEIVE abandons the job's running training package (R309). -/
theorem exec_abandons (plain : j.chrys = none) (limit : s.cfg.skipLimit ≤ j.skipsAfter (verdictFlags w)) :
    exec (.verdictReceive job) s =
      let z := (s.learnVerdict job j g w).countVerdict (verdictFlags w)
      .next ((if verdictFlags w = 0 then z else z.skipLayers job).abandonSkipped job) := by
  obtain ⟨y, held, lesson⟩ := due.job?_learnt
  simp only [plain, Option.elim_none, Option.map_none, JobCtx.lesson, State.lessonOf, Lesson.mk.injEq, Option.map_eq_none_iff] at held lesson
  obtain ⟨-, -, -, -, -, -, -, hc⟩ := lesson
  simp only [due.exec_eq, if_pos limit, plain, Option.elim_none, State.recordVerdict_plain held hc]

end VerdictDue

end Sys2Proof.Machine

/-! ### The obligation on the verdict round -/

section
open Sys2Proof Sys2Proof.Machine

/-- Settles O50: a round and a verdict that are due do what their clause names; what is learnt is kept by all that follows in
VERDICT_RECEIVE; a signal is a transfer or an increment. -/
theorem verdictRound : Obligations.VerdictRound := by
  refine ⟨fun s job j g hj hg => ⟨fun runs unvoted loss ready => ?round, fun plays arrived => ?form, fun w voted unlearnt come nonzero => ?receive⟩,
    fun s job j d k n hj => ⟨fun other => State.signalTo_sends hj other k n, State.signalTo_raises hj⟩⟩
  case round =>
    have due : RoundDue s job j g := ⟨hj, hg, runs, unvoted, loss, ready⟩
    refine ⟨due.exec_flags, fun c => due.exec_levels, ?_⟩
    cases hc : j.chrys with
    | none => exact ⟨_, due.exec_flags hc, exec_verdictRound_again _ job j g⟩
    | some c => exact ⟨_, due.exec_levels hc, exec_verdictRound_again _ job j g⟩
  case form =>
    have due : FormDue s job j g := ⟨hj, hg, plays, arrived⟩
    exact ⟨due.exec_verdict, fun c => due.exec_level⟩
  case receive =>
    have due : VerdictDue s job j g w := ⟨hj, hg, voted, unlearnt, come, nonzero⟩
    refine ⟨fun short => ?_, due.exec_abandons⟩
    obtain ⟨s', next, j', held, lesson⟩ := due.leads_learnt short
    simp only [JobCtx.lesson, State.lessonOf, Lesson.mk.injEq] at lesson
    obtain ⟨-, verdict, stepping, scale, clean, skips, flags, level⟩ := lesson
    refine ⟨s', next, j', held, verdict, stepping, scale, clean, skips, flags, fun c hc => ?_⟩
    rw [hc, Option.map_some] at level
    exact Option.map_eq_some_iff.mp level

end
end

section
/-!
The health monitor (R333 to R335): what frames, messages and records leave of it (`State.health`), that a module which has withdrawn
stays so while its packages are abandoned, and what HEALTH_TICK does.
-/
namespace Sys2Proof.Machine

/-! ### The health monitor

Frames, messages to hosts and records change nothing of it. -/

theorem Logged.health {s z : State} (h : Logged s z) : z.health = s.health := by
  obtain ⟨_, _, _, rfl⟩ := h
  rfl

/-- Steps none of which touches the health monitor leave it as it was. -/
theorem State.health_foldl {α : Type} {f : State → α → State} (hf : ∀ z x, (f z x).health = z.health) (xs : List α) (s : State) :
    (xs.foldl f s).health = s.health :=
  List.foldlRecOn (motive := fun z => z.health = s.health) xs f rfl fun z kept x _ => (hf z x).trans kept

section
variable (s : State)

/-! #### Frames (R244 to R256, R273) -/

@[simp] theorem State.health_number (f : Frame) : (s.number f).2.health = s.health := by
  simp only [State.number, State.takeSeq]
  split
  · rfl
  · split <;> rfl

@[simp] theorem State.health_queueAt (e : Nat × Bool × Bool) (f : Frame) : (s.queueAt e f).health = s.health := by
  unfold State.queueAt
  dsimp only
  split <;> rfl

@[simp] theorem State.health_ownError (f : Frame) : (s.ownError f).health = s.health := by
  have logged := (s.logEvent_logged 0x2201 (some f.job) (0, 0)).trans (State.bump_logged _ 0x2018 1)
  unfold State.ownError
  split
  · rfl
  · exact (State.health_number _ _).trans logged.health

@[simp] theorem State.health_inject (f : Frame) : (s.inject f).health = s.health := by
  unfold State.inject
  split
  · rfl
  · split
    · exact s.health_queueAt _ f
    · exact s.health_ownError f

@[simp] theorem State.health_sendAll (fs : List Frame) : (s.sendAll fs).health = s.health := by
  induction fs generalizing s with
  | nil => rfl
  | cons f fs ih => exact (ih _).trans ((State.health_inject _ _).trans (s.health_number f))

@[simp] theorem State.health_fabricNotice (job : BitVec 16) (dst kind code : Nat) (rec : List W64) :
    (s.fabricNotice job dst kind code rec).health = s.health :=
  State.health_sendAll _ _

theorem State.health_takeBack (gs : List Frame) : (s.takeBack gs).health = s.health := by
  have others (z : State) (js : List JobCtx) (xs : List Xfer) : State.health { z with jobs := js, xfers := xs } = z.health := rfl
  unfold State.takeBack
  refine (others _ _ _).trans ?_
  generalize List.range 40 = ps
  exact State.health_foldl (fun z p => z.setPort_health p _) ps s

theorem State.health_recall (t : Nat) (v : Bool) : (s.recall t v).health = s.health := by
  unfold State.recall
  split
  · rfl
  · dsimp only
    split
    · rfl
    · exact s.drawn.health_takeBack _

/-! #### Messages to hosts (R372 to R380) -/

@[simp] theorem State.health_khtSent (bs : List Byte) (o : Out) (p : Fin 3) : (s.khtSent bs o p).health = s.health := by
  unfold State.khtSent State.hostTx
  obtain ⟨_, across⟩ := State.across_eq (if p = 2 then s.bump 0x7018 1 else
    ((s.bump 0x7018 1).bump (0x2108 + 0x40 * (40 + p.val)) (90 + bs.length)).bump (0x2118 + 0x40 * (40 + p.val)) 1)
    (if p = 2 then serviceTx else portTx (40 + p.val)) bs
  rw [across, State.emit_health]
  dsimp only
  split <;> rfl

@[simp] theorem State.health_datagram (id : BitVec 32) (u : Unacked) : (s.datagram id u).health = s.health := by
  unfold State.datagram
  split
  · rfl
  · split
    · rfl
    · exact State.health_khtSent _ _ _ _

@[simp] theorem State.health_flush (id : BitVec 32) : (s.flush id).health = s.health := by
  unfold State.flush
  split
  · rfl
  · exact State.health_foldl (fun z u => z.health_datagram id u) _ s

@[simp] theorem State.health_sendMsg (id : BitVec 32) (m : OMsg) : (s.sendMsg id m).health = s.health := State.health_flush _ id

@[simp] theorem State.health_enq (key : BitVec 256) (m : OMsg) : (s.enq key m).health = s.health := by
  unfold State.enq
  split
  · rfl
  · dsimp only
    split
    · split <;> rfl
    · rfl

@[simp] theorem State.health_noticeHost (p : Pkg) (kind code device : Nat) (rec : List W64) :
    (s.noticeHost p kind code device rec).health = s.health := by
  unfold State.noticeHost State.originate
  split
  · split
    · exact s.health_sendMsg _ _
    · exact s.health_enq _ _
  · exact s.health_enq _ _

theorem State.health_sendLate (tag cause fault : Nat) : (s.sendLate tag cause fault).health = s.health := by
  unfold State.sendLate
  split
  · rfl
  · split
    · rfl
    · dsimp only
      split
      · split
        · simp
        · simp
      · simp

/-! #### The level (R334) -/

theorem State.health_chrEvent (code level device tensor : Nat) (job : BitVec 16) (step : Nat) :
    (s.chrEvent code level device tensor job step).health = s.health :=
  ((s.record_logged _ _ _).trans (State.logEvent_logged _ _ _ _)).health

theorem State.health_healthFabric (js : List JobCtx) : (s.healthFabric js).health = s.health := by
  induction js generalizing s with
  | nil => rfl
  | cons j js ih =>
    refine (ih _).trans (State.health_foldl (fun z d => ?_) _ s)
    split
    · rfl
    · exact z.health_fabricNotice _ _ _ _ _

theorem State.health_healthHosts (cs : List Conn) : (s.healthHosts cs).health = s.health := by
  induction cs generalizing s with
  | nil => rfl
  | cons c cs ih =>
    refine (ih _).trans ?_
    split
    · exact s.health_sendMsg _ _
    · rfl

/-- A new level restarts the hold of R334, and changes nothing else of the health monitor. -/
theorem State.health_setLevel {l : Nat} (new : l ≠ s.health.level) : (s.setLevel l).health = { s.health with level := l, lowSince := 0 } := by
  rw [State.setLevel, if_neg new, State.health_healthHosts, State.health_healthFabric, State.health_chrEvent, State.bump_health]

end


/-! ### A module that has withdrawn stays so (R335)

What stops as packages are abandoned may meet uncorrectable beats, which score points (Table 13-5), and changes nothing else of the
health monitor. -/

/-- Scratchpads, bytes and correct beats are none of the health monitor. -/
theorem Moved.health {s z : State} {t : Nat} (h : Moved s z t) : z.health = s.health := h.read State.health fun _ _ _ _ _ => rfl

section
variable (s : State)

/-! #### Memory and counts -/

theorem State.health_raiseCount (job : BitVec 16) (i inc src : Nat) : (s.raiseCount job i inc src).2.health = s.health := by
  cases hj : s.job? job with
  | none => simp only [State.raiseCount, hj]
  | some j =>
    cases fault : j.pairFault i inc with
    | none => rw [State.raiseCount_allowed hj fault, State.wakeAll_health, State.updJob_health]
    | some code =>
      rw [State.raiseCount_forbidden hj fault]
      exact ((s.syncFault_logged _ _ _ _ _ _).trans (State.bump_logged _ _ _)).health

theorem State.health_record (base m : Nat) (w : W64 × W64) : (s.record base m w).health = s.health := (s.record_logged base m w).health

theorem State.health_countXlate (c : Nat) : (s.countXlate c).health = s.health := by
  unfold State.countXlate
  split <;> rfl

theorem State.withdrawn_ueEach (finder : Nat) (bs : List Nat) : (s.ueEach finder bs).health.withdrawn = s.health.withdrawn := by
  induction bs generalizing s with
  | nil => rfl
  | cons b bs ih =>
    have scored (z : State) (n : Nat) : (z.points n).health.withdrawn = z.health.withdrawn := rfl
    have found : (s.ueFound b finder).health.withdrawn = s.health.withdrawn := by
      rw [State.ueFound, scored, State.health_record, State.bump_health]
    unfold State.ueEach
    rw [ih]
    exact found

theorem State.withdrawn_ueAll (finder : Nat) (bs : List Nat) : (s.ueAll finder bs).health.withdrawn = s.health.withdrawn := by
  cases bs with
  | nil => rfl
  | cons b bs =>
    have noted (z : State) (x : W64 × W64) : State.health { z with mem := { z.mem with found := x } } = z.health := rfl
    rw [State.ueAll, noted, State.withdrawn_ueEach]

theorem State.withdrawn_writePlaces (ws : List (Place × Byte)) (finder : Nat) :
    (s.writePlaces ws finder).2.health.withdrawn = s.health.withdrawn := by
  have put (z : State) (w : Place × Byte) : (z.putByte w.1 w.2).health = z.health := (Moved.putByte z 0 w.1 w.2).health
  have cleared (z : State) (w : Place × Byte) : State.health (match w.1 with
      | .dram k => { z with mem := { z.mem with poison := Sp.drop z.mem.poison (k / 32) } }
      | .scratch _ _ => z) = z.health := by split <;> rfl
  have written (good : List (Place × Byte)) := (State.health_foldl cleared good _).trans (State.health_foldl put good s)
  unfold State.writePlaces
  dsimp only
  split
  · exact congrArg Health.withdrawn (written _)
  · exact (State.withdrawn_ueAll _ _ _).trans (congrArg Health.withdrawn (written _))

theorem State.withdrawn_writeMem (job : BitVec 16) (o : Origin) (v : Bool) (a : Nat) (bs : List Byte) :
    (s.writeMem job o v a bs).2.health.withdrawn = s.health.withdrawn := by
  unfold State.writeMem
  split
  · rw [State.health_countXlate]
  · exact s.withdrawn_writePlaces _ _

/-! #### Words in progress (R72, R78) -/

theorem State.health_passLeft (t : Nat) (w : EngWord) (r : VRun) (draws batch : Nat) (chain : List ChainBatch) :
    (s.passLeft t w r draws batch chain).s.health = s.health :=
  (Unwritten.countFormats _ 0 _ _).moved.health

theorem State.withdrawn_moveLeft (t : Nat) (v : Bool) (job : BitVec 16) (w : EngWord) (o : MoveOp) (r : MDone) (pos : Nat)
    (held : MHeld) : (s.moveLeft t v job w o r pos held).s.health.withdrawn = s.health.withdrawn := by
  have cleared (z : State) (cov : List Int) : (z.clearBeats t v job o.dst.dram cov).health = z.health :=
    (Unwritten.clearBeats z t t v job o.dst.dram cov).moved.health
  have written : (r.writes.foldl (fun (s : State) w => s.moveWrite t v job o.dst.dram w) s).health = s.health :=
    (Moved.moveWrites s t v job o.dst.dram r.writes).health
  unfold State.moveLeft State.moveFault
  dsimp only
  generalize hz : (if o.kind = 3 then _ else _) = z
  have kept : z.health = s.health := by
    subst hz
    split
    · exact written
    · exact (State.health_foldl cleared r.covers _).trans written
  have counted (x : State) (old new : Tally) (range narrow : Nat) : ((x.countFormats old new).countMove range narrow).health = x.health :=
    ((Unwritten.countFormats x 0 old new).trans (Unwritten.countMove _ 0 range narrow)).moved.health
  split
  · rw [State.withdrawn_ueAll, State.health_countXlate, counted, State.setTile_health, kept]
  · rw [counted, State.setTile_health, kept]

theorem State.withdrawn_writeRecord (t : Nat) (v : Bool) (c : Ctx) (off dest raise : Nat) (bs : List Byte) :
    (s.writeRecord t v c off dest raise bs).s.health.withdrawn = s.health.withdrawn := by
  have written {f : Option Nat} {z : State} (e : s.writeMem c.job .tile v dest bs = (f, z)) : z.health.withdrawn = s.health.withdrawn := by
    rw [← s.withdrawn_writeMem c.job .tile v dest bs, e]
  unfold State.writeRecord
  dsimp only
  generalize (_ || _) = here
  split
  · split
    · next e => exact written e
    · next z e =>
      split
      · exact (congrArg Health.withdrawn (z.health_raiseCount c.job _ 1 _)).trans (written e)
      · exact written e
  · exact congrArg Health.withdrawn (State.health_sendAll _ _)

theorem State.withdrawn_runRecs (t : Nat) (v : Bool) (c : Ctx) (w : EngWord) (n : Nat) :
    (s.runRecs t v c w n).s.health.withdrawn = s.health.withdrawn := by
  unfold State.runRecs
  split
  · rfl
  · rfl
  · dsimp only
    split
    · rfl
    · exact s.withdrawn_writeRecord t v c _ _ _ _

theorem State.withdrawn_runWord (t : Nat) (v : Bool) (c : Ctx) (w : EngWord) (n : Nat) :
    (s.runWord t v c w n).s.health.withdrawn = s.health.withdrawn := by
  have counted (z : State) (old new : Tally) : (z.countFormats old new).health = z.health := (Unwritten.countFormats z 0 old new).moved.health
  unfold State.runWord
  split
  · exact congrArg Health.withdrawn (counted _ _ _)
  · exact congrArg Health.withdrawn (counted _ _ _)
  · exact congrArg Health.withdrawn (s.health_passLeft _ _ _ _ _ _)
  · exact s.withdrawn_moveLeft _ _ _ _ _ _ _ _
  · exact s.withdrawn_runRecs _ _ _ _ _
  · exact s.withdrawn_runRecs _ _ _ _ _
  · rfl

theorem State.withdrawn_stopWord (t : Nat) (v : Bool) (c : Ctx) (w : EngWord) :
    (s.stopWord t v c w).s.health.withdrawn = s.health.withdrawn := by
  unfold State.stopWord
  dsimp only
  split
  · exact congrArg Health.withdrawn (s.drawn.health_passLeft _ _ _ _ _ _)
  · exact s.drawn.withdrawn_moveLeft _ _ _ _ _ _ _ _
  · exact s.drawn.withdrawn_runWord _ _ _ _ _

theorem State.withdrawn_stopFrom (t : Nat) (v : Bool) (c : Ctx) (k : Nat) (ws : List EngWord) :
    (State.stopFrom t v c k ws s).1.health.withdrawn = s.health.withdrawn := by
  induction ws generalizing s k with
  | nil => rfl
  | cons w ws ih =>
    unfold State.stopFrom
    split
    · dsimp only
      split
      · exact (ih _ _).trans (s.withdrawn_stopWord t v c w)
      · exact (ih _ _).trans (s.withdrawn_stopWord t v c w)
    · exact ih _ _

theorem State.health_noteFaults (t : Nat) (c : Ctx) (fs : List (Nat × BitVec 32)) : (s.noteFaults t c fs).health = s.health := by
  induction fs generalizing s with
  | nil => rfl
  | cons f fs ih => exact (ih _).trans ((s.record_logged _ _ _).trans (State.logAs_logged _ _ _ _ _)).health

theorem State.withdrawn_haltCtx (tag t : Nat) (v : Bool) : (s.haltCtx tag t v).health.withdrawn = s.health.withdrawn := by
  unfold State.haltCtx
  split
  · rfl
  · split
    · dsimp only
      split
      · rw [State.health_noteFaults, State.withdrawn_stopFrom, State.health_recall]
      · rw [State.health_recall]
    · rfl

theorem State.withdrawn_haltTag (tag : Nat) (ts : List Nat) : (s.haltTag tag ts).health.withdrawn = s.health.withdrawn := by
  induction ts generalizing s with
  | nil => rfl
  | cons t ts ih => rw [State.haltTag, ih, State.withdrawn_haltCtx, State.withdrawn_haltCtx]

/-! #### The end of packages (R78, R335) -/

theorem State.health_dropTag (tag : Nat) (ts : List Nat) : (s.dropTag tag ts).health = s.health := by
  induction ts generalizing s with
  | nil => rfl
  | cons t ts ih => exact ih _

theorem State.health_removePkg (g : Nat) : (s.removePkg g).health = s.health := by
  unfold State.removePkg
  split
  · rfl
  · dsimp only
    split <;> rfl

theorem State.withdrawn_abandon (g code tile kernel index : Nat) (hw : Bool) :
    (s.abandon g code tile kernel index hw).health.withdrawn = s.health.withdrawn := by
  unfold State.abandon
  split
  · rfl
  · dsimp only
    rw [State.health_removePkg]
    generalize hz : State.noticeHost _ _ _ _ _ _ = z
    have told : z.health.withdrawn = s.health.withdrawn := by
      subst hz
      rw [State.health_noticeHost, State.bump_health, State.bump_health]
      dsimp only
      rw [State.wakeAll_health, State.health_dropTag, State.withdrawn_haltTag]
    generalize hy : (if hw then _ else z) = y
    have late : y.health.withdrawn = s.health.withdrawn := by
      subst hy
      split
      · exact (congrArg Health.withdrawn (z.health_sendLate _ _ _)).trans told
      · exact told
    split
    · split
      · exact late
      · exact (congrArg Health.withdrawn (y.health_fabricNotice _ _ _ _ _)).trans late
    · exact late

theorem State.withdrawn_abandonAll (code tile : Nat) (hw : Bool) (gs : List Nat) :
    (s.abandonAll code tile hw gs).health.withdrawn = s.health.withdrawn := by
  induction gs generalizing s with
  | nil => rfl
  | cons g gs ih => exact (ih _).trans (s.withdrawn_abandon g code tile 0 0 hw)

theorem State.withdrawn_setLevel (l : Nat) : (s.setLevel l).health.withdrawn = s.health.withdrawn := by
  by_cases same : l = s.health.level
  · rw [State.setLevel, if_pos same]
  · rw [s.health_setLevel same]

/-- A module that withdraws has withdrawn. -/
theorem State.withdraw_withdrawn : s.withdraw.health.withdrawn = true := by
  unfold State.withdraw
  split
  · assumption
  · dsimp only
    rw [State.withdrawn_abandonAll, State.health_chrEvent]
    exact State.withdrawn_setLevel _ 2

end

/-! ### HEALTH_TICK (R333, R334) -/

section
variable {s : State}

/-- The level that follows the score leaves the score and the points of the second. -/
theorem State.followScore_kept (s : State) :
    s.followScore.core = s.core ∧ s.followScore.health.points = s.health.points ∧ s.followScore.health.score = s.health.score := by
  have level (l : Nat) : (s.setLevel l).core = s.core ∧ (s.setLevel l).health.points = s.health.points ∧
      (s.setLevel l).health.score = s.health.score := by
    refine ⟨s.core_setLevel l, ?_⟩
    by_cases same : l = s.health.level
    · rw [State.setLevel, if_pos same]
      exact ⟨rfl, rfl⟩
    · rw [s.health_setLevel same]
      exact ⟨rfl, rfl⟩
  have low (n : Nat) : State.core { s with health := { s.health with lowSince := n } } = s.core := rfl
  unfold State.followScore
  dsimp only
  generalize (if reaches _ _ = true then _ else _ : Nat) = up
  generalize (_ && FV.lt _ _) = below
  split
  · exact level _
  · split
    · exact ⟨low 0, rfl, rfl⟩
    · split
      · exact ⟨low _, rfl, rfl⟩
      · split
        · exact level _
        · exact ⟨rfl, rfl, rfl⟩

/-- A new second begins with a score, and with where corrected errors and retry events count from (R333). -/
def State.scored (s : State) (score : BitVec 32) (base : W64 × W64) : State :=
  { s with health := { s.health with score := score, points := 0, base := base } }

/-- A score that the level has followed is kept, and the new second has no points. -/
theorem State.followScore_scored (s : State) (score : BitVec 32) (base : W64 × W64) :
    (s.scored score base).followScore.core = s.core ∧ (s.scored score base).followScore.health.points = 0 ∧
      (s.scored score base).followScore.health.score = score :=
  (s.scored score base).followScore_kept

/-- The points of the second that ends: those noted, corrected errors, retry events and hot sensors (Table 13-5). -/
def State.secondPoints (s : State) : Nat :=
  s.health.points + (s.word 0x1010 - s.health.base.1).toNat / 65536 + (s.retryEvents - s.health.base.2).toNat / 1024 + s.hotPoints

/-- Where the next second's corrected errors and retry events count from: what made no whole point is left to it. -/
def State.nextBase (s : State) : W64 × W64 :=
  (s.health.base.1 + BitVec.ofNat 64 ((s.word 0x1010 - s.health.base.1).toNat / 65536 * 65536),
    s.health.base.2 + BitVec.ofNat 64 ((s.retryEvents - s.health.base.2).toNat / 1024 * 1024))

theorem exec_healthTick_runs (runs : s.alive = true) : exec .healthTick s =
    .next (s.scored (nextScore s.health.score s.cfg.riskHalfLife s.secondPoints) s.nextBase).followScore := by
  change execHealthTick s = _
  rw [execHealthTick, runs, Bool.not_true, if_neg Bool.false_ne_true, State.scored, State.secondPoints, State.nextBase]

theorem exec_healthTick_stands (still : s.alive = false) : exec .healthTick s = .next s := by
  change execHealthTick s = _
  rw [execHealthTick, still, Bool.not_false, if_pos rfl]

end

end Sys2Proof.Machine
end

section
/-!
Chrysalis (R326 to R332, R339 to R344): what GENERATION_PREPARE to GENERATION_PROMOTE, the restore commands and the commands of
evaluation windows do, a theorem for each case of their guards.
-/
namespace Sys2Proof.Machine

/-! ### Evaluation windows (R343, R344) -/

section
variable {s : State} {job : BitVec 16} {j : JobCtx}

/-- Streams that return write tiles only. -/
theorem State.returnStreams_eq (s : State) (xs : List (Nat × BitVec 128 × BitVec 128)) :
    s.returnStreams xs = { s with tiles := (s.returnStreams xs).tiles } := by
  induction xs generalizing s with
  | nil => rfl
  | cons x xs ih =>
    obtain ⟨t, k, c⟩ := x
    exact ih (s.setTile t { s.tile t with streamK := k, streamC := c })

/-- A window that closes is counted; of the rest, the list of windows and, where it opened last, the streams change. -/
theorem State.closeWindow_of_window {e : EvalWin} (held : s.window? job = some e) : s.closeWindow job =
    State.bump { s with tiles := if s.lastWindow job then (s.returnStreams e.saved).tiles else s.tiles,
                        eval := leftWindows job e.saved s.eval } 0x6058 1 := by
  simp only [State.closeWindow, held]
  cases s.lastWindow job with
  | false => rfl
  | true => rw [if_pos rfl, if_pos rfl, s.returnStreams_eq e.saved]

/-- The only window that is open is the one that opened last, and none is left. -/
theorem State.closeWindow_only {e : EvalWin} (held : s.window? job = some e) (only : s.eval = [e]) :
    (s.closeWindow job).eval = [] ∧ (s.closeWindow job).tiles = (s.returnStreams e.saved).tiles := by
  have named : e.job = job := eq_of_beq (List.find?_some held :)
  have last : s.lastWindow job = true := by rw [State.lastWindow, only]; exact beq_iff_eq.mpr named
  rw [State.closeWindow_of_window held, last, only, leftWindows, if_pos named]
  exact ⟨rfl, rfl⟩

theorem exec_evalWindowOpen_again (hj : s.job? job = some j) (opened : s.windowOpen job = true) :
    exec (.evalWindowOpen job) s = .next s := by
  change execEvalWindowOpen job s = _
  simp only [execEvalWindowOpen, hj, opened, if_true]

theorem exec_evalWindowOpen_plain (hj : s.job? job = some j) (shut : s.windowOpen job = false) (plain : j.chrys = none)
    (head : s.evalHead job = true) :
    exec (.evalWindowOpen job) s = .next { s with eval := s.eval ++ [⟨job, s.savedStreams, s.now, false⟩] } := by
  change execEvalWindowOpen job s = _
  simp only [execEvalWindowOpen, hj, shut, plain, head, Bool.false_eq_true, if_false, if_true]

/-- An export of a job whose snapshot is not taken (R344). -/
def State.waitingImago (s : State) (job : BitVec 16) : Option ImagoReq := s.imagos.find? fun q => q.job == job && q.last.isNone

/-- Is a window due that the schedule names for the step, and that has not opened yet (R343)? -/
def WindowScheduled (j : JobCtx) (c : Chrys) : Prop := c.evalEvery ≠ 0 ∧ j.step % c.evalEvery = 0 ∧ c.evalStep ≠ j.step + 1

theorem exec_evalWindowOpen_opens {c : Chrys} (hj : s.job? job = some j) (shut : s.windowOpen job = false) (hc : j.chrys = some c)
    (due : s.betweenSteps j c = true ∧ (WindowScheduled j c ∨ (s.waitingImago job).isSome = true) ∨ s.evalHead job = true) :
    exec (.evalWindowOpen job) s = .next (s.openWindow j c (s.waitingImago job)) := by
  change execEvalWindowOpen job s = _
  simp only [execEvalWindowOpen, hj, shut, hc, Bool.false_eq_true, if_false]
  refine if_pos ?_
  simpa only [Bool.or_eq_true, Bool.and_eq_true, bne_iff_ne, beq_iff_eq, and_assoc, WindowScheduled, State.waitingImago] using due

theorem exec_evalWindowOpen_waits {c : Chrys} (hj : s.job? job = some j) (shut : s.windowOpen job = false) (hc : j.chrys = some c)
    (within : s.betweenSteps j c = false) (behind : s.evalHead job = false) : exec (.evalWindowOpen job) s = .next s := by
  change execEvalWindowOpen job s = _
  simp only [execEvalWindowOpen, hj, shut, hc, within, behind, Bool.false_and, Bool.or_self, Bool.false_eq_true, if_false]

section
variable {e : EvalWin} (held : s.window? job = some e)
include held

theorem exec_evalWindowClose_held (holds : s.holdsEval job = true) : exec (.evalWindowClose job) s = .next s := by
  change execEvalWindowClose job s = _
  simp only [execEvalWindowClose, held, holds, if_true]

theorem exec_evalWindowClose_ended (ended : s.holdsEval job = false) (plain : e.imago = false) :
    exec (.evalWindowClose job) s = .next (s.closeWindow job) := by
  change execEvalWindowClose job s = _
  simp only [execEvalWindowClose, held, ended, plain, Bool.not_false, Bool.false_eq_true, if_false, if_true]

/-- The limit of a window has passed: its packages are abandoned, and it closes (R343). -/
theorem exec_evalWindowOverrun_late (hj : s.job? job = some j) (plain : e.imago = false)
    (late : s.passed e.openedAt (s.cfg.evalLimit * 1000000000) = true) :
    exec (.evalWindowOverrun job) s =
      let z := s.chrEvent 0x6401 s.health.level s.hall 0 job j.step
      .next ((z.abandonAll 0x6401 0x3FF false ((z.pkgs.filter fun p => p.job == job && p.kind == 2).map (·.tag))).closeWindow job) := by
  change execEvalWindowOverrun job s = _
  simp only [execEvalWindowOverrun, held, hj, plain, late, Bool.not_true, Bool.false_eq_true, or_self, if_false]

theorem exec_evalWindowOverrun_early (early : e.imago = true ∨ s.passed e.openedAt (s.cfg.evalLimit * 1000000000) = false) :
    exec (.evalWindowOverrun job) s = .next s := by
  change execEvalWindowOverrun job s = _
  simp only [execEvalWindowOverrun, held]
  exact if_pos (early.imp id fun h => by rw [h, Bool.not_false])

end

end

/-! ### Generations (R328, R329, R332) -/

section
variable {s : State} {job : BitVec 16} {j : JobCtx} {c : Chrys}

theorem exec_generationPrepare_begins (hj : (s.settleNorms job).job? job = some j) (hc : j.chrys = some c) {n : Nat}
    (idle : c.preparing = none) (due : c.pendingStep = some n) (may : (s.settleNorms job).mayPrepare j c n = true) :
    exec (.generationPrepare job) s = .next ((s.settleNorms job).prepare j c n) := by
  change execGenerationPrepare job s = _
  simp only [execGenerationPrepare, hj, hc, idle, due, may, if_true]

theorem exec_generationPrepare_pumps (hj : (s.settleNorms job).job? job = some j) (hc : j.chrys = some c)
    (preparing : c.preparing.isSome = true) : exec (.generationPrepare job) s = .next ((s.settleNorms job).pump job) := by
  obtain ⟨n, hn⟩ := Option.isSome_iff_exists.mp preparing
  change execGenerationPrepare job s = _
  simp only [execGenerationPrepare, hj, hc, hn]

section
variable (hj : s.job? job = some j) (hc : j.chrys = some c)
include hj hc

/-- Every bitmap of the generation has come to this holder (R329). -/
theorem exec_parityFold_folds (preparing : c.preparing.isSome = true) (unfolded : c.folded = false)
    (holds : (c.tensors.filter fun t => !t.mirror) ≠ [])
    (come : 7 * (c.tensors.filter fun t => !t.mirror).length ≤ j.rise (c.secureCount + 5)) :
    let ts := c.tensors.filter fun t => !t.mirror
    let reads := ts.flatMap fun t => t.others.flatMap (s.foldReads j c t)
    let z := (((s.bitmapReads job ts).copySlots job c ts).bump 0x6030 (reads.length / 2)).note job [c.secureCount + 5]
    exec (.parityFold job) s =
      .next (((z.updChrys job fun c => { c with folded := true, toRead := c.toRead ++ reads }).pump job).reportPrepared job) := by
  obtain ⟨n, hn⟩ := Option.isSome_iff_exists.mp preparing
  change execParityFold job s = _
  simp only [execParityFold, hj, hc, hn, unfolded, Option.isNone_some, Bool.or_self, List.isEmpty_eq_false_iff.mpr holds,
    decide_eq_false (Nat.not_lt.mpr come), Bool.false_eq_true, if_false]

/-- VERDICT_DEVICE has heard that every device is prepared (R332). -/
theorem exec_generationCommit_commits {g : GradBlock} (hg : j.grad = some g) (plays : s.deviceOf j = g.verdictDevice)
    (prepared : j.rise (c.secureCount + 3) = j.devices) :
    exec (.generationCommit job) s =
      .next ((s.signalAll job (c.secureCount + 4) 1 (s.jobDevices j)).note job [c.secureCount + 3]) := by
  change execGenerationCommit job s = _
  simp only [execGenerationCommit, hj, hc, hg, plays, prepared, ne_eq, not_true_eq_false, or_self, if_false]

/-- The commit has come (R332); a verdict of a later step may make the next generation due (R331). -/
theorem exec_generationPromote_promotes {n : Nat} (preparing : c.preparing = some n) (come : j.rise (c.secureCount + 4) ≠ 0) :
    let z := (s.promote job).note job [c.secureCount + 4]
    let m := j.step - bit j.verdict.isNone
    exec (.generationPromote job) s = .next (if n < m then z.dueAfter job m else z) := by
  change execGenerationPromote job s = _
  simp only [execGenerationPromote, hj, hc, preparing, come, if_false]

end

end

/-! ### Restore (R339 to R342) -/

/-- An update of a Chrysalis block is what it makes of that block. -/
theorem State.updChrys_congr {s : State} {job : BitVec 16} {j : JobCtx} {c : Chrys} {f g : Chrys → Chrys} (hj : s.job? job = some j)
    (hc : j.chrys = some c) (same : f c = g c) : s.updChrys job f = s.updChrys job g := by
  refine State.updJob_congr hj ?_
  rw [hc, Option.map_some, Option.map_some, same]

/-- The restore package of a job is held with the job's own context and its Chrysalis block. -/
theorem State.job?_of_restoreOf {s : State} {job : BitVec 16} {p : Pkg} {r : Restore} {j : JobCtx} {c : Chrys}
    (running : s.restoreOf job = some (p, r, j, c)) : s.job? job = some j ∧ j.chrys = some c := by
  unfold State.restoreOf at running
  split at running
  · cases running
  · split at running
    · next hj =>
      obtain ⟨x, hc, same⟩ := Option.map_eq_some_iff.mp running
      cases same
      exact ⟨hj, hc⟩
    · cases running

/-- May the refill begin: at a spare once g has come, at a survivor once it has applied it (R340)? -/
def State.mayRefill (s : State) (r : Restore) (j : JobCtx) (c : Chrys) : Bool :=
  if r.isLost (s.deviceOf j) then decide (r.stage ≤ 1) && j.rise (c.secureCount + 1) != 0 else r.stage == 2

/-- From stage 3 on the refill has begun. -/
theorem State.mayRefill_of_begun {s : State} {r : Restore} {j : JobCtx} {c : Chrys} (begun : 3 ≤ r.stage) : s.mayRefill r j c = false := by
  have spare : decide (r.stage ≤ 1) = false := decide_eq_false (by omega)
  have survivor : (r.stage == 2) = false := beq_false_of_ne (by omega)
  rw [State.mayRefill, spare, survivor, Bool.false_and, ite_self]

/-- What the second half of the refill writes at other devices (R340). -/
def State.refillWrites (s : State) (r : Restore) (j : JobCtx) (c : Chrys) : List CopyOut :=
  if r.isLost (s.deviceOf j) then mirrorWrites r j c (s.sentGen r j) else c.tensors.flatMap (holderWrites r j (s.sentGen r j))

section
variable {s : State} {job : BitVec 16} {p : Pkg} {r : Restore} {j : JobCtx} {c : Chrys} (running : s.restoreOf job = some (p, r, j, c))
include running

/-- Every survivor has reported: the best report goes to every device (R339). -/
theorem exec_restoreGather_sends (coordinates : s.deviceOf j = r.coordinator) (first : r.stage = 0)
    (reported : j.devices - r.lost.length ≤ j.rise c.secureCount) :
    let x := best (s.reports r j)
    let out (d : Nat) : CopyOut :=
      ⟨j.hallOf d, atDevice (r.report.toNat + 16 * d) d, 0, 16, leBytes 8 x.1 ++ leBytes 8 x.2, some (c.secureCount + 1 + d * 2 ^ 12 + 2 ^ 31)⟩
    exec (.restoreGather job) s = .next
      (((((s.looked job r.report.toNat (16 * j.devices)).setStage p.tag 1).note job [c.secureCount]).updChrys job fun c =>
        { c with toSend := c.toSend ++ (s.jobDevices j).map out }).pump job) := by
  change execRestoreGather job s = _
  simp only [execRestoreGather, running, coordinates, first, ne_eq, not_true_eq_false, Nat.not_lt.mpr reported, or_self, if_false]

/-- A survivor to which g has come applies it (R339). -/
theorem exec_restoreApply_reverts (survives : r.isLost (s.deviceOf j) = false) (early : r.stage < 2)
    (come : j.rise (c.secureCount + 1) ≠ 0) :
    let z := s.looked job (s.sentAt r j) 16
    let y := if (c.gen + 1).toNat = s.sentGen r j ∧ c.preparing.isSome ∧ c.prepared then z.promote job else z
    exec (.restoreApply job) s = .next ((((y.revert job c.tensors).updChrys job fun c =>
      { c with preparing := none, pendingStep := none, folded := false, prepared := false }).note job [c.secureCount + 1]).setStage p.tag 2) := by
  change execRestoreApply job s = _
  simp only [execRestoreApply, running, survives, decide_eq_false (Nat.not_le.mpr early), beq_false_of_ne come, Bool.or_self,
    Bool.false_eq_true, if_false]

theorem exec_spareRefill_begins (may : s.mayRefill r j c = true) : exec (.spareRefill job) s = .next (s.refillReads p r j c) := by
  have guard := may
  unfold State.mayRefill at guard
  change execSpareRefill job s = _
  simp only [execSpareRefill, running, guard, if_true]

/-- The first half has been answered; what is written is the held block's to say. -/
theorem exec_spareRefill_writes (third : r.stage = 3) (answered : c.quiet = true) : exec (.spareRefill job) s =
    .next ((((s.looked job (s.sentAt r j) 16).updChrys job fun x => { x with toSend := s.refillWrites r j x }).setStage p.tag 4).pump job) := by
  obtain ⟨hj, hc⟩ := State.job?_of_restoreOf running
  have held : (s.looked job (s.sentAt r j) 16).job? job = some j := (State.job?_congr (s.jobs_looked _ _ _) job).trans hj
  have guard : s.mayRefill r j c = false := State.mayRefill_of_begun (by omega)
  have own : ((s.looked job (s.sentAt r j) 16).updChrys job fun x => { x with toSend := s.refillWrites r j x }) =
      (s.looked job (s.sentAt r j) 16).updChrys job fun x => { x with toSend := s.refillWrites r j c } :=
    State.updChrys_congr held hc rfl
  unfold State.mayRefill at guard
  change execSpareRefill job s = _
  rw [own]
  simp only [execSpareRefill, running, guard, Bool.false_eq_true, if_false]
  simp only [third, answered, State.refillWrites, Bool.not_true, Bool.false_eq_true, true_or, if_true, if_false]

/-- The second half has been answered. -/
theorem exec_spareRefill_ends (fourth : r.stage = 4) (answered : c.quiet = true) : exec (.spareRefill job) s =
    let lost := lostTensors r c (s.deviceOf j)
    .next (if lost.isEmpty then s.setStage p.tag 5
      else ((s.looked job (c.slot 2) 8).recordLosses job (s.peekWord job (c.slot 2)) lost).abandon p.tag 0x6302 0x3FF 0 0 false) := by
  have guard : s.mayRefill r j c = false := State.mayRefill_of_begun (by omega)
  unfold State.mayRefill at guard
  change execSpareRefill job s = _
  simp only [execSpareRefill, running, guard, Bool.false_eq_true, if_false]
  simp only [fourth, answered, Bool.not_true, Bool.false_eq_true, if_true, if_false, or_true, Nat.reduceEqDiff]
  exact (apply_ite Host.Outcome.next _ _ _).symm

theorem exec_restoreReload_loads (refilled : r.stage = 5) : exec (.restoreReload job) s = .next ((s.loadRecord j c).setStage p.tag 6) := by
  change execRestoreReload job s = _
  simp only [execRestoreReload, running, refilled, Nat.reduceEqDiff, ne_eq, not_true_eq_false, if_false]

theorem exec_restoreReload_ends (loaded : r.stage = 6) :
    exec (.restoreReload job) s = .next (if s.tasksDone p then s.restoreEnds p else s) := by
  change execRestoreReload job s = _
  simp only [execRestoreReload, running, loaded, if_true]
  exact (apply_ite Host.Outcome.next _ _ _).symm

end

end Sys2Proof.Machine

/-! ### The obligations on Chrysalis -/

section
open Sys2Proof Sys2Proof.Machine

/-- Settles O51: what each guard asks is what its clause names. -/
theorem generations : Obligations.Generations := by
  refine ⟨fun s job j c hj hc => ⟨fun n idle due quiet ended whole => ?begins, exec_generationPrepare_pumps hj hc⟩,
    fun s job j c hj hc => ⟨exec_parityFold_folds hj hc, fun g => exec_generationCommit_commits hj hc,
      fun n => exec_generationPromote_promotes hj hc⟩⟩
  case begins =>
    have may : (s.settleNorms job).mayPrepare j c n = true := by
      rw [State.mayPrepare, quiet, ended, bne_iff_ne.mpr whole, Bool.and_self, Bool.and_self]
    exact exec_generationPrepare_begins hj hc idle due may

/-- Settles O52: the stage of the restore and what has come choose the case of each command. -/
theorem restoreCommands : Obligations.RestoreCommands := by
  refine fun s job p r j c running => ⟨exec_restoreGather_sends running, exec_restoreApply_reverts running, exec_spareRefill_begins running,
    exec_spareRefill_writes running, fun fourth answered => ⟨fun whole => ?_, fun lost => ?_⟩, exec_restoreReload_loads running,
    fun loaded tasks => ?_, fun loaded done => ?_⟩
  · rw [exec_spareRefill_ends running fourth answered, whole]
    rfl
  · exact (exec_spareRefill_ends running fourth answered).trans (congrArg Host.Outcome.next (if_neg (mt List.isEmpty_iff.mp lost)))
  · rw [exec_restoreReload_ends running loaded, tasks, if_neg Bool.false_ne_true]
  · rw [exec_restoreReload_ends running loaded, done, if_pos rfl]
    rfl

/-- Settles O53: a second that ends leaves a score that the level follows; a module that withdraws stays so while its packages are
abandoned; each window command's guard is what its clause names. -/
theorem healthAndWindows : Obligations.HealthAndWindows := by
  refine ⟨fun s d => ⟨fun runs => ?tick, exec_healthTick_stands, ⟨_, rfl, rfl, s.withdraw_withdrawn⟩⟩,
    fun s job j hj => ⟨exec_evalWindowOpen_again hj, exec_evalWindowOpen_plain hj,
      fun c shut hc => ⟨exec_evalWindowOpen_opens hj shut hc, exec_evalWindowOpen_waits hj shut hc⟩,
      fun e held => ⟨exec_evalWindowClose_held held, fun ended plain => ?closes, exec_evalWindowOverrun_late held hj,
        exec_evalWindowOverrun_early held⟩⟩⟩
  case tick =>
    obtain ⟨core, points, score⟩ := s.followScore_scored (nextScore s.health.score s.cfg.riskHalfLife s.secondPoints) s.nextBase
    exact ⟨_, exec_healthTick_runs runs, points, State.mem_of_core core, State.tiles_of_core core, score⟩
  case closes =>
    refine ⟨_, exec_evalWindowClose_ended held ended plain, rfl, ?_, ?_, ?_, State.closeWindow_only held⟩
    · rw [State.closeWindow_of_window held, State.bump_mem]
    · rw [State.closeWindow_of_window held, State.bump_jobs]
    · rw [State.closeWindow_of_window held, State.word_bump_self]
      rfl

end
end

section
/-!
What every command keeps, and that every well-formed command takes effect: one lemma for each command, and from them the statements
about every step (R427, R482; logs 17, 50 and 51).
-/
namespace Sys2Proof.Machine

set_option Elab.async false

open State

/-! ### The form of the lemmas

A command that has a next state in every state is shown to lead to one that keeps what `Keeps` names; one that refuses ill-formed
operands is shown to keep it, and to take effect where it is well formed. -/

/-- A command's outcome keeps what `Keeps` names, and is a next state where the command is well formed. -/
def Moves (s : State) (wf : Bool) (o : Host.Outcome State Fault Refusal) : Prop :=
  KeepsO s o ∧ (wf = true → ∃ t, o = .next t)

theorem Keeps.leads {s t : State} (h : Keeps s t) : leads (.next t) (Keeps s) := ⟨t, rfl, h⟩

theorem moves_of_leads {s : State} {o : Host.Outcome State Fault Refusal} {wf : Bool} (h : leads o (Keeps s)) : Moves s wf o := by
  obtain ⟨t, rfl, k⟩ := h
  exact ⟨k.outNext, fun _ => ⟨t, rfl⟩⟩

theorem leads_ite {P : State → Prop} {a b : Host.Outcome State Fault Refusal} {c : Prop} [Decidable c] (h : leads a P) (g : leads b P) :
    leads (if c then a else b) P := by
  split <;> assumption

theorem leads_if {s t u : State} {c : Prop} [Decidable c] (h : Keeps s t) (g : Keeps s u) :
    leads (if c then .next t else .next u) (Keeps s) := leads_ite h.leads g.leads

/-! ### Tile words -/

theorem opcodeOf_toNat (w : BitVec 128) : opcodeOf w.toNat = wordOpcode w := by
  have bound : w.toNat / 2 ^ 120 < 2 ^ 8 := Nat.div_lt_of_lt_mul (by simpa using w.isLt)
  rw [opcodeOf, fld, Nat.shiftRight_eq_div_pow, Nat.mod_eq_of_lt bound, wordOpcode]

theorem opcodeOk_iff (n : Nat) : opcodeOk n = tableOpcodes.contains n := by
  rw [Bool.eq_iff_iff]
  simp only [opcodeOk, tableOpcodes, List.contains_iff_mem, List.mem_cons, List.not_mem_nil, or_false, Bool.or_eq_true, decide_eq_true_eq, beq_iff_eq]
  omega

/-- A word that a command may carry is of the command's opcode or of none of the table. -/
theorem wordFor_opcode {op : Nat} {w : BitVec 128} (h : wordFor op w = true) :
    opcodeOk (opcodeOf w.toNat) = false ∨ ofOpcode op w.toNat = true := by
  rw [opcodeOk_iff, ofOpcode, opcodeOf_toNat]
  simpa [wordFor, or_comm] using h

theorem wordForMove_opcode {k : Nat} {w : BitVec 128} (h : wordForMove k w = true) :
    opcodeOk (opcodeOf w.toNat) = false ∨ ofMove k w.toNat = true := by
  unfold wordForMove at h
  split at h
  next move =>
    right
    rw [ofMove, opcodeOf_toNat, move, fld, Nat.shiftRight_eq_div_pow]
    have kind : wordKind w = k ∨ 4 ≤ wordKind w := by simpa using h
    simpa [wordKind] using kind
  next other =>
    left
    refine (wordFor_opcode h).resolve_right fun e => other ?_
    rwa [ofOpcode, beq_iff_eq, opcodeOf_toNat] at e

/-- The command of a word keeps what its meaning keeps. -/
theorem issue_keeps {mine : Nat → Bool} {act : Ctx → Nat → State → WordRes} {t : TileId} {v : Bool} {w : BitVec 128} {s : State}
    (h : ∀ c x z, Keeps s z → KeepsW s (act c x z)) : KeepsO s (issue mine act t v w s) := by
  unfold issue
  split
  · exact Keeps.outRef
  · split
    · exact Keeps.refl.outNext
    · split
      · exact Keeps.refl.outNext
      · split
        · next e => exact (faultTask_keeps (fetch_keeps2 e .refl)).outNext
        · next e =>
          have k := fetch_keeps2 e Keeps.refl
          split
          · exact (issueWord_keeps k (h _ _ _ k)).outNext
          · exact Keeps.refl.outNext

theorem issue_moves {op : Nat} {act : Ctx → Nat → State → WordRes} {t : TileId} {v : Bool} {w : BitVec 128} {s : State}
    (h : ∀ c x z, Keeps s z → KeepsW s (act c x z)) : Moves s (wordFor op w) (issue (ofOpcode op) act t v w s) :=
  ⟨issue_keeps h, fun wf => issue_next s (wordFor_opcode wf)⟩

theorem issue_move_moves {k : Nat} {act : Ctx → Nat → State → WordRes} {t : TileId} {v : Bool} {w : BitVec 128} {s : State}
    (h : ∀ c x z, Keeps s z → KeepsW s (act c x z)) : Moves s (wordForMove k w) (issue (ofMove k) act t v w s) :=
  ⟨issue_keeps h, fun wf => issue_next s (wordForMove_opcode wf)⟩

/-! ### Tiles -/

theorem execEngineWordComplete_keeps (t : TileId) (v : Bool) (e : Fin 4) (waves : Nat) (s : State) :
    leads (execEngineWordComplete t v e waves s) (Keeps s) := by
  have k : Keeps s (s.beginWords t.val v) := beginWords_keeps .refl
  dsimp only [execEngineWordComplete]
  repeat' split
  · exact Keeps.refl.leads
  · exact k.leads
  · exact k.leads
  · exact (beginWords_keeps (completeWord_keeps k)).leads

theorem execTaskTake_keeps (t : TileId) (s : State) : leads (execTaskTake t s) (Keeps s) := by
  dsimp only [execTaskTake]
  repeat' split
  · exact Keeps.refl.leads
  · exact Keeps.refl.leads
  · exact (startTask_keeps .refl).leads
  · exact Keeps.refl.leads
  · exact Keeps.refl.leads
  · exact (startTask_keeps .refl).leads

theorem execStealProbe_keeps (t : TileId) (s : State) : leads (execStealProbe t s) (Keeps s) := by
  dsimp only [execStealProbe]
  repeat' split
  · exact Keeps.refl.leads
  · exact (steal_keeps .refl).leads
  · exact (bump_keeps (setTile_keeps .refl)).leads

theorem execProbeServe_keeps (victim thief : TileId) (s : State) : leads (execProbeServe victim thief s) (Keeps s) := by
  dsimp only [execProbeServe]
  repeat' split
  · exact Keeps.refl.leads
  · exact (steal_keeps .refl).leads
  · exact Keeps.refl.leads
  · exact Keeps.refl.leads

theorem execVesperSuspend_keeps (t : TileId) (s : State) : leads (execVesperSuspend t s) (Keeps s) :=
  leads_if (suspendNoon_keeps .refl) .refl

theorem execNoonResume_keeps (t : TileId) (s : State) : leads (execNoonResume t s) (Keeps s) :=
  leads_if (beginWords_keeps (wake_keeps (setTile_keeps .refl))) .refl

theorem execSuspendOverrun_keeps (t : TileId) (s : State) : leads (execSuspendOverrun t s) (Keeps s) :=
  leads_if (isolate_keeps .refl) .refl

theorem execRetentionWakeFailure_keeps (t : TileId) (s : State) : leads (execRetentionWakeFailure t s) (Keeps s) :=
  leads_if (isolate_keeps .refl) .refl

theorem execWakeWire_keeps (t : TileId) (wire : Fin 6) (s : State) : leads (execWakeWire t wire s) (Keeps s) :=
  leads_if .refl (wake_keeps .refl)

theorem execRetentionEntry_keeps (t : TileId) (s : State) : leads (execRetentionEntry t s) (Keeps s) :=
  leads_if (bump_keeps (setTile_keeps .refl)) .refl

theorem execStatusRefresh_keeps (b : Fin 12) (ms : Bool) (busy : List (Nat × Nat)) (s : State) :
    leads (execStatusRefresh b ms busy s) (Keeps s) := by
  dsimp only [execStatusRefresh]
  split
  · exact Keeps.refl.leads
  · refine leads_if (publishMs_keeps ?_) (publishBoth_keeps (Keeps.ite (setBusy_keeps (clearBusy_keeps ?_)) ?_))
    all_goals
      split
      · exact bump_keeps .refl
      · exact .refl

/-! ### Packages and the step sequencers -/

theorem execKernelReady_keeps (d : DieId) (tag : Nat) (kernel : BitVec 16) (s : State) : leads (execKernelReady d tag kernel s) (Keeps s) := by
  dsimp only [execKernelReady]
  repeat' split
  · exact Keeps.refl.leads
  · exact Keeps.refl.leads
  · exact (updPkg_keeps .refl).leads
  · exact Keeps.refl.leads

theorem execSequencerWrite_keeps (d : DieId) (tag : Nat) (kernel : BitVec 16) (i : Nat) (s : State) :
    leads (execSequencerWrite d tag kernel i s) (Keeps s) := by
  dsimp only [execSequencerWrite]
  repeat' split
  · exact Keeps.refl.leads
  · exact Keeps.refl.leads
  · exact Keeps.refl.leads
  · exact Keeps.refl.leads
  · exact (abandon_keeps (logAs_keeps (record_keeps .refl))).leads
  · exact (losePinned_keeps .refl).leads
  · exact Keeps.refl.leads
  · exact (updPkg_keeps (enterQueue_keeps .refl)).leads

theorem execPackageStart_keeps (tag : Nat) (s : State) : leads (execPackageStart tag s) (Keeps s) := by
  dsimp only [execPackageStart]
  split
  · exact Keeps.refl.leads
  · next p e =>
    have k0 : Keeps s (match p.blocks with | some b => s.installBlocks p.job p.vesper b | none => s) := by
      split
      · exact installBlocks_keeps .refl
      · exact .refl
    split
    · exact Keeps.refl.leads
    · have k1 := beginStep_keeps (a1 := tag) (firstGrants_keeps (a1 := p) (Keeps.ite (c := p.kind = 2) (evalStreams_keeps (a1 := p.seed) (a2 := 576) k0) k0))
      exact (Keeps.ite (report_keeps k1) k1).leads

theorem execStepStart_keeps (tag : Nat) (s : State) : leads (execStepStart tag s) (Keeps s) := by
  dsimp only [execStepStart]
  split
  · exact Keeps.refl.leads
  · exact leads_if (beginStep_keeps (settleNorms_keeps .refl)) .refl

theorem execLayerFlip_keeps (tag layer : Nat) (s : State) : leads (execLayerFlip tag layer s) (Keeps s) := by
  dsimp only [execLayerFlip]
  repeat' split
  · exact Keeps.refl.leads
  · exact Keeps.refl.leads
  · exact (settleNorms_keeps (settleSkips_keeps (updPkg_keeps (passSlot_keeps (updJob_keeps .refl))))).leads
  · exact (settleNorms_keeps (settleSkips_keeps (updPkg_keeps (passSlot_keeps (updJob_keeps .refl))))).leads
  · exact Keeps.refl.leads
  · exact Keeps.refl.leads

theorem execPackageComplete_keeps (tag : Nat) (s : State) : leads (execPackageComplete tag s) (Keeps s) := by
  dsimp only [execPackageComplete]
  split
  · exact Keeps.refl.leads
  · next p e =>
    have k0 : Keeps s (if p.kind = 1 then s.settleNorms p.job else s) := Keeps.ite (settleNorms_keeps .refl) .refl
    refine leads_if (removePkg_keeps (bump_keeps ?_)) .refl
    exact Keeps.ite (bump_keeps (originate_keeps k0)) (originate_keeps k0)

/-! ### Stacked memory -/

theorem execRefresh_keeps (ch : TileId) (bank : Nat) (overdue : Bool) (s : State) : leads (execRefresh ch bank overdue s) (Keeps s) := by
  dsimp only [execRefresh]
  repeat' split
  · exact Keeps.refl.leads
  · exact (failChannel_keeps (logEvent_keeps .refl)).leads
  · exact (Keeps.mk .refl).leads

theorem execPatrolScrub_keeps (ch : TileId) (e : BeatErr) (s : State) : leads (execPatrolScrub ch e s) (Keeps s) := by
  dsimp only [execPatrolScrub]
  split
  · exact Keeps.refl.leads
  · refine leads_if (ueFound_keeps (observeBeat_keeps (Keeps.ite (bump_keeps (Keeps.mk .refl)) (Keeps.mk .refl))))
      (observeBeat_keeps (Keeps.ite (bump_keeps (Keeps.mk .refl)) (Keeps.mk .refl)))

theorem execChannelFail_keeps (ch : TileId) (s : State) : leads (execChannelFail ch s) (Keeps s) :=
  (Keeps.ite (failChannel_keeps .refl) .refl).leads

theorem execStackSensorRead_keeps (stack : Fin 24) (a b : Celsius) (s : State) : leads (execStackSensorRead stack a b s) (Keeps s) := by
  dsimp only [execStackSensorRead]
  split
  · exact Keeps.refl.leads
  · exact leads_if (abandonAll_keeps (immediate_keeps (logEvent_keeps (Keeps.mk .refl)))) (Keeps.mk .refl)

theorem execThermalHoldRelease_keeps (s : State) : leads (execThermalHoldRelease s) (Keeps s) :=
  leads_if (clearImmediate_keeps (Keeps.mk .refl)) .refl

theorem chOk_eq (q : ChReq) : chOk q = q.wf := by
  unfold chOk ChReq.wf
  cases q.op <;> rfl

/-- The request that a channel takes next is one of those that wait, so that it can stand there where they all can (R189). -/
theorem execChannelRequest_moves (ch : TileId) (qs : List ChReq) (s : State) :
    Moves s (qs.all ChReq.wf) (execChannelRequest ch qs s) := by
  dsimp only [execChannelRequest]
  split
  · exact moves_of_leads Keeps.refl.leads
  split
  · exact moves_of_leads (refuseAll_keeps .refl).leads
  split
  · exact moves_of_leads Keeps.refl.leads
  split
  · exact moves_of_leads Keeps.refl.leads
  next q taken =>
    split
    next bad =>
      refine ⟨Keeps.outRef, fun wf => ?_⟩
      have sound : chOk q = true := chOk_eq q ▸ List.all_eq_true.mp wf q (nextRequest_some taken).1
      simp [sound] at bad
    next =>
      refine moves_of_leads ?_
      split
      next e => exact (serveOver_keeps2 e (observeAll_keeps (dramItems_keeps (Keeps.mk .refl)))).leads
      next e => exact (faultOf_keeps (serveOver_keeps2 e (observeAll_keeps (dramItems_keeps (Keeps.mk .refl))))).leads

/-! ### Frames -/

/-- A request frame's command keeps what its meaning keeps. -/
theorem onRequest_keeps {op : BitVec 4} {p : PortId} {f : Frame} {s : State} {act : State → State} (h : ∀ z, Keeps s z → Keeps s (act z)) :
    leads (onRequest op p f s act) (Keeps s) := by
  unfold onRequest
  split
  · exact Keeps.refl.leads
  next e => exact (request_keeps (Keeps.pOf e (takeFrame_keeps .refl)) h).leads

theorem onReply_keeps {op : BitVec 4} {p : PortId} {f : Frame} {s : State} {fits : Xfer → Bool} {act : Xfer → State → State}
    (h : ∀ x z, Keeps s z → Keeps s (act x z)) : leads (onReply op p f s fits act) (Keeps s) := by
  unfold onReply
  split
  · exact Keeps.refl.leads
  next e => exact (replyIn_keeps (Keeps.pOf e (takeFrame_keeps .refl)) h).leads

theorem onNotice_keeps {kind : Nat} {p : PortId} {f : Frame} {s : State} {act : JobCtx → State → State}
    (h : ∀ j z, Keeps s z → Keeps s (act j z)) : leads (onNotice kind p f s act) (Keeps s) := by
  unfold onNotice
  split
  · exact Keeps.refl.leads
  · refine onRequest_keeps fun z k => ?_
    dsimp only
    split
    · exact h _ _ (applied_keeps k)
    · exact applied_keeps k

theorem onCtrl_keeps {kind : Nat} {p : PortId} {f : Frame} {s : State} {act : Port → State → State}
    (h : ∀ x z, Keeps s z → Keeps s (act x z)) : leads (onCtrl kind p f s act) (Keeps s) := by
  unfold onCtrl
  split
  · exact Keeps.refl.leads
  · split
    · exact Keeps.refl.leads
    next e => exact (h _ _ (Keeps.pOf e (takeFrame_keeps .refl))).leads

theorem execReadFrame_keeps (p : PortId) (f : Frame) (s : State) : leads (execReadFrame p f s) (Keeps s) := by
  refine onRequest_keeps fun z k => ?_
  split
  next e => exact answer_keeps (readFor_keeps2 e k)
  next e => exact replyAll_keeps (readFor_keeps2 e k)

theorem execBarrierArriveFrame_keeps (p : PortId) (f : Frame) (s : State) : leads (execBarrierArriveFrame p f s) (Keeps s) :=
  onRequest_keeps fun _ k => barrierFrameIn_keeps k fun _ _ _ _ _ kx => barrierRun_keeps (setBarrier_keeps kx)

theorem execBarrierReleaseFrame_keeps (p : PortId) (f : Frame) (s : State) : leads (execBarrierReleaseFrame p f s) (Keeps s) :=
  onRequest_keeps fun _ k => barrierFrameIn_keeps k fun _ _ _ _ _ kx => barrierRun_keeps (setBarrier_keeps kx)

theorem execNoticeFault_keeps (p : PortId) (f : Frame) (s : State) : leads (execNoticeFault p f s) (Keeps s) :=
  onNotice_keeps fun _ _ k => forwardNotice_keeps k

theorem execReadDataFrame_keeps (p : PortId) (f : Frame) (s : State) : leads (execReadDataFrame p f s) (Keeps s) :=
  onReply_keeps fun _ _ k => Keeps.ite (getDone_keeps (writeLocal_keeps k)) (Keeps.mk (writeLocal_keeps k))

theorem execErrorFrame_keeps (p : PortId) (f : Frame) (s : State) : leads (execErrorFrame p f s) (Keeps s) :=
  onReply_keeps fun _ _ k => barrierCut_keeps (endXfer_keeps (resetSeq_keeps k))

theorem execTransferTimeout_keeps (xfer : Nat) (s : State) : leads (execTransferTimeout xfer s) (Keeps s) := by
  dsimp only [execTransferTimeout]
  split
  · exact Keeps.refl.leads
  · exact leads_if .refl (endXfer_keeps (Keeps.ite (logEvent_keeps (bump_keeps (Keeps.mk .refl))) (bump_keeps (Keeps.mk .refl))))

theorem execFrameReceive_keeps (p : PortId) (rx : RxFrame) (s : State) : leads (execFrameReceive p rx s) (Keeps s) := by
  have k := bump_keeps (a1 := 0x2128 + 0x40 * p.val) (a2 := rx.corrected) (bump_keeps (a1 := 0x2110 + 0x40 * p.val) (a2 := rx.frame.wireBytes) (Keeps.refl (s := s)))
  exact leads_if (Keeps.ite .refl (Keeps.ite (portOverrun_keeps k) (violation_keeps k))) (receive_keeps .refl)

theorem execFrameForward_keeps (p : PortId) (s : State) : leads (execFrameForward p s) (Keeps s) := by
  dsimp only [execFrameForward]
  split
  · exact Keeps.refl.leads
  next f e =>
    have k : Keeps s ((s.setPort p.val { s.port p.val with rxq := eraseFirst (· == f) (s.port p.val).rxq }).freeBuffer p.val f) :=
      freeBuffer_keeps (setPort_keeps .refl)
    repeat' split
    · exact (deliver_keeps k).leads
    · exact (queueAt_keeps k).leads
    · exact k.leads
    · exact (unreachable_keeps k).leads
    · exact (queueAt_keeps k).leads
    · exact (unreachable_keeps k).leads

theorem execFrameTransmit_keeps (x : TxTurn) (s : State) : leads (execFrameTransmit x s) (Keeps s) := by
  dsimp only [execFrameTransmit]
  split
  · exact (Keeps.ite (spoiled_keeps .refl) .refl).leads
  · split
    · exact Keeps.refl.leads
    · exact leads_if (pnSpent_keeps .refl) (transmit_keeps (Keeps.ite (portOverrun_keeps .refl) .refl))

/-! ### Links -/

theorem execLinkCtrlCredit_keeps (p : PortId) (f : Frame) (s : State) : leads (execLinkCtrlCredit p f s) (Keeps s) :=
  onCtrl_keeps fun _ _ k => Keeps.ite (sequenceBad_keeps k) (Keeps.ite (takeAcks_keeps (setPort_keeps k)) (setPort_keeps k))

theorem execCreditReturn_keeps (p : PortId) (s : State) : leads (execCreditReturn p s) (Keeps s) := by
  dsimp only [execCreditReturn]
  split
  · exact Keeps.refl.leads
  · exact leads_if (pnSpent_keeps .refl) (ctrl_keeps (setPort_keeps .refl))

theorem execLinkCtrlNak_keeps (p : PortId) (f : Frame) (s : State) : leads (execLinkCtrlNak p f s) (Keeps s) :=
  onCtrl_keeps fun _ _ k => Keeps.ite (linkLost_keeps (bump_keeps (setPort_keeps k))) (bump_keeps (setPort_keeps k))

theorem execLinkCtrlPortStates_keeps (p : PortId) (f : Frame) (s : State) : leads (execLinkCtrlPortStates p f s) (Keeps s) :=
  onCtrl_keeps fun _ _ k => setPort_keeps k

theorem execRekeyStart_keeps (p : PortId) (s : State) : leads (execRekeyStart p s) (Keeps s) :=
  leads_if (rekey_keeps .refl) .refl

theorem execRekeyFailed_keeps (p : PortId) (s : State) : leads (execRekeyFailed p s) (Keeps s) := by
  dsimp only [execRekeyFailed]
  split
  · exact (Keeps.ite (linkLost_keeps (secFault_keeps .refl)) .refl).leads
  · exact Keeps.refl.leads

theorem execOldSaRetire_keeps (p : PortId) (s : State) : leads (execOldSaRetire p s) (Keeps s) := by
  dsimp only [execOldSaRetire]
  split
  · exact (Keeps.ite (setPort_keeps .refl) .refl).leads
  · exact Keeps.refl.leads

theorem execLinkUp_keeps (p : PortId) (s : State) : leads (execLinkUp p s) (Keeps s) := by
  dsimp only [execLinkUp]
  split
  · exact Keeps.refl.leads
  · split
    · exact (Keeps.ite .refl (setPort_keeps .refl)).leads
    · exact leads_if .refl (sendIdentity_keeps (offer_keeps (setSt_keeps (setPort_keeps .refl))))

theorem execIdentityExchangeTick_keeps (p : PortId) (s : State) : leads (execIdentityExchangeTick p s) (Keeps s) :=
  leads_if (sendIdentity_keeps .refl) .refl

theorem execLinkCtrlIdentity_keeps (p : PortId) (f : Frame) (s : State) : leads (execLinkCtrlIdentity p f s) (Keeps s) :=
  onCtrl_keeps fun _ _ k => Keeps.ite (refuse_keeps k) (Keeps.ite k (Keeps.ite (rekeyStep_keeps k)
    (Keeps.ite (badLink_keeps (setPort_keeps k)) (sendEcho_keeps (takeOffer_keeps (setPort_keeps k))))))

theorem execLinkCtrlEcho_keeps (p : PortId) (f : Frame) (s : State) : leads (execLinkCtrlEcho p f s) (Keeps s) :=
  onCtrl_keeps fun _ _ k => Keeps.ite (sendEcho_keeps k) (Keeps.ite k (Keeps.ite (badLink_keeps (setPort_keeps k)) (ready_keeps k)))

theorem execLinkDown_keeps (p : PortId) (s : State) : leads (execLinkDown p s) (Keeps s) := by
  dsimp only [execLinkDown]
  split
  · exact (hostPortDown_keeps .refl).leads
  · exact leads_if (linkLost_keeps .refl) .refl

theorem execAckStall_keeps (p : PortId) (s : State) : leads (execAckStall p s) (Keeps s) := leads_if (linkLost_keeps .refl) .refl

theorem execTrainingAttempt_keeps (p : PortId) (s : State) : leads (execTrainingAttempt p s) (Keeps s) :=
  leads_if (setSt_keeps (setPort_keeps .refl)) .refl

theorem execTrainingAttemptFailed_keeps (p : PortId) (s : State) : leads (execTrainingAttemptFailed p s) (Keeps s) :=
  leads_if (setSt_keeps (setPort_keeps .refl)) .refl

theorem execQuarantineEnd_keeps (p : PortId) (s : State) : leads (execQuarantineEnd p s) (Keeps s) :=
  leads_if (setSt_keeps (setPort_keeps .refl)) .refl

theorem execLinkRestore_keeps (p : PortId) (s : State) : leads (execLinkRestore p s) (Keeps s) := by
  dsimp only [execLinkRestore]
  repeat' split
  · exact Keeps.refl.leads
  · exact (Keeps.foldl (setPort_keeps .refl) fun _ _ k => sendFence_keeps k).leads
  · exact (restored_keeps .refl).leads

theorem execFenceFrame_keeps (p : PortId) (f : Frame) (s : State) : leads (execFenceFrame p f s) (Keeps s) := by
  dsimp only [execFenceFrame]
  split
  · exact Keeps.refl.leads
  next z e =>
    have k : Keeps s z := Keeps.pOf e (takeFrame_keeps .refl)
    split
    · exact k.leads
    · exact leads_if (ctrl_keeps (setPort_keeps k)) (setPort_keeps k)

theorem execLinkCtrlFenceDone_keeps (p : PortId) (f : Frame) (s : State) : leads (execLinkCtrlFenceDone p f s) (Keeps s) :=
  onCtrl_keeps fun _ _ k => Keeps.ite (restored_keeps k) k

/-! ### Counts, barriers and host signals -/

theorem execCountIncrement_moves (job : BitVec 16) (r n : BitVec 32) (s : State) :
    Moves s (countRefOk r && decide (0 < n.toNat ∧ n.toNat < 2 ^ 31)) (execCountIncrement job r n s) := by
  unfold execCountIncrement
  split
  next bad =>
    refine ⟨Keeps.outRef, fun wf => ?_⟩
    obtain ⟨ref, pos, bound⟩ : countRefOk r = true ∧ 0 < n.toNat ∧ n.toNat < 2 ^ 31 := by simpa using wf
    rw [countRefBad_of_ok ref, Bool.false_or, Bool.or_eq_true, beq_iff_eq, decide_eq_true_eq] at bad
    rcases bad with zero | large
    · exact absurd (congrArg BitVec.toNat zero) (Nat.ne_of_gt pos)
    · exact absurd bound (Nat.not_lt.mpr large)
  next => exact moves_of_leads (leads_if .refl (raiseCount_keeps .refl))

theorem execBarrierTimeout_keeps (job : BitVec 16) (slot : Fin 64) (s : State) : leads (execBarrierTimeout job slot s) (Keeps s) := by
  dsimp only [execBarrierTimeout]
  split
  · exact Keeps.refl.leads
  · exact leads_if .refl (barrierFail_keeps .refl)

theorem execSignalOut_keeps (job : BitVec 16) (s : State) : leads (execSignalOut job s) (Keeps s) := by
  dsimp only [execSignalOut]
  split
  · exact Keeps.refl.leads
  · split
    · exact Keeps.refl.leads
    · exact (originate_keeps (updJob_keeps .refl)).leads

/-! ### Buckets and verdicts -/

theorem execBucketDeadline_keeps (job : BitVec 16) (b : Nat) (s : State) : leads (execBucketDeadline job b s) (Keeps s) := by
  dsimp only [execBucketDeadline]
  repeat' split
  · exact Keeps.refl.leads
  · exact (closeBucket_keeps .refl).leads
  · exact Keeps.refl.leads

theorem execStepCloseLimit_keeps (job : BitVec 16) (s : State) : leads (execStepCloseLimit job s) (Keeps s) := by
  dsimp only [execStepCloseLimit]
  split
  · exact Keeps.refl.leads
  · exact leads_if (closeAll_keeps .refl) .refl

theorem execCheckGrace_keeps (job : BitVec 16) (b : Nat) (s : State) : leads (execCheckGrace job b s) (Keeps s) := by
  dsimp only [execCheckGrace]
  repeat' split
  · exact Keeps.refl.leads
  · exact Keeps.refl.leads
  · exact Keeps.refl.leads
  · exact (closeBucket_keeps .refl).leads
  · exact (closeBucket_keeps .refl).leads
  · exact Keeps.refl.leads

theorem execCheckCompare_keeps (job : BitVec 16) (b : Nat) (s : State) : leads (execCheckCompare job b s) (Keeps s) := by
  dsimp only [execCheckCompare]
  split
  · exact Keeps.refl.leads
  · split
    · split
      · exact Keeps.refl.leads
      · split
        · exact Keeps.refl.leads
        · split
          · exact (updBucket_keeps (bump_keeps (updBucket_keeps .refl))).leads
          · split
            · exact (mismatchAt_keeps (checkReads_keeps (bump_keeps (updBucket_keeps .refl)))).leads
            · exact (updBucket_keeps (checkReads_keeps (bump_keeps (updBucket_keeps .refl)))).leads
    · exact Keeps.refl.leads

theorem execVerdictRound_keeps (job : BitVec 16) (s : State) : leads (execVerdictRound job s) (Keeps s) := by
  have send : ∀ {z : State} (j : BitVec 16) (d k : Nat) (b : Bool), Keeps s z → Keeps s (if b then z.signalTo j d k 1 else z) :=
    fun _ _ _ _ k => Keeps.ite (signalTo_keeps k) k
  dsimp only [execVerdictRound]
  split
  · exact Keeps.refl.leads
  · split
    · exact Keeps.refl.leads
    · refine leads_if .refl (updJob_keeps (note_keeps (send _ _ _ _ (clearNorms_keeps ?_))))
      split
      · exact send _ _ _ _ (send _ _ _ _ (send _ _ _ _ (send _ _ _ _ (send _ _ _ _ .refl))))
      · exact send _ _ _ _ (send _ _ _ _ (send _ _ _ _ .refl))

theorem execVerdictForm_keeps (job : BitVec 16) (s : State) : leads (execVerdictForm job s) (Keeps s) := by
  dsimp only [execVerdictForm]
  split
  · exact Keeps.refl.leads
  · split
    · exact Keeps.refl.leads
    · refine leads_if .refl (updJob_keeps (note_keeps (signalAll_keeps ?_)))
      split
      · exact note_keeps (signalAll_keeps .refl)
      · exact .refl

theorem execVerdictReceive_keeps (job : BitVec 16) (s : State) : leads (execVerdictReceive job s) (Keeps s) := by
  have written : ∀ {z : State} (c : Prop) [Decidable c] (flags step gen : Nat), Keeps s z →
      Keeps s (if c then ((z.countVerdict flags).markDue job step).writeRecordHead job step gen
        else ((((z.countVerdict flags).markDue job step).writeRecordHead job step gen).zeroRecordNorms job step).skipLayers job) :=
    fun _ _ _ _ _ k =>
      have k4 := writeRecordHead_keeps (markDue_keeps (countVerdict_keeps k))
      Keeps.ite k4 (skipLayers_keeps (zeroRecordNorms_keeps k4))
  dsimp only [execVerdictReceive]
  split
  · exact Keeps.refl.leads
  · split
    · exact Keeps.refl.leads
    · refine leads_ite Keeps.refl.leads (leads_if (abandonAll_keeps (logEvent_keeps (written _ _ _ _ ?_))) (written _ _ _ _ ?_))
      all_goals
        split
        · exact note_keeps (updChrys_keeps (note_keeps (updJob_keeps .refl)))
        · exact note_keeps (updJob_keeps .refl)

theorem execBucketClear_keeps (job : BitVec 16) (b : Nat) (s : State) : leads (execBucketClear job b s) (Keeps s) := by
  dsimp only [execBucketClear]
  repeat' split
  · exact Keeps.refl.leads
  · exact Keeps.refl.leads
  · exact (clearSet_keeps .refl).leads
  · exact Keeps.refl.leads

/-! ### Chrysalis -/

theorem execGenerationPrepare_keeps (job : BitVec 16) (s : State) : leads (execGenerationPrepare job s) (Keeps s) := by
  have k : Keeps s (s.settleNorms job) := settleNorms_keeps .refl
  dsimp only [execGenerationPrepare]
  repeat' split
  · exact k.leads
  · exact k.leads
  · exact (prepare_keeps k).leads
  · exact (pump_keeps k).leads
  · exact (pump_keeps k).leads

theorem execParityFold_keeps (job : BitVec 16) (s : State) : leads (execParityFold job s) (Keeps s) := by
  dsimp only [execParityFold]
  repeat' split
  · exact Keeps.refl.leads
  · exact Keeps.refl.leads
  · exact (pump_keeps .refl).leads
  · exact Keeps.refl.leads
  · exact (reportPrepared_keeps (pump_keeps (updChrys_keeps (note_keeps (bump_keeps (copySlots_keeps (bitmapReads_keeps .refl))))))).leads

theorem execGenerationCommit_keeps (job : BitVec 16) (s : State) : leads (execGenerationCommit job s) (Keeps s) := by
  dsimp only [execGenerationCommit]
  repeat' split
  · exact Keeps.refl.leads
  · exact Keeps.refl.leads
  · exact (note_keeps (signalAll_keeps .refl)).leads
  · exact Keeps.refl.leads

theorem execGenerationPromote_keeps (job : BitVec 16) (s : State) : leads (execGenerationPromote job s) (Keeps s) := by
  have k : ∀ c, Keeps s ((s.promote job).note job c) := fun c => note_keeps (promote_keeps .refl)
  dsimp only [execGenerationPromote]
  repeat' split
  · exact Keeps.refl.leads
  · exact Keeps.refl.leads
  · exact Keeps.refl.leads
  · exact Keeps.refl.leads
  · exact (dueAfter_keeps (k _)).leads
  · exact (k _).leads

theorem execHealthTick_keeps (s : State) : leads (execHealthTick s) (Keeps s) := leads_if .refl (followScore_keeps (Keeps.mk .refl))

theorem execDieLost_keeps (d : DieId) (s : State) : leads (execDieLost d s) (Keeps s) := (withdraw_keeps .refl).leads

theorem execRestoreGather_keeps (job : BitVec 16) (s : State) : leads (execRestoreGather job s) (Keeps s) := by
  dsimp only [execRestoreGather]
  split
  · exact Keeps.refl.leads
  · split
    · exact Keeps.refl.leads
    · exact (pump_keeps (updChrys_keeps (note_keeps (setStage_keeps (looked_keeps .refl))))).leads

theorem execRestoreApply_keeps (job : BitVec 16) (s : State) : leads (execRestoreApply job s) (Keeps s) := by
  dsimp only [execRestoreApply]
  split
  · exact Keeps.refl.leads
  · exact leads_if .refl (setStage_keeps (note_keeps (updChrys_keeps (revert_keeps (Keeps.ite (promote_keeps (looked_keeps .refl)) (looked_keeps .refl))))))

theorem execSpareRefill_keeps (job : BitVec 16) (s : State) : leads (execSpareRefill job s) (Keeps s) := by
  dsimp only [execSpareRefill]
  split
  · exact Keeps.refl.leads
  · refine leads_ite (refillReads_keeps .refl).leads (leads_ite (leads_ite (pump_keeps .refl).leads (leads_ite ?rewrite ?lost)) Keeps.refl.leads)
    case rewrite => exact (pump_keeps (setStage_keeps (updChrys_keeps (looked_keeps .refl)))).leads
    case lost => exact leads_if (setStage_keeps .refl) (abandon_keeps (recordLosses_keeps (looked_keeps .refl)))

theorem execRestoreReload_keeps (job : BitVec 16) (s : State) : leads (execRestoreReload job s) (Keeps s) := by
  dsimp only [execRestoreReload]
  split
  · exact Keeps.refl.leads
  · split
    · exact leads_if (restoreEnds_keeps .refl) .refl
    · exact leads_if .refl (setStage_keeps (loadRecord_keeps .refl))

theorem execEvalWindowOpen_keeps (job : BitVec 16) (s : State) : leads (execEvalWindowOpen job s) (Keeps s) := by
  dsimp only [execEvalWindowOpen]
  split
  · exact Keeps.refl.leads
  · split
    · exact Keeps.refl.leads
    · split
      · exact leads_if (openWindow_keeps .refl) .refl
      · exact leads_if (Keeps.mk .refl) .refl

theorem execEvalWindowClose_keeps (job : BitVec 16) (s : State) : leads (execEvalWindowClose job s) (Keeps s) := by
  dsimp only [execEvalWindowClose]
  repeat' split
  · exact Keeps.refl.leads
  · exact Keeps.refl.leads
  · exact (closeWindow_keeps .refl).leads
  · exact (closeWindow_keeps .refl).leads
  · exact (closeWindow_keeps (bump_keeps (Keeps.mk .refl))).leads
  · exact Keeps.refl.leads

theorem execEvalWindowOverrun_keeps (job : BitVec 16) (s : State) : leads (execEvalWindowOverrun job s) (Keeps s) := by
  dsimp only [execEvalWindowOverrun]
  split
  · exact Keeps.refl.leads
  · exact leads_if .refl (closeWindow_keeps (abandonAll_keeps (chrEvent_keeps .refl)))

/-! ### Power and arbitration -/

theorem execMonarchWindow_keeps (es : List (Nat × Nat)) (fixed : Nat) (s : State) : leads (execMonarchWindow es fixed s) (Keeps s) := by
  have k : Keeps s ((s.pastWindow (fixed + sumNat ((List.range 576).map (energyOf es))) fixed).countWindow
      (fixed + sumNat ((List.range 576).map (energyOf es)))) := countWindow_keeps (pastWindow_keeps .refl)
  dsimp only [execMonarchWindow]
  refine leads_if .refl (Keeps.ite (bump_keeps ?_) ?_)
  all_goals exact scaleGrants_keeps (predict_keeps (Keeps.mk k))

theorem execGrantExhausted_keeps (t : TileId) (s : State) : leads (execGrantExhausted t s) (Keeps s) :=
  leads_if .refl (Keeps.mk (setTile_keeps .refl))

theorem execSupplyStep_keeps (d : DieId) (s : State) : leads (execSupplyStep d s) (Keeps s) :=
  leads_ite Keeps.refl.leads (leads_ite (Keeps.mk .refl).leads (leads_ite (setSupply_keeps (Keeps.mk .refl)).leads
    (leads_if (setSupply_keeps (Keeps.mk .refl)) (Keeps.mk .refl))))

theorem execLogicSensorRead_keeps (d : DieId) (temp : Celsius) (s : State) : leads (execLogicSensorRead d temp s) (Keeps s) := by
  have cooled : ∀ {z : State} (c : Prop) [Decidable c] (k v : Nat) (m : Sp Nat), Keeps s z →
      Keeps s (if c then z.setSupply k v else { z with power := { z.power with halvings := m } }).coolTimer :=
    fun _ _ _ _ _ k => coolTimer_keeps (Keeps.ite (setSupply_keeps k) (Keeps.mk k))
  dsimp only [execLogicSensorRead]
  refine leads_ite Keeps.refl.leads (leads_if (abandonAll_keeps (logEvent_keeps (Keeps.mk (cooled _ _ _ _ ?_)))) (cooled _ _ _ _ ?_))
  all_goals exact Keeps.mk .refl

theorem execHeatGrantHalve_keeps (d : DieId) (s : State) : leads (execHeatGrantHalve d s) (Keeps s) := leads_if (Keeps.mk .refl) .refl

theorem execSupplyUnder_keeps (d : DieId) (s : State) : leads (execSupplyUnder d s) (Keeps s) :=
  leads_if .refl (abandonAll_keeps (logEvent_keeps (Keeps.mk .refl)))

theorem execInputOutOfRange_keeps (r : VoltReading) (s : State) : leads (execInputOutOfRange r s) (Keeps s) :=
  leads_if (Keeps.mk .refl) (Keeps.ite (Keeps.mk (Keeps.mk .refl)) (abandonAll_keeps (logEvent_keeps (Keeps.mk (Keeps.mk .refl)))))

theorem execBladeSense_keeps (a b : Nat) (s : State) : leads (execBladeSense a b s) (Keeps s) := leads_if .refl (Keeps.mk .refl)

theorem execBladePairLost_keeps (k : Fin 2) (s : State) : leads (execBladePairLost k s) (Keeps s) :=
  leads_if (points_keeps (logEvent_keeps (Keeps.mk .refl))) .refl

theorem execBladePairRestored_keeps (k : Fin 2) (s : State) : leads (execBladePairRestored k s) (Keeps s) := leads_if (Keeps.mk .refl) .refl

theorem execLateTimer_keeps (tag : Nat) (s : State) : leads (execLateTimer tag s) (Keeps s) := by
  dsimp only [execLateTimer]
  split
  · exact Keeps.refl.leads
  · exact leads_if .refl (sendLate_keeps (Keeps.ite (logEvent_keeps (drawn_keeps .refl)) (drawn_keeps .refl)))

theorem execArbiterRequest_keeps (arb : Fin 16) (rank : Fin 4) (who n : Nat) (s : State) : leads (execArbiterRequest arb rank who n s) (Keeps s) :=
  leads_if .refl (requests_keeps .refl)

theorem execArbiterGrant_keeps (arb : Fin 16) (s : State) : leads (execArbiterGrant arb s) (Keeps s) := by
  dsimp only [execArbiterGrant]
  split
  · exact Keeps.refl.leads
  · split
    · exact (setArb_keeps .refl).leads
    · exact (arbSettle_keeps (arbGive_keeps .refl)).leads

/-! ### Hosts -/

theorem headerFor_type {type : Nat} {h : KHdr} (ok : headerFor type h = true) : ¬(hostTypes.contains h.type.toNat = true ∧ h.type.toNat ≠ type) := by
  rintro ⟨known, other⟩
  simp [headerFor, other] at ok
  exact absurd known (by simpa [hostTypes, hostMessageTypes] using ok)

/-- A datagram's command keeps what its message keeps, and refuses only a header of another command. -/
theorem onDatagram_moves (h : KHdr) (type : Nat) (ok : Bool) (m : Option HMsg) (s : State) :
    Moves s (headerFor type h) (onDatagram h type ok m s) := by
  unfold onDatagram
  split
  next other => exact ⟨Keeps.outRef, fun wf => absurd other (headerFor_type wf)⟩
  next => exact moves_of_leads (arrive_keeps .refl fun _ k => sealed_keeps k).leads

theorem execOpenConn_moves (h : KHdr) (role : Byte) (eph key : BitVec 256) (nonce : BitVec 128) (sig : BitVec 512) (s : State) :
    Moves s (h.type == 1) (execOpenConn h role eph key nonce sig s) := by
  unfold execOpenConn
  split
  next other => exact ⟨Keeps.outRef, fun wf => absurd (beq_iff_eq.mp wf) other⟩
  next => exact moves_of_leads (arrive_keeps .refl fun _ k => openArrives_keeps k).leads

theorem execOpenPendingExpiry_keeps (id : BitVec 32) (s : State) : leads (execOpenPendingExpiry id s) (Keeps s) := (Keeps.mk .refl).leads

theorem execZeroingComplete_keeps (s : State) : leads (execZeroingComplete s) (Keeps s) := by
  dsimp only [execZeroingComplete]
  split
  · exact Keeps.refl.leads
  · exact (closeIfDone_keeps (applyHeld_keeps (zeroed_keeps .refl))).leads

theorem execKhtRetransmit_keeps (id : BitVec 32) (seq : BitVec 64) (s : State) : leads (execKhtRetransmit id seq s) (Keeps s) := by
  dsimp only [execKhtRetransmit]
  split
  · exact Keeps.refl.leads
  · exact leads_ite Keeps.refl.leads (leads_ite (closed_keeps .refl).leads
      (leads_if (connFailed_keeps .refl) (datagram_keeps (bump_keeps (updConn_keeps .refl)))))

theorem execKhtIdleTimeout_keeps (id : BitVec 32) (s : State) : leads (execKhtIdleTimeout id s) (Keeps s) := by
  dsimp only [execKhtIdleTimeout]
  split
  · exact (Keeps.ite (connFailed_keeps .refl) .refl).leads
  · exact Keeps.refl.leads

theorem execKhtIdleAck_keeps (id : BitVec 32) (s : State) : leads (execKhtIdleAck id s) (Keeps s) := by
  dsimp only [execKhtIdleAck]
  split
  · exact (Keeps.ite (sendAck_keeps .refl) .refl).leads
  · exact Keeps.refl.leads

theorem execUnlockExpiry_keeps (id : BitVec 32) (s : State) : leads (execUnlockExpiry id s) (Keeps s) := by
  dsimp only [execUnlockExpiry]
  split
  · exact (Keeps.ite (endUnlock_keeps .refl) .refl).leads
  · exact Keeps.refl.leads

theorem execLockoutEnd_keeps (s : State) : leads (execLockoutEnd s) (Keeps s) := by
  dsimp only [execLockoutEnd]
  split
  · exact (Keeps.ite (Keeps.mk .refl) .refl).leads
  · exact Keeps.refl.leads

theorem execHostQuarantineEnd_keeps (source : BitVec 128) (s : State) : leads (execHostQuarantineEnd source s) (Keeps s) := (Keeps.mk .refl).leads

theorem execIcmpv6Request_keeps (port : Fin 2) (echo : Bool) (data : List Byte) (s : State) : leads (execIcmpv6Request port echo data s) (Keeps s) :=
  leads_if (emit_keeps (hostTx_keeps (hostRx_keeps .refl))) .refl

theorem execMkaFrame_keeps (port : Fin 2) (an : BitVec 2) (k : MkaKey) (s : State) : leads (execMkaFrame port an k s) (Keeps s) :=
  leads_if .refl (Keeps.ite (setPort_keeps (bump_keeps (bump_keeps (bump_keeps .refl)))) (bump_keeps (bump_keeps .refl)))

theorem execUnsealComplete_keeps (job : BitVec 16) (s : State) : leads (execUnsealComplete job s) (Keeps s) := by
  dsimp only [execUnsealComplete]
  split
  · exact Keeps.refl.leads
  · exact (outcome_keeps (Keeps.ite (unsealAll_keeps (Keeps.mk .refl)) (noteCode_keeps (unsealAll_keeps (Keeps.mk .refl))))).leads

/-! ### Flash, log and start -/

theorem execFlashOpComplete_keeps (ok : Bool) (s : State) : leads (execFlashOpComplete ok s) (Keeps s) := by
  dsimp only [execFlashOpComplete]
  split
  · exact Keeps.refl.leads
  next g _ =>
    cases g.pend with
    | nil => exact Keeps.refl.leads
    | cons x rest =>
      have k : Keeps s (s.flashTook x.2.2 rest) := flashTook_keeps .refl
      exact leads_ite (stageFailed_keeps k).leads (leads_ite (stageProgrammed_keeps (setFlash_keeps k)).leads
        (leads_ite (stageProgrammed_keeps k).leads
          (leads_if (sendMsg_keeps (stageEnd_keeps (setStaging_keeps (setFlash_keeps k)))) (stageEnd_keeps (setFlash_keeps k)))))

/-- The log's queue loses the record that moves to flash (R482). -/
theorem execLogWrite_keeps (s : State) : leads (execLogWrite s) (Keeps s) := by
  dsimp only [execLogWrite]
  split
  · exact Keeps.refl.leads
  next r rs queue =>
    refine leads_if (logOut_keeps ⟨rfl, le_rfl, id, fun bound => ?_, id⟩) .refl
    rw [queueBounded, queue] at bound
    exact Nat.le_of_succ_le bound

theorem execLogReplayAdvance_keeps (s : State) : leads (execLogReplayAdvance s) (Keeps s) := by
  dsimp only [execLogReplayAdvance]
  split
  · exact Keeps.refl.leads
  · exact (Keeps.ite (replayShow_keeps .refl) (replayStart_keeps .refl)).leads

theorem execPowerOn_keeps (p : PowerIn) (s : State) : leads (execPowerOn p s) (Keeps s) := by
  have k : Keeps s (((s.startCore p).chooseImage p.readErrors).runRow 4 534000000) := runRow_keeps (chooseImage_keeps (startCore_keeps .refl))
  exact leads_if .refl (Keeps.ite (holdTiles_keeps k) (startLinks_keeps (startUnits_keeps k)))

theorem execStartRowOverrun_moves (row : Fin 8) (s : State) : Moves s (row != 0) (execStartRowOverrun row s) := by
  unfold execStartRowOverrun
  split
  next zero => exact ⟨Keeps.outRef, fun wf => absurd zero (bne_iff_ne.mp wf)⟩
  next => exact moves_of_leads (xingEvent_keeps .refl).leads

theorem execReady_keeps (s : State) : leads (execReady s) (Keeps s) :=
  leads_if .refl (confirmImage_keeps (Keeps.mk (runRow_keeps (Keeps.foldl (rowDone_keeps (portsSettle_keeps .refl)) fun _ _ k => refreshBlock_keeps k))))

theorem execPowerLoss_keeps (s : State) : leads (execPowerLoss s) (Keeps s) := (halted_keeps .refl).leads

theorem execModuleReset_keeps (s : State) : leads (execModuleReset s) (Keeps s) := leads_if .refl (Keeps.mk (halted_keeps .refl))

theorem execWatchdogReset_keeps (s : State) : leads (execWatchdogReset s) (Keeps s) := leads_if .refl (Keeps.mk (halted_keeps .refl))

theorem execCrossingStall_moves (x : Stall) (s : State) : Moves s (decide (x.crossing ≤ 620)) (execCrossingStall x s) := by
  dsimp only [execCrossingStall]
  split
  next beyond => exact ⟨Keeps.outRef, fun wf => absurd beyond (Nat.not_lt.mpr (of_decide_eq_true wf))⟩
  next =>
    refine moves_of_leads ?_
    generalize stalled : (s.bump 0xB030 1).xingEvent 0xB202 _ _ x.out = z
    have k : Keeps s z := stalled ▸ xingEvent_keeps (bump_keeps .refl)
    refine leads_ite Keeps.refl.leads (leads_ite (linkLost_keeps k).leads (leads_ite (hostPortDown_keeps k).leads
      (leads_ite (failChannel_keeps k).leads (leads_if ?_ k))))
    split
    · split
      · exact resetCrossings_keeps (stageFailed_keeps k)
      · exact k
    · exact k

/-! ### Every command, and every step -/

/-- Every command keeps what `Keeps` names, and takes effect where it is well formed. -/
theorem exec_moves : ∀ (i : Instr) (s : State), Moves s i.wf (exec i s)
  | .nop .., _ => issue_moves fun _ _ _ k => nopWord_keeps k
  | .endTask .., _ => issue_moves fun _ _ _ k => endWord_keeps k
  | .set .., _ => issue_moves fun _ _ _ k => setWord_keeps k
  | .alu .., _ => issue_moves fun _ _ _ k => aluWord_keeps k
  | .branch .., _ => issue_moves fun _ _ _ k => branchWord_keeps k
  | .loop .., _ => issue_moves fun _ _ _ k => loopWord_keeps k
  | .loadS .., _ => issue_moves fun _ _ _ k => loadWord_keeps k
  | .storeS .., _ => issue_moves fun _ _ _ k => storeWord_keeps k
  | .matmul .., _ => issue_moves fun _ _ _ k => matmulWord_keeps k
  | .accMove .., _ => issue_moves fun _ _ _ k => accMoveWord_keeps k
  | .accStatus .., _ => issue_moves fun _ _ _ k => accStatusWord'_keeps k
  | .pass .., _ => issue_moves fun _ _ _ k => passWord_keeps k
  | .sfnBatch .., _ => issue_moves fun _ _ _ k => sfnBatchWord_keeps k
  | .carryCompose .., _ => issue_moves fun _ _ _ k => composeWord_keeps k
  | .rowstatCombine .., _ => issue_moves fun _ _ _ k => combineWord_keeps k
  | .rowstatFinalise .., _ => issue_moves fun _ _ _ k => finaliseWord_keeps k
  | .instarLoad .., _ => issue_moves fun _ _ _ k => instarLoadWord_keeps k
  | .moveCopy .., _ => issue_move_moves fun _ _ _ k => moveWord_keeps k
  | .moveGather .., _ => issue_move_moves fun _ _ _ k => moveWord_keeps k
  | .moveScatter .., _ => issue_move_moves fun _ _ _ k => moveWord_keeps k
  | .moveScatterAdd .., _ => issue_move_moves fun _ _ _ k => moveWord_keeps k
  | .putWord .., _ => issue_moves fun _ _ _ k => putWord'_keeps k
  | .getWord .., _ => issue_moves fun _ _ _ k => getWord'_keeps k
  | .accumulateWord .., _ => issue_moves fun _ _ _ k => accumulateWord'_keeps k
  | .atomicWord .., _ => issue_moves fun _ _ _ k => atomicWord'_keeps k
  | .multicastWord .., _ => issue_moves fun _ _ _ k => multicastWord'_keeps k
  | .signalWord .., _ => issue_moves fun _ _ _ k => signalWord'_keeps k
  | .countWait .., _ => issue_moves fun _ _ _ k => countWaitWord_keeps k
  | .barrierArrive .., _ => issue_moves fun _ _ _ k => barrierArriveWord_keeps k
  | .barrierWait .., _ => issue_moves fun _ _ _ k => barrierWaitWord_keeps k
  | .hostSignal .., _ => issue_moves fun _ _ _ k => hostSignalWord_keeps k
  | .hostWait .., _ => issue_moves fun _ _ _ k => hostWaitWord_keeps k
  | .enqueue .., _ => issue_moves fun _ _ _ k => enqueueWord_keeps k
  | .queueState .., _ => issue_moves fun _ _ _ k => queueStateWord_keeps k
  | .engineWordComplete .., _ => moves_of_leads (execEngineWordComplete_keeps _ _ _ _ _)
  | .kernelReady .., _ => moves_of_leads (execKernelReady_keeps _ _ _ _)
  | .sequencerWrite .., _ => moves_of_leads (execSequencerWrite_keeps _ _ _ _ _)
  | .taskTake .., _ => moves_of_leads (execTaskTake_keeps _ _)
  | .stealProbe .., _ => moves_of_leads (execStealProbe_keeps _ _)
  | .probeServe .., _ => moves_of_leads (execProbeServe_keeps _ _ _)
  | .vesperSuspend .., _ => moves_of_leads (execVesperSuspend_keeps _ _)
  | .noonResume .., _ => moves_of_leads (execNoonResume_keeps _ _)
  | .suspendOverrun .., _ => moves_of_leads (execSuspendOverrun_keeps _ _)
  | .wakeWire .., _ => moves_of_leads (execWakeWire_keeps _ _ _)
  | .retentionEntry .., _ => moves_of_leads (execRetentionEntry_keeps _ _)
  | .retentionWakeFailure .., _ => moves_of_leads (execRetentionWakeFailure_keeps _ _)
  | .statusRefresh .., _ => moves_of_leads (execStatusRefresh_keeps _ _ _ _)
  | .packageStart .., _ => moves_of_leads (execPackageStart_keeps _ _)
  | .stepStart .., _ => moves_of_leads (execStepStart_keeps _ _)
  | .layerFlip .., _ => moves_of_leads (execLayerFlip_keeps _ _ _)
  | .packageComplete .., _ => moves_of_leads (execPackageComplete_keeps _ _)
  | .channelRequest .., _ => execChannelRequest_moves _ _ _
  | .refresh .., _ => moves_of_leads (execRefresh_keeps _ _ _ _)
  | .patrolScrub .., _ => moves_of_leads (execPatrolScrub_keeps _ _ _)
  | .channelFail .., _ => moves_of_leads (execChannelFail_keeps _ _)
  | .stackSensorRead .., _ => moves_of_leads (execStackSensorRead_keeps _ _ _ _)
  | .thermalHoldRelease, _ => moves_of_leads (execThermalHoldRelease_keeps _)
  | .frameReceive .., _ => moves_of_leads (execFrameReceive_keeps _ _ _)
  | .frameForward .., _ => moves_of_leads (execFrameForward_keeps _ _)
  | .frameTransmit .., _ => moves_of_leads (execFrameTransmit_keeps _ _)
  | .writeFrame .., _ => moves_of_leads (onRequest_keeps fun _ k => writeFrame_keeps k)
  | .readFrame .., _ => moves_of_leads (execReadFrame_keeps _ _ _)
  | .readDataFrame .., _ => moves_of_leads (execReadDataFrame_keeps _ _ _)
  | .accumulateFrame .., _ => moves_of_leads (onRequest_keeps fun _ k => accumulateFrame_keeps k)
  | .atomicFrame .., _ => moves_of_leads (onRequest_keeps fun _ k => atomicFrame_keeps k)
  | .atomicDataFrame .., _ => moves_of_leads (onReply_keeps fun _ _ k => endXfer_keeps (writeLocal_keeps k))
  | .signalFrame .., _ => moves_of_leads (onRequest_keeps fun _ k => applied_keeps k)
  | .barrierArriveFrame .., _ => moves_of_leads (execBarrierArriveFrame_keeps _ _ _)
  | .barrierReleaseFrame .., _ => moves_of_leads (execBarrierReleaseFrame_keeps _ _ _)
  | .multicastFrame .., _ => moves_of_leads (onRequest_keeps fun _ k => writeFrame_keeps k)
  | .noticeFault .., _ => moves_of_leads (execNoticeFault_keeps _ _ _)
  | .noticeLate .., _ => moves_of_leads (onNotice_keeps fun _ _ k => k)
  | .noticeHealth .., _ => moves_of_leads (onNotice_keeps fun _ _ k => k)
  | .ackFrame .., _ => moves_of_leads (onReply_keeps fun _ _ k => endXfer_keeps k)
  | .errorFrame .., _ => moves_of_leads (execErrorFrame_keeps _ _ _)
  | .fenceFrame .., _ => moves_of_leads (execFenceFrame_keeps _ _ _)
  | .linkCtrlCredit .., _ => moves_of_leads (execLinkCtrlCredit_keeps _ _ _)
  | .linkCtrlIdentity .., _ => moves_of_leads (execLinkCtrlIdentity_keeps _ _ _)
  | .linkCtrlEcho .., _ => moves_of_leads (execLinkCtrlEcho_keeps _ _ _)
  | .linkCtrlNak .., _ => moves_of_leads (execLinkCtrlNak_keeps _ _ _)
  | .linkCtrlPortStates .., _ => moves_of_leads (execLinkCtrlPortStates_keeps _ _ _)
  | .linkCtrlFenceDone .., _ => moves_of_leads (execLinkCtrlFenceDone_keeps _ _ _)
  | .creditReturn .., _ => moves_of_leads (execCreditReturn_keeps _ _)
  | .linkUp .., _ => moves_of_leads (execLinkUp_keeps _ _)
  | .linkDown .., _ => moves_of_leads (execLinkDown_keeps _ _)
  | .ackStall .., _ => moves_of_leads (execAckStall_keeps _ _)
  | .trainingAttempt .., _ => moves_of_leads (execTrainingAttempt_keeps _ _)
  | .linkRestore .., _ => moves_of_leads (execLinkRestore_keeps _ _)
  | .quarantineEnd .., _ => moves_of_leads (execQuarantineEnd_keeps _ _)
  | .transferTimeout .., _ => moves_of_leads (execTransferTimeout_keeps _ _)
  | .rekeyStart .., _ => moves_of_leads (execRekeyStart_keeps _ _)
  | .rekeyFailed .., _ => moves_of_leads (execRekeyFailed_keeps _ _)
  | .oldSaRetire .., _ => moves_of_leads (execOldSaRetire_keeps _ _)
  | .countIncrement .., _ => execCountIncrement_moves _ _ _ _
  | .barrierTimeout .., _ => moves_of_leads (execBarrierTimeout_keeps _ _ _)
  | .signalOut .., _ => moves_of_leads (execSignalOut_keeps _ _)
  | .bucketDeadline .., _ => moves_of_leads (execBucketDeadline_keeps _ _ _)
  | .stepCloseLimit .., _ => moves_of_leads (execStepCloseLimit_keeps _ _)
  | .checkGrace .., _ => moves_of_leads (execCheckGrace_keeps _ _ _)
  | .checkCompare .., _ => moves_of_leads (execCheckCompare_keeps _ _ _)
  | .verdictRound .., _ => moves_of_leads (execVerdictRound_keeps _ _)
  | .verdictForm .., _ => moves_of_leads (execVerdictForm_keeps _ _)
  | .verdictReceive .., _ => moves_of_leads (execVerdictReceive_keeps _ _)
  | .bucketClear .., _ => moves_of_leads (execBucketClear_keeps _ _ _)
  | .generationPrepare .., _ => moves_of_leads (execGenerationPrepare_keeps _ _)
  | .parityFold .., _ => moves_of_leads (execParityFold_keeps _ _)
  | .generationCommit .., _ => moves_of_leads (execGenerationCommit_keeps _ _)
  | .generationPromote .., _ => moves_of_leads (execGenerationPromote_keeps _ _)
  | .healthTick, _ => moves_of_leads (execHealthTick_keeps _)
  | .restoreGather .., _ => moves_of_leads (execRestoreGather_keeps _ _)
  | .restoreApply .., _ => moves_of_leads (execRestoreApply_keeps _ _)
  | .spareRefill .., _ => moves_of_leads (execSpareRefill_keeps _ _)
  | .restoreReload .., _ => moves_of_leads (execRestoreReload_keeps _ _)
  | .evalWindowOpen .., _ => moves_of_leads (execEvalWindowOpen_keeps _ _)
  | .evalWindowClose .., _ => moves_of_leads (execEvalWindowClose_keeps _ _)
  | .evalWindowOverrun .., _ => moves_of_leads (execEvalWindowOverrun_keeps _ _)
  | .monarchWindow .., _ => moves_of_leads (execMonarchWindow_keeps _ _ _)
  | .grantExhausted .., _ => moves_of_leads (execGrantExhausted_keeps _ _)
  | .supplyStep .., _ => moves_of_leads (execSupplyStep_keeps _ _)
  | .logicSensorRead .., _ => moves_of_leads (execLogicSensorRead_keeps _ _ _)
  | .heatGrantHalve .., _ => moves_of_leads (execHeatGrantHalve_keeps _ _)
  | .supplyUnder .., _ => moves_of_leads (execSupplyUnder_keeps _ _)
  | .inputOutOfRange .., _ => moves_of_leads (execInputOutOfRange_keeps _ _)
  | .bladeSense .., _ => moves_of_leads (execBladeSense_keeps _ _ _)
  | .bladePairLost .., _ => moves_of_leads (execBladePairLost_keeps _ _)
  | .bladePairRestored .., _ => moves_of_leads (execBladePairRestored_keeps _ _)
  | .lateTimer .., _ => moves_of_leads (execLateTimer_keeps _ _)
  | .arbiterRequest .., _ => moves_of_leads (execArbiterRequest_keeps _ _ _ _ _)
  | .arbiterGrant .., _ => moves_of_leads (execArbiterGrant_keeps _ _)
  | .openConn .., _ => execOpenConn_moves _ _ _ _ _ _ _
  | .openPendingExpiry .., _ => moves_of_leads (execOpenPendingExpiry_keeps _ _)
  | .closeConn .., _ => onDatagram_moves _ _ _ _ _
  | .khtAck .., _ => onDatagram_moves _ _ _ _ _
  | .khtRetransmit .., _ => moves_of_leads (execKhtRetransmit_keeps _ _ _)
  | .khtIdleTimeout .., _ => moves_of_leads (execKhtIdleTimeout_keeps _ _)
  | .khtIdleAck .., _ => moves_of_leads (execKhtIdleAck_keeps _ _)
  | .submit .., _ => onDatagram_moves _ _ _ _ _
  | .abandon .., _ => onDatagram_moves _ _ _ _ _
  | .khtPut .., _ => onDatagram_moves _ _ _ _ _
  | .khtGet .., _ => onDatagram_moves _ _ _ _ _
  | .signalIn .., _ => onDatagram_moves _ _ _ _ _
  | .statusRead .., _ => onDatagram_moves _ _ _ _ _
  | .attest .., _ => onDatagram_moves _ _ _ _ _
  | .keyReleaseWeightKey .., _ => onDatagram_moves _ _ _ _ _
  | .keyReleaseUnseal .., _ => onDatagram_moves _ _ _ _ _
  | .keyReleaseTenantGrant .., _ => onDatagram_moves _ _ _ _ _
  | .zeroingComplete, _ => moves_of_leads (execZeroingComplete_keeps _)
  | .imagoRequest .., _ => onDatagram_moves _ _ _ _ _
  | .unlockLevel1 .., _ => onDatagram_moves _ _ _ _ _
  | .unlockLevel2Request .., _ => onDatagram_moves _ _ _ _ _
  | .unlockLevel2Response .., _ => onDatagram_moves _ _ _ _ _
  | .unlockExpiry .., _ => moves_of_leads (execUnlockExpiry_keeps _ _)
  | .lockoutEnd, _ => moves_of_leads (execLockoutEnd_keeps _)
  | .hostQuarantineEnd .., _ => moves_of_leads (execHostQuarantineEnd_keeps _ _)
  | .icmpv6Request .., _ => moves_of_leads (execIcmpv6Request_keeps _ _ _ _)
  | .stage .., _ => onDatagram_moves _ _ _ _ _
  | .flashOpComplete .., _ => moves_of_leads (execFlashOpComplete_keeps _ _)
  | .crossingStall .., _ => execCrossingStall_moves _ _
  | .powerOn .., _ => moves_of_leads (execPowerOn_keeps _ _)
  | .startRowOverrun .., _ => execStartRowOverrun_moves _ _
  | .ready, _ => moves_of_leads (execReady_keeps _)
  | .powerLoss, _ => moves_of_leads (execPowerLoss_keeps _)
  | .moduleReset, _ => moves_of_leads (execModuleReset_keeps _)
  | .watchdogReset, _ => moves_of_leads (execWatchdogReset_keeps _)
  | .logWrite, _ => moves_of_leads (execLogWrite_keeps _)
  | .logReplayAdvance, _ => moves_of_leads (execLogReplayAdvance_keeps _)
  | .trainingAttemptFailed .., _ => moves_of_leads (execTrainingAttemptFailed_keeps _ _)
  | .identityExchangeTick .., _ => moves_of_leads (execIdentityExchangeTick_keeps _ _)
  | .unsealComplete .., _ => moves_of_leads (execUnsealComplete_keeps _ _)
  | .dieLost d, _ => moves_of_leads (execDieLost_keeps d _)
  | .sequencerControlMessage .., _ => moves_of_leads (updPkg_keeps .refl).leads
  | .mkaFrame .., _ => moves_of_leads (execMkaFrame_keeps _ _ _ _)

theorem step_of_pending {s : State} {c : Instr} {rest : List Instr} (h : s.pending = c :: rest) :
    step s = exec c { s with pending := rest } := by
  rw [step, h]

theorem step_of_empty {s : State} (h : s.pending = []) : step s = .next s.tick := by
  rw [step, h]

/-- What `Keeps` names but for the queue of commands, from which a step takes the front one. -/
structure StepKeeps (s t : State) : Prop where
  fused : s.img.fused ≤ t.img.fused
  dram : dramCanonical s → dramCanonical t
  queue : queueBounded s → queueBounded t
  rollback : s.img.fused ≤ 63 ∧ s.img.rollback ≤ 63 → t.img.fused ≤ 63 ∧ t.img.rollback ≤ 63

theorem Keeps.stepKeeps {s t : State} (h : Keeps s t) : StepKeeps s t := ⟨h.2.1, h.2.2.1, h.2.2.2.1, h.2.2.2.2⟩

theorem step_keeps {s t : State} (h : step s = .next t) : StepKeeps s t := by
  cases pending : s.pending with
  | nil =>
    rw [step_of_empty pending] at h
    cases h
    exact (tick_keeps .refl).stepKeeps
  | cons c rest =>
    rw [step_of_pending pending] at h
    obtain ⟨fused, dram, queue, rollback⟩ := ((exec_moves c _).1 t h).stepKeeps
    exact ⟨fused, dram, queue, rollback⟩

end Sys2Proof.Machine
end

section
/-!
READY (R427, R456, R457) and the edges of a step: what an empty queue leaves, which commands are refused as ill formed (logs 50
and 51), and the state after reset.
-/
namespace Sys2Proof.Machine

set_option Elab.async false

/-! ### READY (R427, R456) -/

/-- The image that runs and the stacked memory, which the last rows of a start leave as they are. -/
def State.imaged (s : State) : ImgState × MemState := (s.img, s.mem)

section
variable {s z : State} (h : z.imaged = s.imaged)
include h

theorem State.img_of_imaged : z.img = s.img := congrArg Prod.fst h

theorem State.mem_of_imaged : z.mem = s.mem := congrArg Prod.snd h

end

theorem State.imaged_foldl {α : Type} {f : State → α → State} (hf : ∀ z x, (f z x).imaged = z.imaged) (xs : List α) (s : State) :
    (xs.foldl f s).imaged = s.imaged :=
  List.foldlRecOn (motive := fun z => z.imaged = s.imaged) xs f rfl fun z kept x _ => (hf z x).trans kept

theorem State.imaged_setSt (s : State) (p st : Nat) : (s.setSt p st).imaged = s.imaged :=
  (congrArg State.imaged (s.setSt_sends p st).beside :)

theorem State.imaged_portsSettle (s : State) : s.portsSettle.imaged = s.imaged := by
  unfold State.portsSettle
  split
  · rfl
  · refine State.imaged_foldl (fun z p => ?_) _ s
    dsimp only
    split
    · exact State.imaged_setSt _ p 0
    · rfl

theorem State.imaged_publishBoth (s : State) (b : Nat) : (s.publishBoth b).imaged = s.imaged := by
  rw [State.imaged, State.publishBoth, State.imaged]

theorem State.imaged_refreshBlock (s : State) (b : Nat) : (s.refreshBlock b).imaged = s.imaged := by
  unfold State.refreshBlock
  split
  · exact (State.imaged_publishBoth _ b).trans rfl
  · exact s.imaged_publishBoth b

theorem State.imaged_runRow (s : State) (row bound : Nat) : (s.runRow row bound).imaged = s.imaged := rfl

theorem State.imaged_withStart (s : State) (x : StartState) : State.imaged { s with start := x } = s.imaged := rfl

/-- The module at the end of row 7, before the image is confirmed. -/
def State.rowSeven (s : State) : State :=
  let z := ((List.range 12).foldl (fun (s : State) b => s.refreshBlock b) (s.portsSettle.rowDone 6)).runRow 7 100000000
  { z with start := { z.start with phase := .ready, readyAt := z.start.timer } }

theorem State.imaged_rowSeven (s : State) : s.rowSeven.imaged = s.imaged := by
  rw [State.rowSeven, State.imaged_withStart, State.imaged_runRow, State.imaged_foldl State.imaged_refreshBlock, State.rowDone,
    State.imaged_withStart, State.imaged_portsSettle]

theorem exec_ready {s : State} (h : s.start.phase = .starting) : exec .ready s = .next s.rowSeven.confirmImage := by
  change execReady s = _
  rw [execReady, if_neg (not_not.mpr h), State.rowSeven]

theorem State.mem_confirmImage (s : State) : s.confirmImage.mem = s.mem := by
  unfold State.confirmImage
  split <;> rfl

theorem State.start_confirmImage (s : State) : s.confirmImage.start = s.start := by
  unfold State.confirmImage
  split <;> rfl

/-- Zeros programmed into CONFIRMED read as such: bits change from 1 to 0 only (R421). -/
theorem confirmed_flashProgram (f : Sp Byte) (b : Bool) : confirmed (flashProgram f (recordAt b + 0x68) (leBytes 8 0)) b = true := by
  have cleared : Sp.get 0xFF#8 (flashProgram f (recordAt b + 0x68) (leBytes 8 0)) (recordAt b + 0x68) = 0 := by
    rw [leBytes, flashProgram, flashProgram_far (Nat.lt_succ_self _), Sp.get_put_self]
    exact BitVec.and_zero
  rw [confirmed, List.any_eq_true]
  refine ⟨0, List.mem_map.mpr ⟨0, List.mem_range.mpr (by omega), cleared⟩, by decide⟩

/-- READY programs CONFIRMED of the bank that runs and raises the fused level to its ROLLBACK (R427). -/
theorem State.confirmImage_img {s : State} {b : Bool} (h : s.img.bank = some b) :
    confirmed s.confirmImage.img.flash b = true ∧ s.confirmImage.img.fused = max s.img.fused s.img.rollback := by
  simp only [State.confirmImage, h]
  refine ⟨?_, trivial⟩
  split
  · assumption
  · exact confirmed_flashProgram _ b

/-! ### Refusals (logs 50 and 51) -/

theorem exec_set_refused {w : BitVec 128} (known : tableOpcodes.contains (wordOpcode w) = true) (other : wordOpcode w ≠ 0x02)
    (t : TileId) (v : Bool) (s : State) : exec (.set t v w) s = .refused .illFormed := by
  change issue (ofOpcode 0x02) _ t v w s = _
  have mine : ofOpcode 0x02 w.toNat = false := by
    rw [ofOpcode, opcodeOf_toNat]
    exact beq_eq_false_iff_ne.mpr other
  rw [issue, opcodeOk_iff, opcodeOf_toNat, known, mine]
  rfl

theorem onDatagram_refused {h : KHdr} {type : Nat} (known : hostMessageTypes.contains h.type.toNat = true) (other : h.type.toNat ≠ type)
    (ok : Bool) (m : Option HMsg) (s : State) : onDatagram h type ok m s = .refused .illFormed :=
  if_pos ⟨known, other⟩

theorem countRefBad_eq (r : BitVec 32) : countRefBad r.toNat = !countRefOk r := by
  rw [countRefBad, countRefOk, Bool.not_and, fld, Nat.shiftRight_eq_div_pow]
  rfl

theorem exec_countIncrement_refused {r n : BitVec 32} (bad : countRefOk r = false ∨ n = 0 ∨ 2 ^ 31 ≤ n.toNat) (job : BitVec 16) (s : State) :
    exec (.countIncrement job r n) s = .refused .illFormed := by
  change execCountIncrement job r n s = _
  refine if_pos ?_
  rw [Bool.or_eq_true, Bool.or_eq_true, beq_iff_eq, decide_eq_true_eq, or_assoc]
  exact bad.imp_left fun ref => by rw [countRefBad_eq, ref, Bool.not_false]

end Sys2Proof.Machine

/-! ### The obligations -/

section
open Sys2Proof Sys2Proof.Machine

set_option Elab.async false

/-- Settles O1: `step` is defined so. -/
theorem stepRunsFrontCommand : Obligations.StepRunsFrontCommand := fun _ _ _ => step_of_pending

/-- Settles O2: the tick writes the duration timer alone; each refusal is the guard of its command. -/
theorem queueEdges : Obligations.QueueEdges := by
  refine ⟨fun s empty => ⟨s.tick, step_of_empty empty, ?tick⟩, fun s => ⟨fun t v w known other => exec_set_refused known other t v s,
    fun h known other => onDatagram_refused known other _ _ s, fun h r e k n g other => if_pos other, rfl, fun n rx beyond => if_pos beyond,
    fun j r n bad => exec_countIncrement_refused bad j s⟩⟩
  case tick =>
    unfold State.tick
    split <;> exact ⟨rfl, rfl⟩

/-- Settles O3: no operation writes `pending`. -/
theorem execKeepsQueue : Obligations.ExecKeepsQueue := fun c s s' h => ((exec_moves c s).1 s' h).1

/-- Settles O4: the refusals lie outside well-formed commands. -/
theorem wellFormedCommandsRun : Obligations.WellFormedCommandsRun := fun i s wf => (exec_moves i s).2 wf

/-- Settles O5: each field of the reset state is empty or at its start value. -/
theorem resetState : Obligations.ResetState :=
  ⟨⟨rfl, rfl, rfl, rfl, fun _ => rfl, fun _ => rfl, fun _ => rfl, fun _ => rfl, rfl, rfl, rfl, rfl, rfl, rfl, rfl, fun _ => rfl, fun _ => rfl, rfl, rfl, rfl⟩,
    rfl, Nat.zero_le _⟩

/-- Settles O6: every memory operation keeps the canonical form, and every command is made of such operations. -/
theorem stepKeepsMemoryCanonical : Obligations.StepKeepsMemoryCanonical := fun _ _ canonical h => (step_keeps h).dram canonical

/-- Settles O7: a record enters the queue only where it has room. -/
theorem stepKeepsLogQueueBounded : Obligations.StepKeepsLogQueueBounded := fun _ _ bounded h => (step_keeps h).queue bounded

/-- Settles O8: READY alone writes the fused level, as the larger of it and the running image's ROLLBACK. -/
theorem rollbackLevel : Obligations.RollbackLevel := by
  refine ⟨rfl, rfl, fun s b starting bank => ?_, fun s s' h => (step_keeps h).fused, fun s s' low h => (step_keeps h).rollback low⟩
  have kept : s.rowSeven.img = s.img := State.img_of_imaged s.imaged_rowSeven
  have written := State.confirmImage_img (s := s.rowSeven) (b := b) (kept ▸ bank)
  rw [kept] at written
  exact ⟨_, exec_ready starting, written⟩

end
end

section
/-!
The flash interface, the log, crossings and the start (R444, R450, R452, R456, R458, R459, R462, R482, R486).
-/
namespace Sys2Proof.Machine

set_option Elab.async false

/-! ### The log's writer (R482) -/

/-- What a record's way to flash leaves alone: the queue, the next LOG_SEQ, the memory, the tiles and the fused level. -/
def State.besideRing (s : State) : List LogRec × W64 × MemState × List (Nat × TileState) × Nat :=
  (s.log.queue, s.log.next, s.mem, s.tiles, s.img.fused)

theorem State.besideRing_roomForRecord (s : State) : s.roomForRecord.besideRing = s.besideRing := by
  unfold State.roomForRecord
  split
  · rfl
  · split <;> rfl

theorem State.besideRing_setWords (ws : List Nat) (s : State) (k : Nat) : (s.setWords k ws).besideRing = s.besideRing := by
  induction ws generalizing s k with
  | nil => rfl
  | cons w ws ih => exact ih (s.setWord k (BitVec.ofNat 64 w)) (k + 8)

theorem State.besideRing_flashPass (s : State) (b : List Byte) : (s.flashPass b).besideRing = s.besideRing := by
  unfold State.flashPass
  split <;> rfl

theorem State.roomForRecord_pos (s : State) : s.roomForRecord.log.pos.isSome = true := by
  unfold State.roomForRecord
  split
  · rfl
  · split
    · simp [*]
    · rfl

/-- The next LOG_SEQ is taken. -/
theorem State.besideRing_counted {s z : State} (h : z.besideRing = s.besideRing) :
    State.besideRing { z with log := { z.log with next := z.log.next + 1 } } = (s.log.queue, s.log.next + 1, s.mem, s.tiles, s.img.fused) := by
  obtain ⟨queue, next, mem, tiles, fused⟩ := by simpa only [State.besideRing, Prod.mk.injEq] using h
  simp only [State.besideRing, queue, next, mem, tiles, fused]

/-- A record's way to flash takes the next LOG_SEQ, and nothing else of what stands beside the ring. -/
theorem State.besideRing_logOut (s : State) (r : LogRec) :
    (s.logOut r).besideRing = (s.log.queue, s.log.next + 1, s.mem, s.tiles, s.img.fused) := by
  have room := s.roomForRecord_pos
  unfold State.logOut
  dsimp only
  split
  · simp_all
  · rw [State.besideRing_flashPass]
    apply State.besideRing_counted
    rw [State.besideRing_setWords]
    exact s.besideRing_roomForRecord

theorem exec_logWrite_moves {s : State} {r : LogRec} {rs : List LogRec} (oldest : s.log.queue = r :: rs) (scanned : s.log.scanned = true)
    (rate : (s.log.taken.filter fun t => decide (s.now < t + 1000000000)).length < 32) :
    leads (exec .logWrite s) fun s' => s'.log.queue = rs ∧ s'.log.next = s.log.next + 1 ∧ s'.mem = s.mem ∧ s'.tiles = s.tiles ∧
      s'.img.fused = s.img.fused := by
  change leads (execLogWrite s) _
  rw [execLogWrite, oldest]
  dsimp only
  rw [if_pos ⟨scanned, rate⟩]
  refine ⟨_, rfl, ?_⟩
  have out := State.besideRing_logOut
    { s with log := { s.log with queue := rs, taken := (s.log.taken.filter fun t => decide (s.now < t + 1000000000)) ++ [s.now] } } r
  simpa only [State.besideRing, Prod.mk.injEq] using out

theorem exec_logReplayAdvance_shown {s : State} {q : W64} (shown : s.log.replay = some q) : exec .logReplayAdvance s =
    .next (if (q + 16).toNat < s.log.next.toNat then s.replayShow (q + 16) else s.replayStart) := by
  change execLogReplayAdvance s = _
  rw [execLogReplayAdvance, shown]

/-! ### Operations of a staging (R444) -/

section
variable {s : State} {g : Staging} {x : W64 × Nat × List Byte} {rest : List (W64 × Nat × List Byte)}
  (staged : s.img.staging = some g) (oldest : g.pend = x :: rest)
include staged oldest

theorem exec_flashOpComplete_failed :
    exec (.flashOpComplete false) s = .next ((s.flashTook x.2.2 rest).stageFailed g x.2.1 x.2.2.length) := by
  change execFlashOpComplete false s = _
  rw [execFlashOpComplete, staged]
  dsimp only
  rw [oldest]
  rfl

theorem exec_flashOpComplete_erased (first : g.st = 1) : exec (.flashOpComplete true) s =
    .next (((s.flashTook x.2.2 rest).setFlash (stageErase (s.flashTook x.2.2 rest).img.flash g)).stageProgrammed g x rest) := by
  change execFlashOpComplete true s = _
  rw [execFlashOpComplete, staged]
  dsimp only
  rw [oldest]
  dsimp only
  rw [if_neg (by decide), if_pos first]

theorem exec_flashOpComplete_programmed (later : g.st = 2) :
    exec (.flashOpComplete true) s = .next ((s.flashTook x.2.2 rest).stageProgrammed g x rest) := by
  change execFlashOpComplete true s = _
  rw [execFlashOpComplete, staged]
  dsimp only
  rw [oldest]
  dsimp only
  rw [if_neg (by decide), if_neg (by omega), if_pos later]

end

/-! ### Overruns and stalls (R452, R455, R458, R462) -/

theorem exec_startRowOverrun_row {row : Fin 8} (h : row ≠ 0) (s : State) :
    exec (.startRowOverrun row) s = .next (s.xingEvent 0xB101 0 row.val false) :=
  if_neg h

/-- A stall is counted and recorded first. -/
def State.stalled (s : State) (kind inst : Nat) (dir : Bool) : State := (s.bump 0xB030 1).xingEvent 0xB202 kind inst dir

theorem State.stalled_img (s : State) (kind inst : Nat) (dir : Bool) : (s.stalled kind inst dir).img = s.img :=
  (congrArg (·.img) ((s.bump 0xB030 1).xingEvent_logged 0xB202 kind inst dir).choose_spec.choose_spec.choose_spec).trans rfl

section
variable {s : State} {n : Nat} (rx : Bool)

theorem exec_crossingStall_stopped (known : n ≤ 620) (stopped : s.clockRuns (stalledIsland n) = false) :
    exec (.crossingStall ⟨n, rx⟩) s = .next s := by
  change execCrossingStall ⟨n, rx⟩ s = _
  rw [execCrossingStall, if_neg (by dsimp only; omega), if_pos (by simp [stopped])]

theorem exec_crossingStall_port (port : n < 42) (runs : s.clockRuns (.port n) = true) : exec (.crossingStall ⟨n, rx⟩) s =
    .next (if n < 40 then (s.stalled 0 n rx).linkLost n false else (s.stalled 0 n rx).hostPortDown n) := by
  have island : stalledIsland n = .port n := if_pos port
  change execCrossingStall ⟨n, rx⟩ s = _
  rw [execCrossingStall]
  dsimp only
  rw [if_neg (by omega), island, runs, if_neg (by decide), if_pos port, if_pos port, if_pos port, ← apply_ite, State.stalled]

theorem exec_crossingStall_service (runs : s.start.phase ≠ .off) :
    exec (.crossingStall ⟨42, rx⟩) s = .next (s.stalled 1 0 rx) := by
  have clock : s.clockRuns .service = true := by simpa [State.clockRuns] using runs
  change execCrossingStall ⟨42, rx⟩ s = _
  rw [execCrossingStall, show stalledIsland (Stall.crossing ⟨42, rx⟩) = .service from rfl, clock]
  rfl

theorem exec_crossingStall_channel (low : 43 ≤ n) (high : n ≤ 618) (runs : s.clockRuns (.phy (n - 43)) = true) :
    exec (.crossingStall ⟨n, rx⟩) s = .next ((s.stalled 2 (n - 43) rx).failChannel (n - 43)) := by
  have island : stalledIsland n = .phy (n - 43) := by
    rw [stalledIsland, if_neg (by omega), if_neg (by omega), if_pos (by omega)]
  change execCrossingStall ⟨n, rx⟩ s = _
  rw [execCrossingStall]
  dsimp only
  rw [if_neg (by omega), island, runs, if_neg (by decide)]
  simp only [low, show n < 619 by omega, show ¬n < 42 by omega, show ¬n = 42 by omega, show ¬n < 40 by omega, and_self, if_true, if_false,
    State.stalled]

theorem exec_crossingStall_flash {g : Staging} {x : W64 × Nat × List Byte} {rest : List (W64 × Nat × List Byte)}
    (staged : s.img.staging = some g) (oldest : g.pend = x :: rest) (runs : s.clockRuns .flash = true) :
    exec (.crossingStall ⟨619, rx⟩) s =
      .next (((s.stalled 3 0 rx).stageFailed g x.2.1 x.2.2.length).resetCrossings [flashIn, flashOut]) := by
  have still : (s.stalled 3 0 rx).img.staging = some g := (congrArg (·.staging) (s.stalled_img 3 0 rx)).trans staged
  have island : stalledIsland 619 = .flash := by decide
  change execCrossingStall ⟨619, rx⟩ s = _
  rw [execCrossingStall]
  dsimp only
  rw [if_neg (by decide), island, runs, if_neg (by decide)]
  simp only [Nat.reduceLT, Nat.reduceLeDiff, Nat.reduceEqDiff, Nat.reduceSub, and_false, if_true, if_false]
  rw [← State.stalled, still]
  dsimp only
  rw [oldest]

theorem exec_crossingStall_timer (runs : s.start.runs = true) :
    exec (.crossingStall ⟨620, rx⟩) s = .next (s.stalled 4 0 rx) := by
  have island : stalledIsland 620 = .timer := by decide
  have clock : s.clockRuns .timer = true := runs
  change execCrossingStall ⟨620, rx⟩ s = _
  rw [execCrossingStall]
  dsimp only
  rw [if_neg (by decide), island, clock, if_neg (by decide)]
  simp only [Nat.reduceLT, Nat.reduceLeDiff, Nat.reduceEqDiff, Nat.reduceSub, and_false, if_false, State.stalled]

end

/-! ### Power and reset (R456, R459, R465) -/

theorem exec_powerOn_starts {s : State} {p : PowerIn} (off : s.start.phase = .off) (core : p.coreOk = true) (volts : 400 ≤ p.volts) :
    let s1 := ((s.startCore p).chooseImage p.readErrors).runRow 4 534000000
    exec (.powerOn p) s = .next (if s1.start.phase = .safe then s1.holdTiles else (s1.startUnits p).startLinks) :=
  if_neg (by simp [off, core]; omega)

theorem exec_ready_starts {s : State} (h : s.start.phase = .starting) :
    leads (exec .ready s) fun s' => s'.start.phase = .ready ∧ s'.mem = s.mem := by
  refine ⟨_, exec_ready h, ?_, ?_⟩
  · rw [State.start_confirmImage]; rfl
  · rw [State.mem_confirmImage, State.mem_of_imaged s.imaged_rowSeven]

theorem exec_moduleReset_halts {s : State} (on : s.start.phase ≠ .off) : exec .moduleReset s =
    .next { s.halted true with start := { (s.halted true).start with
      cause := 1, pinResets := s.start.pinResets + 1, owed := (s.halted true).start.owed ++ [0xB301] } } :=
  if_neg on

theorem exec_watchdogReset_halts {s : State} (on : s.start.phase ≠ .off) : exec .watchdogReset s =
    .next { s.halted true with start := { (s.halted true).start with
      cause := 2, watchdogs := s.start.watchdogs + 1, owed := (s.halted true).start.owed ++ [0xB103] } } :=
  if_neg on

/-! ### A crossing's two sides (R450) -/

theorem Crossing.give_of_free {n : Nat} {x : Crossing} (item : List Byte) (free : x.full x.put = false) :
    ∃ y, x.give n item = some y ∧ y.full x.put = true ∧ Sp.get [] y.regs x.put = item ∧ y.put = (x.put + 1) % n ∧ y.take = x.take ∧
      ∀ k, k ≠ x.put → y.full k = x.full k ∧ Sp.get [] y.regs k = Sp.get [] x.regs k := by
  obtain ⟨y, given⟩ : ∃ y, x.give n item = some y := by
    rw [← Option.isSome_iff_exists, Option.isSome_iff_ne_none, Ne, Crossing.give_none_iff, free]
    decide
  obtain ⟨-, full, stands, next, take, -, -⟩ := Crossing.give_some given
  exact ⟨y, given, full, stands, next, take, fun k hk => Crossing.give_others given hk⟩

theorem Crossing.receive_of_full {n : Nat} {x : Crossing} (full : x.full x.take = true) :
    ∃ y, x.receive n = some (Sp.get [] x.regs x.take, y) ∧ y.full x.take = false ∧ y.take = (x.take + 1) % n ∧ y.put = x.put ∧
      y.regs = x.regs ∧ ∀ k, k ≠ x.take → y.full k = x.full k := by
  have received : x.receive n = some (Sp.get [] x.regs x.take,
      { x with ack := Sp.put false x.ack x.take (!Sp.get false x.ack x.take), take := (x.take + 1) % n }) := if_pos full
  obtain ⟨-, free, -, next, put, regs⟩ := Crossing.receive_some received
  exact ⟨_, received, free, next, put, regs, fun k hk => by simp [Crossing.full, Sp.get_put_ne _ _ hk]⟩

end Sys2Proof.Machine
end

section
/-!
The arbiters (R363 to R367): the order of requests, and what a grant, a request and the end of a unit write.
-/
namespace Sys2Proof.Machine

set_option Elab.async false

theorem length_eraseFirst_of_mem {α : Type} {p : α → Bool} {x : α} {xs : List α} (mem : x ∈ xs) (hp : p x = true) :
    (eraseFirst p xs).length + 1 = xs.length := by
  induction xs with
  | nil => cases mem
  | cons y ys ih =>
    unfold eraseFirst
    split
    · rfl
    · next hy =>
      rcases List.mem_cons.mp mem with rfl | tail
      · exact absurd hp hy
      · exact congrArg (· + 1) (ih tail)

/-! ### The order of requests (R365) -/

section
variable {a : Arbiter}

theorem Arbiter.before_iff {x y : ArbReq} :
    a.before x y = true ↔ a.rankOf x < a.rankOf y ∨ (a.rankOf x = a.rankOf y ∧ x.age < y.age) := by
  simp [Arbiter.before]

theorem Arbiter.not_before_iff {x y : ArbReq} :
    a.before x y = false ↔ a.rankOf y < a.rankOf x ∨ (a.rankOf y = a.rankOf x ∧ y.age ≤ x.age) := by
  rw [← Bool.not_eq_true, Arbiter.before_iff]
  omega

theorem Arbiter.not_before_trans {x y z : ArbReq} (h : a.before x y = false) (g : a.before y z = false) : a.before x z = false := by
  rw [Arbiter.not_before_iff] at *
  omega

theorem Arbiter.not_before_of_before {x y : ArbReq} (h : a.before x y = true) : a.before y x = false := by
  rw [Arbiter.before_iff] at h
  rw [Arbiter.not_before_iff]
  omega

theorem Arbiter.first_eq_none_iff {qs : List ArbReq} : a.first qs = none ↔ qs = [] := by
  cases qs with
  | nil => exact ⟨fun _ => rfl, fun _ => rfl⟩
  | cons q qs =>
    refine iff_of_false ?_ (List.cons_ne_nil _ _)
    unfold Arbiter.first
    split
    · exact Option.some_ne_none _
    · split <;> exact Option.some_ne_none _

/-- The request that goes first is one of the list, and none of the list goes before it. -/
theorem Arbiter.first_least {qs : List ArbReq} {w : ArbReq} (h : a.first qs = some w) :
    w ∈ qs ∧ ∀ y ∈ qs, a.before y w = false := by
  have irrefl (x : ArbReq) : a.before x x = false := Arbiter.not_before_iff.mpr (Or.inr ⟨rfl, Nat.le_refl _⟩)
  induction qs generalizing w with
  | nil => cases h
  | cons q qs ih =>
    unfold Arbiter.first at h
    split at h
    · next none =>
      cases h
      rw [Arbiter.first_eq_none_iff] at none
      subst none
      exact ⟨List.mem_singleton_self _, fun y hy => List.mem_singleton.mp hy ▸ irrefl _⟩
    · next r least =>
      obtain ⟨mem, none_before⟩ := ih least
      split at h
      · next sooner =>
        cases h
        exact ⟨List.mem_cons_of_mem _ mem, List.forall_mem_cons.mpr ⟨Arbiter.not_before_of_before sooner, none_before⟩⟩
      · next later =>
        cases h
        exact ⟨List.mem_cons_self, List.forall_mem_cons.mpr
          ⟨irrefl _, fun y hy => Arbiter.not_before_trans (none_before y hy) (Bool.not_eq_true _ ▸ later)⟩⟩

theorem Arbiter.mem_of_last {qs : List ArbReq} {w : ArbReq} (h : a.last qs = some w) : w ∈ qs := by
  induction qs generalizing w with
  | nil => cases h
  | cons q qs ih =>
    unfold Arbiter.last at h
    split at h
    · cases h
      exact List.mem_cons_self
    · next r last =>
      split at h <;> cases h
      · exact List.mem_cons_of_mem _ (ih last)
      · exact List.mem_cons_self

/-- The order follows the arbiter's grants alone (R366). -/
theorem Arbiter.first_congr {b : Arbiter} (same : a.grants = b.grants) (qs : List ArbReq) : a.first qs = b.first qs := by
  have due : a.due = b.due := by rw [Arbiter.due, Arbiter.due, same]
  have rank (x : ArbReq) : a.rankOf x = b.rankOf x := by rw [Arbiter.rankOf, Arbiter.rankOf, due]
  have order (x y : ArbReq) : a.before x y = b.before x y := by rw [Bool.eq_iff_iff, Arbiter.before_iff, Arbiter.before_iff, rank, rank]
  induction qs with
  | nil => rfl
  | cons q qs ih => simp only [Arbiter.first, ih, order]

/-! ### Parking (R365) -/

theorem Arbiter.park_room (q : ArbReq) (room : a.queue.length < 16) : a.park q = { a with queue := a.queue ++ [q] } :=
  if_pos (by simpa using room)

theorem Arbiter.length_park (q : ArbReq) (bounded : a.queue.length ≤ 16) : (a.park q).queue.length ≤ 16 := by
  unfold Arbiter.park
  dsimp only
  split
  · assumption
  · split
    · next x last =>
      have erased := length_eraseFirst_of_mem (p := (· == x)) (Arbiter.mem_of_last last) (beq_self_eq_true x)
      rw [List.length_append] at erased
      dsimp only [List.length_singleton] at erased ⊢
      omega
    · exact bounded

end

/-! ### Grants (R364, R367) -/

section
variable {s : State} {arb : Nat}

/-- An arbiter as it stands once it has taken the resource from its holder. -/
def Arbiter.freed (a : Arbiter) (now : Nat) : Arbiter :=
  match a.holder with
  | some h => a.park { h with at_ := now }
  | none => a

@[simp] theorem State.arb_arbGive (a : Arbiter) (q : ArbReq) : (s.arbGive arb a q).arb arb = (a.freed s.now).give q :=
  State.arb_setArb_self s arb ((a.freed s.now).give q)

theorem State.arb_arbGive_ne {k : Nat} (h : k ≠ arb) (a : Arbiter) (q : ArbReq) : (s.arbGive arb a q).arb k = s.arb k :=
  State.arb_setArb_ne s ((a.freed s.now).give q) h

@[simp] theorem State.start_arbGive (a : Arbiter) (q : ArbReq) : (s.arbGive arb a q).start = s.start := by
  simp only [State.arbGive, State.countGrant, State.bump_start, State.setWord_start, State.setArb_start]

@[simp] theorem Arbiter.holder_give (a : Arbiter) (q : ArbReq) : (a.give q).holder = some q := rfl

@[simp] theorem Arbiter.queue_give (a : Arbiter) (q : ArbReq) : (a.give q).queue = a.queue := rfl

theorem Arbiter.freed_idle {a : Arbiter} (idle : a.holder = none) (now : Nat) : a.freed now = a := by
  rw [Arbiter.freed, idle]

theorem Arbiter.freed_held {a : Arbiter} {h : ArbReq} (held : a.holder = some h) (room : a.queue.length < 16) (now : Nat) :
    (a.freed now).queue = a.queue ++ [{ h with at_ := now }] := by
  rw [Arbiter.freed, held]
  exact congrArg Arbiter.queue (Arbiter.park_room _ room)

/-! ### Settling (R366) -/

theorem State.arbSettle_stands {h w : ArbReq} (held : (s.arb arb).holder = some h) (first : (s.arb arb).first (s.arb arb).queue = some w)
    (stands : (s.arb arb).revokes w h = false) : s.arbSettle arb = s := by
  simp only [State.arbSettle, held, first, stands]
  rfl

theorem State.arbSettle_revokes {h w : ArbReq} (held : (s.arb arb).holder = some h) (first : (s.arb arb).first (s.arb arb).queue = some w)
    (revokes : (s.arb arb).revokes w h = true) :
    s.arbSettle arb = s.arbGive arb { s.arb arb with queue := eraseFirst (· == w) (s.arb arb).queue } w := by
  simp only [State.arbSettle, held, first, revokes, if_true]

theorem State.arbSettle_empty (empty : (s.arb arb).queue = []) : s.arbSettle arb = s := by
  unfold State.arbSettle
  dsimp only
  split
  · next first =>
    rw [empty] at first
    cases first
  · rfl

@[simp] theorem State.start_arbSettle : (s.arbSettle arb).start = s.start := by
  unfold State.arbSettle
  dsimp only
  split
  · split
    · exact State.start_arbGive _ _
    · rfl
  · rfl

/-! ### Requests (R364) -/

section
variable (rank : Fin 4) (who : Nat)

/-- The request that arrives. -/
def State.asked (s : State) (arb : Nat) (rank : Fin 4) (who : Nat) : ArbReq := ⟨rank, who, (s.arb arb).next, s.now⟩

/-- The arbiter's queue with the request that arrives. -/
def State.askedQueue (s : State) (arb : Nat) (rank : Fin 4) (who : Nat) : List ArbReq := (s.arb arb).queue ++ [s.asked arb rank who]

@[simp] theorem State.start_arbAsk : (s.arbAsk arb rank who).start = s.start := by
  unfold State.arbAsk
  dsimp only
  split
  · rfl
  · split
    · split
      · rw [State.start_arbSettle, State.start_arbGive]
      · rw [State.bump_start, State.start_arbSettle, State.start_arbGive]
    · rw [State.bump_start, State.setArb_start]

/-- Where the first of them may take the resource it does, and no arbiter is written otherwise. -/
theorem State.arb_arbAsk_wins {w : ArbReq} (first : (s.arb arb).first (s.askedQueue arb rank who) = some w)
    (wins : (s.arb arb).wins w = true) (k : Nat) : (s.arbAsk arb rank who).arb k =
      ((s.arbGive arb { s.arb arb with next := (s.arb arb).next + 1, queue := eraseFirst (· == w) (s.askedQueue arb rank who) } w).arbSettle
        arb).arb k := by
  simp only [State.askedQueue, State.asked] at *
  simp only [State.arbAsk, first, wins, if_true]
  split <;> rfl

theorem State.arb_arbAsk_waits {w : ArbReq} (first : (s.arb arb).first (s.askedQueue arb rank who) = some w)
    (waits : (s.arb arb).wins w = false) (room : (s.arb arb).queue.length < 16) :
    (s.arbAsk arb rank who).arb arb = { s.arb arb with next := (s.arb arb).next + 1, queue := s.askedQueue arb rank who } ∧
      ∀ k, k ≠ arb → (s.arbAsk arb rank who).arb k = s.arb k := by
  have written : (s.arbAsk arb rank who).arbs =
      (s.setArb arb (Arbiter.park { s.arb arb with next := (s.arb arb).next + 1 } (s.asked arb rank who))).arbs := by
    simp only [State.askedQueue, State.asked] at *
    simp only [State.arbAsk, first, waits, Bool.false_eq_true, if_false]
    rfl
  refine ⟨?_, fun k hk => (congrArg (Sp.get Arbiter.start · k) written).trans (State.arb_setArb_ne s _ hk)⟩
  refine (congrArg (Sp.get Arbiter.start · arb) written).trans ((State.arb_setArb_self s arb _).trans ?_)
  exact Arbiter.park_room (a := { s.arb arb with next := (s.arb arb).next + 1 }) _ room

/-- A request of an idle arbiter is granted at once. -/
theorem State.arbAsk_idle (idle : (s.arb arb).holder = none) (empty : (s.arb arb).queue = []) :
    ((s.arbAsk arb rank who).arb arb).holder = some (s.asked arb rank who) ∧ ((s.arbAsk arb rank who).arb arb).queue = [] ∧
      ((s.arbAsk arb rank who).arb arb).next = (s.arb arb).next + 1 ∧ ∀ k, k ≠ arb → (s.arbAsk arb rank who).arb k = s.arb k := by
  have alone : s.askedQueue arb rank who = [s.asked arb rank who] := by rw [State.askedQueue, empty]; rfl
  have first : (s.arb arb).first (s.askedQueue arb rank who) = some (s.asked arb rank who) := by rw [alone]; rfl
  have wins : (s.arb arb).wins (s.asked arb rank who) = true := by rw [Arbiter.wins, idle]
  have erased : eraseFirst (· == s.asked arb rank who) (s.askedQueue arb rank who) = [] := by
    rw [alone, eraseFirst, if_pos (beq_self_eq_true _)]
  have written := State.arb_arbAsk_wins rank who first wins
  rw [erased] at written
  generalize hb : ({ s.arb arb with next := (s.arb arb).next + 1, queue := [] } : Arbiter) = b at written
  have unchanged : b.freed s.now = b := Arbiter.freed_idle (by rw [← hb]; exact idle) _
  have settled : (s.arbGive arb b (s.asked arb rank who)).arbSettle arb = s.arbGive arb b (s.asked arb rank who) :=
    State.arbSettle_empty (by rw [State.arb_arbGive, unchanged, ← hb]; rfl)
  rw [settled] at written
  refine ⟨?_, ?_, ?_, fun k hk => (written k).trans (State.arb_arbGive_ne hk _ _)⟩
  all_goals rw [written, State.arb_arbGive, unchanged, ← hb]; rfl

end

theorem exec_arbiterRequest_eq {arb : Fin 16} {who : Nat} (has : arbiterHas arb.val who = true) (on : s.start.phase ≠ .off) (rank : Fin 4)
    (n : Nat) : exec (.arbiterRequest arb rank who n) s = .next (s.requests arb.val (rankFor arb.val who rank) who n) :=
  if_neg (by simp [has, on])

theorem rankFor_eq (arb who : Nat) (rank : Fin 4) :
    rankFor arb who rank = if who = 7 ∨ (arb = 9 ∧ (who = 1 ∨ who = 2)) then 3 else if rank = 1 then 1 else 2 := by
  simp only [rankFor, background, Bool.or_eq_true, Bool.and_eq_true, beq_iff_eq]

/-! ### The end of a unit (R365, R367) -/

theorem exec_arbiterGrant_passes {arb : Fin 16} {x : ArbReq} (on : s.start.phase ≠ .off)
    (first : (s.arb arb.val).first (s.arb arb.val).queue = some x) (inside : (s.arb arb.val).outside = []) :
    exec (.arbiterGrant arb) s = .next ((s.arbGive arb.val
      { s.arb arb.val with holder := none, queue := eraseFirst (· == x) (s.arb arb.val).queue } x).arbSettle arb.val) := by
  change execArbiterGrant arb s = _
  have order : Arbiter.first { s.arb arb.val with holder := none } (s.arb arb.val).queue = some x :=
    (Arbiter.first_congr (a := { s.arb arb.val with holder := none }) (b := s.arb arb.val) rfl _).trans first
  rw [execArbiterGrant, if_neg on]
  dsimp only at order ⊢
  rw [order]
  dsimp only
  rw [inside]

theorem exec_arbiterGrant_frees {arb : Fin 16} (on : s.start.phase ≠ .off) (empty : (s.arb arb.val).queue = []) :
    exec (.arbiterGrant arb) s = .next (s.setArb arb.val { s.arb arb.val with holder := none }) := by
  change execArbiterGrant arb s = _
  rw [execArbiterGrant, if_neg on]
  dsimp only
  rw [empty]
  rfl

end

end Sys2Proof.Machine
end

section
/-!
Datagrams that a connection takes (R371 to R379, R398): what a sequenced message in order does, and an ACK.
-/
namespace Sys2Proof.Machine

set_option Elab.async false

/-! ### Updates of a connection -/

/-- Two updates of a connection that agree on it are the same. -/
theorem State.updConn_congr {s : State} {id : BitVec 32} {c : Conn} {f g : Conn → Conn} (found : s.conn? id = some c) (same : f c = g c) :
    s.updConn id f = s.updConn id g := by
  have lists (cs : List Conn) (h : cs.find? (·.id == id) = some c) : updFirst (·.id == id) f cs = updFirst (·.id == id) g cs := by
    induction cs with
    | nil => rfl
    | cons x xs ih =>
      rw [List.find?_cons] at h
      unfold updFirst
      split at h
      · next hx =>
        cases h
        rw [if_pos hx, if_pos hx, same]
      · next hx =>
        rw [if_neg (by simp [hx]), if_neg (by simp [hx]), ih h]
  rw [State.updConn, State.updConn, lists s.conns found]

/-! ### What comes in leaves all but status words and crossings (R271, R450) -/

section
variable {s : State} {h : KHdr}

theorem State.arrived_eq (s : State) (h : KHdr) : ∃ w x, (s.inward h).bump 0x7010 1 = { s with stat := w, crossings := x } := by
  obtain ⟨w, x, e⟩ := s.inward_eq h
  obtain ⟨w', e'⟩ := (s.inward h).bump_eq 0x7010 1
  exact ⟨w', x, by rw [e', e]⟩

theorem State.openArrives_arrived (role : Byte) (eph key : BitVec 256) (nonce : BitVec 128) (sig : BitVec 512) :
    let z := (s.inward h).bump 0x7010 1
    let recent := s.opens.filter fun t => decide (s.now < t + 1000000000)
    z.openArrives h role eph key nonce sig = if s.start.phase = .starting then z else if 64 ≤ recent.length then z.bump 0x7028 1
      else ({ z with opens := recent ++ [s.now] }).openWith h role eph key nonce sig := by
  obtain ⟨w, x, e⟩ := s.arrived_eq h
  dsimp only
  rw [e]
  rfl

theorem exec_openConn_taken (first : h.type = 1) (t : taken s h) (role : Byte) (eph key : BitVec 256) (nonce : BitVec 128) (sig : BitVec 512) :
    exec (.openConn h role eph key nonce sig) s = .next (((s.inward h).bump 0x7010 1).openArrives h role eph key nonce sig) := by
  change execOpenConn h role eph key nonce sig s = _
  rw [execOpenConn, if_neg (not_not.mpr first), State.arrive_taken t]

/-! ### Sound datagrams (R372, R377) -/

theorem onDatagram_sound {t : Nat} {c : Conn} {m : Option HMsg} (e : sound s h t (payloadOf m) c) :
    onDatagram h t true m s = .next (((((s.inward h).bump 0x7010 1).countedIn c h).authentic c h none m).closeIfDone c.id) := by
  rw [onDatagram, if_neg fun other => other.2 e.1, State.sealed_sound e]

theorem exec_khtAck_sound {c : Conn} (e : sound s h 0x04 [] c) : exec (.khtAck h) s = .next ((s.heardAt h c).closeIfDone c.id) :=
  onDatagram_sound (m := none) e

/-! ### The message that is due (R378, R381) -/

/-- What a message does that its sender's role permits. -/
def State.effect (s : State) (id : BitVec 32) (ref : W64) : HMsg → State
  | .bad code => s.errorReply id ref code
  | .close => s.updConn id fun c => { c with st := 3 }
  | .submit pid off total data => s.submitFragment id ref pid off total data
  | .abandon pid job => s.hostAbandon id ref pid job
  | .put job a data => codeReply id 0x20 ref job (s.hostPut job a.toNat data)
  | .get job a n => s.hostGet id ref job a.toNat n
  | .signalIn job count n w1 => codeReply id 0x30 ref job (s.hostSignal job count n w1)
  | .statusRead off words => s.statusData id ref off words
  | .attest ch job => s.attest id ref ch job
  | .keyRelease job slot blob => s.keyRelease id ref job slot blob
  | .imago job owned key => s.imagoRequest id ref job owned key
  | .unlock1 pw => s.unlock1 id ref pw
  | .unlock2 => s.unlock2 id ref
  | .unlock2Response key sig => s.unlock2Response id ref key sig
  | .stage off total data => s.stage id ref off total data

theorem State.applyMsg_permitted {id : BitVec 32} {ref : W64} {c : Conn} {m : HMsg} (found : s.conn? id = some c) (permitted : c.permits m = true) :
    s.applyMsg id ref m = s.effect id ref m := by
  simp only [State.applyMsg, found, permitted, Bool.not_true, Bool.false_eq_true, if_false]
  cases m <;> rfl

/-- A role's permissions do not follow what a connection holds or expects. -/
theorem Conn.permits_expecting (c : Conn) (next : W64) (held : List (W64 × HMsg)) (m : HMsg) :
    Conn.permits { c with rxNext := next, held := held } m = c.permits m := by
  cases m <;> rfl

/-- The one held message of an OPEN connection is the one it expects: it takes effect and no other does. -/
theorem State.applyHeld_expected {id : BitVec 32} {c : Conn} {seq : W64} {m : HMsg} (found : s.conn? id = some c) (opened : c.st = 2)
    (held : c.held = [(seq, m)]) (next : c.rxNext = seq) (permitted : c.permits m = true) (free : s.waitsZeroing id m = false) :
    s.applyHeld id 1 = (s.updConn id fun c => { c with rxNext := c.rxNext + 1, held := c.held.filter fun x => x.1 != seq }).effect id seq m := by
  have expected : (c.held.find? fun e => e.1 == c.rxNext) = some (seq, m) := by
    rw [held, next]
    exact List.find?_cons_of_pos (beq_self_eq_true seq)
  have taken := State.conn?_updConn s id (f := fun c => { c with rxNext := c.rxNext + 1, held := c.held.filter fun x => x.1 != seq })
    fun _ => rfl
  rw [found, Option.map_some] at taken
  simp only [State.applyHeld, found, opened, if_true, expected, free, Bool.false_eq_true, if_false]
  exact State.applyMsg_permitted taken ((c.permits_expecting _ _ m).trans permitted)

/-- A message that is due takes effect once, and its arrival is acknowledged. -/
theorem onDatagram_due {type : Nat} {c c1 : Conn} {m : HMsg} (d : due s h type c c1 m) :
    onDatagram h type true (some m) s = .next ((((s.before h c m).effect c.id h.seq m).sendAck c.id).closeIfDone c.id) := by
  obtain ⟨e, place, found, opened, empty, next, permitted, free⟩ := d
  have holds : ((s.heardAt h c).updConn c.id fun x => if x.held.any (·.1 == h.seq) then x else { x with held := x.held ++ [(h.seq, m)] }) =
      (s.heardAt h c).updConn c.id fun x => { x with held := x.held ++ [(h.seq, m)] } :=
    State.updConn_congr found (by simp [empty])
  have held := State.conn?_updConn (s.heardAt h c) c.id (f := fun x => { x with held := x.held ++ [(h.seq, m)] }) fun _ => rfl
  rw [found, Option.map_some, empty, List.nil_append] at held
  have applied := State.applyHeld_expected held opened rfl next ((c1.permits_expecting c1.rxNext _ m).trans permitted) free
  have authentic : (((s.inward h).bump 0x7010 1).countedIn c h).authentic c h none (some m) = (s.heardAt h c).hold c.id h.seq m := by
    simp only [State.authentic, place, State.heardAt]
  rw [onDatagram_sound e, authentic, State.hold, holds, held]
  exact congrArg (fun z => Host.Outcome.next ((z.sendAck c.id).closeIfDone c.id)) applied

/-- The same of a payload whose form its command judges. -/
theorem onDatagram_due_of_form {type : Nat} {c c1 : Conn} {m : HMsg} {form : Bool} (d : due s h type c c1 m) (ok : form = true) :
    onDatagram h type form (some m) s = .next ((((s.before h c m).effect c.id h.seq m).sendAck c.id).closeIfDone c.id) := by
  rw [ok, onDatagram_due d]

end

/-! ### Timers of a connection (R379, R398) -/

section
variable {s : State} {c : Conn}

theorem exec_khtRetransmit_unheard {u : Unacked} {seq : BitVec 64} (found : s.conn? c.id = some c)
    (sent : c.unacked.find? (fun u => u.seq == seq && u.sent) = some u) (unheard : s.unheard u = true) : exec (.khtRetransmit c.id seq) s =
    .next (if c.spent = true then s.closed c.id else if s.cfg.retryLimit ≤ u.tries then s.connFailed c.id
      else ((s.updConn c.id fun c => { c with unacked := updFirst (·.seq == seq) (fun u => { u with tries := u.tries + 1 }) c.unacked }).bump
        0x7020 1).datagram c.id u) := by
  change execKhtRetransmit c.id seq s = _
  simp only [execKhtRetransmit, found, Option.bind_some, sent, unheard, Bool.not_true, Bool.false_eq_true, if_false, Option.any_some]
  split
  · rfl
  · split <;> rfl

theorem exec_khtIdleTimeout_idle (found : s.conn? c.id = some c) (opened : 2 ≤ c.st)
    (idle : s.passed c.lastAt (s.cfg.idleTimeout * 1000000000) = true) : exec (.khtIdleTimeout c.id) s = .next (s.connFailed c.id) := by
  change execKhtIdleTimeout c.id s = _
  simp only [execKhtIdleTimeout, found, opened, idle, and_self, if_true]

theorem exec_khtIdleAck_idle (found : s.conn? c.id = some c) (opened : 2 ≤ c.st) (none_due : c.sendable.isEmpty = true) :
    exec (.khtIdleAck c.id) s = .next (s.sendAck c.id) := by
  change execKhtIdleAck c.id s = _
  simp only [execKhtIdleAck, found, opened, none_due, and_self, if_true]

theorem exec_openPendingExpiry_expires (s : State) (id : BitVec 32) : leads (exec (.openPendingExpiry id) s) fun s' =>
    (∀ x, x ∈ s'.conns ↔ x ∈ s.conns ∧ ¬(x.id = id ∧ x.st = 1 ∧ x.lastAt + 1000000000 ≤ s.now)) ∧ s'.mem = s.mem ∧ s'.pkgs = s.pkgs := by
  refine ⟨_, rfl, fun x => ?_, rfl, rfl⟩
  rw [List.mem_filter, Bool.not_eq_true', ← Bool.not_eq_true]
  simp only [Bool.and_eq_true, beq_iff_eq, State.passed, decide_eq_true_eq, and_assoc]

end

end Sys2Proof.Machine
end

section
/-!
What stands outside the events that end packages: the configuration, the start and the state of the supplies (R352, R353, R370, R458).
-/
namespace Sys2Proof.Machine

set_option Elab.async false

/-- The configuration, the start, and the power state but for the hardware failure noted last (R362). -/
def State.electric (s : State) : Cfg × StartState × PowerState := (s.cfg, s.start, { s.power with hardware := none })

section
variable {s z : State} (h : z.electric = s.electric)
include h

theorem State.pwrOk_of_electric : z.pwrOk = s.pwrOk :=
  congrArg (fun e : Cfg × StartState × PowerState => e.2.1.rails && e.2.1.input && e.2.2.under.isEmpty) h

theorem State.supply_of_electric (d : Nat) : z.supply d = s.supply d :=
  congrArg (fun e : Cfg × StartState × PowerState => Sp.get e.1.supplyStart e.2.2.supply d) h

theorem State.power_of_electric {α : Type} (f : PowerState → α) (hf : ∀ p x, f { p with hardware := x } = f p) : f z.power = f s.power :=
  (hf z.power none).symm.trans ((congrArg (fun e : Cfg × StartState × PowerState => f e.2.2) h).trans (hf s.power none))

end

theorem State.electric_mk {s z : State} (cfg : z.cfg = s.cfg) (start : z.start = s.start) (power : z.power = s.power) : z.electric = s.electric := by
  rw [State.electric, cfg, start, power, State.electric]

theorem State.electric_foldl {α : Type} {f : State → α → State} (hf : ∀ z x, (f z x).electric = z.electric) (xs : List α) (s : State) :
    (xs.foldl f s).electric = s.electric :=
  List.foldlRecOn (motive := fun z => z.electric = s.electric) xs f rfl fun z kept x _ => (hf z x).trans kept

/-- Scratchpads, bytes and correct beats are none of it. -/
theorem Moved.electric {s z : State} {t : Nat} (h : Moved s z t) : z.electric = s.electric := h.read State.electric fun _ _ _ _ _ => rfl

section
variable (s : State)

theorem State.electric_bump (k n : Nat) : (s.bump k n).electric = s.electric := rfl

theorem State.electric_setWord (k : Nat) (x : W64) : (s.setWord k x).electric = s.electric := rfl

theorem State.electric_record (base m : Nat) (w : W64 × W64) : (s.record base m w).electric = s.electric := by
  rw [State.record, State.electric_bump, State.electric_setWord, State.electric_setWord]

theorem State.electric_points (n : Nat) : (s.points n).electric = s.electric := rfl

theorem State.electric_updJob (job : BitVec 16) (f : JobCtx → JobCtx) : (s.updJob job f).electric = s.electric := rfl

theorem State.electric_wakeAll (ts : List Nat) : (s.wakeAll ts).electric = s.electric := by
  obtain ⟨_, woken⟩ := s.wakeAll_eq ts
  rw [woken]
  rfl

/-- A record in the log at most notes a hardware failure. -/
theorem State.electric_logAs (kind code : Nat) (job : Option (BitVec 16)) (detail : W64 × W64) :
    (s.logAs kind code job detail).electric = s.electric := by
  unfold State.logAs
  generalize hz : (if isFailure kind code then _ else s) = z
  have noted : z.electric = s.electric := by
    subst hz
    split <;> rfl
  dsimp only
  split
  · exact noted
  · split <;> exact noted

theorem State.electric_logEvent (code : Nat) (job : Option (BitVec 16)) (detail : W64 × W64) :
    (s.logEvent code job detail).electric = s.electric := s.electric_logAs _ _ _ _

end

/-- What messages leave alone: that, and the count of LATE notices (Table 14-9). -/
def State.aloof (s : State) : (Cfg × StartState × PowerState) × W64 := (s.electric, s.word 0xA118)

theorem State.electric_of_aloof {s z : State} (h : z.aloof = s.aloof) : z.electric = s.electric := congrArg Prod.fst h

theorem State.late_of_aloof {s z : State} (h : z.aloof = s.aloof) : z.word 0xA118 = s.word 0xA118 := congrArg Prod.snd h

theorem State.aloof_foldl {α : Type} {f : State → α → State} (hf : ∀ z x, (f z x).aloof = z.aloof) (xs : List α) (s : State) :
    (xs.foldl f s).aloof = s.aloof :=
  List.foldlRecOn (motive := fun z => z.aloof = s.aloof) xs f rfl fun z kept x _ => (hf z x).trans kept

section
variable (s : State)

theorem State.aloof_bump {k : Nat} (other : k ≠ 0xA118) (n : Nat) : (s.bump k n).aloof = s.aloof :=
  congrArg (Prod.mk s.electric) (State.word_bump_ne s other.symm)

theorem State.aloof_logEvent (code : Nat) (job : Option (BitVec 16)) (detail : W64 × W64) : (s.logEvent code job detail).aloof = s.aloof :=
  Prod.ext (s.electric_logEvent code job detail) (s.word_logAs (by decide))

/-! #### Frames (R244 to R256, R273) -/

theorem State.aloof_number (f : Frame) : (s.number f).2.aloof = s.aloof := by
  simp only [State.number, State.takeSeq]
  split
  · rfl
  · split <;> rfl

theorem State.aloof_queueAt (e : Nat × Bool × Bool) (f : Frame) : (s.queueAt e f).aloof = s.aloof := by
  unfold State.queueAt
  dsimp only
  split
  · exact s.aloof_bump (by decide) 1
  · rfl

theorem State.aloof_ownError (f : Frame) : (s.ownError f).aloof = s.aloof := by
  unfold State.ownError
  split
  · rfl
  · exact (State.aloof_number _ _).trans ((State.aloof_bump _ (by decide) 1).trans (s.aloof_logEvent 0x2201 (some f.job) (0, 0)))

theorem State.aloof_inject (f : Frame) : (s.inject f).aloof = s.aloof := by
  unfold State.inject
  split
  · rfl
  · split
    · exact s.aloof_queueAt _ f
    · exact s.aloof_ownError f

theorem State.aloof_sendAll (fs : List Frame) : (s.sendAll fs).aloof = s.aloof := by
  induction fs generalizing s with
  | nil => rfl
  | cons f fs ih => exact (ih _).trans ((State.aloof_inject _ _).trans (s.aloof_number f))

theorem State.aloof_fabricNotice (job : BitVec 16) (dst kind code : Nat) (rec : List W64) :
    (s.fabricNotice job dst kind code rec).aloof = s.aloof :=
  State.aloof_sendAll _ _

/-! #### Messages to hosts (R372 to R380) -/

theorem State.aloof_khtSent (bs : List Byte) (o : Out) (p : Fin 3) : (s.khtSent bs o p).aloof = s.aloof := by
  unfold State.khtSent State.hostTx
  generalize hz : (if p = 2 then s.bump 0x7018 1 else _) = z
  have counted : z.aloof = s.aloof := by
    subst hz
    split
    · exact s.aloof_bump (by decide) 1
    · rw [State.aloof_bump _ (by omega), State.aloof_bump _ (by omega), State.aloof_bump _ (by decide)]
  obtain ⟨_, across⟩ := z.across_eq (if p = 2 then serviceTx else portTx (40 + p.val)) bs
  rw [across]
  exact counted

theorem State.aloof_datagram (id : BitVec 32) (u : Unacked) : (s.datagram id u).aloof = s.aloof := by
  unfold State.datagram
  split
  · rfl
  · split
    · rfl
    · exact State.aloof_khtSent _ _ _ _

theorem State.aloof_sendMsg (id : BitVec 32) (m : OMsg) : (s.sendMsg id m).aloof = s.aloof := by
  unfold State.sendMsg State.flush
  split
  · rfl
  · exact State.aloof_foldl (fun z u => z.aloof_datagram id u) _ _

theorem State.aloof_enq (key : BitVec 256) (m : OMsg) : (s.enq key m).aloof = s.aloof := by
  unfold State.enq
  split
  · rfl
  · dsimp only
    split
    · rw [State.aloof_bump _ (by decide)]
      split <;> rfl
    · rfl

theorem State.aloof_noticeHost (p : Pkg) (kind code device : Nat) (rec : List W64) :
    (s.noticeHost p kind code device rec).aloof = s.aloof := by
  unfold State.noticeHost State.originate
  split
  · split
    · exact s.aloof_sendMsg _ _
    · exact s.aloof_enq _ _
  · exact s.aloof_enq _ _

theorem State.electric_sendLate (tag cause fault : Nat) : (s.sendLate tag cause fault).electric = s.electric := by
  unfold State.sendLate
  split
  · rfl
  · split
    · rfl
    · dsimp only
      generalize hz : State.noticeHost _ _ _ _ _ _ = z
      have told : z.electric = s.electric := by
        rw [← hz, State.electric_of_aloof (State.aloof_noticeHost _ _ _ _ _ _)]
        rfl
      split
      · split
        · exact told
        · exact (State.electric_of_aloof (State.aloof_fabricNotice _ _ _ _ _ _)).trans told
      · exact told


/-! #### Frames taken back (R78) -/

theorem State.electric_takeBack (gs : List Frame) : (s.takeBack gs).electric = s.electric := by
  have others (z : State) (js : List JobCtx) (xs : List Xfer) : State.electric { z with jobs := js, xfers := xs } = z.electric := rfl
  unfold State.takeBack
  refine (others _ _ _).trans ?_
  generalize List.range 40 = ps
  exact State.electric_foldl (fun z p => State.electric_mk (z.setPort_cfg p _) (z.setPort_start p _) (z.setPort_power p _)) ps s

theorem State.electric_recall (t : Nat) (v : Bool) : (s.recall t v).electric = s.electric := by
  unfold State.recall
  split
  · rfl
  · dsimp only
    split
    · rfl
    · exact s.drawn.electric_takeBack _

/-! #### Memory and counts -/

theorem State.electric_raiseCount (job : BitVec 16) (i inc src : Nat) : (s.raiseCount job i inc src).2.electric = s.electric := by
  cases hj : s.job? job with
  | none => simp only [State.raiseCount, hj]
  | some j =>
    cases fault : j.pairFault i inc with
    | none => rw [State.raiseCount_allowed hj fault, State.electric_wakeAll, State.electric_updJob]
    | some code =>
      rw [State.raiseCount_forbidden hj fault]
      exact (State.electric_bump _ _ _).trans ((State.electric_logEvent _ _ _ _).trans (s.electric_record _ _ _))

theorem State.electric_countXlate (c : Nat) : (s.countXlate c).electric = s.electric := by
  unfold State.countXlate
  split <;> rfl

theorem State.electric_ueEach (finder : Nat) (bs : List Nat) : (s.ueEach finder bs).electric = s.electric := by
  induction bs generalizing s with
  | nil => rfl
  | cons b bs ih =>
    have found : (s.ueFound b finder).electric = s.electric := by
      rw [State.ueFound, State.electric_points, State.electric_record, State.electric_bump]
    unfold State.ueEach
    rw [ih]
    exact found

theorem State.electric_ueAll (finder : Nat) (bs : List Nat) : (s.ueAll finder bs).electric = s.electric := by
  cases bs with
  | nil => rfl
  | cons b bs =>
    have noted (z : State) (x : W64 × W64) : State.electric { z with mem := { z.mem with found := x } } = z.electric := rfl
    rw [State.ueAll, noted, State.electric_ueEach]

theorem State.electric_writePlaces (ws : List (Place × Byte)) (finder : Nat) :
    (s.writePlaces ws finder).2.electric = s.electric := by
  have put (z : State) (w : Place × Byte) : (z.putByte w.1 w.2).electric = z.electric := (Moved.putByte z 0 w.1 w.2).electric
  have cleared (z : State) (w : Place × Byte) : State.electric (match w.1 with
      | .dram k => { z with mem := { z.mem with poison := Sp.drop z.mem.poison (k / 32) } }
      | .scratch _ _ => z) = z.electric := by split <;> rfl
  have written (good : List (Place × Byte)) := (State.electric_foldl cleared good _).trans (State.electric_foldl put good s)
  unfold State.writePlaces
  dsimp only
  split
  · exact written _
  · exact (State.electric_ueAll _ _ _).trans (written _)

theorem State.electric_writeMem (job : BitVec 16) (o : Origin) (v : Bool) (a : Nat) (bs : List Byte) :
    (s.writeMem job o v a bs).2.electric = s.electric := by
  unfold State.writeMem
  split
  · rw [State.electric_countXlate]
  · exact s.electric_writePlaces _ _

/-! #### Words in progress (R72, R78) -/

theorem State.electric_passLeft (t : Nat) (w : EngWord) (r : VRun) (draws batch : Nat) (chain : List ChainBatch) :
    (s.passLeft t w r draws batch chain).s.electric = s.electric :=
  (Unwritten.countFormats _ 0 _ _).moved.electric

theorem State.electric_moveLeft (t : Nat) (v : Bool) (job : BitVec 16) (w : EngWord) (o : MoveOp) (r : MDone) (pos : Nat)
    (held : MHeld) : (s.moveLeft t v job w o r pos held).s.electric = s.electric := by
  have cleared (z : State) (cov : List Int) : (z.clearBeats t v job o.dst.dram cov).electric = z.electric :=
    (Unwritten.clearBeats z t t v job o.dst.dram cov).moved.electric
  have written : (r.writes.foldl (fun (s : State) w => s.moveWrite t v job o.dst.dram w) s).electric = s.electric :=
    (Moved.moveWrites s t v job o.dst.dram r.writes).electric
  unfold State.moveLeft State.moveFault
  dsimp only
  generalize hz : (if o.kind = 3 then _ else _) = z
  have kept : z.electric = s.electric := by
    subst hz
    split
    · exact written
    · exact (State.electric_foldl cleared r.covers _).trans written
  have counted (x : State) (old new : Tally) (range narrow : Nat) : ((x.countFormats old new).countMove range narrow).electric = x.electric :=
    ((Unwritten.countFormats x 0 old new).trans (Unwritten.countMove _ 0 range narrow)).moved.electric
  split
  · rw [State.electric_ueAll, State.electric_countXlate, counted]; exact kept
  · rw [counted]; exact kept

theorem State.electric_writeRecord (t : Nat) (v : Bool) (c : Ctx) (off dest raise : Nat) (bs : List Byte) :
    (s.writeRecord t v c off dest raise bs).s.electric = s.electric := by
  have written {f : Option Nat} {z : State} (e : s.writeMem c.job .tile v dest bs = (f, z)) : z.electric = s.electric := by
    rw [← s.electric_writeMem c.job .tile v dest bs, e]
  unfold State.writeRecord
  dsimp only
  generalize (_ || _) = here
  split
  · split
    · next e => exact written e
    · next z e =>
      split
      · exact (z.electric_raiseCount c.job _ 1 _).trans (written e)
      · exact written e
  · exact State.electric_of_aloof (State.aloof_sendAll _ _)

theorem State.electric_runRecs (t : Nat) (v : Bool) (c : Ctx) (w : EngWord) (n : Nat) :
    (s.runRecs t v c w n).s.electric = s.electric := by
  unfold State.runRecs
  split
  · rfl
  · rfl
  · dsimp only
    split
    · rfl
    · exact s.electric_writeRecord t v c _ _ _ _

theorem State.electric_runWord (t : Nat) (v : Bool) (c : Ctx) (w : EngWord) (n : Nat) :
    (s.runWord t v c w n).s.electric = s.electric := by
  have counted (z : State) (old new : Tally) : (z.countFormats old new).electric = z.electric := (Unwritten.countFormats z 0 old new).moved.electric
  unfold State.runWord
  split
  · exact counted _ _ _
  · exact counted _ _ _
  · exact s.electric_passLeft _ _ _ _ _ _
  · exact s.electric_moveLeft _ _ _ _ _ _ _ _
  · exact s.electric_runRecs _ _ _ _ _
  · exact s.electric_runRecs _ _ _ _ _
  · rfl

theorem State.electric_stopWord (t : Nat) (v : Bool) (c : Ctx) (w : EngWord) :
    (s.stopWord t v c w).s.electric = s.electric := by
  unfold State.stopWord
  dsimp only
  split
  · exact s.drawn.electric_passLeft _ _ _ _ _ _
  · exact s.drawn.electric_moveLeft _ _ _ _ _ _ _ _
  · exact s.drawn.electric_runWord _ _ _ _ _

theorem State.electric_stopFrom (t : Nat) (v : Bool) (c : Ctx) (k : Nat) (ws : List EngWord) :
    (State.stopFrom t v c k ws s).1.electric = s.electric := by
  induction ws generalizing s k with
  | nil => rfl
  | cons w ws ih =>
    unfold State.stopFrom
    split
    · dsimp only
      split
      · exact (ih _ _).trans (s.electric_stopWord t v c w)
      · exact (ih _ _).trans (s.electric_stopWord t v c w)
    · exact ih _ _

theorem State.electric_noteFaults (t : Nat) (c : Ctx) (fs : List (Nat × BitVec 32)) : (s.noteFaults t c fs).electric = s.electric := by
  induction fs generalizing s with
  | nil => rfl
  | cons f fs ih => exact (ih _).trans ((State.electric_logAs _ _ _ _ _).trans (s.electric_record _ _ _))

theorem State.electric_haltCtx (tag t : Nat) (v : Bool) : (s.haltCtx tag t v).electric = s.electric := by
  unfold State.haltCtx
  split
  · rfl
  · split
    · dsimp only
      split
      · rw [State.electric_noteFaults, State.electric_stopFrom, State.electric_recall]
      · rw [State.electric_recall]
    · rfl

theorem State.electric_haltTag (tag : Nat) (ts : List Nat) : (s.haltTag tag ts).electric = s.electric := by
  induction ts generalizing s with
  | nil => rfl
  | cons t ts ih => rw [State.haltTag, ih, State.electric_haltCtx, State.electric_haltCtx]

/-! #### The end of packages (R78, R335) -/

theorem State.electric_dropTag (tag : Nat) (ts : List Nat) : (s.dropTag tag ts).electric = s.electric := by
  induction ts generalizing s with
  | nil => rfl
  | cons t ts ih => exact ih _

theorem State.electric_removePkg (g : Nat) : (s.removePkg g).electric = s.electric := by
  unfold State.removePkg
  split
  · rfl
  · dsimp only
    split <;> rfl

theorem State.electric_abandon (g code tile kernel index : Nat) (hw : Bool) :
    (s.abandon g code tile kernel index hw).electric = s.electric := by
  unfold State.abandon
  split
  · rfl
  · dsimp only
    rw [State.electric_removePkg]
    generalize hz : State.noticeHost _ _ _ _ _ _ = z
    have told : z.electric = s.electric := by
      subst hz
      rw [State.electric_of_aloof (State.aloof_noticeHost _ _ _ _ _ _), State.electric_bump, State.electric_bump]
      exact (State.electric_wakeAll _ _).trans ((State.electric_dropTag _ _ _).trans (s.electric_haltTag _ _))
    generalize hy : (if hw then _ else z) = y
    have late : y.electric = s.electric := by
      subst hy
      split
      · exact (z.electric_sendLate _ _ _).trans told
      · exact told
    split
    · split
      · exact late
      · exact (State.electric_of_aloof (y.aloof_fabricNotice _ _ _ _ _)).trans late
    · exact late

theorem State.electric_abandonAll (code tile : Nat) (hw : Bool) (gs : List Nat) :
    (s.abandonAll code tile hw gs).electric = s.electric := by
  induction gs generalizing s with
  | nil => rfl
  | cons g gs ih => exact (ih _).trans (s.electric_abandon g code tile 0 0 hw)

end

end Sys2Proof.Machine
end

section
/-!
Monarch, supplies, heat, blades and the LATE timer (R348 to R353, R361, R362, R458, R465, R466).
-/
namespace Sys2Proof.Machine

set_option Elab.async false

/-! ### The window's history (R348, R349) -/

section
variable (s : State) (e fixed : Nat)

/-- The state in which the window that starts is granted. -/
def State.afterWindow : State := (s.pastWindow e fixed).countWindow e

theorem State.afterWindow_logged : Logged s (s.afterWindow e fixed) := by
  have past : Logged s (s.pastWindow e fixed) := by
    unfold State.pastWindow
    dsimp only
    split
    · exact ⟨_, _, _, rfl⟩
    · exact ⟨_, _, _, rfl⟩
  refine past.trans ?_
  unfold State.afterWindow State.countWindow
  dsimp only
  split
  · exact Logged.trans ⟨_, _, _, rfl⟩ (State.logEvent_logged _ _ _ _)
  · exact ⟨_, _, _, rfl⟩

/-- What the means of a window leave alone. -/
theorem State.power_countWindow {α : Type} (f : PowerState → α) (means : ∀ p sec ten m, f { p with second := sec, tenMs := ten, means := m } = f p)
    (hardware : ∀ p x, f { p with hardware := x } = f p) : f (s.countWindow e).power = f s.power := by
  unfold State.countWindow
  dsimp only
  split
  · exact (State.power_of_electric (State.electric_logEvent _ _ _ _) f hardware).trans (means _ _ _ _)
  · exact means _ _ _ _

theorem State.afterWindow_past : (s.afterWindow e fixed).power.past = (e :: s.power.past).take 99999 :=
  (s.pastWindow e fixed).power_countWindow e PowerState.past (fun _ _ _ _ => rfl) fun _ _ => rfl

theorem State.afterWindow_fixed : (s.afterWindow e fixed).power.fixed = (fixed :: s.power.fixed).take 100 :=
  (s.pastWindow e fixed).power_countWindow e PowerState.fixed (fun _ _ _ _ => rfl) fun _ _ => rfl

theorem State.pastWindow_halvings : (s.pastWindow e fixed).power.halvings = s.power.halvings := by
  unfold State.pastWindow
  dsimp only
  split <;> rfl

theorem State.afterWindow_halvings : (s.afterWindow e fixed).power.halvings = s.power.halvings :=
  ((s.pastWindow e fixed).power_countWindow e PowerState.halvings (fun _ _ _ _ => rfl) fun _ _ => rfl).trans (s.pastWindow_halvings e fixed)

end

/-! ### Predictors and grants (R350, R351, R353) -/

section
variable (es : List (Nat × Nat))

/-- A tile's ewma after a window. -/
def State.nextEwma (s : State) (u : Nat) : Rat := s.ewmaOf u + (energyOf es u - s.ewmaOf u) / 16

/-- A tile once its predictor has moved. -/
def State.predicted (s : State) (u : Nat) : TileState :=
  { s.tile u with ewma := some (s.nextEwma es u), grant := demand (s.nextEwma es u) (energyOf es u) (s.tile u).stopped, stopped := false }

theorem State.predicted_congr {s z : State} {u : Nat} (cfg : z.cfg = s.cfg) (tile : z.tile u = s.tile u) :
    z.predicted es u = s.predicted es u := by
  have ewma : z.ewmaOf u = s.ewmaOf u := by rw [State.ewmaOf, State.ewmaOf, cfg, tile]
  rw [State.predicted, State.predicted, State.nextEwma, State.nextEwma, ewma, tile]

theorem State.tile_predict (n : Nat) (s : State) (u : Nat) : (s.predict es n).tile u = if u < n then s.predicted es u else s.tile u := by
  induction n generalizing s with
  | zero => rfl
  | succ n ih =>
    refine (ih (s.setTile n (s.predicted es n))).trans ?_
    by_cases same : u = n
    · subst same
      rw [if_neg (by omega), if_pos (by omega), State.tile_setTile_self]
    · have other : (s.setTile n (s.predicted es n)).tile u = s.tile u := State.tile_setTile_ne _ _ same
      rw [State.predicted_congr es (State.setTile_cfg _ _ _) other, other]
      simp only [Nat.lt_succ_iff_lt_or_eq, same, or_false]

theorem State.predict_eq (n : Nat) (s : State) : ∃ ts, s.predict es n = { s with tiles := ts } := by
  induction n generalizing s with
  | zero => exact ⟨s.tiles, rfl⟩
  | succ n ih =>
    obtain ⟨ts, h⟩ := ih (s.setTile n (s.predicted es n))
    exact ⟨ts, h⟩

end

section
variable (k : Rat)

theorem State.tile_scaleGrants (n : Nat) (s : State) (u : Nat) : (s.scaleGrants k n).tile u =
    if u < n then { s.tile u with grant := (s.tile u).grant * k * s.halved u } else s.tile u := by
  induction n generalizing s with
  | zero => rfl
  | succ n ih =>
    refine (ih (s.setTile n { s.tile n with grant := (s.tile n).grant * k * s.halved n })).trans ?_
    by_cases same : u = n
    · subst same
      rw [if_neg (by omega), if_pos (by omega), State.tile_setTile_self]
    · simp only [State.tile_setTile_ne s _ same, State.halved, State.setTile_power, Nat.lt_succ_iff_lt_or_eq, same, or_false]

theorem State.scaleGrants_eq (n : Nat) (s : State) : ∃ ts, s.scaleGrants k n = { s with tiles := ts } := by
  induction n generalizing s with
  | zero => exact ⟨s.tiles, rfl⟩
  | succ n ih =>
    obtain ⟨ts, h⟩ := ih (s.setTile n { s.tile n with grant := (s.tile n).grant * k * s.halved n })
    exact ⟨ts, h⟩

end

/-- The grants of a window; a scale below 1 is counted. -/
def State.granted (s : State) (es : List (Nat × Nat)) (k : Rat) : State :=
  if k < 1 then ((s.predict es 576).scaleGrants k 576).bump 0xA038 1 else (s.predict es 576).scaleGrants k 576

theorem State.granted_eq (es : List (Nat × Nat)) (k : Rat) (s : State) : ∃ ts w, s.granted es k = { s with tiles := ts, stat := w } := by
  obtain ⟨_, moved⟩ := State.predict_eq es 576 s
  obtain ⟨ts, scaled⟩ := State.scaleGrants_eq k 576 (s.predict es 576)
  rw [State.granted, scaled, moved]
  split
  · exact ⟨ts, _, rfl⟩
  · exact ⟨ts, s.stat, rfl⟩

theorem State.tile_granted (es : List (Nat × Nat)) (k : Rat) (s : State) {u : Nat} (hu : u < 576) : (s.granted es k).tile u =
    { s.predicted es u with grant := (s.predicted es u).grant * k * s.halved u } := by
  obtain ⟨ts, moved⟩ := State.predict_eq es 576 s
  have halved : (s.predict es 576).halved u = s.halved u := by rw [moved]; rfl
  have scaled : ((s.predict es 576).scaleGrants k 576).tile u =
      { s.predicted es u with grant := (s.predicted es u).grant * k * s.halved u } := by
    rw [State.tile_scaleGrants, if_pos hu, halved, State.tile_predict, if_pos hu]
  have counted (z : State) : (z.bump 0xA038 1).tile u = z.tile u := rfl
  unfold State.granted
  split
  · rw [counted, scaled]
  · exact scaled

/-- The scale of the grants is at most 1. -/
theorem scaleOf_le_one (x sum : Rat) : scaleOf (ratMax 0 x) sum ≤ 1 := by
  have nonneg : 0 ≤ ratMax 0 x := by
    unfold ratMax
    split
    · assumption
    · exact le_rfl
  unfold scaleOf
  split
  · exact le_rfl
  · next above =>
    have positive : ratMax 0 x < sum := not_le.mp fun h => above (Or.inl h)
    exact (div_le_one (nonneg.trans_lt positive)).mpr positive.le

/-- The energy of a window. -/
def windowEnergy (es : List (Nat × Nat)) (fixed : Nat) : Nat := fixed + sumNat ((List.range 576).map (energyOf es))

/-- The window that starts, before its grants, under a hold. -/
def State.opened (s : State) (e fixed hold : Nat) : State :=
  { s.afterWindow e fixed with power := { (s.afterWindow e fixed).power with hold := hold } }

section
variable {s : State} {e fixed hold : Nat}

theorem State.opened_kept : (s.opened e fixed hold).cfg = s.cfg ∧ (s.opened e fixed hold).tiles = s.tiles ∧
    (s.opened e fixed hold).mem = s.mem ∧ (s.opened e fixed hold).jobs = s.jobs := by
  obtain ⟨_, _, _, window⟩ := s.afterWindow_logged e fixed
  rw [State.opened, window]
  exact ⟨rfl, rfl, rfl, rfl⟩

theorem State.opened_past : (s.opened e fixed hold).power.past = (e :: s.power.past).take 99999 := by
  rw [State.opened, ← s.afterWindow_past e fixed]

theorem State.opened_fixed : (s.opened e fixed hold).power.fixed = (fixed :: s.power.fixed).take 100 := by
  rw [State.opened, ← s.afterWindow_fixed e fixed]

theorem State.halved_opened (u : Nat) : (s.opened e fixed hold).halved u = 1 / 2 ^ Sp.get 0 s.power.halvings (u / 144) := by
  rw [State.halved, State.opened, ← s.afterWindow_halvings e fixed]

theorem State.predicted_opened (es : List (Nat × Nat)) (u : Nat) : (s.opened e fixed hold).predicted es u = s.predicted es u := by
  obtain ⟨cfg, tiles, -, -⟩ := State.opened_kept (s := s) (e := e) (fixed := fixed) (hold := hold)
  exact State.predicted_congr es cfg (congrArg (Sp.get TileState.start · u) tiles)

end

/-- MONARCH_WINDOW grants the window that starts, its grants scaled by at most 1. -/
theorem exec_monarchWindow_eq {s : State} (alive : s.alive = true) (es : List (Nat × Nat)) (fixed : Nat) : ∃ k ≤ 1, ∃ hold,
    exec (.monarchWindow es fixed) s = .next ((s.opened (windowEnergy es fixed) fixed hold).granted es k) := by
  change ∃ k ≤ 1, ∃ hold, execMonarchWindow es fixed s = _
  rw [execMonarchWindow, if_neg (by simp [alive]), ← windowEnergy]
  generalize windowEnergy es fixed = e
  extract_lets e' s1 c p s2 noon k s3
  refine ⟨k, scaleOf_le_one _ _, c.2, ?_⟩
  obtain ⟨z, moved, opened⟩ : ∃ z, s2 = z.predict es 576 ∧ { s1 with power := { p with hold := c.2 } } = z := by
    refine ⟨_, rfl, ?_⟩
    rfl
  have scaled : s3 = s2.scaleGrants k 576 := rfl
  have source : p = s1.power := rfl
  have window : s1 = s.afterWindow e fixed := rfl
  clear_value s3 k noon s2 p c s1
  subst source window
  rw [scaled, moved, ← opened, State.granted, State.opened]

theorem exec_monarchWindow_grants {s : State} (alive : s.alive = true) (es : List (Nat × Nat)) (fixed : Nat) :
    leads (exec (.monarchWindow es fixed) s) fun s' =>
      let e := fixed + sumNat ((List.range 576).map (energyOf es))
      s'.power.past = (e :: s.power.past).take 99999 ∧ s'.power.fixed = (fixed :: s.power.fixed).take 100 ∧ s'.mem = s.mem ∧ s'.jobs = s.jobs ∧
      ∃ k : Rat, k ≤ 1 ∧ ∀ u, u < 576 →
        let ew := s.ewmaOf u + (energyOf es u - s.ewmaOf u) / 16
        (s'.tile u).ewma = some ew ∧ (s'.tile u).stopped = false ∧
        (s'.tile u).grant = demand ew (energyOf es u) (s.tile u).stopped * k * (1 / 2 ^ Sp.get 0 s.power.halvings (u / 144)) := by
  obtain ⟨k, least, hold, runs⟩ := exec_monarchWindow_eq alive es fixed
  obtain ⟨-, -, mem, jobs⟩ := State.opened_kept (s := s) (e := windowEnergy es fixed) (fixed := fixed) (hold := hold)
  obtain ⟨_, _, granted⟩ := (s.opened (windowEnergy es fixed) fixed hold).granted_eq es k
  refine ⟨_, runs, ?_⟩
  rw [← windowEnergy]
  dsimp only
  refine ⟨?_, ?_, ?_, ?_, k, least, fun u hu => ?_⟩
  · rw [granted, ← s.opened_past]
  · rw [granted, ← s.opened_fixed]
  · rw [granted, ← mem]
  · rw [granted, ← jobs]
  · rw [State.tile_granted es k _ hu, State.predicted_opened, State.halved_opened]
    exact ⟨rfl, rfl, rfl⟩

end Sys2Proof.Machine
end

section
/-!
Stops, supplies and heat (R350, R352, R353), the blades (R370, R458, R466) and the LATE timer (R361).
-/
namespace Sys2Proof.Machine

set_option Elab.async false

/-! ### Stops (R350) -/

section
variable {s : State} {t : TileId}

theorem exec_grantExhausted_stops (runs : (s.tile t.val).noon.isSome = true) (resumed : (s.tile t.val).suspended = false)
    (noVesper : (s.tile t.val).vesper = none) (goes : (s.tile t.val).stopped = false) : exec (.grantExhausted t) s =
    .next { s.setTile t.val { s.tile t.val with stopped := true } with power := { s.power with throttledAt := s.now + 1 } } := by
  have noon : (s.tile t.val).noon.isNone = false := by rw [Option.isNone_eq_false_iff, runs]
  change execGrantExhausted t s = _
  simp only [execGrantExhausted, noon, resumed, noVesper, goes, Option.isSome_none, Bool.or_self, Bool.false_eq_true, if_false]

theorem exec_grantExhausted_vesper (runs : (s.tile t.val).vesper.isSome = true) : exec (.grantExhausted t) s = .next s := by
  change execGrantExhausted t s = _
  simp only [execGrantExhausted, runs, Bool.or_true, Bool.true_or, if_true]

end

/-! ### Supplies and heat (R352, R353) -/

section
variable {s : State} {d : DieId} (alive : s.alive = true)

/-- A supply that is in regulation again. -/
def State.regulated (s : State) (d : Nat) : State := { s with power := { s.power with under := Sp.put false s.power.under d false } }

theorem State.supply_setSupply (s : State) (d mv : Nat) : (s.setSupply d mv).supply d = mv := Sp.get_put_self _ _ _

include alive

theorem exec_supplyStep_moves : leads (exec (.supplyStep d) s) fun s' => Sp.get false s'.power.under d.val = false ∧
    let f := countIf id (Sp.get [] s.power.stops d.val)
    s'.supply d.val = if s.dieHot d.val then s.supply d.val else if 10 < f then max 540 (s.supply d.val - 5)
      else if f < 1 then min 660 (s.supply d.val + 5) else s.supply d.val := by
  have inRange : Sp.get false (s.regulated d.val).power.under d.val = false := Sp.get_put_self s.power.under d.val false
  have hot : (s.regulated d.val).dieHot d.val = s.dieHot d.val := rfl
  have stood : (s.regulated d.val).supply d.val = s.supply d.val := rfl
  have runs : (s.regulated d.val).alive = true := alive
  change leads (execSupplyStep d s) _
  rw [execSupplyStep, ← State.regulated]
  dsimp only
  rw [if_neg (by simp [runs]), hot, stood]
  split
  · exact ⟨_, rfl, inRange, stood⟩
  · split
    · next many => exact ⟨_, rfl, inRange, (State.supply_setSupply _ _ _).trans (if_pos many).symm⟩
    · next few =>
      split
      · next none => exact ⟨_, rfl, inRange, (State.supply_setSupply _ _ _).trans ((if_neg few).trans (if_pos none)).symm⟩
      · next some => exact ⟨_, rfl, inRange, stood.trans ((if_neg few).trans (if_neg some)).symm⟩

theorem exec_heatGrantHalve_halves (hot : s.dieHot d.val = true) (lowest : s.supply d.val = 540) :
    leads (exec (.heatGrantHalve d) s) fun s' =>
      Sp.get 0 s'.power.halvings d.val = Sp.get 0 s.power.halvings d.val + 1 ∧ s'.tiles = s.tiles ∧ s'.mem = s.mem := by
  change leads (execHeatGrantHalve d s) _
  rw [execHeatGrantHalve, if_pos (by simp [alive, hot, lowest])]
  exact ⟨_, rfl, Sp.get_put_self s.power.halvings d.val (Sp.get 0 s.power.halvings d.val + 1), rfl, rfl⟩

omit alive

/-! #### Readings of a die (R353) -/

/-- The state once a die's reading has been kept. -/
def State.sensed (s : State) (d x : Nat) : State :=
  { s with power := { s.power with
      temp := Sp.put 0 s.power.temp d x, tempMax := Sp.put 0 s.power.tempMax d (max (Sp.get 0 s.power.tempMax d) x) } }

theorem State.dieHot_sensed (s : State) (d x : Nat) :
    (s.sensed d x).dieHot d = (decide (101 ≤ x) || s.mem.temp.any fun x => x.1 / 6 == d && decide (93 ≤ x.2)) := by
  rw [State.dieHot, State.sensed, Sp.get_put_self]

/-- What the heat rule makes of a reading. -/
def State.heated (s : State) (d : Nat) : State :=
  if s.dieHot d then s.setSupply d (max 540 (s.supply d - 10))
  else { s with power := { s.power with halvings := Sp.put 0 s.power.halvings d 0 } }

/-- The timer of the hold writes nothing but the hold. -/
theorem State.coolTimer_eq (s : State) : ∃ h c, s.coolTimer = { s with power := { s.power with heatHold := h, coolSince := c } } := by
  unfold State.coolTimer
  dsimp only
  split
  · exact ⟨s.power.heatHold, 0, rfl⟩
  · split
    · exact ⟨s.power.heatHold, s.now + 1, rfl⟩
    · split
      · exact ⟨false, s.power.coolSince, rfl⟩
      · exact ⟨s.power.heatHold, s.power.coolSince, rfl⟩

/-- The readings and the supply after a reading, whatever of the hold follows. -/
theorem State.reading_kept (s : State) (d x : Nat) : let z := (s.sensed d x).heated d
    Sp.get 0 z.power.temp d = x ∧ Sp.get 0 z.power.tempMax d = max (Sp.get 0 s.power.tempMax d) x ∧
      ((s.sensed d x).dieHot d = true → z.supply d = max 540 (s.supply d - 10)) ∧
      ((s.sensed d x).dieHot d = false → z.supply d = s.supply d) ∧ z.mem = s.mem ∧ z.tiles = s.tiles ∧ z.pkgs = s.pkgs := by
  have temp : Sp.get 0 (s.sensed d x).power.temp d = x := Sp.get_put_self _ _ _
  have tempMax : Sp.get 0 (s.sensed d x).power.tempMax d = max (Sp.get 0 s.power.tempMax d) x := Sp.get_put_self _ _ _
  unfold State.heated
  split
  · next hot => exact ⟨temp, tempMax, fun _ => State.supply_setSupply _ _ _, fun cool => absurd hot (by simp [cool]), rfl, rfl, rfl⟩
  · next cool => exact ⟨temp, tempMax, fun hot => absurd hot cool, fun _ => rfl, rfl, rfl, rfl⟩

theorem exec_logicSensorRead_eq (alive : s.alive = true) (temp : Celsius) : exec (.logicSensorRead d temp) s =
    let z := ((s.sensed d.val (shown temp)).heated d.val).coolTimer
    let held := { z with power := { z.power with heatHold := true } }.logEvent 0xA101 none (0, 0)
    .next (if 106 ≤ temp then held.abandonAll 0xA101 0x3FF true held.running else z) := by
  change execLogicSensorRead d temp s = _
  rw [execLogicSensorRead, if_neg (by simp [alive])]
  dsimp only
  split <;> rfl

theorem exec_logicSensorRead_reads (alive : s.alive = true) (temp : Celsius) :
    let hot := decide (101 ≤ shown temp) || s.mem.temp.any fun x => x.1 / 6 == d.val && decide (93 ≤ x.2)
    leads (exec (.logicSensorRead d temp) s) fun s' =>
      Sp.get 0 s'.power.temp d.val = shown temp ∧ Sp.get 0 s'.power.tempMax d.val = max (Sp.get 0 s.power.tempMax d.val) (shown temp) ∧
      (hot = true → s'.supply d.val = max 540 (s.supply d.val - 10)) ∧ (hot = false → s'.supply d.val = s.supply d.val) ∧
      (106 ≤ temp → s'.power.heatHold = true) ∧ (temp < 106 → s'.mem = s.mem ∧ s'.tiles = s.tiles ∧ s'.pkgs = s.pkgs) := by
  have kept := s.reading_kept d.val (shown temp)
  rw [State.dieHot_sensed] at kept
  obtain ⟨hold, since, timed⟩ := ((s.sensed d.val (shown temp)).heated d.val).coolTimer_eq
  rw [exec_logicSensorRead_eq alive, timed]
  generalize (s.sensed d.val (shown temp)).heated d.val = z at kept
  obtain ⟨reading, highest, falls, stays, rest⟩ := kept
  refine ⟨_, rfl, ?_⟩
  dsimp only
  split
  · next beyond =>
    generalize hy : State.abandonAll _ _ _ _ _ = y
    have electric : y.electric = State.electric { z with power := { z.power with heatHold := true, coolSince := since } } := by
      rw [← hy, State.electric_abandonAll, State.electric_logEvent]
    refine ⟨?_, ?_, fun hot => ?_, fun cool => ?_, fun _ => ?_, fun below => ?_⟩
    · exact (State.power_of_electric electric (fun p => Sp.get 0 p.temp d.val) fun _ _ => rfl).trans reading
    · exact (State.power_of_electric electric (fun p => Sp.get 0 p.tempMax d.val) fun _ _ => rfl).trans highest
    · exact (State.supply_of_electric electric d.val).trans (falls hot)
    · exact (State.supply_of_electric electric d.val).trans (stays cool)
    · exact State.power_of_electric electric (fun p => p.heatHold) fun _ _ => rfl
    · exact absurd beyond (Int.not_le.mpr below)
  · next below => exact ⟨reading, highest, falls, stays, fun beyond => absurd beyond below, fun _ => rest⟩

/-! #### A supply out of regulation (R352, R370, R479) -/

/-- A die's supply is out of regulation. -/
def State.fallen (s : State) (d : Nat) : State := { s with power := { s.power with under := Sp.put false s.power.under d true } }

theorem State.pwrOk_fallen (s : State) (d : Nat) : (s.fallen d).pwrOk = false := by
  have noted : (Sp.put false s.power.under d true).isEmpty = false := by
    rw [List.isEmpty_eq_false_iff]
    intro empty
    have read : Sp.get false (Sp.put false s.power.under d true) d = true := Sp.get_put_self _ _ _
    rw [empty] at read
    cases read
  change (s.start.rails && s.start.input && (Sp.put false s.power.under d true).isEmpty) = false
  rw [noted, Bool.and_false]

theorem exec_supplyUnder_abandons (alive : s.alive = true) : leads (exec (.supplyUnder d) s) fun s' =>
    s'.pwrOk = false ∧ s'.supply d.val = s.supply d.val ∧ (∀ tag ∈ s.workOnDie d.val, s'.pkg? tag = none) ∧
      (s.workOnDie d.val = [] →
        s' = { s with power := { s.power with under := Sp.put false s.power.under d.val true } }.logEvent 0xA102 none (0, 0)) := by
  change leads (execSupplyUnder d s) _
  rw [execSupplyUnder, if_neg (by simp [alive])]
  dsimp only
  refine ⟨_, rfl, ?_, ?_, fun tag held => State.pkg?_abandonAll _ held, fun idle => by rw [idle]; rfl⟩
  all_goals
    generalize hy : State.abandonAll _ _ _ _ _ = y
    have electric : y.electric = (s.fallen d.val).electric := by
      rw [← hy, State.electric_abandonAll, State.electric_logEvent, State.fallen]
  · exact (State.pwrOk_of_electric electric).trans (s.pwrOk_fallen d.val)
  · exact State.supply_of_electric electric d.val

end

/-- In a module that does not run none of these changes anything (R456). -/
theorem exec_monarch_off {s : State} (off : s.alive = false) (d : DieId) (es : List (Nat × Nat)) (fixed : Nat) (temp : Celsius) :
    exec (.monarchWindow es fixed) s = .next s ∧ exec (.supplyStep d) s = .next s ∧ exec (.logicSensorRead d temp) s = .next s ∧
      exec (.heatGrantHalve d) s = .next s ∧ exec (.supplyUnder d) s = .next s := by
  have stands : (!s.alive) = true := by rw [off, Bool.not_false]
  exact ⟨if_pos stands, if_pos stands, if_pos stands, if_neg (by simp [off]), if_pos stands⟩

/-! ### Blades (R370, R458, R466) -/

section
variable {s : State}

/-- A log record that is no hardware failure leaves the power state alone (R360, R362). -/
theorem State.power_logAs {kind code : Nat} (benign : isFailure kind code = false) (job : Option (BitVec 16)) (detail : W64 × W64) (s : State) :
    (s.logAs kind code job detail).power = s.power := by
  simp only [State.logAs, benign, Bool.false_eq_true, if_false]
  split
  · rfl
  · split <;> rfl

theorem exec_inputOutOfRange_off (off : s.start.phase = .off) (r : VoltReading) :
    exec (.inputOutOfRange r) s = .next { s with start := { s.start with input := voltsOk r.volts } } := by
  change execInputOutOfRange r s = _
  rw [execInputOutOfRange]
  exact if_pos off

/-- The state once a reading of the blade voltage has been kept. -/
def State.voltsRead (s : State) (volts : Nat) (lasted : Bool) : State :=
  { s with start := { s.start with input := voltsOk volts },
           power := { s.power with volts := volts, inputBad := !voltsOk volts && (lasted || s.power.inputBad) } }

theorem State.pwrOk_voltsRead (s : State) (volts : Nat) (lasted : Bool) : (s.voltsRead volts lasted).pwrOk = true ↔
    s.start.rails = true ∧ voltsOk volts = true ∧ s.power.under = [] := by
  change (s.start.rails && voltsOk volts && s.power.under.isEmpty) = true ↔ _
  rw [Bool.and_eq_true, Bool.and_eq_true, List.isEmpty_iff, and_assoc]

theorem exec_inputOutOfRange_on (on : s.start.phase ≠ .off) (volts : Nat) (lasted : Bool) :
    exec (.inputOutOfRange ⟨volts, lasted⟩) s = .next (if voltsOk volts || !lasted then s.voltsRead volts lasted
      else ((s.voltsRead volts lasted).logEvent 0xA103 none (0, 0)).abandonAll 0xA103 0x3FF true s.running) := by
  change execInputOutOfRange ⟨volts, lasted⟩ s = _
  rw [execInputOutOfRange]
  exact if_neg on

theorem exec_inputOutOfRange_reads (on : s.start.phase ≠ .off) (volts : Nat) (lasted : Bool) :
    leads (exec (.inputOutOfRange ⟨volts, lasted⟩) s) fun s' => s'.power.volts = volts ∧
      s'.power.inputBad = (!voltsOk volts && (lasted || s.power.inputBad)) ∧
      (s'.pwrOk = true ↔ s.start.rails = true ∧ voltsOk volts = true ∧ s.power.under = []) ∧
      (voltsOk volts = true ∨ lasted = false → s'.log = s.log ∧ s'.tiles = s.tiles ∧ s'.mem = s.mem ∧ s'.pkgs = s.pkgs) ∧
      (voltsOk volts = false → lasted = true → (∀ tag ∈ s.running, s'.pkg? tag = none) ∧ (s.running = [] →
        ∃ s1 : State, s1.log = s.log ∧ s' = s1.logEvent 0xA103 none (0, 0))) := by
  refine ⟨_, exec_inputOutOfRange_on on volts lasted, ?_⟩
  split
  · next fine =>
    refine ⟨rfl, rfl, s.pwrOk_voltsRead volts lasted, fun _ => ⟨rfl, rfl, rfl, rfl⟩, fun bad long => ?_⟩
    rw [bad, long] at fine
    cases fine
  · next bad =>
    have electric : (((s.voltsRead volts lasted).logEvent 0xA103 none (0, 0)).abandonAll 0xA103 0x3FF true s.running).electric =
        (s.voltsRead volts lasted).electric := by
      rw [State.electric_abandonAll, State.electric_logEvent]
    refine ⟨State.power_of_electric electric (·.volts) fun _ _ => rfl, State.power_of_electric electric (·.inputBad) fun _ _ => rfl, ?_,
      fun fine => absurd ?_ bad, fun _ _ => ⟨fun tag held => State.pkg?_abandonAll _ held, fun idle => ⟨s.voltsRead volts lasted, rfl, ?_⟩⟩⟩
    · rw [State.pwrOk_of_electric electric, State.pwrOk_voltsRead]
    · rcases fine with fine | fine <;> simp [fine]
    · rw [idle]
      rfl

theorem exec_bladeSense_keeps (on : s.start.phase ≠ .off) (a b : Nat) :
    exec (.bladeSense a b) s = .next { s with power := { s.power with blade := (a, b) } } :=
  if_neg on

section
variable {pair : Fin 2}

theorem PowerState.isLost_setLost (p : PowerState) (pair : Fin 2) (x : Bool) : (p.setLost pair x).isLost pair = x := by
  rcases pair with ⟨_ | _ | _, h⟩
  · rfl
  · rfl
  · omega

theorem PowerState.isLost_setLost_ne (p : PowerState) {pair k : Fin 2} (other : k ≠ pair) (x : Bool) :
    (p.setLost pair x).isLost k = p.isLost k := by
  unfold PowerState.isLost PowerState.setLost
  by_cases first : pair = 0
  · rw [if_pos first, if_neg (first ▸ other), if_neg (first ▸ other)]
  · have zero : k = 0 := by omega
    rw [if_neg first, if_pos zero, if_pos zero]

theorem exec_bladePairLost_loses (on : s.start.phase ≠ .off) (little : s.power.pair pair * 20 < s.power.blade.1 + s.power.blade.2)
    (much : 50 < s.power.blade.1 + s.power.blade.2) (stood : s.power.isLost pair = false) :
    leads (exec (.bladePairLost pair) s) fun s' => s'.power = s.power.setLost pair true ∧
      s'.power.isLost pair = true ∧ (∀ k, k ≠ pair → s'.power.isLost k = s.power.isLost k) ∧ s'.health.points = s.health.points + 25 := by
  have loses : exec (.bladePairLost pair) s =
      .next ((State.logEvent { s with power := s.power.setLost pair true } 0xA105 none (0, 0)).points 25) := by
    change execBladePairLost pair s = _
    rw [execBladePairLost]
    exact if_pos ⟨on, little, much, by rw [stood]; rfl⟩
  refine ⟨_, loses, ?_⟩
  have power : (({ s with power := s.power.setLost pair true } : State).logEvent 0xA105 none (0, 0)).power = s.power.setLost pair true :=
    State.power_logAs (by decide) none (0, 0) { s with power := s.power.setLost pair true }
  have health : (({ s with power := s.power.setLost pair true } : State).logEvent 0xA105 none (0, 0)).health = s.health :=
    (State.logEvent_logged _ _ _ _).health
  refine ⟨power, ?_, fun k other => ?_, congrArg (·.points + 25) health⟩
  · exact (congrArg (·.isLost pair) power).trans (s.power.isLost_setLost pair true)
  · exact (congrArg (·.isLost k) power).trans (s.power.isLost_setLost_ne other true)

theorem exec_bladePairRestored_restores (lost : s.power.isLost pair = true)
    (share : (s.power.blade.1 + s.power.blade.2) * 40 ≤ s.power.pair pair * 100) :
    exec (.bladePairRestored pair) s = .next { s with power := s.power.setLost pair false } :=
  if_pos ⟨lost, share⟩

end

end

/-! ### The LATE timer (R361, R362) -/

section
variable {s : State} {tag : Nat} {p : Pkg}

/-- A LATE notice marks its package and is counted. -/
theorem State.sendLate_told (found : s.pkg? tag = some p) (vesper : p.vesper = true) (early : p.late = false) (cause fault : Nat) :
    (s.sendLate tag cause fault).pkg? tag = some { p with late := true } ∧
      (s.sendLate tag cause fault).word 0xA118 = s.word 0xA118 + 1 := by
  have marked : (s.updPkg tag fun p => { p with late := true }).pkg? tag = some { p with late := true } := by
    rw [State.pkg?_updPkg s tag (f := fun p => { p with late := true }) fun _ => rfl, found]
    rfl
  have counted : ((s.updPkg tag fun p => { p with late := true }).bump 0xA118 1).word 0xA118 = s.word 0xA118 + 1 := State.word_bump_self _ _ _
  unfold State.sendLate
  rw [found]
  dsimp only
  rw [if_neg (by simp [vesper, early])]
  generalize hz : State.noticeHost _ _ _ _ _ _ = z
  have sent : z.pkg? tag = some { p with late := true } ∧ z.word 0xA118 = s.word 0xA118 + 1 := by
    rw [← hz, State.late_of_aloof (State.aloof_noticeHost _ _ _ _ _ _)]
    refine ⟨?_, counted⟩
    rw [State.pkg?, State.pkgs_of_core (State.core_noticeHost _ _ _ _ _ _)]
    exact marked
  split
  · split
    · exact sent
    · rw [State.late_of_aloof (State.aloof_fabricNotice _ _ _ _ _ _), State.pkg?, State.pkgs_of_core (State.core_fabricNotice _ _ _ _ _ _)]
      exact sent
  · exact sent

theorem exec_lateTimer_late (found : s.pkg? tag = some p) (late : p.late = true) : exec (.lateTimer tag) s = .next s := by
  change execLateTimer tag s = _
  simp only [execLateTimer, found, late, Bool.or_true, Bool.true_or, if_true]

theorem exec_lateTimer_tells (found : s.pkg? tag = some p) (vesper : p.vesper = true) (early : p.late = false) (due : s.lateDue p = true) :
    leads (exec (.lateTimer tag) s) fun s' => (∃ q, s'.pkg? tag = some q ∧ q.late = true ∧ q.vesper = true) ∧
      s'.word 0xA118 = s.word 0xA118 + 1 ∧ exec (.lateTimer tag) s' = .next s' := by
  change leads (execLateTimer tag s) _
  rw [execLateTimer, found]
  dsimp only
  rw [if_neg (by simp [vesper, early, due])]
  generalize hz : (if (s.lateCause p).2 = 0xA301 then _ else s.drawn) = z
  have noted : z.pkg? tag = some p ∧ z.word 0xA118 = s.word 0xA118 := by
    subst hz
    split
    · rw [State.late_of_aloof (State.aloof_logEvent _ _ _ _), State.pkg?, State.pkgs_of_core (State.core_logEvent _ _ _ _)]
      exact ⟨found, rfl⟩
    · exact ⟨found, rfl⟩
  obtain ⟨held, count⟩ := noted
  obtain ⟨marked, counted⟩ := State.sendLate_told held vesper early (s.lateCause p).1 (s.lateCause p).2
  exact ⟨_, rfl, ⟨_, marked, rfl, vesper⟩, counted.trans (congrArg (· + 1) count), exec_lateTimer_late marked rfl⟩

end

end Sys2Proof.Machine
end

section
/-!
The obligations of power, arbitration, hosts, flash and start, settled.
-/
open Sys2Proof Sys2Proof.Machine

set_option Elab.async false

/-- Settles O60, by the equations of each command and the two sides of a crossing. -/
theorem flashLogAndStart : Obligations.FlashLogAndStart := by
  unfold Obligations.FlashLogAndStart
  refine ⟨fun s => ⟨?_, ?_, ?_, ?_, ?_⟩, fun s p => ⟨?_, ?_, ?_, ?_⟩, fun n x item => ⟨?_, ?_, ?_, ?_⟩⟩
  · intro g x rest staged oldest
    exact ⟨exec_flashOpComplete_failed staged oldest, exec_flashOpComplete_erased staged oldest,
      exec_flashOpComplete_programmed staged oldest⟩
  · exact fun r rs => exec_logWrite_moves
  · exact fun q => exec_logReplayAdvance_shown
  · exact fun row h => exec_startRowOverrun_row h s
  · exact fun rx => ⟨exec_crossingStall_service rx, exec_crossingStall_timer rx, fun n => exec_crossingStall_channel rx,
      fun n => exec_crossingStall_port rx, fun g x rest => exec_crossingStall_flash rx, fun n => exec_crossingStall_stopped rx⟩
  · exact exec_powerOn_starts
  · exact exec_ready_starts
  · exact ⟨_, rfl, rfl, rfl, rfl, rfl, rfl, rfl, rfl, rfl, rfl, rfl⟩
  · intro on
    exact ⟨⟨_, exec_moduleReset_halts on, rfl, rfl, rfl, rfl, rfl, rfl, rfl, rfl, rfl, rfl⟩,
      ⟨_, exec_watchdogReset_halts on, rfl, rfl, rfl, rfl, rfl, rfl, rfl, rfl, rfl, rfl⟩⟩
  · exact Crossing.give_none_iff.mpr
  · exact Crossing.give_of_free item
  · exact Crossing.receive_none_iff.mpr
  · exact Crossing.receive_of_full

/-- Settles O56: each clause is the equation of one operation of the arbiters, and the first request is least in their order. -/
theorem arbiterServes : Obligations.ArbiterServes := by
  intro s arb rank who has on
  dsimp only
  rw [← rankFor_eq]
  have one : exec (.arbiterRequest arb rank who 1) s = .next (s.arbAsk arb.val (rankFor arb.val who rank) who) :=
    exec_arbiterRequest_eq has on rank 1
  refine ⟨fun idle empty => ⟨_, one, State.arbAsk_idle _ who idle empty⟩, fun w first => ?asked, fun n => ⟨_, one, ?_⟩, fun x first => ?_,
    fun empty => ⟨_, exec_arbiterGrant_frees on empty, ?_, rfl⟩, fun z b x => ⟨?_, fun idle => ?_, fun h held room => ?_, rfl, rfl⟩,
    fun z h w held first => ⟨State.arbSettle_stands held first, fun revokes => ?_⟩, fun x y => Arbiter.before_iff, Arbiter.length_park _⟩
  case asked =>
    obtain ⟨mem, least⟩ := Arbiter.first_least first
    refine ⟨mem, least, fun h held => by rw [Arbiter.wins, held], fun idle => by rw [Arbiter.wins, idle], fun waits room => ⟨_, one, ?_⟩,
      fun wins => ⟨_, one, State.arb_arbAsk_wins _ who first wins⟩⟩
    obtain ⟨written, others⟩ := State.arb_arbAsk_waits _ who first waits room
    exact ⟨(congrArg Arbiter.holder written :), (congrArg Arbiter.queue written :), others⟩
  · exact (exec_arbiterRequest_eq has on rank (n + 1)).trans (exec_arbiterRequest_eq has (by rwa [State.start_arbAsk]) rank n).symm
  · obtain ⟨mem, least⟩ := Arbiter.first_least first
    exact ⟨mem, least, exec_arbiterGrant_passes on first⟩
  · exact congrArg Arbiter.holder (State.arb_setArb_self s arb.val _)
  · rw [State.arb_arbGive, Arbiter.holder_give]
  · rw [State.arb_arbGive, Arbiter.queue_give, Arbiter.freed_idle idle]
  · rw [State.arb_arbGive, Arbiter.queue_give, Arbiter.freed_held held room]
  · rw [State.arbSettle_revokes held first revokes, State.arb_arbGive, Arbiter.holder_give]

/-- Settles O57: each clause is the equation of one command. -/
theorem connectionsLive : Obligations.ConnectionsLive := by
  refine fun s h c => ⟨fun role eph key nonce sig first t => ?_, exec_khtAck_sound, fun u seq => exec_khtRetransmit_unheard,
    exec_khtIdleTimeout_idle, exec_khtIdleAck_idle, exec_openPendingExpiry_expires s⟩
  rw [exec_openConn_taken first t, State.openArrives_arrived]

/-- Settles O58: a message that is due takes its effect once, and what the form of its payload asks holds. -/
theorem hostMessages : Obligations.HostMessages := by
  refine ⟨fun s h c c1 job => ⟨fun d => onDatagram_due d, fun pid off total data low high least most d => ?_, fun pid d => onDatagram_due d,
      fun a data low high d => ?_, fun a n low high d => ?_, fun kind n w1 inc d => ?_, fun off n aligned low high fits d => ?_⟩,
    fun s h c c1 job => ⟨fun ch d => onDatagram_due d, fun slot b short ok d => ?blob, fun scope key d => onDatagram_due d,
      fun pw low high d => ?_, fun d => onDatagram_due d, fun key sig d => onDatagram_due d, fun off total data low high within most d => ?_⟩⟩
  case blob =>
    have released : onDatagram h 0x52 (decide (b.length ≤ 8184)) (some (.keyRelease job slot.toNat b)) s =
        .next ((((s.before h c (.keyRelease job slot.toNat b)).keyRelease c.id h.seq job slot.toNat b).sendAck c.id).closeIfDone c.id) :=
      onDatagram_due_of_form d (decide_eq_true short)
    refine ⟨fun kind => released.trans ?_, fun kind => released.trans ?_, fun kind => released.trans ?_⟩
    all_goals simp only [State.keyRelease, ok, kind]; rfl
  · exact onDatagram_due_of_form d (decide_eq_true ⟨low, high, least, most⟩)
  · exact onDatagram_due_of_form d (decide_eq_true ⟨low, high⟩)
  · exact onDatagram_due_of_form d (decide_eq_true ⟨low, high⟩)
  · refine onDatagram_due_of_form d ?_
    cases kind
    · rfl
    · exact decide_eq_true (inc rfl)
  · exact onDatagram_due_of_form d (decide_eq_true ⟨aligned, low, high, fits⟩)
  · exact onDatagram_due_of_form d (decide_eq_true ⟨low, high⟩)
  · exact onDatagram_due_of_form d (decide_eq_true ⟨low, high, within, most⟩)

/-- Settles O54, from the grants of a window tile by tile and from what stands as packages are abandoned. -/
theorem monarch : Obligations.Monarch := by
  refine fun s t d es fixed temp => ⟨fun off => exec_monarch_off off d es fixed temp, fun alive => exec_monarchWindow_grants alive es fixed,
    fun runs resumed noVesper goes => ⟨_, exec_grantExhausted_stops runs resumed noVesper goes, ?_, rfl, fun u other => ?_⟩,
    exec_grantExhausted_vesper, exec_supplyStep_moves, fun alive => exec_logicSensorRead_reads alive temp, exec_heatGrantHalve_halves,
    exec_supplyUnder_abandons⟩
  · exact State.tile_setTile_self _ _ _
  · exact State.tile_setTile_ne _ _ other

/-- Settles O55, from the equations of the blades' commands and the state of a package once its LATE notice has gone. -/
theorem bladesAndLateTimer : Obligations.BladesAndLateTimer := fun _ volts a b lasted _ _ =>
  ⟨fun off => exec_inputOutOfRange_off off _, fun on => exec_inputOutOfRange_reads on volts lasted,
    fun on => ⟨_, exec_bladeSense_keeps on a b, rfl⟩, exec_bladePairLost_loses, exec_bladePairRestored_restores,
    fun _ found vesper => ⟨fun early due => exec_lateTimer_tells found vesper early due, exec_lateTimer_late found⟩⟩

end
